-- ==== Sys2Proof/Kinds.lean ====
section
/-! DEFINITION. Sys2Proof/Kinds.lean: the kinds of thing a command may name. -/
namespace Sys2Proof

/-- The event rings: the device ring, and the event ring of the context in a resident slot (spec/09 R497). -/
inductive Ring where
  | dev
  | ctx (slot : Nat)
deriving DecidableEq, Repr

/-- The rings that signal a vector (R501): an event ring, or the completion ring of a resident slot. -/
inductive RingSel where
  | evt (r : Ring)
  | cpl (slot : Nat)
deriving DecidableEq, Repr

/-- The twin words that are checked in every cycle (spec/13 R661): the SAFETY section, the CLOCKS section, the command
path of a safety pair, and the deadline entry of the job with a cookie's job number. -/
inductive TwinSite where
  | safetySection
  | clocksSection
  | pairCommand (k : Nat)
  | deadlineEntry (job : Nat)
deriving DecidableEq, Repr

/-- The fields of a vector slot beside its opcode (spec/04 R211): guard, type, destination, sources, saturation, and the
immediate with its enable. -/
structure VSlot where
  g : Nat := 0
  ty : Nat := 0
  vd : Nat := 0
  va : Nat := 0
  vb : Nat := 0
  vc : Nat := 0
  sat : Bool := false
  immb : Bool := false
  imm : Nat := 0
deriving DecidableEq, Repr

/-- The fields of an MST slot (spec/04 R216), as they stand in the slot: STEPS and BATCH are one less than the counts. -/
structure MSlot where
  g : Nat := 0
  mode : Nat := 0
  fmt : Nat := 0
  asgn : Bool := false
  amask : Nat := 0
  acc : Nat := 0
  pls : Nat := 0
  ar : Nat := 0
  wp : Nat := 0
  steps : Nat := 0
  batch : Nat := 0
  arot : Nat := 0
deriving DecidableEq, Repr

/-- The fields of an RSTART or SSTART slot (spec/04 R224, R230). -/
structure RSlot where
  g : Nat := 0
  r : Nat := 0
  prog : Nat := 0
  possh : Nat := 0xF
  base : Nat := 0
  lcen : Bool := false
  lc : Nat := 0
  lcsh : Nat := 0
deriving DecidableEq, Repr

/-- The fields of a VLD or VST slot (spec/04 R227, R234): the register, ADDR, and the counter with its stride code. -/
structure VMem where
  g : Nat := 0
  v : Nat := 0
  addr : Nat := 0
  lcen : Bool := false
  lc : Nat := 0
  stride : Nat := 0
deriving DecidableEq, Repr

/-- The slots of a bundle (spec/04 R198), in order. -/
inductive SlotPos where
  | scalar
  | vector
  | matrix
  | load
  | store
  | sync
deriving DecidableEq, Repr

/-- What a slot of a bundle says (spec/04 R208, R211, R216, R224, R230, R237). A field holds the number that stands in
the slot. -/
inductive SlotOp where
  | nop (p : SlotPos)
  | setc (lc imm : Nat)
  | incc (lc imm : Nat)
  | decc (lc imm : Nat)
  | loop (lc target : Nat)
  | cmpset (k lca cond : Nat) (refsel : Bool) (lcb imm : Nat)
  | pset (k : Nat) (val : Bool)
  | jmp (target : Nat)
  | vec (op : Nat) (v : VSlot)
  | mst (m : MSlot)
  | mpl (m : MSlot)
  | rstart (r : RSlot)
  | rstop (g r : Nat)
  | vld (v : VMem)
  | wset (g w base step bstep : Nat)
  | ppset (g addr : Nat)
  | dsel (g dcd sr : Nat)
  | drn (g amask pls dcd sr : Nat)
  | vst (v : VMem)
  | sstart (r : RSlot)
  | sstop (g r : Nat)
  | bar (g : Nat) (swp : Bool)
  | setf (g gate : Nat) (val : Bool)
  | waitf (g gate : Nat) (val : Bool)
  | evt (g code : Nat)
  | crd (g crop sl drops : Nat)
  | commit (g : Nat) (tile : Bool)
deriving DecidableEq, Repr

/-- The bundle position of a slot. -/
def SlotOp.pos : SlotOp → SlotPos
  | .nop p => p
  | .setc _ _ | .incc _ _ | .decc _ _ | .loop _ _ | .cmpset _ _ _ _ _ _ | .pset _ _ | .jmp _ => .scalar
  | .vec _ _ => .vector
  | .mst _ | .mpl _ => .matrix
  | .rstart _ | .rstop _ _ | .vld _ | .wset _ _ _ _ _ | .ppset _ _ => .load
  | .dsel _ _ _ | .drn _ _ _ _ _ | .vst _ | .sstart _ | .sstop _ _ => .store
  | .bar _ _ | .setf _ _ _ | .waitf _ _ _ | .evt _ _ | .crd _ _ _ _ | .commit _ _ => .sync

/-- The guard field of a slot; a scalar slot and a NOP have none (R198, R200). -/
def SlotOp.guardField : SlotOp → Nat
  | .vec _ v => v.g
  | .mst m | .mpl m => m.g
  | .rstart r | .sstart r => r.g
  | .rstop g _ | .wset g _ _ _ _ | .ppset g _ | .dsel g _ _ | .drn g _ _ _ _ | .sstop g _ => g
  | .vld v | .vst v => v.g
  | .bar g _ | .setf g _ _ | .waitf g _ _ | .evt g _ | .crd g _ _ _ | .commit g _ => g
  | _ => 0

/-- A picture as a decoder makes it (spec/12 R618, R622 to R625): its cropped size, the runs of samples that cannot be
reconstructed (first sample and length, luma rows and then chroma rows, row by row), and whether its own data held an
error or it depends on a lost reference. -/
structure Picture where
  w : Nat
  h : Nat
  spans : List (Nat × Nat) := []
  bitErr : Bool := false
  refLost : Bool := false
deriving DecidableEq, Repr

/-- The levels of the mode pins (spec/16 R772): true for VDD_AON. BOOT_SRC and AVS_ADDR are numbers of two bits. -/
structure ModePins where
  testEn : Bool := false
  legacy : Bool := false
  bootSrc : Nat := 0
  avsAddr : Nat := 0
deriving DecidableEq, Repr

/-- How a port sends an IEEE 1588 message (spec/10 R538): one-step or not, over Layer 2 (0), UDP over IPv4 (1) or UDP over IPv6
(2). -/
structure PtpSend where
  oneStep : Bool := false
  transport : Nat := 0
deriving DecidableEq, Repr

/-- A coded picture (spec/12 R628, R629): the bytes before its first slice, and its slices. -/
structure CodedPicture where
  head : List Byte := []
  slices : List Byte := []
deriving DecidableEq, Repr

/-- A training of the DRAM (spec/14 R719): the part identity that the mode registers report, and whether a channel that failed its
eye check was trained cold once more. -/
structure Training where
  part : Nat := 0
  retrained : Bool := false
deriving DecidableEq, Repr

/-- A copy of the DRAM training store as FWP4 reads it (spec/14 R682, R719): its number, the DRAM part identity that it records,
and the DDR PHY temperature in 0.25 °C. -/
structure TrainCopy where
  seq : Nat
  part : Nat
  temp : Int
deriving DecidableEq, Repr

/-- What the board and the factory have given the device before it starts (log entry 33): the boot flash, the fuses (spec/14
R685, R686, R705; spec/02 R81), the columns that the fuses mark bad (spec/03 R186: bit n of number 4c + a is physical column n of
array a of core c) and the device's identity, the usable DRAM in units of 64 KiB (spec/13 R651), and the grade (spec/00 R5). A blank fuse is
none. -/
structure Board where
  train0 : Option TrainCopy := none
  train1 : Option TrainCopy := none
  flash : List (Nat × Byte) := []
  rootKeyHash : Option Nat := none
  debugKeyHash : Option Nat := none
  sigRequired : Bool := false
  encRequired : Bool := false
  epoch : Nat := 0
  deviceId : Nat := 0
  usable : Nat := 0
  gradeE : Bool := false
  badcol : List Nat := []
deriving DecidableEq, Repr

end Sys2Proof
end

