-- ==== Sys2Proof/Syntax.lean ====
section
/-! DEFINITION. Sys2Proof/Syntax.lean: the commands of the block, one constructor for each row of spec/opcode_table.json, in
the table's order. A command carries what its sender says (the value of a write, the data a pin, a link or a sensor
delivers) and which unit it is for; everything else is in State. -/
namespace Sys2Proof

/-- The commands: register writes of the host and the firmware, operations of the bus and the queues, slots of a
Kallonen bundle, and the happenings at the block's pins, links and engines (log entry 5 says how operands were chosen). -/
inductive Instr where
  /-- SQ_TAIL_WRITE (R482). Your driver writes a queue doorbell with a twin-encoded tail, which latches in the queue or is ignored. -/
  | sqTailWrite (page : Nat) (v : W32)
  /-- DESCRIPTOR_TAKEN (R484). FWP3 moves a latched descriptor into the Weir intake, and that GTS becomes the job's submission GTS. -/
  | descriptorTaken
  /-- CANCEL_WRITE (R488). Your driver writes CANCEL with a twin-encoded ring count, which cancels the named job or is ignored. -/
  | cancelWrite (page : Nat) (v : W32)
  /-- ADMISSION_TEST (R421). The Weir tests the next descriptor in the intake against the demand-bound test and decides it within 20 us. -/
  | admissionTest
  /-- LAYER_DISPATCH (R439). The Weir chooses and dispatches the next ready layer to a Fountain once the previous layer meets its commit conditions or the Fountain is idle. -/
  | layerDispatch (f : Nat)
  /-- LAYER_COMMIT (R35). The Weir commits a layer once every core reached COMMIT, every store is acknowledged and no fault is charged, and releases its held effects. -/
  | layerCommit (f : Nat)
  /-- TILE_COMMIT (R41). The Weir commits one tile of a streaming layer, sets its progress bit and releases its held effects. -/
  | tileCommit (f : Nat)
  /-- DEADLINE_MISS (R60). A pending guaranteed job's deadline GTS arrives before it ends, and the Weir ends it with DEADLINE_BREACH, cause UNEXPLAINED. -/
  | deadlineMiss (job : Nat)
  /-- STOP_TIME_REACHED (R13). A best-effort job's stop time arrives before it ends, and the Weir ends it with PARTIAL. -/
  | stopTimeReached (job : Nat)
  /-- FAULT_CHARGED (R56). A detector charges a fault to a running layer; the Weir stops the Fountain, discards its effects and decides between replay and ending the job. -/
  | faultCharged (e core det unit index : Nat) (input : Bool)
  /-- REPLAY_RESTART (R52). After replay set-up, the replayed layer restarts at its first bundle with a fresh budget. -/
  | replayRestart (e : Nat)
  /-- BUDGET_EXHAUSTED (R67). A layer's cycle count reaches its budget, and the Weir stops it and ends the job with CERT_OVERRUN. -/
  | budgetExhausted (f : Nat)
  /-- SKIMMER_BUDGET_EXHAUSTED (R401). SKIM_CYCLES reaches BOUND minus 64 before a Skimmer layer completes, and the job ends with CERT_OVERRUN. -/
  | skimmerBudgetExhausted
  /-- PHASE_TARGET_CHECK (R564). At least every 256 ns the Weir compares phase targets with positions and ends a job whose target was reached with PHASE_REACHED. -/
  | phaseTargetCheck
  /-- WAITF_TIMEOUT (R416). A guaranteed layer has held at WAITF for 1,000 ns, and its job ends with DEADLINE_BREACH, cause PRODUCER_FAILED. -/
  | waitfTimeout (f : Nat)
  /-- BE_WAITF_PREEMPT (R440). A best-effort layer holding at WAITF while a guaranteed layer is ready is stopped and discarded. -/
  | beWaitfPreempt (f : Nat)
  /-- DEADLOCK_WALK (R454). At each whole microsecond the Weir builds the wait-for graph and ends the youngest WAITF holder of a cycle with FAILED_DEADLOCK. -/
  | deadlockWalk
  /-- MAINT_WINDOW_REQUEST (R427). FWP4 requests a DRAM maintenance window, which becomes pending. -/
  | maintWindowRequest
  /-- MAINT_WINDOW_TEST (R428). The Weir tests a pending window against every Fountain and starts the window if all pass. -/
  | maintWindowTest
  /-- MAINT_WINDOW_END (R429). A maintenance window ends 40,000 ns after it started. -/
  | maintWindowEnd (failCh : Nat)
  /-- PAGE_FILL_START (R309). The Weir starts a DMA Rill filling a Cistern page from DRAM. -/
  | pageFillStart (job dma : Nat)
  /-- PAGE_FILL_DONE (R314). A page fill completes and the page becomes RESIDENT, or POISON on an uncorrectable read. -/
  | pageFillDone (pg : Nat)
  /-- PAGE_WRITEBACK_DONE (R313). A dirty page's writeback to DRAM completes and the page is freed. -/
  | pageWritebackDone (pg : Nat)
  /-- WRITEBACK_DONE (R73). The last dirty page of an ended job reaches DRAM, and the Weir raises WRITEBACK_DONE and frees the job's reservation. -/
  | writebackDone (job : Nat)
  /-- SKIMMER_DISPATCH (R441). The Skimmer takes the next pending Skimmer layer in round-robin order of Fountain. -/
  | skimmerDispatch
  /-- SKIMMER_COMMIT (R363). A Skimmer command finishes, and the layer commits once its outputs and count are acknowledged. -/
  | skimmerCommit
  /-- CTX_LOAD (R477). FWP3 checks a context record and loads it into the lowest free resident slot. -/
  | ctxLoad
  /-- CTX_UNLOAD (R477). FWP3 stores a resident slot back to its record, or refuses with BUSY. -/
  | ctxUnload
  /-- CTX_DESTROY (R479). FWP3 closes a context's doorbells, cancels its jobs and frees its slot, claims and Gates. -/
  | ctxDestroy
  /-- EVENT_RING_WRITE (R525). The Clepsydra writes an event to its ring, in GTS and source order, 512 to 1,024 ns after its GTS. -/
  | eventRingWrite (ring : Ring)
  /-- OVERFLOW (R500). Once 17 or more records are free again, the device writes one OVERFLOW event with the count of drops. -/
  | overflow (ring : Ring)
  /-- INTERRUPT_SIGNAL (R501). A ring's vector is signalled when MOD_US has passed for its oldest unsignalled record or a safety-class event has been written. -/
  | interruptSignal (ring : RingSel)
  /-- CPL_READ_WRITE (R827). Your driver writes the completion records consumed, accepted only within the written count. -/
  | cplReadWrite (slot : Nat) (v : W32)
  /-- EVT_READ_WRITE (R827). Your driver writes the event records consumed, accepted only within the written count. -/
  | evtReadWrite (slot : Nat) (v : W32)
  /-- WEIR_DEVRING_READ_WRITE (R827). Your driver writes the device ring records consumed, accepted only within the written count. -/
  | weirDevringReadWrite (v : W32)
  /-- LCQ_READ_WRITE (R827). In the LPL-3020 profile, your driver writes the completion records consumed. -/
  | lcqReadWrite (v : W32)
  /-- LEQ_READ_WRITE (R827). In the LPL-3020 profile, your driver writes the event records consumed. -/
  | leqReadWrite (v : W32)
  /-- LSQ_TAIL_WRITE (R517). In the LPL-3020 profile, your driver writes the submission tail, encoded as SQ_TAIL. -/
  | lsqTailWrite (v : W32)
  /-- GATE_ACQUIRE (R504). A GATE_CTRL write with OP ACQUIRE makes OWNER the Gate's owner if the Gate is free. -/
  | gateAcquire (g owner : Nat)
  /-- GATE_RELEASE (R506). A GATE_CTRL write with OP RELEASE frees the Gate if OWNER matches, and clears BROKEN. -/
  | gateRelease (g owner : Nat)
  /-- GATE_FLAG (R509). A GATE_CTRL write with OP FLAG sets the Gate's flag to VAL, subject to its twin check. -/
  | gateFlag (g : Nat) (val : Bool) (twinOk : Bool)
  /-- XLATE_INVALIDATE (R466). A write of WEIR_XLATE_INV starts an invalidation of a page range or of every unlocked entry. -/
  | xlateInvalidate (tag : Nat) (v : W32)
  /-- XLATE_INVALIDATE_DONE (R466). An invalidation completes, and WEIR_XLATE_INV.DONE reads 1. -/
  | xlateInvalidateDone
  /-- PIN (R472). A WEIR_PIN write with OP PIN locks every page translation of a PINNED object, or nothing. -/
  | pin (tag : Nat) (v : W32)
  /-- UNPIN (R472). A WEIR_PIN write with OP UNPIN releases an object's locked translations. -/
  | unpin (tag : Nat) (v : W32)
  /-- TOK_TAIL_WRITE (R512). Your driver submits tokeniser requests by writing TOK_TAIL. -/
  | tokTailWrite (v : W32)
  /-- TOKENISER_REQUEST (R611). The tokeniser takes the next request in ring order and emits tokens by longest match. -/
  | tokeniserRequest
  /-- TOKENS_DONE (R513). A tokeniser request ends; the count is written and TOKENS_DONE is raised. -/
  | tokensDone
  /-- PARTERRE_GO (R826). A write of PARTERRE_CTRL.GO starts the checker reading and checking an image, or is ignored during a check. -/
  | parterreGo (tag : Nat) (ctrlOn : List Nat) (v : W32)
  /-- PARTERRE_CHECK (R114). The checker completes its checks of an image and records a failure or stages the values. -/
  | parterreCheck (ctrlOn : List Nat)
  /-- PARTERRE_LOCK (R132). A write of 1 to PARTERRE_CTRL.LOCK sets the lock until reset. -/
  | parterreLock (tag : Nat) (v : W32)
  /-- CLAIM (R136). A PARTERRE_CLAIM_REQ write with OP claim grants a free run-time unit or refuses it. -/
  | claim (v : W32)
  /-- RELEASE (R135). A PARTERRE_CLAIM_REQ write with OP release frees a unit held by the claimant. -/
  | release (v : W32)
  /-- STROBE_CFG_WRITE (R139). The holder of a RUNTIME strobe group writes its trigger in PARTERRE_STROBE_CFG. -/
  | strobeCfgWrite (tag g : Nat) (v : W32)
  /-- BIST_START (R191). A write of CORE_BIST_CTRL.START starts a core retest, or is refused. -/
  | bistStart (core : Nat) (v : W32)
  /-- BIST_DONE (R193). A core self-test completes, updating bypassed columns and the core width. -/
  | bistDone (core fail us : Nat) (bad : List Nat) (basin resv : List (Nat × Byte)) (vreg acc : List (Nat × Nat))
  /-- HOST_IMEM_WRITE (R262). A write of FTN_CTRL.HOST_IMEM admits or ends your driver's writes to the instruction memory. -/
  | hostImemWrite (f : Nat) (v : W32)
  /-- IMEM_WRITE (R256). A write to the instruction memory window writes the inactive bank, or is refused for the active bank. -/
  | imemWrite (f off : Nat) (v : W32)
  /-- SEGMENT_LOADED (R257). The Weir finishes writing a segment into the inactive bank and sets SWAP_PENDING. -/
  | segmentLoaded (f job layer seg : Nat)
  /-- NOP (R200). A NOP slot does nothing. -/
  | nop (f : Nat) (p : SlotPos) (last : Bool)
  /-- SETC (R208). SETC sets a loop counter to an immediate. -/
  | setc (f : Nat) (lc imm : Nat) (last : Bool)
  /-- INCC (R208). INCC adds an immediate to a loop counter modulo 65,536. -/
  | incc (f : Nat) (lc imm : Nat) (last : Bool)
  /-- DECC (R208). DECC subtracts an immediate from a loop counter modulo 65,536. -/
  | decc (f : Nat) (lc imm : Nat) (last : Bool)
  /-- LOOP (R209). LOOP decrements its counter and branches to TARGET while it is not 0. -/
  | loop (f : Nat) (lc target : Nat) (last : Bool)
  /-- CMPSET (R208). CMPSET binds a comparator to a condition that drives its predicate. -/
  | cmpset (f : Nat) (k lca cond : Nat) (refsel : Bool) (lcb imm : Nat) (last : Bool)
  /-- PSET (R208). PSET unbinds a comparator and sets its predicate to a constant. -/
  | pset (f : Nat) (k : Nat) (val : Bool) (last : Bool)
  /-- JMP (R210). JMP fetches the next bundle from TARGET after two idle cycles. -/
  | jmp (f : Nat) (target : Nat) (last : Bool)
  /-- VADD (R213). Vector add of lanes. -/
  | vadd (f : Nat) (v : VSlot) (last : Bool)
  /-- VSUB (R213). Vector subtract of lanes. -/
  | vsub (f : Nat) (v : VSlot) (last : Bool)
  /-- VAND (R213). Vector bitwise and. -/
  | vand (f : Nat) (v : VSlot) (last : Bool)
  /-- VOR (R213). Vector bitwise or. -/
  | vor (f : Nat) (v : VSlot) (last : Bool)
  /-- VXOR (R213). Vector bitwise exclusive or. -/
  | vxor (f : Nat) (v : VSlot) (last : Bool)
  /-- VSHL (R213). Vector shift left. -/
  | vshl (f : Nat) (v : VSlot) (last : Bool)
  /-- VSHR (R213). Vector logical shift right. -/
  | vshr (f : Nat) (v : VSlot) (last : Bool)
  /-- VSRA (R213). Vector arithmetic shift right. -/
  | vsra (f : Nat) (v : VSlot) (last : Bool)
  /-- VMIN (R213). Vector lane minimum. -/
  | vmin (f : Nat) (v : VSlot) (last : Bool)
  /-- VMAX (R213). Vector lane maximum. -/
  | vmax (f : Nat) (v : VSlot) (last : Bool)
  /-- VCMPEQ (R213). Vector compare equal. -/
  | vcmpeq (f : Nat) (v : VSlot) (last : Bool)
  /-- VCMPLT (R213). Vector compare less than. -/
  | vcmplt (f : Nat) (v : VSlot) (last : Bool)
  /-- VCMPLE (R213). Vector compare less or equal. -/
  | vcmple (f : Nat) (v : VSlot) (last : Bool)
  /-- VSEL (R213). Vector select by a third register. -/
  | vsel (f : Nat) (v : VSlot) (last : Bool)
  /-- VMOV (R213). Vector move. -/
  | vmov (f : Nat) (v : VSlot) (last : Bool)
  /-- VMUL (R213). Vector multiply. -/
  | vmul (f : Nat) (v : VSlot) (last : Bool)
  /-- VCVT (R213). Vector type conversion. -/
  | vcvt (f : Nat) (v : VSlot) (last : Bool)
  /-- VRSHR (R213). Vector rounding shift right. -/
  | vrshr (f : Nat) (v : VSlot) (last : Bool)
  /-- VPERM (R213). Vector lane permute. -/
  | vperm (f : Nat) (v : VSlot) (last : Bool)
  /-- VBCAST (R213). Vector lane broadcast. -/
  | vbcast (f : Nat) (v : VSlot) (last : Bool)
  /-- VIDX (R215). VIDX writes CORE_INDEX, the lane number or a loop counter to every lane. -/
  | vidx (f : Nat) (v : VSlot) (last : Bool)
  /-- VFMA (R213). Vector fused multiply-add with one rounding. -/
  | vfma (f : Nat) (v : VSlot) (last : Bool)
  /-- VEXP2 (R178). Vector table function exp2. -/
  | vexp2 (f : Nat) (v : VSlot) (last : Bool)
  /-- VRECIP (R178). Vector table function reciprocal. -/
  | vrecip (f : Nat) (v : VSlot) (last : Bool)
  /-- VRSQRT (R178). Vector table function reciprocal square root. -/
  | vrsqrt (f : Nat) (v : VSlot) (last : Bool)
  /-- VRSUM (R214). Vector reduction sum to lane 0 in a fixed tree. -/
  | vrsum (f : Nat) (v : VSlot) (last : Bool)
  /-- VRMAX (R213). Vector reduction maximum to lane 0. -/
  | vrmax (f : Nat) (v : VSlot) (last : Bool)
  /-- VRMIN (R213). Vector reduction minimum to lane 0. -/
  | vrmin (f : Nat) (v : VSlot) (last : Bool)
  /-- MST (R217). MST issues batches of outer-product steps with optional preload and drain, and advances its weight pointer. -/
  | mst (f : Nat) (m : MSlot) (last : Bool)
  /-- MPL (R223). MPL preloads the tiles of the named arrays. -/
  | mpl (f : Nat) (m : MSlot) (last : Bool)
  /-- MATRIX_STEP (R145). One outer-product step issues once its arrays are released and its activation column is present. -/
  | matrixStep (f : Nat)
  /-- PRELOAD_DRAIN_BEGIN (R158). A preload or drain of named arrays begins once their last step has completed S3. -/
  | preloadDrainBegin (f : Nat)
  /-- DRAIN_ROW (R346). The drain chain takes one row from the raw buffer when residuals and output room are present. -/
  | drainRow (core : Nat)
  /-- RSTART (R225). RSTART starts a load Rill with a program at a computed base. -/
  | rstart (f : Nat) (r : RSlot) (last : Bool)
  /-- RSTOP (R226). RSTOP stops a load Rill at its next element boundary. -/
  | rstop (f : Nat) (g r : Nat) (last : Bool)
  /-- VLD (R227). VLD loads a vector register from the Basin. -/
  | vld (f : Nat) (v : VMem) (last : Bool)
  /-- WSET (R228). WSET sets a weight pointer's cursor and strides. -/
  | wset (f : Nat) (g w base step bstep : Nat) (last : Bool)
  /-- PPSET (R229). PPSET sets the preload pointer. -/
  | ppset (f : Nat) (g addr : Nat) (last : Bool)
  /-- DSEL (R231). DSEL sets the drain descriptor and store Rill selection. -/
  | dsel (f : Nat) (g dcd sr : Nat) (last : Bool)
  /-- DRN (R232). DRN drains the named tiles through a descriptor to a store Rill, with optional preload. -/
  | drn (f : Nat) (g amask pls dcd sr : Nat) (last : Bool)
  /-- VST (R234). VST writes a vector register to the Basin. -/
  | vst (f : Nat) (v : VMem) (last : Bool)
  /-- SSTART (R235). SSTART starts a store Rill. -/
  | sstart (f : Nat) (r : RSlot) (last : Bool)
  /-- SSTOP (R235). SSTOP stops a store Rill. -/
  | sstop (f : Nat) (g r : Nat) (last : Bool)
  /-- BAR (R238). BAR holds until all work started in the cores has drained, and with SWP swaps the banks. -/
  | bar (f : Nat) (g : Nat) (swp : Bool) (last : Bool)
  /-- SETF (R240). SETF issues a held flag write to a Gate. -/
  | setf (f : Nat) (g gate : Nat) (val : Bool) (last : Bool)
  /-- WAITF (R241). WAITF holds until a Gate flag equals VAL. -/
  | waitf (f : Nat) (g gate : Nat) (val : Bool) (last : Bool)
  /-- EVT (R244). EVT issues a held PROGRAM event. -/
  | evt (f : Nat) (g code : Nat) (last : Bool)
  /-- CRD_TAKE (R246). CRD TAKE holds until a Sluice has enough drops on every core and subtracts them. -/
  | crdTake (f : Nat) (g sl drops : Nat) (last : Bool)
  /-- CRD_GIVE (R246). CRD GIVE adds drops to a Sluice. -/
  | crdGive (f : Nat) (g sl drops : Nat) (last : Bool)
  /-- CRD_INIT (R246). CRD INIT sets a Sluice count. -/
  | crdInit (f : Nat) (g sl drops : Nat) (last : Bool)
  /-- COMMIT_LAYER (R248). COMMIT with FORM 0 holds as a BAR and requests the layer commit; fetch stops. -/
  | commitLayer (f : Nat) (g : Nat) (last : Bool)
  /-- COMMIT_TILE (R249). COMMIT with FORM 1 holds as a BAR without load Rills and requests a tile commit. -/
  | commitTile (f : Nat) (g : Nat) (last : Bool)
  /-- RILL_GROUP (R272). A Rill generates and moves one group of elements in a cycle when its drop, destination room and banks permit. -/
  | rillGroup (core rill : Nat)
  /-- DROP_LANDED (R285). Every byte of a 512-byte drop has landed and the Rill gives a drop to its POST Sluice. -/
  | dropLanded (core rill : Nat)
  /-- RILL_FINISHED (R322). A Rill's loops are complete and its bytes have landed; it gives its final partial drop and reads DONE. -/
  | rillFinished (core rill : Nat)
  /-- CISTERN_SCRUB (R645). A bank's scrubber reads one line in an idle cycle and corrects or records it. -/
  | cisternScrub (line : Nat)
  /-- CALENDAR_FRAME (R432). A 1 us DRAM calendar frame begins, resetting each holder's reserved transactions. -/
  | calendarFrame
  /-- BUS_TIMEOUT (R669). A fabric transaction unanswered at its limit ends with a bus error to its requester. -/
  | busTimeout (port sub : Nat)
  /-- JET_ROW_COMPLETE (R352). The Jet completes an output row in its Cistern ring, or discards the frame on overrun. -/
  | jetRowComplete (p : Nat)
  /-- JET_ROW_TRANSFER (R353). The pipe moves a completed Jet row to its DRAM frame buffer. -/
  | jetRowTransfer (p : Nat)
  /-- SNAPSHOT_REQUEST (R527). A write of CLK_SNAP_CTRL.REQ clears a mailbox's VALID and requests a capture. -/
  | snapshotRequest (tag k : Nat) (v : W32)
  /-- SNAPSHOT_CAPTURE (R527). The Clepsydra captures GTS, TAI and positions into the mailbox in one cycle and sets VALID. -/
  | snapshotCapture (k : Nat)
  /-- TAI_CANCEL (R533). A TAI_WR_CTRL write with OP CANCEL discards the pending operation. -/
  | taiCancel (tag : Nat) (v : W32)
  /-- TAI_SET (R532). A TAI_WR_CTRL write with OP SET makes a pending set of TAI. -/
  | taiSet (tag : Nat) (v : W32)
  /-- TAI_ADD (R532). A TAI_WR_CTRL write with OP ADD makes a pending signed step of TAI. -/
  | taiAdd (tag : Nat) (v : W32)
  /-- TAI_RATE (R532). A TAI_WR_CTRL write with OP RATE makes a pending rate change. -/
  | taiRate (tag : Nat) (v : W32)
  /-- TAI_OP_APPLY (R533). The pending TAI operation applies at its tick, immediately or after the block's strobe. -/
  | taiOpApply
  /-- TAI_ROLLOVER (R531). TAI nanoseconds reach one second and roll over into SECONDS. -/
  | taiRollover
  /-- PTP_STAMP (R537). A port stamps an IEEE 1588 event message on ingress or egress. -/
  | ptpStamp (port : Nat) (egress : Bool) (send : PtpSend) (msgType domain seqId : Nat)
  /-- ETH_TSQ_POP (R824). A write of ETH_TSQ_CTRL.POP moves the oldest egress stamp into the mailbox. -/
  | ethTsqPop (tag port : Nat) (v : W32)
  /-- QUAD_EDGE (R543). An accepted edge of a quadrature input counts, or raises QERR. -/
  | quadEdge (n : Nat) (a b : Bool)
  /-- Z_CAPTURE (R544). An accepted rising edge of Z captures the position if no capture is held. -/
  | zCapture (n : Nat) (z : Bool)
  /-- LINE_PULSE (R546). An accepted rising edge of a line-pulse input counts. -/
  | linePulse (n : Nat)
  /-- MAINS_EDGE (R546). An accepted edge of the mains input counts outside the hold-off. -/
  | mainsEdge
  /-- SSI_FRAME_START (R545). An SSI input starts a frame every PERIOD_US. -/
  | ssiFrameStart (n : Nat)
  /-- SSI_FRAME_END (R545). An SSI frame ends and, if good, updates the position; two bad frames give OVERSPEED. -/
  | ssiFrameEnd (n raw : Nat) (lineLow errBit : Bool)
  /-- SSI_STALE (R545). No good SSI frame ends within two periods, and the input enters OVERSPEED. -/
  | ssiStale (n : Nat)
  /-- VELOCITY_EVAL (R549). At each whole microsecond the estimator checks each input's motion over its window. -/
  | velocityEval
  /-- OVERSPEED_CLEAR (R550). A write of 1 to PHASE_STATUS.OVERSPEED clears the latch if no reason held for a window. -/
  | overspeedClear (tag n : Nat) (v : W32)
  /-- TCMP_CTRL_WRITE (R555). A TCMP_CTRL write arms or disarms a time comparator. -/
  | tcmpCtrlWrite (n : Nat) (v : W32)
  /-- PCMP_CTRL_WRITE (R555). A PCMP_CTRL write arms or disarms a phase comparator. -/
  | pcmpCtrlWrite (n : Nat) (v : W32)
  /-- TCMP_MATCH (R552). A time comparator matches, fires its bound strobe group or frame-sync, and rearms or disarms. -/
  | tcmpMatch (n : Nat)
  /-- PCMP_MATCH (R553). A phase comparator matches, fires its bound outputs, and rearms or disarms. -/
  | pcmpMatch (n : Nat)
  /-- FSYNC_ASSERT (R559). A frame-sync output asserts at the first I/O edge at least 10 ns after its comparator's match. -/
  | fsyncAssert (n : Nat)
  /-- FSYNC_DEASSERT (R559). A frame-sync pulse ends after WIDTH times 10 ns. -/
  | fsyncDeassert (n : Nat)
  /-- CSI_FRAME_START (R584). A frame start packet begins a frame of a stream, choosing a raw slot or dropping the frame. -/
  | csiFrameStart (port vc fn ecc : Nat)
  /-- CSI_LINE (R574). A long packet's line is checked by CRC and passed on with Spillway replacement or STOP. -/
  | csiLine (port vc : Nat) (vcx : Bool) (dt ecc : Nat) (crcOk : Bool) (data : List Byte)
  /-- CSI_FRAME_END (R575). A frame end packet closes a frame and marks missing lines. -/
  | csiFrameEnd (port vc ecc : Nat)
  /-- FRAME_RECORD (R583). A stream writes a frame record once the frame's final output is in memory or the frame is discarded. -/
  | frameRecord (stream : Nat)
  /-- CSI_RESTART (R580). A write of CSI_VC_CTRL.RESTART takes a stopped stream to WAIT_FS. -/
  | csiRestart (tag port vc : Nat) (v : W32)
  /-- CSI_VC_REL_WRITE (R585). Your driver writes the count of released final-output frames. -/
  | csiVcRelWrite (tag stream : Nat) (v : W32)
  /-- LINK_DOWN (R596). A port sees no valid burst for 10 ms and its streams enter LINK_DOWN. -/
  | linkDown (port : Nat)
  /-- STREAM_TIMEOUT (R596). TIMEOUT_US passes without a frame start and the open frame is discarded. -/
  | streamTimeout (stream : Nat)
  /-- LINK_UP (R597). A port again sees valid bursts, and its streams return to WAIT_FS. -/
  | linkUp (port : Nat) (deskewed : Bool)
  /-- PIPE_MEMORY_FRAME (R587). A pipe begins the next memory-path frame, reading its tuning record, or drops it. -/
  | pipeMemoryFrame (p : Nat)
  /-- PIPE_INLINE_LINE (R588). A pipe delivers an in-line output line, or discards the frame on line-buffer overflow. -/
  | pipeInlineLine (p : Nat) (overflow : Bool)
  /-- PIPE_TUNE_SEL_WRITE (R594). A write of PIPE_TUNE_SEL selects a stream's tuning record from its next frame. -/
  | pipeTuneSelWrite (tag p : Nat) (v : W32)
  /-- CAM_PROBE_CYCLE (R598). FWP1 probes a port with no answer again every 100 ms, later every 1,000 ms. -/
  | camProbeCycle (port : Nat) (answers : List Nat)
  /-- CAM_PROBE (R693). A CAM_PROBE request makes FWP1 probe one port. -/
  | camProbe (answers : List Nat)
  /-- SPOUT_TAIL_WRITE (R599). Your driver submits Spout requests by writing SPOUT_TAIL. -/
  | spoutTailWrite (v : W32)
  /-- SPOUT_TAKE (R603). The Spout takes a request and computes its split row. -/
  | spoutTake
  /-- SPOUT_DONE (R604). The Spout finishes its rows, sets SPOUT_DONE and writes a host entry for the rest. -/
  | spoutDone
  /-- SPOUT_HOST_READ_WRITE (R827). Your driver writes the host entries consumed. -/
  | spoutHostReadWrite (v : W32)
  /-- CODEC_OPEN (R617). FWP2 checks a session record and assigns it to an engine. -/
  | codecOpen
  /-- CODEC_CLOSE (R629). FWP2 closes a session, aborting its undone descriptors. -/
  | codecClose
  /-- CODEC_DEC_TAIL_WRITE (R620). Your driver submits access-unit descriptors by writing CODEC_DEC_TAIL. -/
  | codecDecTailWrite (n : Nat) (v : W32)
  /-- ACCESS_UNIT_DECODE (R626). Engine 7 takes an access unit and it is decoded, ending with a DONE result. -/
  | accessUnitDecode (n : Nat) (unsupported rap : Bool) (pic : Option Picture) (order : List Nat)
  /-- DECODED_PICTURE_OUTPUT (R622). Engine 6 writes a decoded picture to its slot and writes a frame record, or drops or holds it. -/
  | decodedPictureOutput (n : Nat)
  /-- CODEC_DEC_RESTART (R627). A write of CODEC_DEC_CTRL.RESTART resumes a stopped session from the next random access point. -/
  | codecDecRestart (tag n : Nat) (v : W32)
  /-- CODEC_ENC_TAIL_WRITE (R628). Your driver submits encode source descriptors by writing CODEC_ENC_TAIL. -/
  | codecEncTailWrite (n : Nat) (v : W32)
  /-- PICTURE_ENCODE (R629). An encode engine codes a source frame into the output ring, or reports FULL. -/
  | pictureEncode (n : Nat) (pic : CodedPicture) (qp : Nat)
  /-- CODEC_ENC_READ_WRITE (R629). Your driver writes the output bytes consumed of an encode session. -/
  | codecEncReadWrite (n : Nat) (v : W32)
  /-- INJ_UNLOCK (R635). The two-write key sequence to INJ_UNLOCK unlocks an injection point, or is refused. -/
  | injUnlock (block inst : Nat) (v : W32)
  /-- INJ_MODE_WRITE (R638). A write of INJ_MODE arms or disarms an injection point and relocks it. -/
  | injModeWrite (tag block inst : Nat) (v : W32)
  /-- PARITY_SCAN (R657). The scan checks every configuration register at least once every 100 us. -/
  | parityScan (bad staged : List Nat)
  /-- CLOCK_MON_FINDING (R665). CLOCK_MON finds a stopped or deviating clock, or VOLT_MON a rail outside its window. -/
  | clockMonFinding (rail : Bool) (n : Nat) (reading : Int) (stopped : Bool)
  /-- PROTECTIVE_STOP_END (R667). Every Yes monitor has read in range for 100 us and the protective stop ends. -/
  | protectiveStopEnd
  /-- DOMAIN_RESUME (R668). A No-row domain or rail resumes 100 us after its finding clears. -/
  | domainResume (rail : Bool) (n : Nat)
  /-- FW_WATCHDOG_EXPIRY (R670). A firmware-processor watchdog expires and restarts its processor. -/
  | fwWatchdogExpiry (proc : Nat) (expired : Bool)
  /-- SW_WATCHDOG_EXPIRY (R670). The software watchdog expires, raising cause bit 5 and restarting its period. -/
  | swWatchdogExpiry
  /-- SAFE_KICK (R670). A valid SAFE_KICK write restarts the software watchdog period. -/
  | safeKick (v : W32)
  /-- SAFE_CAUSE_CLEAR (R675). A write of 1 to a latched SAFE_CAUSE bit clears it if its condition holds. -/
  | safeCauseClear (tag k : Nat) (v : W32)
  /-- PAIR_RETURN_TO_RUN (R676). A qualified pair starts its alive pattern at the next millisecond boundary. -/
  | pairReturnToRun (k : Nat)
  /-- SAFE_SW_STOP_WRITE (R679). A twin write of SAFE_SW_STOP sets or clears the software stop of pairs. -/
  | safeSwStopWrite (tag : Nat) (v : W32)
  /-- TAMPER_SAMPLE (R792). Once per us the device samples each tamper loop; two failed samples fire the loop. -/
  | tamperSample (follows0 follows1 : Bool)
  /-- POWER_ON (R680). POR_N rises and the device runs its full power-on boot. -/
  | powerOn (m : ModePins) (b : Option Board)
  /-- PIN_RESET (R680). RST_N low for 1 us resets the device. -/
  | pinReset (m : ModePins) (elapsed : Nat)
  /-- TRIAL_EXPIRED (R701). The trial watchdog expires and the device resets into the old slot. -/
  | trialExpired (m : ModePins) (elapsed : Nat)
  /-- STANDBY_WAKE (R680). The device wakes from standby at its wake time or on WAKE_N. -/
  | standbyWake (elapsed : Nat) (wakeN : Bool)
  /-- TAMPER_WAKE (R707). A tamper loop fires in standby and the device wakes into TAMPER_HOLD. -/
  | tamperWake (elapsed : Nat)
  /-- PCIE_RESET (R680). PERST# asserts while BOOT_SRC selects PCIe and the device resets. -/
  | pcieReset (m : ModePins)
  /-- PCIE_LINK_DOWN (R503). The PCIe link goes down or a hot or function-level reset arrives, breaking the PCIe host's Gates. -/
  | pcieLinkDown
  /-- BOOT_PCIE_GO (R685). A write of BOOT_PCIE_GO starts the ROM checks of a host-written image. -/
  | bootPcieGo (v : W32)
  /-- BOOT_READY (R718). DRAM is trained and initialised, and BOOT_STATUS.READY is set. -/
  | bootReady (training : Training) (ok : Bool)
  /-- FWP_REQ_TAIL_WRITE (R695). Your driver submits firmware requests by writing FWP_REQ_TAIL. -/
  | fwpReqTailWrite (v : W32)
  /-- FWP_RSP_READ_WRITE (R827). Your driver writes the firmware responses consumed. -/
  | fwpRspReadWrite (v : W32)
  /-- PING (R693). The PING request returns a response. -/
  | ping
  /-- FW_RESTART (R693). The FW_RESTART request restarts a firmware processor. -/
  | fwRestart
  /-- SLOT_REQUEST (R699). SLOT_REQUEST checks the other slot and records a trial request. -/
  | slotRequest
  /-- FLASH_WRITE (R698). FLASH_WRITE erases, programs and verifies a permitted flash range. -/
  | flashWrite (flashOk : Bool)
  /-- ATTEST (R705). ATTEST fills and signs an attestation report. -/
  | attest
  /-- DEBUG_GRANT (R705). DEBUG_GRANT checks a debug token and sets INT_STATUS.DEBUG_GRANT. -/
  | debugGrant
  /-- DEBUG_REVOKE (R705). DEBUG_REVOKE ends the debug grant. -/
  | debugRevoke
  /-- RESET (R693). The RESET request resets the device with cause REQUEST. -/
  | reset (m : ModePins)
  /-- STANDBY (R709). The STANDBY request puts the device into standby within 50 ms. -/
  | standby
  /-- BOOT_CONFIRM (R701). A write of the key to BOOT_CONFIRM stops the trial watchdog and makes the trial slot active. -/
  | bootConfirm (v : W32)
  /-- FW_PROCESSOR_RESTART (R712). A firmware processor restarts, reloading its component, or stays down after five restarts in 10 s. -/
  | fwProcessorRestart (n cause : Nat)
  /-- FW_LOG_WRITE (R710). A firmware processor writes a log record to the log ring. -/
  | fwLogWrite (proc level point a0 a1 a2 : Nat)
  /-- POWER_SET_CAP (R753). POWER_SET_CAP sets the power cap. -/
  | powerSetCap
  /-- POWER_SET_CEIL (R753). POWER_SET_CEIL sets the fastest operating point FWP4 may request. -/
  | powerSetCeil
  /-- POWER_GET (R753). POWER_GET returns the operating point, cap, mean power and junction temperature. -/
  | powerGet
  /-- POWER_SET_FLOOR_LOCK (R753). POWER_SET_FLOOR_LOCK writes POWER_CTRL.FLOOR_LOCK. -/
  | powerSetFloorLock
  /-- DDR_RETRAIN (R753). DDR_RETRAIN requests a maintenance window now. -/
  | ddrRetrain
  /-- REF_JUDGE_WINDOW (R725). A judging window of 4,096 reference cycles ends and is counted toward a good judgement. -/
  | refJudgeWindow (recovered : Bool) (dev : Int)
  /-- ROOT_PLL_LOCK (R726). The root PLL locks after a good judgement, starting the fabric clock and GTS. -/
  | rootPllLock
  /-- RECOVERED_REF_LOSS (R729). The recovered reference is lost and the root enters holdover or transfers. -/
  | recoveredRefLoss
  /-- REF_TRANSFER (R730). The root transfers between references through holdover without a phase step. -/
  | refTransfer
  /-- REF_REVERT (R731). The recovered reference has been good for 10 s and the root transfers back to it. -/
  | refRevert
  /-- ROOT_RELOCK (R735). The root relocks after a loss; GTS and TAI advance by the measured gap. -/
  | rootRelock (gapUs : Nat)
  /-- POWER_OP_REQ_WRITE (R740). FWP4 writes an operating-point request, which becomes pending. -/
  | powerOpReqWrite (tag : Nat) (v : W32)
  /-- OP_REQUEST_SERVE (R741). The sequencer serves the pending request when no AVSBus frame is in flight. -/
  | opRequestServe
  /-- AVS_FRAME_DONE (R744). An AVSBus frame ends; a failed frame is resent once or freezes the sequencer. -/
  | avsFrameDone (ok : Bool)
  /-- VOLTAGE_REACHED (R742). Five samples reach the target voltage, and the sequencer applies the faster divider. -/
  | voltageReached (mv : Nat)
  /-- AVS_TIMEOUT (R743). The target voltage is not reached within 200 us and the sequencer commands the old voltage again. -/
  | avsTimeout
  /-- FLOOR_LOCK_WRITE (R747). A write of POWER_CTRL.FLOOR_LOCK sets the lock and raises the Cascade to the floor if needed. -/
  | floorLockWrite (tag : Nat) (v : W32)
  /-- POWER_ESTIMATE (R750). FWP4 updates the power estimate every 100 us. -/
  | powerEstimate (estimate : Nat)
  /-- POWER_CAP_CHECK (R750). Every 1 ms FWP4 compares the mean power with the cap and steps the operating point. -/
  | powerCapCheck
  /-- CAP_LIMIT_STEP (R6). For each second below +98 C, the LPL-7160-E cap limit rises by 1 W. -/
  | capLimitStep
  /-- THERMAL_READING (R754). Every 10 us the device reads its 24 sensors. -/
  | thermalReading (readings : List Int)
  /-- DDR_EYE_FAIL_RETRY (R761). A channel fails its eye check and FWP4 requests another window 1 ms later. -/
  | ddrEyeFailRetry
  /-- PMX_SWITCH_APPLY (R781). A staged PMX_CFG applies at its strobe if both functions are disabled, releasing the balls to park. -/
  | pmxSwitchApply (g : Nat) (ctrlOff : Bool)
  /-- PMX_SWITCH_DONE (R784). Forty nanoseconds after the park, the new function takes the balls. -/
  | pmxSwitchDone (g : Nat)
  /-- CHIP_STROBE_FIRE (R818). A write of CHIP_STROBE_FIRE fires each named WRITE-triggered strobe group. -/
  | chipStrobeFire (v : W32)
  /-- CHIP_STROBE_DROP (R819). A write of CHIP_STROBE_DROP discards the staged values of the named groups. -/
  | chipStrobeDrop (v : W32)
  /-- REGISTER_WRITE (R812). A write to a register without a row of its own acts by the access codes of its fields. -/
  | registerWrite (tag off : Nat) (v : W32)
  /-- UNASSIGNED_ACCESS (R801). An access outside the assigned regions or with a bad size ends with a bus error and is recorded in CHIP_ERR. -/
  | unassignedAccess (tag addr size : Nat) (write : Bool)
  /-- HOST_CORE_RESET (R503). A single host core is reset, and every Gate it owns is freed, marked BROKEN and reported with GATE_BROKEN. -/
  | hostCoreReset (core : Nat)
  /-- SAFETY_TWIN_MISMATCH (R661). A twin word checked in every cycle (the applied SAFETY or CLOCKS section, a pair's command path, or a Weir deadline entry) fails its complement check of itself. -/
  | safetyTwinMismatch (t : TwinSite) (bad : Bool)
  /-- PCIE_AER_ERROR (R630). The PCIe link delivers an errored TLP (bad LCRC or poisoned), which is logged in the AER capability and counted by detector PCIE_AER. -/
  | pcieAerError (err : Nat)
deriving DecidableEq, Repr

end Sys2Proof
end

