-- ==== Sys2Proof/Decode.lean ====
section
/-! DEFINITION. Sys2Proof/Decode.lean: the words of spec/opcode_table.json. -/
namespace Sys2Proof

/-- The command that a word spells by the table's bits. The table gives no row any bits: a command comes from outside as a
register write, a bus operation or an event, not as a word (log entry 8). -/
def decodeTableWord (_nbits _w : Nat) : Option Instr := none

end Sys2Proof
end

