-- ==== Sys2Proof/Config.lean ====
section
/-! DEFINITION. Sys2Proof/Config.lean: what one implementation fixes and the spec leaves open: the free values, and the
functions that the spec names by a standard and does not give. None has a body, so nothing can be proved of its values. -/
namespace Sys2Proof

/-- A free value: what the spec leaves open, drawn at a named place for the n-th time (log entry 6). -/
opaque Config.freeValue : Nat → Nat → Nat

/-- A free sample of a picture: the draw it belongs to, the stage that leaves it open, the sample's position and its channel
(log entry 6). -/
opaque Config.freePixel : Nat → Nat → Nat → Nat → Nat

/-- The SHA-384 digest of a list of bytes, its first byte most significant (log entry 7). -/
opaque Config.sha384 : List Byte → BitVec 384

/-- ECDSA P-384 verification: public key bytes, digest, signature bytes (log entry 7). -/
opaque Config.ecdsaVerify : List Byte → Nat → List Byte → Bool

/-- An ECDSA P-384 signature of a digest made with the device's attestation key (log entry 7). -/
opaque Config.ecdsaSign : Nat → List Byte

/-- AES-256-GCM decryption with the device's image key: IV, additional data, tag and ciphertext; none where the tag fails
(log entry 7). -/
opaque Config.gcmDecrypt : List Byte → List Byte → List Byte → List Byte → Option (List Byte)

/-- The device's attestation public key, 96 bytes (spec/14; log entry 7). -/
opaque Config.attestPub : Nat → Byte

/-- The key whose SHA-384 digest a fuse holds (spec/14 R705; log entry 7). -/
opaque Config.keyOfDigest : Nat → List Byte

/-- The key engine's authentication code over a VERSION record (log entry 7). -/
opaque Config.keyMac : List Byte → List Byte

/-- The base time and the cycle time, in ns of TAI, of a port's gate control list, 0 where it has none: the spec gives the lists
no registers (spec/10 R539; log entry 142). -/
opaque Config.gateBase : Nat → Nat
opaque Config.gateCycle : Nat → Nat

/-- Gloastand's PCI vendor ID (spec/09 R520; log entry 143). -/
opaque Config.pciVendor : Nat

end Sys2Proof
end

