-- ==== Sys2Proof/Machine/RegMap.lean ====
section
/-! DEFINITION. Sys2Proof/Machine/RegMap.lean: the register map of the device, from the register tables of spec/02 to
spec/17: where each register lies in the register region (R805), the access code of each of its bits (R10, R812) and
its reset value. Where an offset table of the spec gives a register no reset value, it is 0 here (log entry 1). -/
namespace Sys2Proof.Machine

/-- One row of the register map: the offset of its first register in the register region, the strides and counts of
its indices, the bits of each access code of R812, and the reset value. -/
structure RegRow where
  base : Nat
  dims : List (Nat × Nat)
  rw : W32
  ro : W32
  w1c : W32
  wo : W32
  ws : W32
  rwl : W32
  tw : W32
  reset : W32
deriving DecidableEq, Repr

/-- An offset from a row's base is one of the row's registers. -/
def RegRow.inDims : List (Nat × Nat) → Nat → Bool
  | [], d => d == 0
  | (s, n) :: ds, d => decide (d / s < n) && RegRow.inDims ds (d % s)

/-- The row holds the register at an offset of the register region. -/
def RegRow.covers (r : RegRow) (off : Nat) : Bool := decide (r.base ≤ off) && RegRow.inDims r.dims (off - r.base)

/-- CHIP_ID (spec/17). -/
def Reg.chipId : Nat := 0x0
/-- PART of CHIP_ID. -/
def F.chipId_PART : Fld := ⟨31, 16⟩
/-- STEP_MAJOR of CHIP_ID. -/
def F.chipId_STEP_MAJOR : Fld := ⟨15, 8⟩
/-- STEP_MINOR of CHIP_ID. -/
def F.chipId_STEP_MINOR : Fld := ⟨7, 0⟩
/-- CHIP_GRADE (spec/17). -/
def Reg.chipGrade : Nat := 0x4
/-- GRADE of CHIP_GRADE. -/
def F.chipGrade_GRADE : Fld := ⟨1, 0⟩
/-- CHIP_MODE (spec/17). -/
def Reg.chipMode : Nat := 0x8
/-- LEGACY_1CTX of CHIP_MODE. -/
def F.chipMode_LEGACY_1CTX : Fld := ⟨6, 6⟩
/-- BOOT_SRC of CHIP_MODE. -/
def F.chipMode_BOOT_SRC : Fld := ⟨5, 4⟩
/-- TEST_EN of CHIP_MODE. -/
def F.chipMode_TEST_EN : Fld := ⟨3, 3⟩
/-- AVS_ADDR of CHIP_MODE. -/
def F.chipMode_AVS_ADDR : Fld := ⟨1, 0⟩
/-- CHIP_SCRATCH (spec/17). -/
def Reg.chipScratch : Nat := 0xC
/-- CHIP_ERR (spec/17). -/
def Reg.chipErr : Nat := 0x10
/-- VALID of CHIP_ERR. -/
def F.chipErr_VALID : Fld := ⟨31, 31⟩
/-- KIND of CHIP_ERR. -/
def F.chipErr_KIND : Fld := ⟨30, 28⟩
/-- OFFSET of CHIP_ERR. -/
def F.chipErr_OFFSET : Fld := ⟨25, 0⟩
/-- CHIP_ERR_SRC (spec/17). -/
def Reg.chipErrSrc : Nat := 0x14
/-- COUNT of CHIP_ERR_SRC. -/
def F.chipErrSrc_COUNT : Fld := ⟨31, 16⟩
/-- END_TAG of CHIP_ERR_SRC. -/
def F.chipErrSrc_END_TAG : Fld := ⟨11, 0⟩
/-- CHIP_STROBE_FIRE (spec/17). -/
def Reg.chipStrobeFire : Nat := 0x40
/-- GROUPS of CHIP_STROBE_FIRE. -/
def F.chipStrobeFire_GROUPS : Fld := ⟨15, 0⟩
/-- CHIP_STROBE_PEND (spec/17). -/
def Reg.chipStrobePend : Nat := 0x44
/-- GROUPS of CHIP_STROBE_PEND. -/
def F.chipStrobePend_GROUPS : Fld := ⟨15, 0⟩
/-- CHIP_STROBE_IGN (spec/17). -/
def Reg.chipStrobeIgn : Nat := 0x48
/-- GROUPS of CHIP_STROBE_IGN. -/
def F.chipStrobeIgn_GROUPS : Fld := ⟨15, 0⟩
/-- CHIP_STROBE_DROP (spec/17). -/
def Reg.chipStrobeDrop : Nat := 0x4C
/-- GROUPS of CHIP_STROBE_DROP. -/
def F.chipStrobeDrop_GROUPS : Fld := ⟨15, 0⟩
/-- CHIP_STROBE_MAP of m (spec/17). -/
def Reg.chipStrobeMap (m : Nat) : Nat := 0x50 + 0x4 * m
/-- CHIP_STROBE_COUNT of g (spec/17). -/
def Reg.chipStrobeCount (g : Nat) : Nat := 0x80 + 0x4 * g
/-- FIRES of CHIP_STROBE_COUNT. -/
def F.chipStrobeCount_FIRES : Fld := ⟨15, 0⟩
/-- PARTERRE_CTRL (spec/02). -/
def Reg.parterreCtrl : Nat := 0x100000
/-- LOCK of PARTERRE_CTRL. -/
def F.parterreCtrl_LOCK : Fld := ⟨1, 1⟩
/-- GO of PARTERRE_CTRL. -/
def F.parterreCtrl_GO : Fld := ⟨0, 0⟩
/-- PARTERRE_STATUS (spec/02). -/
def Reg.parterreStatus : Nat := 0x100004
/-- CHECK of PARTERRE_STATUS. -/
def F.parterreStatus_CHECK : Fld := ⟨31, 24⟩
/-- SECTION of PARTERRE_STATUS. -/
def F.parterreStatus_SECTION : Fld := ⟨23, 16⟩
/-- READ_ERR of PARTERRE_STATUS. -/
def F.parterreStatus_READ_ERR : Fld := ⟨12, 12⟩
/-- DISCARDED of PARTERRE_STATUS. -/
def F.parterreStatus_DISCARDED : Fld := ⟨11, 11⟩
/-- OVERLAP of PARTERRE_STATUS. -/
def F.parterreStatus_OVERLAP : Fld := ⟨10, 10⟩
/-- LOCKED of PARTERRE_STATUS. -/
def F.parterreStatus_LOCKED : Fld := ⟨9, 9⟩
/-- SIGNED of PARTERRE_STATUS. -/
def F.parterreStatus_SIGNED : Fld := ⟨8, 8⟩
/-- STATE of PARTERRE_STATUS. -/
def F.parterreStatus_STATE : Fld := ⟨3, 0⟩
/-- PARTERRE_SRC_LO (spec/02). -/
def Reg.parterreSrcLo : Nat := 0x100008
/-- ADDR of PARTERRE_SRC_LO. -/
def F.parterreSrcLo_ADDR : Fld := ⟨31, 3⟩
/-- PARTERRE_SRC_HI (spec/02). -/
def Reg.parterreSrcHi : Nat := 0x10000C
/-- ADDR of PARTERRE_SRC_HI. -/
def F.parterreSrcHi_ADDR : Fld := ⟨7, 0⟩
/-- PARTERRE_IMAGE_ID (spec/02). -/
def Reg.parterreImageId : Nat := 0x100010
/-- PARTERRE_FAIL_OFFSET (spec/02). -/
def Reg.parterreFailOffset : Nat := 0x100014
/-- PARTERRE_CONFLICT_RES (spec/02). -/
def Reg.parterreConflictRes : Nat := 0x100018
/-- RES_CLASS of PARTERRE_CONFLICT_RES. -/
def F.parterreConflictRes_RES_CLASS : Fld := ⟨31, 29⟩
/-- CONFLICT_COUNT of PARTERRE_CONFLICT_RES. -/
def F.parterreConflictRes_CONFLICT_COUNT : Fld := ⟨28, 16⟩
/-- RES_NUMBER of PARTERRE_CONFLICT_RES. -/
def F.parterreConflictRes_RES_NUMBER : Fld := ⟨15, 0⟩
/-- PARTERRE_CONFLICT_A (spec/02). -/
def Reg.parterreConflictA : Nat := 0x10001C
/-- TAG of PARTERRE_CONFLICT_A. -/
def F.parterreConflictA_TAG : Fld := ⟨31, 16⟩
/-- ENTRY of PARTERRE_CONFLICT_A. -/
def F.parterreConflictA_ENTRY : Fld := ⟨15, 0⟩
/-- PARTERRE_CONFLICT_B (spec/02). -/
def Reg.parterreConflictB : Nat := 0x100020
/-- TAG of PARTERRE_CONFLICT_B. -/
def F.parterreConflictB_TAG : Fld := ⟨31, 16⟩
/-- ENTRY of PARTERRE_CONFLICT_B. -/
def F.parterreConflictB_ENTRY : Fld := ⟨15, 0⟩
/-- PARTERRE_CLAIM_REQ (spec/02). -/
def Reg.parterreClaimReq : Nat := 0x100030
/-- OP of PARTERRE_CLAIM_REQ. -/
def F.parterreClaimReq_OP : Fld := ⟨31, 30⟩
/-- RES_CLASS of PARTERRE_CLAIM_REQ. -/
def F.parterreClaimReq_RES_CLASS : Fld := ⟨29, 27⟩
/-- RES_NUMBER of PARTERRE_CLAIM_REQ. -/
def F.parterreClaimReq_RES_NUMBER : Fld := ⟨23, 16⟩
/-- CLAIMANT of PARTERRE_CLAIM_REQ. -/
def F.parterreClaimReq_CLAIMANT : Fld := ⟨15, 0⟩
/-- PARTERRE_CLAIM_RESULT (spec/02). -/
def Reg.parterreClaimResult : Nat := 0x100034
/-- RESULT of PARTERRE_CLAIM_RESULT. -/
def F.parterreClaimResult_RESULT : Fld := ⟨31, 30⟩
/-- RES_CLASS of PARTERRE_CLAIM_RESULT. -/
def F.parterreClaimResult_RES_CLASS : Fld := ⟨29, 27⟩
/-- RES_NUMBER of PARTERRE_CLAIM_RESULT. -/
def F.parterreClaimResult_RES_NUMBER : Fld := ⟨23, 16⟩
/-- HOLDER of PARTERRE_CLAIM_RESULT. -/
def F.parterreClaimResult_HOLDER : Fld := ⟨15, 0⟩
/-- PARTERRE_STROBE_CFG of g (spec/02). -/
def Reg.parterreStrobeCfg (g : Nat) : Nat := 0x100040 + 0x4 * (g - 1)
/-- TRIGGER of PARTERRE_STROBE_CFG. -/
def F.parterreStrobeCfg_TRIGGER : Fld := ⟨31, 30⟩
/-- COMPARATOR of PARTERRE_STROBE_CFG. -/
def F.parterreStrobeCfg_COMPARATOR : Fld := ⟨23, 16⟩
/-- CLAIMANT of PARTERRE_STROBE_CFG. -/
def F.parterreStrobeCfg_CLAIMANT : Fld := ⟨15, 0⟩
/-- WEIR_STATUS (spec/08). -/
def Reg.weirStatus : Nat := 0x200000
/-- RESIDENT of WEIR_STATUS. -/
def F.weirStatus_RESIDENT : Fld := ⟨31, 24⟩
/-- PENDING of WEIR_STATUS. -/
def F.weirStatus_PENDING : Fld := ⟨16, 8⟩
/-- CFG_REFUSED of WEIR_STATUS. -/
def F.weirStatus_CFG_REFUSED : Fld := ⟨3, 3⟩
/-- MAINT_PENDING of WEIR_STATUS. -/
def F.weirStatus_MAINT_PENDING : Fld := ⟨2, 2⟩
/-- ADMIT_HELD of WEIR_STATUS. -/
def F.weirStatus_ADMIT_HELD : Fld := ⟨1, 1⟩
/-- TESTING of WEIR_STATUS. -/
def F.weirStatus_TESTING : Fld := ⟨0, 0⟩
/-- WEIR_QUEUED (spec/08). -/
def Reg.weirQueued : Nat := 0x200004
/-- COUNT of WEIR_QUEUED. -/
def F.weirQueued_COUNT : Fld := ⟨16, 0⟩
/-- WEIR_SLOTS (spec/08). -/
def Reg.weirSlots : Nat := 0x200008
/-- INLINE of WEIR_SLOTS. -/
def F.weirSlots_INLINE : Fld := ⟨23, 16⟩
/-- GUAR of WEIR_SLOTS. -/
def F.weirSlots_GUAR : Fld := ⟨15, 8⟩
/-- CAP of WEIR_SLOTS. -/
def F.weirSlots_CAP : Fld := ⟨7, 0⟩
/-- WEIR_PAGES (spec/08). -/
def Reg.weirPages : Nat := 0x20000C
/-- BE of WEIR_PAGES. -/
def F.weirPages_BE : Fld := ⟨25, 16⟩
/-- GUAR of WEIR_PAGES. -/
def F.weirPages_GUAR : Fld := ⟨9, 0⟩
/-- WEIR_BE_MAX of f (spec/08). -/
def Reg.weirBeMax (f : Nat) : Nat := 0x200010 + 0x4 * f
/-- US of WEIR_BE_MAX. -/
def F.weirBeMax_US : Fld := ⟨15, 0⟩
/-- WEIR_SKIM_MAX (spec/08). -/
def Reg.weirSkimMax : Nat := 0x200020
/-- CYCLES of WEIR_SKIM_MAX. -/
def F.weirSkimMax_CYCLES : Fld := ⟨17, 0⟩
/-- WEIR_MAINT (spec/08). -/
def Reg.weirMaint : Nat := 0x200024
/-- PENDING of WEIR_MAINT. -/
def F.weirMaint_PENDING : Fld := ⟨31, 31⟩
/-- ACTIVE of WEIR_MAINT. -/
def F.weirMaint_ACTIVE : Fld := ⟨30, 30⟩
/-- COUNT of WEIR_MAINT. -/
def F.weirMaint_COUNT : Fld := ⟨15, 0⟩
/-- WEIR_LAST_TEST (spec/08). -/
def Reg.weirLastTest : Nat := 0x200028
/-- REASON of WEIR_LAST_TEST. -/
def F.weirLastTest_REASON : Fld := ⟨31, 24⟩
/-- FOUNTAIN of WEIR_LAST_TEST. -/
def F.weirLastTest_FOUNTAIN : Fld := ⟨23, 22⟩
/-- DURATION_NS of WEIR_LAST_TEST. -/
def F.weirLastTest_DURATION_NS : Fld := ⟨14, 0⟩
/-- WEIR_DEADLOCKS (spec/08). -/
def Reg.weirDeadlocks : Nat := 0x20002C
/-- COUNT of WEIR_DEADLOCKS. -/
def F.weirDeadlocks_COUNT : Fld := ⟨15, 0⟩
/-- WEIR_VT_SEL (spec/08). -/
def Reg.weirVtSel : Nat := 0x200030
/-- ENGINE of WEIR_VT_SEL. -/
def F.weirVtSel_ENGINE : Fld := ⟨8, 6⟩
/-- SLOT of WEIR_VT_SEL. -/
def F.weirVtSel_SLOT : Fld := ⟨5, 0⟩
/-- WEIR_VT (spec/08). -/
def Reg.weirVt : Nat := 0x200034
/-- WEIR_PT_ROOT_LO (spec/09). -/
def Reg.weirPtRootLo : Nat := 0x200200
/-- ADDR of WEIR_PT_ROOT_LO. -/
def F.weirPtRootLo_ADDR : Fld := ⟨31, 9⟩
/-- WEIR_PT_ROOT_HI (spec/09). -/
def Reg.weirPtRootHi : Nat := 0x200204
/-- ADDR of WEIR_PT_ROOT_HI. -/
def F.weirPtRootHi_ADDR : Fld := ⟨7, 0⟩
/-- WEIR_HANDLE_BASE_LO (spec/09). -/
def Reg.weirHandleBaseLo : Nat := 0x200208
/-- ADDR of WEIR_HANDLE_BASE_LO. -/
def F.weirHandleBaseLo_ADDR : Fld := ⟨31, 16⟩
/-- WEIR_HANDLE_BASE_HI (spec/09). -/
def Reg.weirHandleBaseHi : Nat := 0x20020C
/-- ADDR of WEIR_HANDLE_BASE_HI. -/
def F.weirHandleBaseHi_ADDR : Fld := ⟨7, 0⟩
/-- WEIR_HANDLE_COUNT (spec/09). -/
def Reg.weirHandleCount : Nat := 0x200210
/-- COUNT of WEIR_HANDLE_COUNT. -/
def F.weirHandleCount_COUNT : Fld := ⟨20, 0⟩
/-- WEIR_XLATE_INV (spec/09). -/
def Reg.weirXlateInv : Nat := 0x200214
/-- DONE of WEIR_XLATE_INV. -/
def F.weirXlateInv_DONE : Fld := ⟨31, 31⟩
/-- ALL of WEIR_XLATE_INV. -/
def F.weirXlateInv_ALL : Fld := ⟨30, 30⟩
/-- PAGES of WEIR_XLATE_INV. -/
def F.weirXlateInv_PAGES : Fld := ⟨15, 0⟩
/-- WEIR_XLATE_VA_LO (spec/09). -/
def Reg.weirXlateVaLo : Nat := 0x200218
/-- VA of WEIR_XLATE_VA_LO. -/
def F.weirXlateVaLo_VA : Fld := ⟨31, 16⟩
/-- WEIR_XLATE_VA_HI (spec/09). -/
def Reg.weirXlateVaHi : Nat := 0x20021C
/-- VA of WEIR_XLATE_VA_HI. -/
def F.weirXlateVaHi_VA : Fld := ⟨15, 0⟩
/-- WEIR_PIN (spec/09). -/
def Reg.weirPin : Nat := 0x200220
/-- OP of WEIR_PIN. -/
def F.weirPin_OP : Fld := ⟨31, 30⟩
/-- RESULT of WEIR_PIN. -/
def F.weirPin_RESULT : Fld := ⟨29, 28⟩
/-- HANDLE of WEIR_PIN. -/
def F.weirPin_HANDLE : Fld := ⟨19, 0⟩
/-- WEIR_DEVRING_LO (spec/09). -/
def Reg.weirDevringLo : Nat := 0x200240
/-- VA of WEIR_DEVRING_LO. -/
def F.weirDevringLo_VA : Fld := ⟨31, 12⟩
/-- WEIR_DEVRING_HI (spec/09). -/
def Reg.weirDevringHi : Nat := 0x200244
/-- VA of WEIR_DEVRING_HI. -/
def F.weirDevringHi_VA : Fld := ⟨15, 0⟩
/-- WEIR_DEVRING_CFG (spec/09). -/
def Reg.weirDevringCfg : Nat := 0x200248
/-- MOD_US of WEIR_DEVRING_CFG. -/
def F.weirDevringCfg_MOD_US : Fld := ⟨31, 16⟩
/-- VECTOR of WEIR_DEVRING_CFG. -/
def F.weirDevringCfg_VECTOR : Fld := ⟨15, 8⟩
/-- LOG2 of WEIR_DEVRING_CFG. -/
def F.weirDevringCfg_LOG2 : Fld := ⟨3, 0⟩
/-- WEIR_DEVRING_READ (spec/09). -/
def Reg.weirDevringRead : Nat := 0x20024C
/-- WEIR_DEVRING_COUNT (spec/09). -/
def Reg.weirDevringCount : Nat := 0x200250
/-- WEIR_DEVRING_LOST (spec/09). -/
def Reg.weirDevringLost : Nat := 0x200254
/-- WEIR_IRQ_ROUTE (spec/09). -/
def Reg.weirIrqRoute : Nat := 0x200260
/-- MODE of WEIR_IRQ_ROUTE. -/
def F.weirIrqRoute_MODE : Fld := ⟨1, 0⟩
/-- CLK_STATUS (spec/10). -/
def Reg.clkStatus : Nat := 0x300000
/-- TAI_VALID of CLK_STATUS. -/
def F.clkStatus_TAI_VALID : Fld := ⟨31, 31⟩
/-- TAI_WR_CTRL (spec/10). -/
def Reg.taiWrCtrl : Nat := 0x300040
/-- PENDING of TAI_WR_CTRL. -/
def F.taiWrCtrl_PENDING : Fld := ⟨31, 31⟩
/-- REPLACED of TAI_WR_CTRL. -/
def F.taiWrCtrl_REPLACED : Fld := ⟨30, 30⟩
/-- ERR of TAI_WR_CTRL. -/
def F.taiWrCtrl_ERR : Fld := ⟨29, 29⟩
/-- WHEN of TAI_WR_CTRL. -/
def F.taiWrCtrl_WHEN : Fld := ⟨3, 2⟩
/-- OP of TAI_WR_CTRL. -/
def F.taiWrCtrl_OP : Fld := ⟨1, 0⟩
/-- TAI_WR_NS (spec/10). -/
def Reg.taiWrNs : Nat := 0x300044
/-- NS of TAI_WR_NS. -/
def F.taiWrNs_NS : Fld := ⟨29, 0⟩
/-- TAI_WR_S_LO (spec/10). -/
def Reg.taiWrSLo : Nat := 0x300048
/-- TAI_WR_S_HI (spec/10). -/
def Reg.taiWrSHi : Nat := 0x30004C
/-- SECONDS of TAI_WR_S_HI. -/
def F.taiWrSHi_SECONDS : Fld := ⟨15, 0⟩
/-- TAI_WR_ADJ (spec/10). -/
def Reg.taiWrAdj : Nat := 0x300050
/-- TAI_RATE (spec/10). -/
def Reg.taiRate : Nat := 0x300054
/-- CLK_SNAP_CTRL of k (spec/10). -/
def Reg.clkSnapCtrl (k : Nat) : Nat := 0x300200 + 0x80 * k
/-- VALID of CLK_SNAP_CTRL. -/
def F.clkSnapCtrl_VALID : Fld := ⟨31, 31⟩
/-- TAI_VALID of CLK_SNAP_CTRL. -/
def F.clkSnapCtrl_TAI_VALID : Fld := ⟨1, 1⟩
/-- REQ of CLK_SNAP_CTRL. -/
def F.clkSnapCtrl_REQ : Fld := ⟨0, 0⟩
/-- SNAP_GTS_LO of k (spec/10). -/
def Reg.snapGtsLo (k : Nat) : Nat := 0x300204 + 0x80 * k
/-- SNAP_GTS_HI of k (spec/10). -/
def Reg.snapGtsHi (k : Nat) : Nat := 0x300208 + 0x80 * k
/-- SNAP_TAI_NS of k (spec/10). -/
def Reg.snapTaiNs (k : Nat) : Nat := 0x30020C + 0x80 * k
/-- SNAP_TAI_S_LO of k (spec/10). -/
def Reg.snapTaiSLo (k : Nat) : Nat := 0x300210 + 0x80 * k
/-- SNAP_TAI_S_HI of k (spec/10). -/
def Reg.snapTaiSHi (k : Nat) : Nat := 0x300214 + 0x80 * k
/-- SNAP_POS_LO of k, n (spec/10). -/
def Reg.snapPosLo (k n : Nat) : Nat := 0x300220 + 0x80 * k + 0x8 * n
/-- SNAP_POS_HI of k, n (spec/10). -/
def Reg.snapPosHi (k n : Nat) : Nat := 0x300224 + 0x80 * k + 0x8 * n
/-- TCMP_T0 of n (spec/10). -/
def Reg.tcmpT0 (n : Nat) : Nat := 0x301000 + 0x20 * n
/-- TCMP_T1 of n (spec/10). -/
def Reg.tcmpT1 (n : Nat) : Nat := 0x301004 + 0x20 * n
/-- TCMP_T2 of n (spec/10). -/
def Reg.tcmpT2 (n : Nat) : Nat := 0x301008 + 0x20 * n
/-- VALUE of TCMP_T2. -/
def F.tcmpT2_VALUE : Fld := ⟨15, 0⟩
/-- TCMP_PERIOD of n (spec/10). -/
def Reg.tcmpPeriod (n : Nat) : Nat := 0x30100C + 0x20 * n
/-- TCMP_CTRL of n (spec/10). -/
def Reg.tcmpCtrl (n : Nat) : Nat := 0x301010 + 0x20 * n
/-- ARM of TCMP_CTRL. -/
def F.tcmpCtrl_ARM : Fld := ⟨31, 31⟩
/-- BASE of TCMP_CTRL. -/
def F.tcmpCtrl_BASE : Fld := ⟨30, 30⟩
/-- CLAIMANT of TCMP_CTRL. -/
def F.tcmpCtrl_CLAIMANT : Fld := ⟨15, 0⟩
/-- TCMP_STATUS of n (spec/10). -/
def Reg.tcmpStatus (n : Nat) : Nat := 0x301014 + 0x20 * n
/-- ARMED of TCMP_STATUS. -/
def F.tcmpStatus_ARMED : Fld := ⟨31, 31⟩
/-- LATE of TCMP_STATUS. -/
def F.tcmpStatus_LATE : Fld := ⟨30, 30⟩
/-- MISSED of TCMP_STATUS. -/
def F.tcmpStatus_MISSED : Fld := ⟨29, 16⟩
/-- MATCHES of TCMP_STATUS. -/
def F.tcmpStatus_MATCHES : Fld := ⟨15, 0⟩
/-- TCMP_MATCH_GTS of n (spec/10). -/
def Reg.tcmpMatchGts (n : Nat) : Nat := 0x301018 + 0x20 * n
/-- PCMP_T0 of n (spec/10). -/
def Reg.pcmpT0 (n : Nat) : Nat := 0x302000 + 0x20 * n
/-- PCMP_T1 of n (spec/10). -/
def Reg.pcmpT1 (n : Nat) : Nat := 0x302004 + 0x20 * n
/-- VALUE of PCMP_T1. -/
def F.pcmpT1_VALUE : Fld := ⟨15, 0⟩
/-- PCMP_PITCH of n (spec/10). -/
def Reg.pcmpPitch (n : Nat) : Nat := 0x302008 + 0x20 * n
/-- PCMP_CTRL of n (spec/10). -/
def Reg.pcmpCtrl (n : Nat) : Nat := 0x302010 + 0x20 * n
/-- ARM of PCMP_CTRL. -/
def F.pcmpCtrl_ARM : Fld := ⟨31, 31⟩
/-- DIR of PCMP_CTRL. -/
def F.pcmpCtrl_DIR : Fld := ⟨30, 29⟩
/-- INPUT of PCMP_CTRL. -/
def F.pcmpCtrl_INPUT : Fld := ⟨28, 25⟩
/-- CLAIMANT of PCMP_CTRL. -/
def F.pcmpCtrl_CLAIMANT : Fld := ⟨15, 0⟩
/-- PCMP_STATUS of n (spec/10). -/
def Reg.pcmpStatus (n : Nat) : Nat := 0x302014 + 0x20 * n
/-- ARMED of PCMP_STATUS. -/
def F.pcmpStatus_ARMED : Fld := ⟨31, 31⟩
/-- LATE of PCMP_STATUS. -/
def F.pcmpStatus_LATE : Fld := ⟨30, 30⟩
/-- MISSED of PCMP_STATUS. -/
def F.pcmpStatus_MISSED : Fld := ⟨29, 16⟩
/-- MATCHES of PCMP_STATUS. -/
def F.pcmpStatus_MATCHES : Fld := ⟨15, 0⟩
/-- PCMP_MATCH_GTS of n (spec/10). -/
def Reg.pcmpMatchGts (n : Nat) : Nat := 0x302018 + 0x20 * n
/-- FSYNC_CFG of n (spec/10). -/
def Reg.fsyncCfg (n : Nat) : Nat := 0x303000 + 0x4 * n
/-- ENABLE of FSYNC_CFG. -/
def F.fsyncCfg_ENABLE : Fld := ⟨31, 31⟩
/-- POL of FSYNC_CFG. -/
def F.fsyncCfg_POL : Fld := ⟨30, 30⟩
/-- WIDTH of FSYNC_CFG. -/
def F.fsyncCfg_WIDTH : Fld := ⟨15, 0⟩
/-- FSYNC_STATUS of n (spec/10). -/
def Reg.fsyncStatus (n : Nat) : Nat := 0x303040 + 0x4 * n
/-- OVERLAP of FSYNC_STATUS. -/
def F.fsyncStatus_OVERLAP : Fld := ⟨31, 16⟩
/-- PULSES of FSYNC_STATUS. -/
def F.fsyncStatus_PULSES : Fld := ⟨15, 0⟩
/-- FTN_STATUS of f (spec/04). -/
def Reg.ftnStatus (f : Nat) : Nat := 0x400000 + 0x100000 * f
/-- WIDTH of FTN_STATUS. -/
def F.ftnStatus_WIDTH : Fld := ⟨31, 24⟩
/-- FSIZE of FTN_STATUS. -/
def F.ftnStatus_FSIZE : Fld := ⟨20, 16⟩
/-- SWAP_PENDING of FTN_STATUS. -/
def F.ftnStatus_SWAP_PENDING : Fld := ⟨11, 11⟩
/-- ACTIVE_BANK of FTN_STATUS. -/
def F.ftnStatus_ACTIVE_BANK : Fld := ⟨10, 10⟩
/-- WAITING of FTN_STATUS. -/
def F.ftnStatus_WAITING : Fld := ⟨9, 9⟩
/-- STATE of FTN_STATUS. -/
def F.ftnStatus_STATE : Fld := ⟨3, 0⟩
/-- FTN_CTRL of f (spec/04). -/
def Reg.ftnCtrl (f : Nat) : Nat := 0x400004 + 0x100000 * f
/-- HOST_IMEM of FTN_CTRL. -/
def F.ftnCtrl_HOST_IMEM : Fld := ⟨0, 0⟩
/-- FTN_PC of f (spec/04). -/
def Reg.ftnPc (f : Nat) : Nat := 0x400008 + 0x100000 * f
/-- BANK of FTN_PC. -/
def F.ftnPc_BANK : Fld := ⟨12, 12⟩
/-- ADDR of FTN_PC. -/
def F.ftnPc_ADDR : Fld := ⟨11, 0⟩
/-- FTN_FAULT of f (spec/04). -/
def Reg.ftnFault (f : Nat) : Nat := 0x40000C + 0x100000 * f
/-- VALID of FTN_FAULT. -/
def F.ftnFault_VALID : Fld := ⟨31, 31⟩
/-- CODE of FTN_FAULT. -/
def F.ftnFault_CODE : Fld := ⟨27, 24⟩
/-- BANK of FTN_FAULT. -/
def F.ftnFault_BANK : Fld := ⟨12, 12⟩
/-- ADDR of FTN_FAULT. -/
def F.ftnFault_ADDR : Fld := ⟨11, 0⟩
/-- FTN_CYCLES of f (spec/04). -/
def Reg.ftnCycles (f : Nat) : Nat := 0x400010 + 0x100000 * f
/-- FTN_BUDGET of f (spec/04). -/
def Reg.ftnBudget (f : Nat) : Nat := 0x400014 + 0x100000 * f
/-- FTN_WAIT of f (spec/04). -/
def Reg.ftnWait (f : Nat) : Nat := 0x400018 + 0x100000 * f
/-- FTN_HELD of f (spec/04). -/
def Reg.ftnHeld (f : Nat) : Nat := 0x40001C + 0x100000 * f
/-- COUNT of FTN_HELD. -/
def F.ftnHeld_COUNT : Fld := ⟨4, 0⟩
/-- FTN_IMEM_STATUS of f (spec/04). -/
def Reg.ftnImemStatus (f : Nat) : Nat := 0x400020 + 0x100000 * f
/-- CE_COUNT of FTN_IMEM_STATUS. -/
def F.ftnImemStatus_CE_COUNT : Fld := ⟨31, 16⟩
/-- IMEM_BUSY of FTN_IMEM_STATUS. -/
def F.ftnImemStatus_IMEM_BUSY : Fld := ⟨2, 2⟩
/-- LOADING of FTN_IMEM_STATUS. -/
def F.ftnImemStatus_LOADING : Fld := ⟨1, 1⟩
/-- FTN_LC of f, n (spec/04). -/
def Reg.ftnLc (f n : Nat) : Nat := 0x400040 + 0x100000 * f + 0x4 * n
/-- VALUE of FTN_LC. -/
def F.ftnLc_VALUE : Fld := ⟨15, 0⟩
/-- FTN_PRED of f (spec/04). -/
def Reg.ftnPred (f : Nat) : Nat := 0x400060 + 0x100000 * f
/-- BOUND of FTN_PRED. -/
def F.ftnPred_BOUND : Fld := ⟨7, 4⟩
/-- PRED of FTN_PRED. -/
def F.ftnPred_PRED : Fld := ⟨3, 0⟩
/-- FTN_STAT_MAXABS of f, s (spec/07). -/
def Reg.ftnStatMaxabs (f s : Nat) : Nat := 0x400400 + 0x100000 * f + 0x10 * s
/-- FTN_STAT_SAT of f, s (spec/07). -/
def Reg.ftnStatSat (f s : Nat) : Nat := 0x400404 + 0x100000 * f + 0x10 * s
/-- FTN_STAT_ELEMS of f, s (spec/07). -/
def Reg.ftnStatElems (f s : Nat) : Nat := 0x400408 + 0x100000 * f + 0x10 * s
/-- FTN_STAT_INFO of f, s (spec/07). -/
def Reg.ftnStatInfo (f s : Nat) : Nat := 0x40040C + 0x100000 * f + 0x10 * s
/-- NAN of FTN_STAT_INFO. -/
def F.ftnStatInfo_NAN : Fld := ⟨1, 1⟩
/-- FLOAT of FTN_STAT_INFO. -/
def F.ftnStatInfo_FLOAT : Fld := ⟨0, 0⟩
/-- CORE_INDEX of c (spec/03). -/
def Reg.coreIndex (c : Nat) : Nat := 0x800000 + 0x10000 * c
/-- VALID of CORE_INDEX. -/
def F.coreIndex_VALID : Fld := ⟨31, 31⟩
/-- FSIZE of CORE_INDEX. -/
def F.coreIndex_FSIZE : Fld := ⟨28, 24⟩
/-- POS of CORE_INDEX. -/
def F.coreIndex_POS : Fld := ⟨19, 16⟩
/-- FOUNTAIN of CORE_INDEX. -/
def F.coreIndex_FOUNTAIN : Fld := ⟨9, 8⟩
/-- CORE of CORE_INDEX. -/
def F.coreIndex_CORE : Fld := ⟨3, 0⟩
/-- CORE_STATUS of c (spec/03). -/
def Reg.coreStatus (c : Nat) : Nat := 0x800004 + 0x10000 * c
/-- WIDTH of CORE_STATUS. -/
def F.coreStatus_WIDTH : Fld := ⟨23, 16⟩
/-- BIST_FAIL of CORE_STATUS. -/
def F.coreStatus_BIST_FAIL : Fld := ⟨7, 7⟩
/-- BIST_DONE of CORE_STATUS. -/
def F.coreStatus_BIST_DONE : Fld := ⟨6, 6⟩
/-- FAULT of CORE_STATUS. -/
def F.coreStatus_FAULT : Fld := ⟨5, 5⟩
/-- BIST_REFUSED of CORE_STATUS. -/
def F.coreStatus_BIST_REFUSED : Fld := ⟨4, 4⟩
/-- STATE of CORE_STATUS. -/
def F.coreStatus_STATE : Fld := ⟨2, 0⟩
/-- CORE_WIDTH of c (spec/03). -/
def Reg.coreWidth (c : Nat) : Nat := 0x800008 + 0x10000 * c
/-- A3_WIDTH of CORE_WIDTH. -/
def F.coreWidth_A3_WIDTH : Fld := ⟨31, 24⟩
/-- A2_WIDTH of CORE_WIDTH. -/
def F.coreWidth_A2_WIDTH : Fld := ⟨23, 16⟩
/-- A1_WIDTH of CORE_WIDTH. -/
def F.coreWidth_A1_WIDTH : Fld := ⟨15, 8⟩
/-- A0_WIDTH of CORE_WIDTH. -/
def F.coreWidth_A0_WIDTH : Fld := ⟨7, 0⟩
/-- CORE_PW of c (spec/03). -/
def Reg.corePw (c : Nat) : Nat := 0x80000C + 0x10000 * c
/-- PW of CORE_PW. -/
def F.corePw_PW : Fld := ⟨6, 0⟩
/-- ARRAY_BADCOL_LO of c, a (spec/03). -/
def Reg.arrayBadcolLo (c a : Nat) : Nat := 0x800010 + 0x10000 * c + 0x8 * a
/-- ARRAY_BADCOL_HI of c, a (spec/03). -/
def Reg.arrayBadcolHi (c a : Nat) : Nat := 0x800014 + 0x10000 * c + 0x8 * a
/-- CORE_BIST_CTRL of c (spec/03). -/
def Reg.coreBistCtrl (c : Nat) : Nat := 0x800030 + 0x10000 * c
/-- START of CORE_BIST_CTRL. -/
def F.coreBistCtrl_START : Fld := ⟨0, 0⟩
/-- CORE_BIST_RESULT of c (spec/03). -/
def Reg.coreBistResult (c : Nat) : Nat := 0x800034 + 0x10000 * c
/-- FAIL_UNIT of CORE_BIST_RESULT. -/
def F.coreBistResult_FAIL_UNIT : Fld := ⟨31, 28⟩
/-- NEW_BAD of CORE_BIST_RESULT. -/
def F.coreBistResult_NEW_BAD : Fld := ⟨19, 16⟩
/-- DURATION_US of CORE_BIST_RESULT. -/
def F.coreBistResult_DURATION_US : Fld := ⟨15, 0⟩
/-- RESIDUE_LOG of c (spec/03). -/
def Reg.residueLog (c : Nat) : Nat := 0x800040 + 0x10000 * c
/-- VALID of RESIDUE_LOG. -/
def F.residueLog_VALID : Fld := ⟨31, 31⟩
/-- ARRAY of RESIDUE_LOG. -/
def F.residueLog_ARRAY : Fld := ⟨30, 29⟩
/-- ROW of RESIDUE_LOG. -/
def F.residueLog_ROW : Fld := ⟨28, 24⟩
/-- PHYS_COL of RESIDUE_LOG. -/
def F.residueLog_PHYS_COL : Fld := ⟨23, 18⟩
/-- FMT of RESIDUE_LOG. -/
def F.residueLog_FMT : Fld := ⟨17, 14⟩
/-- MODE of RESIDUE_LOG. -/
def F.residueLog_MODE : Fld := ⟨13, 11⟩
/-- RESIDUE_COUNT of c (spec/03). -/
def Reg.residueCount (c : Nat) : Nat := 0x800044 + 0x10000 * c
/-- COUNT of RESIDUE_COUNT. -/
def F.residueCount_COUNT : Fld := ⟨15, 0⟩
/-- ACC_CE_COUNT of c (spec/03). -/
def Reg.accCeCount (c : Nat) : Nat := 0x800048 + 0x10000 * c
/-- VREG of ACC_CE_COUNT. -/
def F.accCeCount_VREG : Fld := ⟨31, 16⟩
/-- ACC of ACC_CE_COUNT. -/
def F.accCeCount_ACC : Fld := ⟨15, 0⟩
/-- RILL_STATUS of c (spec/05). -/
def Reg.rillStatus (c : Nat) : Nat := 0x800200 + 0x10000 * c
/-- STORE of RILL_STATUS. -/
def F.rillStatus_STORE : Fld := ⟨11, 8⟩
/-- LOAD of RILL_STATUS. -/
def F.rillStatus_LOAD : Fld := ⟨7, 0⟩
/-- MEM_CE_COUNT of c (spec/05). -/
def Reg.memCeCount (c : Nat) : Nat := 0x800204 + 0x10000 * c
/-- RESERVOIR of MEM_CE_COUNT. -/
def F.memCeCount_RESERVOIR : Fld := ⟨31, 16⟩
/-- BASIN of MEM_CE_COUNT. -/
def F.memCeCount_BASIN : Fld := ⟨15, 0⟩
/-- SLUICE_COUNT of c, s (spec/05). -/
def Reg.sluiceCount (c s : Nat) : Nat := 0x800220 + 0x10000 * c + 0x4 * s
/-- COUNT of SLUICE_COUNT. -/
def F.sluiceCount_COUNT : Fld := ⟨11, 0⟩
/-- DRAIN_STATUS of c (spec/06). -/
def Reg.drainStatus (c : Nat) : Nat := 0x800300 + 0x10000 * c
/-- RAW_ROWS of DRAIN_STATUS. -/
def F.drainStatus_RAW_ROWS : Fld := ⟨24, 16⟩
/-- RES_WAIT of DRAIN_STATUS. -/
def F.drainStatus_RES_WAIT : Fld := ⟨15, 15⟩
/-- OUT_BYTES of DRAIN_STATUS. -/
def F.drainStatus_OUT_BYTES : Fld := ⟨14, 0⟩
/-- DRAIN_PEAK of c (spec/06). -/
def Reg.drainPeak (c : Nat) : Nat := 0x800304 + 0x10000 * c
/-- PEAK of DRAIN_PEAK. -/
def F.drainPeak_PEAK : Fld := ⟨8, 0⟩
/-- CASCADE_INJ_UNLOCK of c (spec/13). -/
def Reg.cascadeInjUnlock (c : Nat) : Nat := 0x800100 + 0x10000 * c
/-- CASCADE_INJ_SEL of c (spec/13). -/
def Reg.cascadeInjSel (c : Nat) : Nat := 0x800104 + 0x10000 * c
/-- DET of CASCADE_INJ_SEL. -/
def F.cascadeInjSel_DET : Fld := ⟨31, 24⟩
/-- SITE of CASCADE_INJ_SEL. -/
def F.cascadeInjSel_SITE : Fld := ⟨23, 16⟩
/-- TARGET of CASCADE_INJ_SEL. -/
def F.cascadeInjSel_TARGET : Fld := ⟨15, 0⟩
/-- CASCADE_INJ_MODE of c (spec/13). -/
def Reg.cascadeInjMode (c : Nat) : Nat := 0x800108 + 0x10000 * c
/-- ARM of CASCADE_INJ_MODE. -/
def F.cascadeInjMode_ARM : Fld := ⟨31, 31⟩
/-- EVERY of CASCADE_INJ_MODE. -/
def F.cascadeInjMode_EVERY : Fld := ⟨30, 30⟩
/-- ERR of CASCADE_INJ_MODE. -/
def F.cascadeInjMode_ERR : Fld := ⟨29, 28⟩
/-- N of CASCADE_INJ_MODE. -/
def F.cascadeInjMode_N : Fld := ⟨23, 0⟩
/-- CASCADE_INJ_COUNT of c (spec/13). -/
def Reg.cascadeInjCount (c : Nat) : Nat := 0x80010C + 0x10000 * c
/-- LIMIT of CASCADE_INJ_COUNT. -/
def F.cascadeInjCount_LIMIT : Fld := ⟨31, 16⟩
/-- MADE of CASCADE_INJ_COUNT. -/
def F.cascadeInjCount_MADE : Fld := ⟨15, 0⟩
/-- FOUNTAIN_INJ_UNLOCK of f (spec/13). -/
def Reg.fountainInjUnlock (f : Nat) : Nat := 0x400100 + 0x100000 * f
/-- FOUNTAIN_INJ_SEL of f (spec/13). -/
def Reg.fountainInjSel (f : Nat) : Nat := 0x400104 + 0x100000 * f
/-- DET of FOUNTAIN_INJ_SEL. -/
def F.fountainInjSel_DET : Fld := ⟨31, 24⟩
/-- SITE of FOUNTAIN_INJ_SEL. -/
def F.fountainInjSel_SITE : Fld := ⟨23, 16⟩
/-- TARGET of FOUNTAIN_INJ_SEL. -/
def F.fountainInjSel_TARGET : Fld := ⟨15, 0⟩
/-- FOUNTAIN_INJ_MODE of f (spec/13). -/
def Reg.fountainInjMode (f : Nat) : Nat := 0x400108 + 0x100000 * f
/-- ARM of FOUNTAIN_INJ_MODE. -/
def F.fountainInjMode_ARM : Fld := ⟨31, 31⟩
/-- EVERY of FOUNTAIN_INJ_MODE. -/
def F.fountainInjMode_EVERY : Fld := ⟨30, 30⟩
/-- ERR of FOUNTAIN_INJ_MODE. -/
def F.fountainInjMode_ERR : Fld := ⟨29, 28⟩
/-- N of FOUNTAIN_INJ_MODE. -/
def F.fountainInjMode_N : Fld := ⟨23, 0⟩
/-- FOUNTAIN_INJ_COUNT of f (spec/13). -/
def Reg.fountainInjCount (f : Nat) : Nat := 0x40010C + 0x100000 * f
/-- LIMIT of FOUNTAIN_INJ_COUNT. -/
def F.fountainInjCount_LIMIT : Fld := ⟨31, 16⟩
/-- MADE of FOUNTAIN_INJ_COUNT. -/
def F.fountainInjCount_MADE : Fld := ⟨15, 0⟩
/-- CISTERN_INJ_UNLOCK (spec/13). -/
def Reg.cisternInjUnlock : Nat := 0x900100
/-- CISTERN_INJ_SEL (spec/13). -/
def Reg.cisternInjSel : Nat := 0x900104
/-- DET of CISTERN_INJ_SEL. -/
def F.cisternInjSel_DET : Fld := ⟨31, 24⟩
/-- SITE of CISTERN_INJ_SEL. -/
def F.cisternInjSel_SITE : Fld := ⟨23, 16⟩
/-- TARGET of CISTERN_INJ_SEL. -/
def F.cisternInjSel_TARGET : Fld := ⟨15, 0⟩
/-- CISTERN_INJ_MODE (spec/13). -/
def Reg.cisternInjMode : Nat := 0x900108
/-- ARM of CISTERN_INJ_MODE. -/
def F.cisternInjMode_ARM : Fld := ⟨31, 31⟩
/-- EVERY of CISTERN_INJ_MODE. -/
def F.cisternInjMode_EVERY : Fld := ⟨30, 30⟩
/-- ERR of CISTERN_INJ_MODE. -/
def F.cisternInjMode_ERR : Fld := ⟨29, 28⟩
/-- N of CISTERN_INJ_MODE. -/
def F.cisternInjMode_N : Fld := ⟨23, 0⟩
/-- CISTERN_INJ_COUNT (spec/13). -/
def Reg.cisternInjCount : Nat := 0x90010C
/-- LIMIT of CISTERN_INJ_COUNT. -/
def F.cisternInjCount_LIMIT : Fld := ⟨31, 16⟩
/-- MADE of CISTERN_INJ_COUNT. -/
def F.cisternInjCount_MADE : Fld := ⟨15, 0⟩
/-- WEIR_INJ_UNLOCK (spec/13). -/
def Reg.weirInjUnlock : Nat := 0x200100
/-- WEIR_INJ_SEL (spec/13). -/
def Reg.weirInjSel : Nat := 0x200104
/-- DET of WEIR_INJ_SEL. -/
def F.weirInjSel_DET : Fld := ⟨31, 24⟩
/-- SITE of WEIR_INJ_SEL. -/
def F.weirInjSel_SITE : Fld := ⟨23, 16⟩
/-- TARGET of WEIR_INJ_SEL. -/
def F.weirInjSel_TARGET : Fld := ⟨15, 0⟩
/-- WEIR_INJ_MODE (spec/13). -/
def Reg.weirInjMode : Nat := 0x200108
/-- ARM of WEIR_INJ_MODE. -/
def F.weirInjMode_ARM : Fld := ⟨31, 31⟩
/-- EVERY of WEIR_INJ_MODE. -/
def F.weirInjMode_EVERY : Fld := ⟨30, 30⟩
/-- ERR of WEIR_INJ_MODE. -/
def F.weirInjMode_ERR : Fld := ⟨29, 28⟩
/-- N of WEIR_INJ_MODE. -/
def F.weirInjMode_N : Fld := ⟨23, 0⟩
/-- WEIR_INJ_COUNT (spec/13). -/
def Reg.weirInjCount : Nat := 0x20010C
/-- LIMIT of WEIR_INJ_COUNT. -/
def F.weirInjCount_LIMIT : Fld := ⟨31, 16⟩
/-- MADE of WEIR_INJ_COUNT. -/
def F.weirInjCount_MADE : Fld := ⟨15, 0⟩
/-- CSI_INJ_UNLOCK (spec/13). -/
def Reg.csiInjUnlock : Nat := 0xE00100
/-- CSI_INJ_SEL (spec/13). -/
def Reg.csiInjSel : Nat := 0xE00104
/-- DET of CSI_INJ_SEL. -/
def F.csiInjSel_DET : Fld := ⟨31, 24⟩
/-- SITE of CSI_INJ_SEL. -/
def F.csiInjSel_SITE : Fld := ⟨23, 16⟩
/-- TARGET of CSI_INJ_SEL. -/
def F.csiInjSel_TARGET : Fld := ⟨15, 0⟩
/-- CSI_INJ_MODE (spec/13). -/
def Reg.csiInjMode : Nat := 0xE00108
/-- ARM of CSI_INJ_MODE. -/
def F.csiInjMode_ARM : Fld := ⟨31, 31⟩
/-- EVERY of CSI_INJ_MODE. -/
def F.csiInjMode_EVERY : Fld := ⟨30, 30⟩
/-- ERR of CSI_INJ_MODE. -/
def F.csiInjMode_ERR : Fld := ⟨29, 28⟩
/-- N of CSI_INJ_MODE. -/
def F.csiInjMode_N : Fld := ⟨23, 0⟩
/-- CSI_INJ_COUNT (spec/13). -/
def Reg.csiInjCount : Nat := 0xE0010C
/-- LIMIT of CSI_INJ_COUNT. -/
def F.csiInjCount_LIMIT : Fld := ⟨31, 16⟩
/-- MADE of CSI_INJ_COUNT. -/
def F.csiInjCount_MADE : Fld := ⟨15, 0⟩
/-- CODEC_INJ_UNLOCK (spec/13). -/
def Reg.codecInjUnlock : Nat := 0xF00100
/-- CODEC_INJ_SEL (spec/13). -/
def Reg.codecInjSel : Nat := 0xF00104
/-- DET of CODEC_INJ_SEL. -/
def F.codecInjSel_DET : Fld := ⟨31, 24⟩
/-- SITE of CODEC_INJ_SEL. -/
def F.codecInjSel_SITE : Fld := ⟨23, 16⟩
/-- TARGET of CODEC_INJ_SEL. -/
def F.codecInjSel_TARGET : Fld := ⟨15, 0⟩
/-- CODEC_INJ_MODE (spec/13). -/
def Reg.codecInjMode : Nat := 0xF00108
/-- ARM of CODEC_INJ_MODE. -/
def F.codecInjMode_ARM : Fld := ⟨31, 31⟩
/-- EVERY of CODEC_INJ_MODE. -/
def F.codecInjMode_EVERY : Fld := ⟨30, 30⟩
/-- ERR of CODEC_INJ_MODE. -/
def F.codecInjMode_ERR : Fld := ⟨29, 28⟩
/-- N of CODEC_INJ_MODE. -/
def F.codecInjMode_N : Fld := ⟨23, 0⟩
/-- CODEC_INJ_COUNT (spec/13). -/
def Reg.codecInjCount : Nat := 0xF0010C
/-- LIMIT of CODEC_INJ_COUNT. -/
def F.codecInjCount_LIMIT : Fld := ⟨31, 16⟩
/-- MADE of CODEC_INJ_COUNT. -/
def F.codecInjCount_MADE : Fld := ⟨15, 0⟩
/-- PHASEIO_INJ_UNLOCK (spec/13). -/
def Reg.phaseioInjUnlock : Nat := 0x1300100
/-- PHASEIO_INJ_SEL (spec/13). -/
def Reg.phaseioInjSel : Nat := 0x1300104
/-- DET of PHASEIO_INJ_SEL. -/
def F.phaseioInjSel_DET : Fld := ⟨31, 24⟩
/-- SITE of PHASEIO_INJ_SEL. -/
def F.phaseioInjSel_SITE : Fld := ⟨23, 16⟩
/-- TARGET of PHASEIO_INJ_SEL. -/
def F.phaseioInjSel_TARGET : Fld := ⟨15, 0⟩
/-- PHASEIO_INJ_MODE (spec/13). -/
def Reg.phaseioInjMode : Nat := 0x1300108
/-- ARM of PHASEIO_INJ_MODE. -/
def F.phaseioInjMode_ARM : Fld := ⟨31, 31⟩
/-- EVERY of PHASEIO_INJ_MODE. -/
def F.phaseioInjMode_EVERY : Fld := ⟨30, 30⟩
/-- ERR of PHASEIO_INJ_MODE. -/
def F.phaseioInjMode_ERR : Fld := ⟨29, 28⟩
/-- N of PHASEIO_INJ_MODE. -/
def F.phaseioInjMode_N : Fld := ⟨23, 0⟩
/-- PHASEIO_INJ_COUNT (spec/13). -/
def Reg.phaseioInjCount : Nat := 0x130010C
/-- LIMIT of PHASEIO_INJ_COUNT. -/
def F.phaseioInjCount_LIMIT : Fld := ⟨31, 16⟩
/-- MADE of PHASEIO_INJ_COUNT. -/
def F.phaseioInjCount_MADE : Fld := ⟨15, 0⟩
/-- DDR_INJ_UNLOCK (spec/13). -/
def Reg.ddrInjUnlock : Nat := 0x1000100
/-- DDR_INJ_SEL (spec/13). -/
def Reg.ddrInjSel : Nat := 0x1000104
/-- DET of DDR_INJ_SEL. -/
def F.ddrInjSel_DET : Fld := ⟨31, 24⟩
/-- SITE of DDR_INJ_SEL. -/
def F.ddrInjSel_SITE : Fld := ⟨23, 16⟩
/-- TARGET of DDR_INJ_SEL. -/
def F.ddrInjSel_TARGET : Fld := ⟨15, 0⟩
/-- DDR_INJ_MODE (spec/13). -/
def Reg.ddrInjMode : Nat := 0x1000108
/-- ARM of DDR_INJ_MODE. -/
def F.ddrInjMode_ARM : Fld := ⟨31, 31⟩
/-- EVERY of DDR_INJ_MODE. -/
def F.ddrInjMode_EVERY : Fld := ⟨30, 30⟩
/-- ERR of DDR_INJ_MODE. -/
def F.ddrInjMode_ERR : Fld := ⟨29, 28⟩
/-- N of DDR_INJ_MODE. -/
def F.ddrInjMode_N : Fld := ⟨23, 0⟩
/-- DDR_INJ_COUNT (spec/13). -/
def Reg.ddrInjCount : Nat := 0x100010C
/-- LIMIT of DDR_INJ_COUNT. -/
def F.ddrInjCount_LIMIT : Fld := ⟨31, 16⟩
/-- MADE of DDR_INJ_COUNT. -/
def F.ddrInjCount_MADE : Fld := ⟨15, 0⟩
/-- PCIE_INJ_UNLOCK (spec/13). -/
def Reg.pcieInjUnlock : Nat := 0x1100100
/-- PCIE_INJ_SEL (spec/13). -/
def Reg.pcieInjSel : Nat := 0x1100104
/-- DET of PCIE_INJ_SEL. -/
def F.pcieInjSel_DET : Fld := ⟨31, 24⟩
/-- SITE of PCIE_INJ_SEL. -/
def F.pcieInjSel_SITE : Fld := ⟨23, 16⟩
/-- TARGET of PCIE_INJ_SEL. -/
def F.pcieInjSel_TARGET : Fld := ⟨15, 0⟩
/-- PCIE_INJ_MODE (spec/13). -/
def Reg.pcieInjMode : Nat := 0x1100108
/-- ARM of PCIE_INJ_MODE. -/
def F.pcieInjMode_ARM : Fld := ⟨31, 31⟩
/-- EVERY of PCIE_INJ_MODE. -/
def F.pcieInjMode_EVERY : Fld := ⟨30, 30⟩
/-- ERR of PCIE_INJ_MODE. -/
def F.pcieInjMode_ERR : Fld := ⟨29, 28⟩
/-- N of PCIE_INJ_MODE. -/
def F.pcieInjMode_N : Fld := ⟨23, 0⟩
/-- PCIE_INJ_COUNT (spec/13). -/
def Reg.pcieInjCount : Nat := 0x110010C
/-- LIMIT of PCIE_INJ_COUNT. -/
def F.pcieInjCount_LIMIT : Fld := ⟨31, 16⟩
/-- MADE of PCIE_INJ_COUNT. -/
def F.pcieInjCount_MADE : Fld := ⟨15, 0⟩
/-- INTEGRITY_INJ_UNLOCK (spec/13). -/
def Reg.integrityInjUnlock : Nat := 0x1700100
/-- INTEGRITY_INJ_SEL (spec/13). -/
def Reg.integrityInjSel : Nat := 0x1700104
/-- DET of INTEGRITY_INJ_SEL. -/
def F.integrityInjSel_DET : Fld := ⟨31, 24⟩
/-- SITE of INTEGRITY_INJ_SEL. -/
def F.integrityInjSel_SITE : Fld := ⟨23, 16⟩
/-- TARGET of INTEGRITY_INJ_SEL. -/
def F.integrityInjSel_TARGET : Fld := ⟨15, 0⟩
/-- INTEGRITY_INJ_MODE (spec/13). -/
def Reg.integrityInjMode : Nat := 0x1700108
/-- ARM of INTEGRITY_INJ_MODE. -/
def F.integrityInjMode_ARM : Fld := ⟨31, 31⟩
/-- EVERY of INTEGRITY_INJ_MODE. -/
def F.integrityInjMode_EVERY : Fld := ⟨30, 30⟩
/-- ERR of INTEGRITY_INJ_MODE. -/
def F.integrityInjMode_ERR : Fld := ⟨29, 28⟩
/-- N of INTEGRITY_INJ_MODE. -/
def F.integrityInjMode_N : Fld := ⟨23, 0⟩
/-- INTEGRITY_INJ_COUNT (spec/13). -/
def Reg.integrityInjCount : Nat := 0x170010C
/-- LIMIT of INTEGRITY_INJ_COUNT. -/
def F.integrityInjCount_LIMIT : Fld := ⟨31, 16⟩
/-- MADE of INTEGRITY_INJ_COUNT. -/
def F.integrityInjCount_MADE : Fld := ⟨15, 0⟩
/-- CIS_STATUS (spec/05). -/
def Reg.cisStatus : Nat := 0x900000
/-- FREE_PAGES of CIS_STATUS. -/
def F.cisStatus_FREE_PAGES : Fld := ⟨25, 16⟩
/-- FILLING of CIS_STATUS. -/
def F.cisStatus_FILLING : Fld := ⟨9, 0⟩
/-- CIS_CE_COUNT (spec/05). -/
def Reg.cisCeCount : Nat := 0x900004
/-- CIS_UE_ADDR (spec/05). -/
def Reg.cisUeAddr : Nat := 0x900008
/-- VALID of CIS_UE_ADDR. -/
def F.cisUeAddr_VALID : Fld := ⟨31, 31⟩
/-- ADDR of CIS_UE_ADDR. -/
def F.cisUeAddr_ADDR : Fld := ⟨25, 0⟩
/-- CIS_ERR (spec/05). -/
def Reg.cisErr : Nat := 0x90000C
/-- VALID of CIS_ERR. -/
def F.cisErr_VALID : Fld := ⟨31, 31⟩
/-- PORT of CIS_ERR. -/
def F.cisErr_PORT : Fld := ⟨30, 26⟩
/-- PAGE of CIS_ERR. -/
def F.cisErr_PAGE : Fld := ⟨25, 16⟩
/-- COUNT of CIS_ERR. -/
def F.cisErr_COUNT : Fld := ⟨15, 0⟩
/-- CIS_PAGE_SEL (spec/05). -/
def Reg.cisPageSel : Nat := 0x900010
/-- PAGE of CIS_PAGE_SEL. -/
def F.cisPageSel_PAGE : Fld := ⟨9, 0⟩
/-- CIS_PAGE_INFO (spec/05). -/
def Reg.cisPageInfo : Nat := 0x900014
/-- STATE of CIS_PAGE_INFO. -/
def F.cisPageInfo_STATE : Fld := ⟨31, 28⟩
/-- REFS of CIS_PAGE_INFO. -/
def F.cisPageInfo_REFS : Fld := ⟨27, 16⟩
/-- DIRTY of CIS_PAGE_INFO. -/
def F.cisPageInfo_DIRTY : Fld := ⟨15, 15⟩
/-- POISON of CIS_PAGE_INFO. -/
def F.cisPageInfo_POISON : Fld := ⟨14, 14⟩
/-- WEIGHT of CIS_PAGE_INFO. -/
def F.cisPageInfo_WEIGHT : Fld := ⟨13, 13⟩
/-- SKIM_STATUS (spec/06). -/
def Reg.skimStatus : Nat := 0x901000
/-- STATE of SKIM_STATUS. -/
def F.skimStatus_STATE : Fld := ⟨31, 28⟩
/-- FAULT of SKIM_STATUS. -/
def F.skimStatus_FAULT : Fld := ⟨27, 24⟩
/-- FAULT_VALID of SKIM_STATUS. -/
def F.skimStatus_FAULT_VALID : Fld := ⟨0, 0⟩
/-- SKIM_CYCLES (spec/06). -/
def Reg.skimCycles : Nat := 0x901004
/-- SKIM_CE_COUNT (spec/06). -/
def Reg.skimCeCount : Nat := 0x901008
/-- COUNT of SKIM_CE_COUNT. -/
def F.skimCeCount_COUNT : Fld := ⟨15, 0⟩
/-- CIS_TOK_RING_LO (spec/09). -/
def Reg.cisTokRingLo : Nat := 0x902000
/-- VA of CIS_TOK_RING_LO. -/
def F.cisTokRingLo_VA : Fld := ⟨31, 12⟩
/-- LOG2 of CIS_TOK_RING_LO. -/
def F.cisTokRingLo_LOG2 : Fld := ⟨3, 0⟩
/-- CIS_TOK_RING_HI (spec/09). -/
def Reg.cisTokRingHi : Nat := 0x902004
/-- VA of CIS_TOK_RING_HI. -/
def F.cisTokRingHi_VA : Fld := ⟨15, 0⟩
/-- CIS_TOK_STATUS (spec/11). -/
def Reg.cisTokStatus : Nat := 0x902008
/-- STATE of CIS_TOK_STATUS. -/
def F.cisTokStatus_STATE : Fld := ⟨31, 28⟩
/-- LAST_RESULT of CIS_TOK_STATUS. -/
def F.cisTokStatus_LAST_RESULT : Fld := ⟨27, 24⟩
/-- SPILLED of CIS_TOK_STATUS. -/
def F.cisTokStatus_SPILLED : Fld := ⟨15, 0⟩
/-- SPOUT_RING_LO (spec/11). -/
def Reg.spoutRingLo : Nat := 0x903000
/-- VA of SPOUT_RING_LO. -/
def F.spoutRingLo_VA : Fld := ⟨31, 12⟩
/-- LOG2 of SPOUT_RING_LO. -/
def F.spoutRingLo_LOG2 : Fld := ⟨3, 0⟩
/-- SPOUT_RING_HI (spec/11). -/
def Reg.spoutRingHi : Nat := 0x903004
/-- VA of SPOUT_RING_HI. -/
def F.spoutRingHi_VA : Fld := ⟨15, 0⟩
/-- SPOUT_TAIL (spec/09). -/
def Reg.spoutTail : Nat := 0x903008
/-- TAIL_C of SPOUT_TAIL. -/
def F.spoutTail_TAIL_C : Fld := ⟨31, 16⟩
/-- TAIL of SPOUT_TAIL. -/
def F.spoutTail_TAIL : Fld := ⟨15, 0⟩
/-- SPOUT_HEAD (spec/11). -/
def Reg.spoutHead : Nat := 0x90300C
/-- COUNT of SPOUT_HEAD. -/
def F.spoutHead_COUNT : Fld := ⟨15, 0⟩
/-- SPOUT_HOST_RING_LO (spec/11). -/
def Reg.spoutHostRingLo : Nat := 0x903010
/-- VA of SPOUT_HOST_RING_LO. -/
def F.spoutHostRingLo_VA : Fld := ⟨31, 12⟩
/-- LOG2 of SPOUT_HOST_RING_LO. -/
def F.spoutHostRingLo_LOG2 : Fld := ⟨3, 0⟩
/-- SPOUT_HOST_RING_HI (spec/11). -/
def Reg.spoutHostRingHi : Nat := 0x903014
/-- VA of SPOUT_HOST_RING_HI. -/
def F.spoutHostRingHi_VA : Fld := ⟨15, 0⟩
/-- SPOUT_HOST_READ (spec/11). -/
def Reg.spoutHostRead : Nat := 0x903018
/-- SPOUT_CFG (spec/11). -/
def Reg.spoutCfg : Nat := 0x90301C
/-- HOST_VECTOR of SPOUT_CFG. -/
def F.spoutCfg_HOST_VECTOR : Fld := ⟨15, 8⟩
/-- VECTOR of SPOUT_CFG. -/
def F.spoutCfg_VECTOR : Fld := ⟨7, 0⟩
/-- SPOUT_BACKLOG (spec/11). -/
def Reg.spoutBacklog : Nat := 0x903020
/-- SPOUT_MEAN of n, c (spec/11). -/
def Reg.spoutMean (n c : Nat) : Nat := 0x903100 + 0x40 * n + 0x4 * c
/-- SPOUT_SCALE of n, c (spec/11). -/
def Reg.spoutScale (n c : Nat) : Nat := 0x903110 + 0x40 * n + 0x4 * c
/-- SPOUT_ZP of n (spec/11). -/
def Reg.spoutZp (n : Nat) : Nat := 0x903120 + 0x40 * n
/-- ZP of SPOUT_ZP. -/
def F.spoutZp_ZP : Fld := ⟨15, 0⟩
/-- PIPE_CTRL of p (spec/11). -/
def Reg.pipeCtrl (p : Nat) : Nat := 0xA00000 + 0x100000 * p
/-- ENABLE of PIPE_CTRL. -/
def F.pipeCtrl_ENABLE : Fld := ⟨0, 0⟩
/-- PIPE_STATUS of p (spec/11). -/
def Reg.pipeStatus (p : Nat) : Nat := 0xA00004 + 0x100000 * p
/-- STATE of PIPE_STATUS. -/
def F.pipeStatus_STATE : Fld := ⟨31, 28⟩
/-- STREAM of PIPE_STATUS. -/
def F.pipeStatus_STREAM : Fld := ⟨27, 24⟩
/-- QUEUE of PIPE_STATUS. -/
def F.pipeStatus_QUEUE : Fld := ⟨23, 16⟩
/-- OVERRUN_COUNT of PIPE_STATUS. -/
def F.pipeStatus_OVERRUN_COUNT : Fld := ⟨15, 0⟩
/-- PIPE_TUNE_BASE_LO of p (spec/11). -/
def Reg.pipeTuneBaseLo (p : Nat) : Nat := 0xA00008 + 0x100000 * p
/-- VA of PIPE_TUNE_BASE_LO. -/
def F.pipeTuneBaseLo_VA : Fld := ⟨31, 16⟩
/-- PIPE_TUNE_BASE_HI of p (spec/11). -/
def Reg.pipeTuneBaseHi (p : Nat) : Nat := 0xA0000C + 0x100000 * p
/-- VA of PIPE_TUNE_BASE_HI. -/
def F.pipeTuneBaseHi_VA : Fld := ⟨15, 0⟩
/-- PIPE_TUNE_SEL of p (spec/11). -/
def Reg.pipeTuneSel (p : Nat) : Nat := 0xA00010 + 0x100000 * p
/-- SEL of PIPE_TUNE_SEL. -/
def F.pipeTuneSel_SEL : Fld := ⟨15, 0⟩
/-- JET_CTRL of p (spec/06). -/
def Reg.jetCtrl (p : Nat) : Nat := 0xA08000 + 0x100000 * p
/-- ENABLE of JET_CTRL. -/
def F.jetCtrl_ENABLE : Fld := ⟨0, 0⟩
/-- JET_CFG of p (spec/06). -/
def Reg.jetCfg (p : Nat) : Nat := 0xA08004 + 0x100000 * p
/-- KH of JET_CFG. -/
def F.jetCfg_KH : Fld := ⟨27, 25⟩
/-- KW of JET_CFG. -/
def F.jetCfg_KW : Fld := ⟨24, 22⟩
/-- STRIDE2 of JET_CFG. -/
def F.jetCfg_STRIDE2 : Fld := ⟨21, 21⟩
/-- PAD of JET_CFG. -/
def F.jetCfg_PAD : Fld := ⟨20, 19⟩
/-- CIN4 of JET_CFG. -/
def F.jetCfg_CIN4 : Fld := ⟨18, 18⟩
/-- SB32 of JET_CFG. -/
def F.jetCfg_SB32 : Fld := ⟨17, 17⟩
/-- OUT_U8 of JET_CFG. -/
def F.jetCfg_OUT_U8 : Fld := ⟨16, 16⟩
/-- ACT of JET_CFG. -/
def F.jetCfg_ACT : Fld := ⟨15, 14⟩
/-- JET_QUANT of p (spec/06). -/
def Reg.jetQuant (p : Nat) : Nat := 0xA08008 + 0x100000 * p
/-- IN_ZP of JET_QUANT. -/
def F.jetQuant_IN_ZP : Fld := ⟨31, 24⟩
/-- ZP_OUT of JET_QUANT. -/
def F.jetQuant_ZP_OUT : Fld := ⟨23, 16⟩
/-- SHIFT of JET_QUANT. -/
def F.jetQuant_SHIFT : Fld := ⟨15, 8⟩
/-- ACT_SHIFT of JET_QUANT. -/
def F.jetQuant_ACT_SHIFT : Fld := ⟨4, 0⟩
/-- JET_ACT_BASE of p (spec/06). -/
def Reg.jetActBase (p : Nat) : Nat := 0xA0800C + 0x100000 * p
/-- JET_STATUS of p (spec/06). -/
def Reg.jetStatus (p : Nat) : Nat := 0xA08010 + 0x100000 * p
/-- OVERRUN_COUNT of JET_STATUS. -/
def F.jetStatus_OVERRUN_COUNT : Fld := ⟨31, 16⟩
/-- OVERRUN of JET_STATUS. -/
def F.jetStatus_OVERRUN : Fld := ⟨1, 1⟩
/-- RUNNING of JET_STATUS. -/
def F.jetStatus_RUNNING : Fld := ⟨0, 0⟩
/-- JET_FRAME of p (spec/06). -/
def Reg.jetFrame (p : Nat) : Nat := 0xA08014 + 0x100000 * p
/-- JET_ROW_PITCH of p (spec/06). -/
def Reg.jetRowPitch (p : Nat) : Nat := 0xA08018 + 0x100000 * p
/-- JET_DST_LO of p, n (spec/06). -/
def Reg.jetDstLo (p n : Nat) : Nat := 0xA08020 + 0x100000 * p + 0x8 * n
/-- JET_DST_HI of p, n (spec/06). -/
def Reg.jetDstHi (p n : Nat) : Nat := 0xA08024 + 0x100000 * p + 0x8 * n
/-- JET_WEIGHTS of p, w (spec/06). -/
def Reg.jetWeights (p w : Nat) : Nat := 0xA09000 + 0x100000 * p + 0x4 * w
/-- JET_PARAMS of p, w (spec/06). -/
def Reg.jetParams (p w : Nat) : Nat := 0xA0C400 + 0x100000 * p + 0x4 * w
/-- JET_TABLE of p, w (spec/06). -/
def Reg.jetTable (p w : Nat) : Nat := 0xA0C600 + 0x100000 * p + 0x4 * w
/-- CSI_STREAM_TABLE_LO (spec/11). -/
def Reg.csiStreamTableLo : Nat := 0xE00000
/-- VA of CSI_STREAM_TABLE_LO. -/
def F.csiStreamTableLo_VA : Fld := ⟨31, 12⟩
/-- CSI_STREAM_TABLE_HI (spec/11). -/
def Reg.csiStreamTableHi : Nat := 0xE00004
/-- VA of CSI_STREAM_TABLE_HI. -/
def F.csiStreamTableHi_VA : Fld := ⟨15, 0⟩
/-- CSI_PORT_CFG of p (spec/11). -/
def Reg.csiPortCfg (p : Nat) : Nat := 0xE01000 + 0x100 * p
/-- ENABLE of CSI_PORT_CFG. -/
def F.csiPortCfg_ENABLE : Fld := ⟨31, 31⟩
/-- CPHY of CSI_PORT_CFG. -/
def F.csiPortCfg_CPHY : Fld := ⟨30, 30⟩
/-- LANES of CSI_PORT_CFG. -/
def F.csiPortCfg_LANES : Fld := ⟨29, 28⟩
/-- SCRAMBLE of CSI_PORT_CFG. -/
def F.csiPortCfg_SCRAMBLE : Fld := ⟨27, 27⟩
/-- SETTLE of CSI_PORT_CFG. -/
def F.csiPortCfg_SETTLE : Fld := ⟨15, 8⟩
/-- CSI_PORT_STATUS of p (spec/11). -/
def Reg.csiPortStatus (p : Nat) : Nat := 0xE01004 + 0x100 * p
/-- LINK of CSI_PORT_STATUS. -/
def F.csiPortStatus_LINK : Fld := ⟨31, 28⟩
/-- DESKEWED of CSI_PORT_STATUS. -/
def F.csiPortStatus_DESKEWED : Fld := ⟨27, 27⟩
/-- CSI_PORT_ERR of p (spec/11). -/
def Reg.csiPortErr (p : Nat) : Nat := 0xE01008 + 0x100 * p
/-- ECC_UNCORR of CSI_PORT_ERR. -/
def F.csiPortErr_ECC_UNCORR : Fld := ⟨31, 16⟩
/-- VC_OTHER of CSI_PORT_ERR. -/
def F.csiPortErr_VC_OTHER : Fld := ⟨15, 0⟩
/-- CSI_VC_CTRL of p, v (spec/11). -/
def Reg.csiVcCtrl (p v : Nat) : Nat := 0xE01040 + 0x100 * p + 0x10 * v
/-- ENABLE of CSI_VC_CTRL. -/
def F.csiVcCtrl_ENABLE : Fld := ⟨31, 31⟩
/-- RESTART of CSI_VC_CTRL. -/
def F.csiVcCtrl_RESTART : Fld := ⟨30, 30⟩
/-- CSI_VC_STATUS of p, v (spec/11). -/
def Reg.csiVcStatus (p v : Nat) : Nat := 0xE01044 + 0x100 * p + 0x10 * v
/-- STATE of CSI_VC_STATUS. -/
def F.csiVcStatus_STATE : Fld := ⟨31, 28⟩
/-- FRAMES of CSI_VC_STATUS. -/
def F.csiVcStatus_FRAMES : Fld := ⟨15, 0⟩
/-- CSI_VC_ERR of p, v (spec/11). -/
def Reg.csiVcErr (p v : Nat) : Nat := 0xE01048 + 0x100 * p + 0x10 * v
/-- CRC_LINES of CSI_VC_ERR. -/
def F.csiVcErr_CRC_LINES : Fld := ⟨31, 16⟩
/-- ECC_CORR of CSI_VC_ERR. -/
def F.csiVcErr_ECC_CORR : Fld := ⟨15, 8⟩
/-- DT_OTHER of CSI_VC_ERR. -/
def F.csiVcErr_DT_OTHER : Fld := ⟨7, 0⟩
/-- CSI_VC_REL of p, v (spec/11). -/
def Reg.csiVcRel (p v : Nat) : Nat := 0xE0104C + 0x100 * p + 0x10 * v
/-- RELEASED of CSI_VC_REL. -/
def F.csiVcRel_RELEASED : Fld := ⟨15, 0⟩
/-- CODEC_STATUS (spec/12). -/
def Reg.codecStatus : Nat := 0xF00000
/-- OPEN of CODEC_STATUS. -/
def F.codecStatus_OPEN : Fld := ⟨15, 8⟩
/-- BUSY of CODEC_STATUS. -/
def F.codecStatus_BUSY : Fld := ⟨7, 0⟩
/-- CODEC_SEI_UUID of i (spec/12). -/
def Reg.codecSeiUuid (i : Nat) : Nat := 0xF00010 + 0x4 * i
/-- CODEC_DEC_TAIL of s (spec/09). -/
def Reg.codecDecTail (s : Nat) : Nat := 0xF01000 + 0x10 * s
/-- TAIL_C of CODEC_DEC_TAIL. -/
def F.codecDecTail_TAIL_C : Fld := ⟨31, 16⟩
/-- TAIL of CODEC_DEC_TAIL. -/
def F.codecDecTail_TAIL : Fld := ⟨15, 0⟩
/-- CODEC_DEC_HEAD of s (spec/12). -/
def Reg.codecDecHead (s : Nat) : Nat := 0xF01004 + 0x10 * s
/-- COUNT of CODEC_DEC_HEAD. -/
def F.codecDecHead_COUNT : Fld := ⟨15, 0⟩
/-- CODEC_DEC_CTRL of s (spec/12). -/
def Reg.codecDecCtrl (s : Nat) : Nat := 0xF01008 + 0x10 * s
/-- RESTART of CODEC_DEC_CTRL. -/
def F.codecDecCtrl_RESTART : Fld := ⟨31, 31⟩
/-- CODEC_DEC_STATUS of s (spec/12). -/
def Reg.codecDecStatus (s : Nat) : Nat := 0xF0100C + 0x10 * s
/-- STATE of CODEC_DEC_STATUS. -/
def F.codecDecStatus_STATE : Fld := ⟨31, 28⟩
/-- ENGINE of CODEC_DEC_STATUS. -/
def F.codecDecStatus_ENGINE : Fld := ⟨27, 26⟩
/-- ERRORS of CODEC_DEC_STATUS. -/
def F.codecDecStatus_ERRORS : Fld := ⟨15, 0⟩
/-- CODEC_ENC_TAIL of e (spec/09). -/
def Reg.codecEncTail (e : Nat) : Nat := 0xF02000 + 0x10 * e
/-- TAIL_C of CODEC_ENC_TAIL. -/
def F.codecEncTail_TAIL_C : Fld := ⟨31, 16⟩
/-- TAIL of CODEC_ENC_TAIL. -/
def F.codecEncTail_TAIL : Fld := ⟨15, 0⟩
/-- CODEC_ENC_HEAD of e (spec/12). -/
def Reg.codecEncHead (e : Nat) : Nat := 0xF02004 + 0x10 * e
/-- COUNT of CODEC_ENC_HEAD. -/
def F.codecEncHead_COUNT : Fld := ⟨15, 0⟩
/-- CODEC_ENC_READ of e (spec/12). -/
def Reg.codecEncRead (e : Nat) : Nat := 0xF02008 + 0x10 * e
/-- CODEC_ENC_WRITE of e (spec/12). -/
def Reg.codecEncWrite (e : Nat) : Nat := 0xF0200C + 0x10 * e
/-- DDR_CLASS_WEIGHT of c (spec/05). -/
def Reg.ddrClassWeight (c : Nat) : Nat := 0x1000018 + 0x4 * (c - 2)
/-- WEIGHT of DDR_CLASS_WEIGHT. -/
def F.ddrClassWeight_WEIGHT : Fld := ⟨7, 0⟩
/-- DDR_FREE_SLOTS (spec/05). -/
def Reg.ddrFreeSlots : Nat := 0x1000040
/-- RESERVED of DDR_FREE_SLOTS. -/
def F.ddrFreeSlots_RESERVED : Fld := ⟨23, 16⟩
/-- USED_FREE of DDR_FREE_SLOTS. -/
def F.ddrFreeSlots_USED_FREE : Fld := ⟨15, 8⟩
/-- FREE of DDR_FREE_SLOTS. -/
def F.ddrFreeSlots_FREE : Fld := ⟨7, 0⟩
/-- DDR_TAG_SEL (spec/05). -/
def Reg.ddrTagSel : Nat := 0x1000044
/-- END_TAG of DDR_TAG_SEL. -/
def F.ddrTagSel_END_TAG : Fld := ⟨11, 0⟩
/-- DDR_TAG_KIB (spec/05). -/
def Reg.ddrTagKib : Nat := 0x1000048
/-- DDR_USABLE (spec/13). -/
def Reg.ddrUsable : Nat := 0x1000080
/-- DDR_CE_COUNT (spec/13). -/
def Reg.ddrCeCount : Nat := 0x1000084
/-- DDR_LINK_CE_COUNT (spec/13). -/
def Reg.ddrLinkCeCount : Nat := 0x1000088
/-- DDR_UE_COUNT (spec/13). -/
def Reg.ddrUeCount : Nat := 0x100008C
/-- DDR_SCRUB_STATUS (spec/13). -/
def Reg.ddrScrubStatus : Nat := 0x1000090
/-- PASSES of DDR_SCRUB_STATUS. -/
def F.ddrScrubStatus_PASSES : Fld := ⟨31, 16⟩
/-- SCRUB_UE of DDR_SCRUB_STATUS. -/
def F.ddrScrubStatus_SCRUB_UE : Fld := ⟨15, 0⟩
/-- PCIE_CFG (spec/16). -/
def Reg.pcieCfg : Nat := 0x1100000
/-- MODE of PCIE_CFG. -/
def F.pcieCfg_MODE : Fld := ⟨1, 0⟩
/-- ETH_TSQ_CTRL of n (spec/17). -/
def Reg.ethTsqCtrl (n : Nat) : Nat := 0x1201000 + 0x100 * n
/-- VALID of ETH_TSQ_CTRL. -/
def F.ethTsqCtrl_VALID : Fld := ⟨31, 31⟩
/-- POP of ETH_TSQ_CTRL. -/
def F.ethTsqCtrl_POP : Fld := ⟨30, 30⟩
/-- OVERFLOW of ETH_TSQ_CTRL. -/
def F.ethTsqCtrl_OVERFLOW : Fld := ⟨29, 29⟩
/-- DEPTH of ETH_TSQ_CTRL. -/
def F.ethTsqCtrl_DEPTH : Fld := ⟨6, 0⟩
/-- ETH_TSQ_NS of n (spec/17). -/
def Reg.ethTsqNs (n : Nat) : Nat := 0x1201004 + 0x100 * n
/-- ETH_TSQ_S_LO of n (spec/17). -/
def Reg.ethTsqSLo (n : Nat) : Nat := 0x1201008 + 0x100 * n
/-- ETH_TSQ_S_HI of n (spec/17). -/
def Reg.ethTsqSHi (n : Nat) : Nat := 0x120100C + 0x100 * n
/-- ETH_TSQ_ID of n (spec/17). -/
def Reg.ethTsqId (n : Nat) : Nat := 0x1201010 + 0x100 * n
/-- SEQUENCE_ID of ETH_TSQ_ID. -/
def F.ethTsqId_SEQUENCE_ID : Fld := ⟨31, 16⟩
/-- DOMAIN of ETH_TSQ_ID. -/
def F.ethTsqId_DOMAIN : Fld := ⟨15, 8⟩
/-- MSG_TYPE of ETH_TSQ_ID. -/
def F.ethTsqId_MSG_TYPE : Fld := ⟨3, 0⟩
/-- PHASE_CFG of n (spec/10). -/
def Reg.phaseCfg (n : Nat) : Nat := 0x1301000 + 0x40 * n
/-- ENABLE of PHASE_CFG. -/
def F.phaseCfg_ENABLE : Fld := ⟨31, 31⟩
/-- DIR of PHASE_CFG. -/
def F.phaseCfg_DIR : Fld := ⟨30, 30⟩
/-- VWIN of PHASE_CFG. -/
def F.phaseCfg_VWIN : Fld := ⟨27, 24⟩
/-- FILT of PHASE_CFG. -/
def F.phaseCfg_FILT : Fld := ⟨23, 20⟩
/-- QMODE of PHASE_CFG. -/
def F.phaseCfg_QMODE : Fld := ⟨19, 18⟩
/-- HOLDOFF_US of PHASE_CFG. -/
def F.phaseCfg_HOLDOFF_US : Fld := ⟨17, 0⟩
/-- PHASE_VMAX of n (spec/10). -/
def Reg.phaseVmax (n : Nat) : Nat := 0x1301004 + 0x40 * n
/-- VMAX of PHASE_VMAX. -/
def F.phaseVmax_VMAX : Fld := ⟨26, 0⟩
/-- PHASE_SSI of n (spec/10). -/
def Reg.phaseSsi (n : Nat) : Nat := 0x1301108 + 0x40 * (n - 4)
/-- CLKDIV of PHASE_SSI. -/
def F.phaseSsi_CLKDIV : Fld := ⟨31, 23⟩
/-- BITS of PHASE_SSI. -/
def F.phaseSsi_BITS : Fld := ⟨22, 18⟩
/-- GRAY of PHASE_SSI. -/
def F.phaseSsi_GRAY : Fld := ⟨17, 17⟩
/-- ERRBIT of PHASE_SSI. -/
def F.phaseSsi_ERRBIT : Fld := ⟨16, 16⟩
/-- PERIOD_US of PHASE_SSI. -/
def F.phaseSsi_PERIOD_US : Fld := ⟨13, 0⟩
/-- PHASE_STATUS of n (spec/10). -/
def Reg.phaseStatus (n : Nat) : Nat := 0x130100C + 0x40 * n
/-- OVERSPEED of PHASE_STATUS. -/
def F.phaseStatus_OVERSPEED : Fld := ⟨31, 31⟩
/-- REASON of PHASE_STATUS. -/
def F.phaseStatus_REASON : Fld := ⟨30, 28⟩
/-- CFG_REFUSED of PHASE_STATUS. -/
def F.phaseStatus_CFG_REFUSED : Fld := ⟨27, 27⟩
/-- DECLARED of PHASE_STATUS. -/
def F.phaseStatus_DECLARED : Fld := ⟨26, 26⟩
/-- LAST_D of PHASE_STATUS. -/
def F.phaseStatus_LAST_D : Fld := ⟨15, 0⟩
/-- PHASE_ZCAP_LO of n (spec/10). -/
def Reg.phaseZcapLo (n : Nat) : Nat := 0x1301010 + 0x40 * n
/-- PHASE_ZCAP_HI of n (spec/10). -/
def Reg.phaseZcapHi (n : Nat) : Nat := 0x1301014 + 0x40 * n
/-- VALID of PHASE_ZCAP_HI. -/
def F.phaseZcapHi_VALID : Fld := ⟨31, 31⟩
/-- POS_HI of PHASE_ZCAP_HI. -/
def F.phaseZcapHi_POS_HI : Fld := ⟨15, 0⟩
/-- PHASE_ERRCNT of n (spec/10). -/
def Reg.phaseErrcnt (n : Nat) : Nat := 0x1301018 + 0x40 * n
/-- SSI_ERR of PHASE_ERRCNT. -/
def F.phaseErrcnt_SSI_ERR : Fld := ⟨31, 16⟩
/-- QERR of PHASE_ERRCNT. -/
def F.phaseErrcnt_QERR : Fld := ⟨15, 0⟩
/-- SAFE_PAIR_STATUS of k (spec/13). -/
def Reg.safePairStatus (k : Nat) : Nat := 0x1400000 + 0x10 * k
/-- STATE of SAFE_PAIR_STATUS. -/
def F.safePairStatus_STATE : Fld := ⟨31, 30⟩
/-- LATCHED of SAFE_PAIR_STATUS. -/
def F.safePairStatus_LATCHED : Fld := ⟨29, 29⟩
/-- LAST_CAUSE of SAFE_PAIR_STATUS. -/
def F.safePairStatus_LAST_CAUSE : Fld := ⟨21, 16⟩
/-- STOP_COUNT of SAFE_PAIR_STATUS. -/
def F.safePairStatus_STOP_COUNT : Fld := ⟨15, 0⟩
/-- SAFE_CAUSE of k (spec/13). -/
def Reg.safeCause (k : Nat) : Nat := 0x1400004 + 0x10 * k
/-- OVERSPEED of SAFE_CAUSE. -/
def F.safeCause_OVERSPEED : Fld := ⟨24, 16⟩
/-- CAUSE of SAFE_CAUSE. -/
def F.safeCause_CAUSE : Fld := ⟨13, 0⟩
/-- SAFE_STOP_GTS of k (spec/13). -/
def Reg.safeStopGts (k : Nat) : Nat := 0x1400008 + 0x10 * k
/-- SAFE_ACTIVE (spec/13). -/
def Reg.safeActive : Nat := 0x1400040
/-- SAFE_SW_STOP (spec/13). -/
def Reg.safeSwStop : Nat := 0x1400044
/-- STOP_C of SAFE_SW_STOP. -/
def F.safeSwStop_STOP_C : Fld := ⟨19, 16⟩
/-- STOP of SAFE_SW_STOP. -/
def F.safeSwStop_STOP : Fld := ⟨3, 0⟩
/-- SAFE_KICK (spec/13). -/
def Reg.safeKick : Nat := 0x1400048
/-- SAFE_WDOG_LEFT (spec/13). -/
def Reg.safeWdogLeft : Nat := 0x140004C
/-- CLK_REF_STATUS (spec/15). -/
def Reg.clkRefStatus : Nat := 0x1500000
/-- SOURCE of CLK_REF_STATUS. -/
def F.clkRefStatus_SOURCE : Fld := ⟨31, 28⟩
/-- REF_GOOD of CLK_REF_STATUS. -/
def F.clkRefStatus_REF_GOOD : Fld := ⟨27, 27⟩
/-- RECOV_GOOD of CLK_REF_STATUS. -/
def F.clkRefStatus_RECOV_GOOD : Fld := ⟨26, 26⟩
/-- LOCKED of CLK_REF_STATUS. -/
def F.clkRefStatus_LOCKED : Fld := ⟨25, 25⟩
/-- TRANSFERS of CLK_REF_STATUS. -/
def F.clkRefStatus_TRANSFERS : Fld := ⟨15, 0⟩
/-- CLK_REF_CFG (spec/15). -/
def Reg.clkRefCfg : Nat := 0x1500004
/-- REVERT of CLK_REF_CFG. -/
def F.clkRefCfg_REVERT : Fld := ⟨31, 31⟩
/-- RECOV_PORT of CLK_REF_CFG. -/
def F.clkRefCfg_RECOV_PORT : Fld := ⟨28, 28⟩
/-- CLK_DIV (spec/15). -/
def Reg.clkDiv : Nat := 0x1500008
/-- CASCADE of CLK_DIV. -/
def F.clkDiv_CASCADE : Fld := ⟨31, 24⟩
/-- PIPE of CLK_DIV. -/
def F.clkDiv_PIPE : Fld := ⟨23, 16⟩
/-- CODEC of CLK_DIV. -/
def F.clkDiv_CODEC : Fld := ⟨15, 8⟩
/-- HOST of CLK_DIV. -/
def F.clkDiv_HOST : Fld := ⟨7, 0⟩
/-- CLK_MON_STATUS (spec/15). -/
def Reg.clkMonStatus : Nat := 0x150000C
/-- OUT of CLK_MON_STATUS. -/
def F.clkMonStatus_OUT : Fld := ⟨8, 0⟩
/-- CLK_GAP_COUNT (spec/15). -/
def Reg.clkGapCount : Nat := 0x1500010
/-- COUNT of CLK_GAP_COUNT. -/
def F.clkGapCount_COUNT : Fld := ⟨15, 0⟩
/-- CLK_GAP_LAST (spec/15). -/
def Reg.clkGapLast : Nat := 0x1500014
/-- POWER_STATUS (spec/15). -/
def Reg.powerStatus : Nat := 0x1600000
/-- OP of POWER_STATUS. -/
def F.powerStatus_OP : Fld := ⟨31, 28⟩
/-- TARGET of POWER_STATUS. -/
def F.powerStatus_TARGET : Fld := ⟨27, 24⟩
/-- PENDING of POWER_STATUS. -/
def F.powerStatus_PENDING : Fld := ⟨23, 20⟩
/-- FROZEN of POWER_STATUS. -/
def F.powerStatus_FROZEN : Fld := ⟨18, 18⟩
/-- FLOOR_HELD of POWER_STATUS. -/
def F.powerStatus_FLOOR_HELD : Fld := ⟨17, 17⟩
/-- AVS_TIMEOUT of POWER_STATUS. -/
def F.powerStatus_AVS_TIMEOUT : Fld := ⟨16, 16⟩
/-- AVS_FAULT of POWER_STATUS. -/
def F.powerStatus_AVS_FAULT : Fld := ⟨15, 15⟩
/-- CAP_W of POWER_STATUS. -/
def F.powerStatus_CAP_W : Fld := ⟨14, 8⟩
/-- THR_ACTIVE of POWER_STATUS. -/
def F.powerStatus_THR_ACTIVE : Fld := ⟨7, 0⟩
/-- POWER_CTRL (spec/15). -/
def Reg.powerCtrl : Nat := 0x1600004
/-- FLOOR_LOCK of POWER_CTRL. -/
def F.powerCtrl_FLOOR_LOCK : Fld := ⟨0, 0⟩
/-- POWER_OP_REQ (spec/15). -/
def Reg.powerOpReq : Nat := 0x1600008
/-- OP of POWER_OP_REQ. -/
def F.powerOpReq_OP : Fld := ⟨3, 0⟩
/-- POWER_SLEW (spec/15). -/
def Reg.powerSlew : Nat := 0x160000C
/-- MV_PER_US of POWER_SLEW. -/
def F.powerSlew_MV_PER_US : Fld := ⟨7, 0⟩
/-- POWER_EST (spec/15). -/
def Reg.powerEst : Nat := 0x1600010
/-- MEAN of POWER_EST. -/
def F.powerEst_MEAN : Fld := ⟨31, 16⟩
/-- NOW of POWER_EST. -/
def F.powerEst_NOW : Fld := ⟨15, 0⟩
/-- POWER_TEMP (spec/15). -/
def Reg.powerTemp : Nat := 0x1600014
/-- PEAK of POWER_TEMP. -/
def F.powerTemp_PEAK : Fld := ⟨31, 16⟩
/-- JUNCTION of POWER_TEMP. -/
def F.powerTemp_JUNCTION : Fld := ⟨15, 0⟩
/-- POWER_THR_DUR of r (spec/15). -/
def Reg.powerThrDur (r : Nat) : Nat := 0x1600020 + 0x4 * r
/-- POWER_DDR_TRAIN (spec/15). -/
def Reg.powerDdrTrain : Nat := 0x1600040
/-- TRAIN_TEMP of POWER_DDR_TRAIN. -/
def F.powerDdrTrain_TRAIN_TEMP : Fld := ⟨31, 16⟩
/-- FAIL_CH of POWER_DDR_TRAIN. -/
def F.powerDdrTrain_FAIL_CH : Fld := ⟨15, 8⟩
/-- INT_STATUS (spec/13). -/
def Reg.intStatus : Nat := 0x1700000
/-- TEST_EN of INT_STATUS. -/
def F.intStatus_TEST_EN : Fld := ⟨31, 31⟩
/-- DEBUG_GRANT of INT_STATUS. -/
def F.intStatus_DEBUG_GRANT : Fld := ⟨30, 30⟩
/-- INJ_ARMED of INT_STATUS. -/
def F.intStatus_INJ_ARMED : Fld := ⟨29, 29⟩
/-- TWIN_WRITE of INT_STATUS. -/
def F.intStatus_TWIN_WRITE : Fld := ⟨2, 2⟩
/-- INJ_REFUSED of INT_STATUS. -/
def F.intStatus_INJ_REFUSED : Fld := ⟨1, 1⟩
/-- PAR_PENDING of INT_STATUS. -/
def F.intStatus_PAR_PENDING : Fld := ⟨0, 0⟩
/-- INT_PAR_BLOCKS (spec/13). -/
def Reg.intParBlocks : Nat := 0x1700004
/-- INT_UE_LO (spec/13). -/
def Reg.intUeLo : Nat := 0x1700008
/-- INT_UE_HI (spec/13). -/
def Reg.intUeHi : Nat := 0x170000C
/-- VALID of INT_UE_HI. -/
def F.intUeHi_VALID : Fld := ⟨31, 31⟩
/-- UNIT of INT_UE_HI. -/
def F.intUeHi_UNIT : Fld := ⟨15, 8⟩
/-- ADDR_HI of INT_UE_HI. -/
def F.intUeHi_ADDR_HI : Fld := ⟨7, 0⟩
/-- INT_PM_LO of i (spec/13). -/
def Reg.intPmLo (i : Nat) : Nat := 0x1700200 + 0x8 * i
/-- INT_PM_HI of i (spec/13). -/
def Reg.intPmHi (i : Nat) : Nat := 0x1700204 + 0x8 * i
/-- VALID of INT_PM_HI. -/
def F.intPmHi_VALID : Fld := ⟨31, 31⟩
/-- UNIT of INT_PM_HI. -/
def F.intPmHi_UNIT : Fld := ⟨15, 8⟩
/-- ADDR_HI of INT_PM_HI. -/
def F.intPmHi_ADDR_HI : Fld := ⟨7, 0⟩
/-- INT_PM_COUNT (spec/13). -/
def Reg.intPmCount : Nat := 0x1700280
/-- DET_CTL of d (spec/13). -/
def Reg.detCtl (d : Nat) : Nat := 0x1701010 + 0x10 * (d - 1)
/-- EVENT_EACH of DET_CTL. -/
def F.detCtl_EVENT_EACH : Fld := ⟨1, 1⟩
/-- ENABLE of DET_CTL. -/
def F.detCtl_ENABLE : Fld := ⟨0, 0⟩
/-- DET_THRESH of d (spec/13). -/
def Reg.detThresh (d : Nat) : Nat := 0x1701014 + 0x10 * (d - 1)
/-- DET_COUNT of d (spec/13). -/
def Reg.detCount (d : Nat) : Nat := 0x1701018 + 0x10 * (d - 1)
/-- DET_LAST of d (spec/13). -/
def Reg.detLast (d : Nat) : Nat := 0x170101C + 0x10 * (d - 1)
/-- BOOT_STATUS (spec/14). -/
def Reg.bootStatus : Nat := 0x1800000
/-- STATE of BOOT_STATUS. -/
def F.bootStatus_STATE : Fld := ⟨31, 28⟩
/-- FAIL of BOOT_STATUS. -/
def F.bootStatus_FAIL : Fld := ⟨27, 24⟩
/-- READY of BOOT_STATUS. -/
def F.bootStatus_READY : Fld := ⟨23, 23⟩
/-- TRIAL of BOOT_STATUS. -/
def F.bootStatus_TRIAL : Fld := ⟨22, 22⟩
/-- CONFIRM of BOOT_STATUS. -/
def F.bootStatus_CONFIRM : Fld := ⟨21, 20⟩
/-- SLOT of BOOT_STATUS. -/
def F.bootStatus_SLOT : Fld := ⟨19, 19⟩
/-- FALLBACK of BOOT_STATUS. -/
def F.bootStatus_FALLBACK : Fld := ⟨18, 18⟩
/-- TRIAL_FAILED of BOOT_STATUS. -/
def F.bootStatus_TRIAL_FAILED : Fld := ⟨17, 17⟩
/-- VERSION_LOST of BOOT_STATUS. -/
def F.bootStatus_VERSION_LOST : Fld := ⟨16, 16⟩
/-- TAMPER of BOOT_STATUS. -/
def F.bootStatus_TAMPER : Fld := ⟨15, 15⟩
/-- KEY_LOCKED of BOOT_STATUS. -/
def F.bootStatus_KEY_LOCKED : Fld := ⟨14, 14⟩
/-- COLD_TRAINED of BOOT_STATUS. -/
def F.bootStatus_COLD_TRAINED : Fld := ⟨13, 13⟩
/-- BOOT_CAUSE (spec/14). -/
def Reg.bootCause : Nat := 0x1800004
/-- CAUSE of BOOT_CAUSE. -/
def F.bootCause_CAUSE : Fld := ⟨3, 0⟩
/-- BOOT_VERSION (spec/14). -/
def Reg.bootVersion : Nat := 0x1800008
/-- BOOT_MIN_VERSION (spec/14). -/
def Reg.bootMinVersion : Nat := 0x180000C
/-- BOOT_FUSE (spec/14). -/
def Reg.bootFuse : Nat := 0x1800010
/-- BOOT_TRIAL_LEFT (spec/14). -/
def Reg.bootTrialLeft : Nat := 0x1800014
/-- BOOT_T_STAGE1 (spec/14). -/
def Reg.bootTStage1 : Nat := 0x1800020
/-- BOOT_T_PARTERRE (spec/14). -/
def Reg.bootTParterre : Nat := 0x1800024
/-- BOOT_T_DRAM (spec/14). -/
def Reg.bootTDram : Nat := 0x1800028
/-- BOOT_T_READY (spec/14). -/
def Reg.bootTReady : Nat := 0x180002C
/-- BOOT_CONFIRM (spec/14). -/
def Reg.bootConfirm : Nat := 0x1800018
/-- BOOT_PCIE_GO (spec/14). -/
def Reg.bootPcieGo : Nat := 0x180001C
/-- BOOT_STAGE1_HASH of i (spec/14). -/
def Reg.bootStage1Hash (i : Nat) : Nat := 0x1800040 + 0x4 * i
/-- BOOT_DEVICE_ID of i (spec/14). -/
def Reg.bootDeviceId (i : Nat) : Nat := 0x1800080 + 0x4 * i
/-- BOOT_DEBUG_NONCE of i (spec/14). -/
def Reg.bootDebugNonce (i : Nat) : Nat := 0x1800090 + 0x4 * i
/-- BOOT_ATTEST_PUB of i (spec/14). -/
def Reg.bootAttestPub (i : Nat) : Nat := 0x1800200 + 0x4 * i
/-- FWP_STATE of n (spec/14). -/
def Reg.fwpState (n : Nat) : Nat := 0x1900000 + 0x40 * n
/-- STATE of FWP_STATE. -/
def F.fwpState_STATE : Fld := ⟨31, 28⟩
/-- VERSION of FWP_STATE. -/
def F.fwpState_VERSION : Fld := ⟨27, 0⟩
/-- FWP_RST_CAUSE of n (spec/14). -/
def Reg.fwpRstCause (n : Nat) : Nat := 0x1900004 + 0x40 * n
/-- CAUSE of FWP_RST_CAUSE. -/
def F.fwpRstCause_CAUSE : Fld := ⟨3, 0⟩
/-- FWP_RST_COUNT of n (spec/14). -/
def Reg.fwpRstCount (n : Nat) : Nat := 0x1900008 + 0x40 * n
/-- COUNT of FWP_RST_COUNT. -/
def F.fwpRstCount_COUNT : Fld := ⟨15, 0⟩
/-- FWP_LAST_PC of n (spec/14). -/
def Reg.fwpLastPc (n : Nat) : Nat := 0x190000C + 0x40 * n
/-- FWP_REQ_RING_LO (spec/14). -/
def Reg.fwpReqRingLo : Nat := 0x1900200
/-- VA of FWP_REQ_RING_LO. -/
def F.fwpReqRingLo_VA : Fld := ⟨31, 12⟩
/-- LOG2 of FWP_REQ_RING_LO. -/
def F.fwpReqRingLo_LOG2 : Fld := ⟨3, 0⟩
/-- FWP_REQ_RING_HI (spec/14). -/
def Reg.fwpReqRingHi : Nat := 0x1900204
/-- VA of FWP_REQ_RING_HI. -/
def F.fwpReqRingHi_VA : Fld := ⟨15, 0⟩
/-- FWP_REQ_TAIL (spec/09). -/
def Reg.fwpReqTail : Nat := 0x1900208
/-- TAIL_C of FWP_REQ_TAIL. -/
def F.fwpReqTail_TAIL_C : Fld := ⟨31, 16⟩
/-- TAIL of FWP_REQ_TAIL. -/
def F.fwpReqTail_TAIL : Fld := ⟨15, 0⟩
/-- FWP_REQ_HEAD (spec/14). -/
def Reg.fwpReqHead : Nat := 0x190020C
/-- COUNT of FWP_REQ_HEAD. -/
def F.fwpReqHead_COUNT : Fld := ⟨15, 0⟩
/-- FWP_RSP_RING_LO (spec/14). -/
def Reg.fwpRspRingLo : Nat := 0x1900210
/-- VA of FWP_RSP_RING_LO. -/
def F.fwpRspRingLo_VA : Fld := ⟨31, 12⟩
/-- LOG2 of FWP_RSP_RING_LO. -/
def F.fwpRspRingLo_LOG2 : Fld := ⟨3, 0⟩
/-- FWP_RSP_RING_HI (spec/14). -/
def Reg.fwpRspRingHi : Nat := 0x1900214
/-- VA of FWP_RSP_RING_HI. -/
def F.fwpRspRingHi_VA : Fld := ⟨15, 0⟩
/-- FWP_RSP_READ (spec/14). -/
def Reg.fwpRspRead : Nat := 0x1900218
/-- FWP_LOG_RING_LO (spec/14). -/
def Reg.fwpLogRingLo : Nat := 0x1900240
/-- VA of FWP_LOG_RING_LO. -/
def F.fwpLogRingLo_VA : Fld := ⟨31, 12⟩
/-- LOG2 of FWP_LOG_RING_LO. -/
def F.fwpLogRingLo_LOG2 : Fld := ⟨3, 0⟩
/-- FWP_LOG_RING_HI (spec/14). -/
def Reg.fwpLogRingHi : Nat := 0x1900244
/-- VA of FWP_LOG_RING_HI. -/
def F.fwpLogRingHi_VA : Fld := ⟨15, 0⟩
/-- FWP_LOG_COUNT (spec/14). -/
def Reg.fwpLogCount : Nat := 0x1900248
/-- FWP_TRACE_MASK (spec/14). -/
def Reg.fwpTraceMask : Nat := 0x190024C
/-- LEVEL of FWP_TRACE_MASK. -/
def F.fwpTraceMask_LEVEL : Fld := ⟨9, 0⟩
/-- FWP_CAM of s (spec/14). -/
def Reg.fwpCam (s : Nat) : Nat := 0x1901000 + 0x4 * s
/-- STATE of FWP_CAM. -/
def F.fwpCam_STATE : Fld := ⟨31, 28⟩
/-- SENSOR of FWP_CAM. -/
def F.fwpCam_SENSOR : Fld := ⟨27, 20⟩
/-- AT_MS of FWP_CAM. -/
def F.fwpCam_AT_MS : Fld := ⟨19, 0⟩
/-- PMX_CFG of g (spec/16). -/
def Reg.pmxCfg (g : Nat) : Nat := 0x1A00000 + 0x4 * g
/-- PARK of PMX_CFG. -/
def F.pmxCfg_PARK : Fld := ⟨10, 8⟩
/-- FUNCTION of PMX_CFG. -/
def F.pmxCfg_FUNCTION : Fld := ⟨7, 0⟩
/-- PMX_STATE of g (spec/16). -/
def Reg.pmxState (g : Nat) : Nat := 0x1A00080 + 0x4 * g
/-- SWITCHING of PMX_STATE. -/
def F.pmxState_SWITCHING : Fld := ⟨31, 31⟩
/-- PARK of PMX_STATE. -/
def F.pmxState_PARK : Fld := ⟨10, 8⟩
/-- FUNCTION of PMX_STATE. -/
def F.pmxState_FUNCTION : Fld := ⟨7, 0⟩
/-- PMX_STATUS (spec/16). -/
def Reg.pmxStatus : Nat := 0x1A00200
/-- LAST_GROUP of PMX_STATUS. -/
def F.pmxStatus_LAST_GROUP : Fld := ⟨12, 8⟩
/-- BUSY of PMX_STATUS. -/
def F.pmxStatus_BUSY : Fld := ⟨2, 2⟩
/-- LOCKED_REFUSED of PMX_STATUS. -/
def F.pmxStatus_LOCKED_REFUSED : Fld := ⟨1, 1⟩
/-- NOT_IDLE of PMX_STATUS. -/
def F.pmxStatus_NOT_IDLE : Fld := ⟨0, 0⟩
/-- GPIO_OUT_LO (spec/16). -/
def Reg.gpioOutLo : Nat := 0x1A00300
/-- GPIO_OUT_HI (spec/16). -/
def Reg.gpioOutHi : Nat := 0x1A00304
/-- GPIO_OE_LO (spec/16). -/
def Reg.gpioOeLo : Nat := 0x1A00308
/-- GPIO_OE_HI (spec/16). -/
def Reg.gpioOeHi : Nat := 0x1A0030C
/-- GPIO_IN_LO (spec/16). -/
def Reg.gpioInLo : Nat := 0x1A00310
/-- GPIO_IN_HI (spec/16). -/
def Reg.gpioInHi : Nat := 0x1A00314
/-- GATE_CTRL of g (spec/09). -/
def Reg.gateCtrl (g : Nat) : Nat := 0x1B00000 + 0x8 * g
/-- OP of GATE_CTRL. -/
def F.gateCtrl_OP : Fld := ⟨31, 29⟩
/-- VAL of GATE_CTRL. -/
def F.gateCtrl_VAL : Fld := ⟨28, 28⟩
/-- OWNER of GATE_CTRL. -/
def F.gateCtrl_OWNER : Fld := ⟨15, 0⟩
/-- GATE_STATE of g (spec/09). -/
def Reg.gateState (g : Nat) : Nat := 0x1B00004 + 0x8 * g
/-- LOCKED of GATE_STATE. -/
def F.gateState_LOCKED : Fld := ⟨31, 31⟩
/-- BROKEN of GATE_STATE. -/
def F.gateState_BROKEN : Fld := ⟨30, 30⟩
/-- FLAG of GATE_STATE. -/
def F.gateState_FLAG : Fld := ⟨29, 29⟩
/-- OWNER of GATE_STATE. -/
def F.gateState_OWNER : Fld := ⟨15, 0⟩
/-- GATE_FLAGS_LO (spec/09). -/
def Reg.gateFlagsLo : Nat := 0x1B00400
/-- GATE_FLAGS_HI (spec/09). -/
def Reg.gateFlagsHi : Nat := 0x1B00404
/-- GATE_BROKEN_LO (spec/09). -/
def Reg.gateBrokenLo : Nat := 0x1B00408
/-- GATE_BROKEN_HI (spec/09). -/
def Reg.gateBrokenHi : Nat := 0x1B0040C
/-- Rows of the CHIP block, part 1. -/
def RegRow.chipRows1 : List RegRow := [
  ⟨0x0, [], 0x0, 0xFFFFFFFF, 0x0, 0x0, 0x0, 0x0, 0x0, 0x71600100⟩,
  ⟨0x4, [], 0x0, 0xFFFFFFFF, 0x0, 0x0, 0x0, 0x0, 0x0, 0x0⟩,
  ⟨0x8, [], 0x0, 0xFFFFFFFF, 0x0, 0x0, 0x0, 0x0, 0x0, 0x0⟩,
  ⟨0xC, [], 0xFFFFFFFF, 0x0, 0x0, 0x0, 0x0, 0x0, 0x0, 0x0⟩,
  ⟨0x10, [], 0x0, 0x7FFFFFFF, 0x80000000, 0x0, 0x0, 0x0, 0x0, 0x0⟩,
  ⟨0x14, [], 0x0, 0xFFFFFFFF, 0x0, 0x0, 0x0, 0x0, 0x0, 0x0⟩,
  ⟨0x40, [], 0x0, 0x0, 0x0, 0xFFFFFFFF, 0x0, 0x0, 0x0, 0x0⟩,
  ⟨0x44, [], 0x0, 0xFFFFFFFF, 0x0, 0x0, 0x0, 0x0, 0x0, 0x0⟩,
  ⟨0x48, [], 0x0, 0xFFFF0000, 0xFFFF, 0x0, 0x0, 0x0, 0x0, 0x0⟩,
  ⟨0x4C, [], 0x0, 0x0, 0x0, 0xFFFFFFFF, 0x0, 0x0, 0x0, 0x0⟩,
  ⟨0x50, [(0x4, 4)], 0x0, 0xFFFFFFFF, 0x0, 0x0, 0x0, 0x0, 0x0, 0x0⟩,
  ⟨0x80, [(0x4, 16)], 0x0, 0xFFFFFFFF, 0x0, 0x0, 0x0, 0x0, 0x0, 0x0⟩]
/-- The rows of the CHIP block. -/
def RegRow.chipRows : List RegRow := RegRow.chipRows1
/-- Rows of the PARTERRE block, part 1. -/
def RegRow.parterreRows1 : List RegRow := [
  ⟨0x100000, [], 0x2, 0x0, 0x0, 0x1, 0x0, 0xFFFFFFFC, 0x0, 0x0⟩,
  ⟨0x100004, [], 0x0, 0xFFFF030F, 0x1C00, 0x0, 0x0, 0xE0F0, 0x0, 0x0⟩,
  ⟨0x100008, [], 0xFFFFFFF8, 0x0, 0x0, 0x0, 0x0, 0x7, 0x0, 0x0⟩,
  ⟨0x10000C, [], 0xFF, 0x0, 0x0, 0x0, 0x0, 0xFFFFFF00, 0x0, 0x0⟩,
  ⟨0x100010, [], 0x0, 0xFFFFFFFF, 0x0, 0x0, 0x0, 0x0, 0x0, 0x0⟩,
  ⟨0x100014, [], 0x0, 0xFFFFFFFF, 0x0, 0x0, 0x0, 0x0, 0x0, 0x0⟩,
  ⟨0x100018, [], 0x0, 0xFFFFFFFF, 0x0, 0x0, 0x0, 0x0, 0x0, 0x0⟩,
  ⟨0x10001C, [], 0x0, 0xFFFFFFFF, 0x0, 0x0, 0x0, 0x0, 0x0, 0x0⟩,
  ⟨0x100020, [], 0x0, 0xFFFFFFFF, 0x0, 0x0, 0x0, 0x0, 0x0, 0x0⟩,
  ⟨0x100030, [], 0x0, 0x0, 0x0, 0xFFFFFFFF, 0x0, 0x0, 0x0, 0x0⟩,
  ⟨0x100034, [], 0x0, 0xFFFFFFFF, 0x0, 0x0, 0x0, 0x0, 0x0, 0x0⟩,
  ⟨0x100040, [(0x4, 15)], 0xC0FFFFFF, 0x0, 0x0, 0x0, 0x0, 0x3F000000, 0x0, 0x0⟩]
/-- The rows of the PARTERRE block. -/
def RegRow.parterreRows : List RegRow := RegRow.parterreRows1
/-- Rows of the WEIR block, part 1. -/
def RegRow.weirRows1 : List RegRow := [
  ⟨0x200000, [], 0x0, 0xFFFFFF07, 0x8, 0x0, 0x0, 0xF0, 0x0, 0x0⟩,
  ⟨0x200004, [], 0x0, 0xFFFFFFFF, 0x0, 0x0, 0x0, 0x0, 0x0, 0x0⟩,
  ⟨0x200008, [], 0x0, 0xFFFFFFFF, 0x0, 0x0, 0x0, 0x0, 0x0, 0x0⟩,
  ⟨0x20000C, [], 0x0, 0xFFFFFFFF, 0x0, 0x0, 0x0, 0x0, 0x0, 0x0⟩,
  ⟨0x200010, [(0x4, 4)], 0x0, 0x0, 0x0, 0x0, 0xFFFF, 0xFFFF0000, 0x0, 0x64⟩,
  ⟨0x200020, [], 0x0, 0x0, 0x0, 0x0, 0x3FFFF, 0xFFFC0000, 0x0, 0x4000⟩,
  ⟨0x200024, [], 0xFFFF, 0xFFFF0000, 0x0, 0x0, 0x0, 0x0, 0x0, 0x0⟩,
  ⟨0x200028, [], 0x0, 0xFFFFFFFF, 0x0, 0x0, 0x0, 0x0, 0x0, 0x0⟩,
  ⟨0x20002C, [], 0xFFFF, 0x0, 0x0, 0x0, 0x0, 0xFFFF0000, 0x0, 0x0⟩,
  ⟨0x200030, [], 0x1FF, 0x0, 0x0, 0x0, 0x0, 0xFFFFFE00, 0x0, 0x0⟩,
  ⟨0x200034, [], 0x0, 0xFFFFFFFF, 0x0, 0x0, 0x0, 0x0, 0x0, 0x0⟩,
  ⟨0x200200, [], 0x0, 0x0, 0x0, 0x0, 0xFFFFFE00, 0x1FF, 0x0, 0x0⟩,
  ⟨0x200204, [], 0x0, 0x0, 0x0, 0x0, 0xFF, 0xFFFFFF00, 0x0, 0x0⟩,
  ⟨0x200208, [], 0x0, 0x0, 0x0, 0x0, 0xFFFF0000, 0xFFFF, 0x0, 0x0⟩,
  ⟨0x20020C, [], 0x0, 0x0, 0x0, 0x0, 0xFF, 0xFFFFFF00, 0x0, 0x0⟩,
  ⟨0x200210, [], 0x0, 0x0, 0x0, 0x0, 0x1FFFFF, 0xFFE00000, 0x0, 0x0⟩,
  ⟨0x200214, [], 0x0, 0x80000000, 0x0, 0x4000FFFF, 0x0, 0x3FFF0000, 0x0, 0x80000000⟩,
  ⟨0x200218, [], 0xFFFF0000, 0x0, 0x0, 0x0, 0x0, 0xFFFF, 0x0, 0x0⟩,
  ⟨0x20021C, [], 0xFFFF, 0x0, 0x0, 0x0, 0x0, 0xFFFF0000, 0x0, 0x0⟩,
  ⟨0x200220, [], 0xFFFFF, 0x30000000, 0x0, 0xC0000000, 0x0, 0xFF00000, 0x0, 0x0⟩]
/-- Rows of the WEIR block, part 2. -/
def RegRow.weirRows2 : List RegRow := [
  ⟨0x200240, [], 0x0, 0x0, 0x0, 0x0, 0xFFFFF000, 0xFFF, 0x0, 0x0⟩,
  ⟨0x200244, [], 0x0, 0x0, 0x0, 0x0, 0xFFFF, 0xFFFF0000, 0x0, 0x0⟩,
  ⟨0x200248, [], 0x0, 0x0, 0x0, 0x0, 0xFFFFFF0F, 0xF0, 0x0, 0xFF00⟩,
  ⟨0x20024C, [], 0xFFFFFFFF, 0x0, 0x0, 0x0, 0x0, 0x0, 0x0, 0x0⟩,
  ⟨0x200250, [], 0x0, 0xFFFFFFFF, 0x0, 0x0, 0x0, 0x0, 0x0, 0x0⟩,
  ⟨0x200254, [], 0x0, 0xFFFFFFFF, 0x0, 0x0, 0x0, 0x0, 0x0, 0x0⟩,
  ⟨0x200260, [], 0x0, 0x0, 0x0, 0x0, 0x3, 0xFFFFFFFC, 0x0, 0x0⟩,
  ⟨0x200100, [], 0x0, 0x0, 0x0, 0xFFFFFFFF, 0x0, 0x0, 0x0, 0x0⟩,
  ⟨0x200104, [], 0xFFFFFFFF, 0x0, 0x0, 0x0, 0x0, 0x0, 0x0, 0x0⟩,
  ⟨0x200108, [], 0xF0FFFFFF, 0x0, 0x0, 0x0, 0x0, 0xF000000, 0x0, 0x1⟩,
  ⟨0x20010C, [], 0xFFFF0000, 0xFFFF, 0x0, 0x0, 0x0, 0x0, 0x0, 0x0⟩]
/-- The rows of the WEIR block. -/
def RegRow.weirRows : List RegRow := RegRow.weirRows1 ++ RegRow.weirRows2
/-- Rows of the CLEPSYDRA block, part 1. -/
def RegRow.clepsydraRows1 : List RegRow := [
  ⟨0x300000, [], 0x0, 0x80000000, 0x0, 0x0, 0x0, 0x7FFFFFFF, 0x0, 0x0⟩,
  ⟨0x300040, [], 0x0, 0x80000000, 0x60000000, 0xF, 0x0, 0x1FFFFFF0, 0x0, 0x0⟩,
  ⟨0x300044, [], 0x3FFFFFFF, 0x0, 0x0, 0x0, 0x0, 0xC0000000, 0x0, 0x0⟩,
  ⟨0x300048, [], 0xFFFFFFFF, 0x0, 0x0, 0x0, 0x0, 0x0, 0x0, 0x0⟩,
  ⟨0x30004C, [], 0xFFFF, 0x0, 0x0, 0x0, 0x0, 0xFFFF0000, 0x0, 0x0⟩,
  ⟨0x300050, [], 0xFFFFFFFF, 0x0, 0x0, 0x0, 0x0, 0x0, 0x0, 0x0⟩,
  ⟨0x300054, [], 0x0, 0xFFFFFFFF, 0x0, 0x0, 0x0, 0x0, 0x0, 0x0⟩,
  ⟨0x300200, [(0x80, 4)], 0x0, 0x80000002, 0x0, 0x1, 0x0, 0x7FFFFFFC, 0x0, 0x0⟩,
  ⟨0x300204, [(0x80, 4)], 0x0, 0xFFFFFFFF, 0x0, 0x0, 0x0, 0x0, 0x0, 0x0⟩,
  ⟨0x300208, [(0x80, 4)], 0x0, 0xFFFFFFFF, 0x0, 0x0, 0x0, 0x0, 0x0, 0x0⟩,
  ⟨0x30020C, [(0x80, 4)], 0x0, 0xFFFFFFFF, 0x0, 0x0, 0x0, 0x0, 0x0, 0x0⟩,
  ⟨0x300210, [(0x80, 4)], 0x0, 0xFFFFFFFF, 0x0, 0x0, 0x0, 0x0, 0x0, 0x0⟩,
  ⟨0x300214, [(0x80, 4)], 0x0, 0xFFFFFFFF, 0x0, 0x0, 0x0, 0x0, 0x0, 0x0⟩,
  ⟨0x300220, [(0x80, 4), (0x8, 9)], 0x0, 0xFFFFFFFF, 0x0, 0x0, 0x0, 0x0, 0x0, 0x0⟩,
  ⟨0x300224, [(0x80, 4), (0x8, 9)], 0x0, 0xFFFFFFFF, 0x0, 0x0, 0x0, 0x0, 0x0, 0x0⟩,
  ⟨0x301000, [(0x20, 64)], 0xFFFFFFFF, 0x0, 0x0, 0x0, 0x0, 0x0, 0x0, 0x0⟩,
  ⟨0x301004, [(0x20, 64)], 0xFFFFFFFF, 0x0, 0x0, 0x0, 0x0, 0x0, 0x0, 0x0⟩,
  ⟨0x301008, [(0x20, 64)], 0xFFFF, 0x0, 0x0, 0x0, 0x0, 0xFFFF0000, 0x0, 0x0⟩,
  ⟨0x30100C, [(0x20, 64)], 0xFFFFFFFF, 0x0, 0x0, 0x0, 0x0, 0x0, 0x0, 0x0⟩,
  ⟨0x301010, [(0x20, 64)], 0x0, 0x0, 0x0, 0xFFFFFFFF, 0x0, 0x0, 0x0, 0x0⟩]
/-- Rows of the CLEPSYDRA block, part 2. -/
def RegRow.clepsydraRows2 : List RegRow := [
  ⟨0x301014, [(0x20, 64)], 0x0, 0xBFFFFFFF, 0x40000000, 0x0, 0x0, 0x0, 0x0, 0x0⟩,
  ⟨0x301018, [(0x20, 64)], 0x0, 0xFFFFFFFF, 0x0, 0x0, 0x0, 0x0, 0x0, 0x0⟩,
  ⟨0x302000, [(0x20, 64)], 0xFFFFFFFF, 0x0, 0x0, 0x0, 0x0, 0x0, 0x0, 0x0⟩,
  ⟨0x302004, [(0x20, 64)], 0xFFFF, 0x0, 0x0, 0x0, 0x0, 0xFFFF0000, 0x0, 0x0⟩,
  ⟨0x302008, [(0x20, 64)], 0xFFFFFFFF, 0x0, 0x0, 0x0, 0x0, 0x0, 0x0, 0x0⟩,
  ⟨0x302010, [(0x20, 64)], 0x0, 0x0, 0x0, 0xFFFFFFFF, 0x0, 0x0, 0x0, 0x0⟩,
  ⟨0x302014, [(0x20, 64)], 0x0, 0xBFFFFFFF, 0x40000000, 0x0, 0x0, 0x0, 0x0, 0x0⟩,
  ⟨0x302018, [(0x20, 64)], 0x0, 0xFFFFFFFF, 0x0, 0x0, 0x0, 0x0, 0x0, 0x0⟩,
  ⟨0x303000, [(0x4, 16)], 0x0, 0x0, 0x0, 0x0, 0xC000FFFF, 0x3FFF0000, 0x0, 0x64⟩,
  ⟨0x303040, [(0x4, 16)], 0xFFFF0000, 0xFFFF, 0x0, 0x0, 0x0, 0x0, 0x0, 0x0⟩]
/-- The rows of the CLEPSYDRA block. -/
def RegRow.clepsydraRows : List RegRow := RegRow.clepsydraRows1 ++ RegRow.clepsydraRows2
/-- Rows of the FOUNTAIN block, part 1. -/
def RegRow.fountainRows1 : List RegRow := [
  ⟨0x400000, [(0x100000, 4)], 0x0, 0xFFFF0E0F, 0x0, 0x0, 0x0, 0xF1F0, 0x0, 0x0⟩,
  ⟨0x400004, [(0x100000, 4)], 0x1, 0x0, 0x0, 0x0, 0x0, 0xFFFFFFFE, 0x0, 0x0⟩,
  ⟨0x400008, [(0x100000, 4)], 0x0, 0xFFFFFFFF, 0x0, 0x0, 0x0, 0x0, 0x0, 0x0⟩,
  ⟨0x40000C, [(0x100000, 4)], 0x0, 0x7FFFFFFF, 0x80000000, 0x0, 0x0, 0x0, 0x0, 0x0⟩,
  ⟨0x400010, [(0x100000, 4)], 0x0, 0xFFFFFFFF, 0x0, 0x0, 0x0, 0x0, 0x0, 0x0⟩,
  ⟨0x400014, [(0x100000, 4)], 0x0, 0xFFFFFFFF, 0x0, 0x0, 0x0, 0x0, 0x0, 0x0⟩,
  ⟨0x400018, [(0x100000, 4)], 0x0, 0xFFFFFFFF, 0x0, 0x0, 0x0, 0x0, 0x0, 0x0⟩,
  ⟨0x40001C, [(0x100000, 4)], 0x0, 0xFFFFFFFF, 0x0, 0x0, 0x0, 0x0, 0x0, 0x0⟩,
  ⟨0x400020, [(0x100000, 4)], 0xFFFF0000, 0x2, 0x4, 0x0, 0x0, 0xFFF9, 0x0, 0x0⟩,
  ⟨0x400040, [(0x100000, 4), (0x4, 8)], 0x0, 0xFFFFFFFF, 0x0, 0x0, 0x0, 0x0, 0x0, 0x0⟩,
  ⟨0x400060, [(0x100000, 4)], 0x0, 0xFFFFFFFF, 0x0, 0x0, 0x0, 0x0, 0x0, 0x0⟩,
  ⟨0x400400, [(0x100000, 4), (0x10, 16)], 0x0, 0xFFFFFFFF, 0x0, 0x0, 0x0, 0x0, 0x0, 0x0⟩,
  ⟨0x400404, [(0x100000, 4), (0x10, 16)], 0x0, 0xFFFFFFFF, 0x0, 0x0, 0x0, 0x0, 0x0, 0x0⟩,
  ⟨0x400408, [(0x100000, 4), (0x10, 16)], 0x0, 0xFFFFFFFF, 0x0, 0x0, 0x0, 0x0, 0x0, 0x0⟩,
  ⟨0x40040C, [(0x100000, 4), (0x10, 16)], 0x0, 0xFFFFFFFF, 0x0, 0x0, 0x0, 0x0, 0x0, 0x0⟩,
  ⟨0x400100, [(0x100000, 4)], 0x0, 0x0, 0x0, 0xFFFFFFFF, 0x0, 0x0, 0x0, 0x0⟩,
  ⟨0x400104, [(0x100000, 4)], 0xFFFFFFFF, 0x0, 0x0, 0x0, 0x0, 0x0, 0x0, 0x0⟩,
  ⟨0x400108, [(0x100000, 4)], 0xF0FFFFFF, 0x0, 0x0, 0x0, 0x0, 0xF000000, 0x0, 0x1⟩,
  ⟨0x40010C, [(0x100000, 4)], 0xFFFF0000, 0xFFFF, 0x0, 0x0, 0x0, 0x0, 0x0, 0x0⟩]
/-- The rows of the FOUNTAIN block. -/
def RegRow.fountainRows : List RegRow := RegRow.fountainRows1
/-- Rows of the CASCADE block, part 1. -/
def RegRow.cascadeRows1 : List RegRow := [
  ⟨0x800000, [], 0x0, 0xFFFFFFFF, 0x0, 0x0, 0x0, 0x0, 0x0, 0x0⟩,
  ⟨0x810000, [], 0x0, 0xFFFFFFFF, 0x0, 0x0, 0x0, 0x0, 0x0, 0x1⟩,
  ⟨0x820000, [], 0x0, 0xFFFFFFFF, 0x0, 0x0, 0x0, 0x0, 0x0, 0x2⟩,
  ⟨0x830000, [], 0x0, 0xFFFFFFFF, 0x0, 0x0, 0x0, 0x0, 0x0, 0x3⟩,
  ⟨0x840000, [], 0x0, 0xFFFFFFFF, 0x0, 0x0, 0x0, 0x0, 0x0, 0x4⟩,
  ⟨0x850000, [], 0x0, 0xFFFFFFFF, 0x0, 0x0, 0x0, 0x0, 0x0, 0x5⟩,
  ⟨0x860000, [], 0x0, 0xFFFFFFFF, 0x0, 0x0, 0x0, 0x0, 0x0, 0x6⟩,
  ⟨0x870000, [], 0x0, 0xFFFFFFFF, 0x0, 0x0, 0x0, 0x0, 0x0, 0x7⟩,
  ⟨0x880000, [], 0x0, 0xFFFFFFFF, 0x0, 0x0, 0x0, 0x0, 0x0, 0x8⟩,
  ⟨0x890000, [], 0x0, 0xFFFFFFFF, 0x0, 0x0, 0x0, 0x0, 0x0, 0x9⟩,
  ⟨0x8A0000, [], 0x0, 0xFFFFFFFF, 0x0, 0x0, 0x0, 0x0, 0x0, 0xA⟩,
  ⟨0x8B0000, [], 0x0, 0xFFFFFFFF, 0x0, 0x0, 0x0, 0x0, 0x0, 0xB⟩,
  ⟨0x8C0000, [], 0x0, 0xFFFFFFFF, 0x0, 0x0, 0x0, 0x0, 0x0, 0xC⟩,
  ⟨0x8D0000, [], 0x0, 0xFFFFFFFF, 0x0, 0x0, 0x0, 0x0, 0x0, 0xD⟩,
  ⟨0x8E0000, [], 0x0, 0xFFFFFFFF, 0x0, 0x0, 0x0, 0x0, 0x0, 0xE⟩,
  ⟨0x8F0000, [], 0x0, 0xFFFFFFFF, 0x0, 0x0, 0x0, 0x0, 0x0, 0xF⟩,
  ⟨0x800004, [(0x10000, 16)], 0x0, 0xFF00C7, 0x30, 0x0, 0x0, 0xFF00FF08, 0x0, 0x0⟩,
  ⟨0x800008, [(0x10000, 16)], 0x0, 0xFFFFFFFF, 0x0, 0x0, 0x0, 0x0, 0x0, 0x0⟩,
  ⟨0x80000C, [(0x10000, 16)], 0x0, 0xFFFFFFFF, 0x0, 0x0, 0x0, 0x0, 0x0, 0x40⟩,
  ⟨0x800010, [(0x10000, 16), (0x8, 4)], 0x0, 0xFFFFFFFF, 0x0, 0x0, 0x0, 0x0, 0x0, 0x0⟩]
/-- Rows of the CASCADE block, part 2. -/
def RegRow.cascadeRows2 : List RegRow := [
  ⟨0x800014, [(0x10000, 16), (0x8, 4)], 0x0, 0xFFFFFFFF, 0x0, 0x0, 0x0, 0x0, 0x0, 0x0⟩,
  ⟨0x800030, [(0x10000, 16)], 0x0, 0x0, 0x0, 0x1, 0x0, 0xFFFFFFFE, 0x0, 0x0⟩,
  ⟨0x800034, [(0x10000, 16)], 0x0, 0xFFFFFFFF, 0x0, 0x0, 0x0, 0x0, 0x0, 0x0⟩,
  ⟨0x800040, [(0x10000, 16)], 0x0, 0x7FFFF800, 0x80000000, 0x0, 0x0, 0x7FF, 0x0, 0x0⟩,
  ⟨0x800044, [(0x10000, 16)], 0xFFFF, 0x0, 0x0, 0x0, 0x0, 0xFFFF0000, 0x0, 0x0⟩,
  ⟨0x800048, [(0x10000, 16)], 0xFFFFFFFF, 0x0, 0x0, 0x0, 0x0, 0x0, 0x0, 0x0⟩,
  ⟨0x800200, [(0x10000, 16)], 0x0, 0xFFFFFFFF, 0x0, 0x0, 0x0, 0x0, 0x0, 0x0⟩,
  ⟨0x800204, [(0x10000, 16)], 0xFFFFFFFF, 0x0, 0x0, 0x0, 0x0, 0x0, 0x0, 0x0⟩,
  ⟨0x800220, [(0x10000, 16), (0x4, 8)], 0x0, 0xFFFFFFFF, 0x0, 0x0, 0x0, 0x0, 0x0, 0x0⟩,
  ⟨0x800300, [(0x10000, 16)], 0x0, 0xFFFFFFFF, 0x0, 0x0, 0x0, 0x0, 0x0, 0x0⟩,
  ⟨0x800304, [(0x10000, 16)], 0x1FF, 0x0, 0x0, 0x0, 0x0, 0xFFFFFE00, 0x0, 0x0⟩,
  ⟨0x800100, [(0x10000, 16)], 0x0, 0x0, 0x0, 0xFFFFFFFF, 0x0, 0x0, 0x0, 0x0⟩,
  ⟨0x800104, [(0x10000, 16)], 0xFFFFFFFF, 0x0, 0x0, 0x0, 0x0, 0x0, 0x0, 0x0⟩,
  ⟨0x800108, [(0x10000, 16)], 0xF0FFFFFF, 0x0, 0x0, 0x0, 0x0, 0xF000000, 0x0, 0x1⟩,
  ⟨0x80010C, [(0x10000, 16)], 0xFFFF0000, 0xFFFF, 0x0, 0x0, 0x0, 0x0, 0x0, 0x0⟩]
/-- The rows of the CASCADE block. -/
def RegRow.cascadeRows : List RegRow := RegRow.cascadeRows1 ++ RegRow.cascadeRows2
/-- Rows of the CISTERN block, part 1. -/
def RegRow.cisternRows1 : List RegRow := [
  ⟨0x900100, [], 0x0, 0x0, 0x0, 0xFFFFFFFF, 0x0, 0x0, 0x0, 0x0⟩,
  ⟨0x900104, [], 0xFFFFFFFF, 0x0, 0x0, 0x0, 0x0, 0x0, 0x0, 0x0⟩,
  ⟨0x900108, [], 0xF0FFFFFF, 0x0, 0x0, 0x0, 0x0, 0xF000000, 0x0, 0x1⟩,
  ⟨0x90010C, [], 0xFFFF0000, 0xFFFF, 0x0, 0x0, 0x0, 0x0, 0x0, 0x0⟩,
  ⟨0x900000, [], 0x0, 0x3FF03FF, 0x0, 0x0, 0x0, 0xFC00FC00, 0x0, 0x0⟩,
  ⟨0x900004, [], 0xFFFFFFFF, 0x0, 0x0, 0x0, 0x0, 0x0, 0x0, 0x0⟩,
  ⟨0x900008, [], 0x0, 0x7FFFFFFF, 0x80000000, 0x0, 0x0, 0x0, 0x0, 0x0⟩,
  ⟨0x90000C, [], 0x0, 0x7FFFFFFF, 0x80000000, 0x0, 0x0, 0x0, 0x0, 0x0⟩,
  ⟨0x900010, [], 0x3FF, 0x0, 0x0, 0x0, 0x0, 0xFFFFFC00, 0x0, 0x0⟩,
  ⟨0x900014, [], 0x0, 0xFFFFFFFF, 0x0, 0x0, 0x0, 0x0, 0x0, 0x0⟩,
  ⟨0x901000, [], 0x0, 0xFF000000, 0x1, 0x0, 0x0, 0xFFFFFE, 0x0, 0x0⟩,
  ⟨0x901004, [], 0x0, 0xFFFFFFFF, 0x0, 0x0, 0x0, 0x0, 0x0, 0x0⟩,
  ⟨0x901008, [], 0xFFFF, 0x0, 0x0, 0x0, 0x0, 0xFFFF0000, 0x0, 0x0⟩,
  ⟨0x902000, [], 0x0, 0x0, 0x0, 0x0, 0xFFFFF00F, 0xFF0, 0x0, 0x0⟩,
  ⟨0x902004, [], 0x0, 0x0, 0x0, 0x0, 0xFFFF, 0xFFFF0000, 0x0, 0x0⟩,
  ⟨0x902008, [], 0xFFFF, 0xFF000000, 0x0, 0x0, 0x0, 0xFF0000, 0x0, 0x0⟩,
  ⟨0x903000, [], 0x0, 0x0, 0x0, 0x0, 0xFFFFF00F, 0xFF0, 0x0, 0x0⟩,
  ⟨0x903004, [], 0x0, 0x0, 0x0, 0x0, 0xFFFF, 0xFFFF0000, 0x0, 0x0⟩,
  ⟨0x903008, [], 0x0, 0x0, 0x0, 0xFFFFFFFF, 0x0, 0x0, 0x0, 0x0⟩,
  ⟨0x90300C, [], 0x0, 0xFFFFFFFF, 0x0, 0x0, 0x0, 0x0, 0x0, 0x0⟩]
/-- Rows of the CISTERN block, part 2. -/
def RegRow.cisternRows2 : List RegRow := [
  ⟨0x903010, [], 0x0, 0x0, 0x0, 0x0, 0xFFFFF00F, 0xFF0, 0x0, 0x0⟩,
  ⟨0x903014, [], 0x0, 0x0, 0x0, 0x0, 0xFFFF, 0xFFFF0000, 0x0, 0x0⟩,
  ⟨0x903018, [], 0xFFFFFFFF, 0x0, 0x0, 0x0, 0x0, 0x0, 0x0, 0x0⟩,
  ⟨0x90301C, [], 0x0, 0x0, 0x0, 0x0, 0xFFFF, 0xFFFF0000, 0x0, 0xFFFF⟩,
  ⟨0x903020, [], 0x0, 0xFFFFFFFF, 0x0, 0x0, 0x0, 0x0, 0x0, 0x0⟩,
  ⟨0x903100, [(0x40, 16), (0x4, 4)], 0x0, 0x0, 0x0, 0x0, 0xFFFFFFFF, 0x0, 0x0, 0x0⟩,
  ⟨0x903110, [(0x40, 16), (0x4, 4)], 0x0, 0x0, 0x0, 0x0, 0xFFFFFFFF, 0x0, 0x0, 0x0⟩,
  ⟨0x903120, [(0x40, 16)], 0x0, 0x0, 0x0, 0x0, 0xFFFF, 0xFFFF0000, 0x0, 0x0⟩]
/-- The rows of the CISTERN block. -/
def RegRow.cisternRows : List RegRow := RegRow.cisternRows1 ++ RegRow.cisternRows2
/-- Rows of the CSI block, part 1. -/
def RegRow.csiRows1 : List RegRow := [
  ⟨0xE00100, [], 0x0, 0x0, 0x0, 0xFFFFFFFF, 0x0, 0x0, 0x0, 0x0⟩,
  ⟨0xE00104, [], 0xFFFFFFFF, 0x0, 0x0, 0x0, 0x0, 0x0, 0x0, 0x0⟩,
  ⟨0xE00108, [], 0xF0FFFFFF, 0x0, 0x0, 0x0, 0x0, 0xF000000, 0x0, 0x1⟩,
  ⟨0xE0010C, [], 0xFFFF0000, 0xFFFF, 0x0, 0x0, 0x0, 0x0, 0x0, 0x0⟩,
  ⟨0xE00000, [], 0x0, 0x0, 0x0, 0x0, 0xFFFFF000, 0xFFF, 0x0, 0x0⟩,
  ⟨0xE00004, [], 0x0, 0x0, 0x0, 0x0, 0xFFFF, 0xFFFF0000, 0x0, 0x0⟩,
  ⟨0xE01000, [(0x100, 16)], 0x0, 0x0, 0x0, 0x0, 0xF800FF00, 0x7FF00FF, 0x0, 0x20005500⟩,
  ⟨0xE01004, [(0x100, 16)], 0x0, 0xFFFFFFFF, 0x0, 0x0, 0x0, 0x0, 0x0, 0x0⟩,
  ⟨0xE01008, [(0x100, 16)], 0xFFFFFFFF, 0x0, 0x0, 0x0, 0x0, 0x0, 0x0, 0x0⟩,
  ⟨0xE01040, [(0x100, 16), (0x10, 4)], 0x0, 0x0, 0x0, 0x40000000, 0x80000000, 0x3FFFFFFF, 0x0, 0x0⟩,
  ⟨0xE01044, [(0x100, 16), (0x10, 4)], 0x0, 0xFFFFFFFF, 0x0, 0x0, 0x0, 0x0, 0x0, 0x0⟩,
  ⟨0xE01048, [(0x100, 16), (0x10, 4)], 0xFFFFFFFF, 0x0, 0x0, 0x0, 0x0, 0x0, 0x0, 0x0⟩,
  ⟨0xE0104C, [(0x100, 16), (0x10, 4)], 0xFFFF, 0x0, 0x0, 0x0, 0x0, 0xFFFF0000, 0x0, 0x0⟩]
/-- The rows of the CSI block. -/
def RegRow.csiRows : List RegRow := RegRow.csiRows1
/-- Rows of the CODEC block, part 1. -/
def RegRow.codecRows1 : List RegRow := [
  ⟨0xF00100, [], 0x0, 0x0, 0x0, 0xFFFFFFFF, 0x0, 0x0, 0x0, 0x0⟩,
  ⟨0xF00104, [], 0xFFFFFFFF, 0x0, 0x0, 0x0, 0x0, 0x0, 0x0, 0x0⟩,
  ⟨0xF00108, [], 0xF0FFFFFF, 0x0, 0x0, 0x0, 0x0, 0xF000000, 0x0, 0x1⟩,
  ⟨0xF0010C, [], 0xFFFF0000, 0xFFFF, 0x0, 0x0, 0x0, 0x0, 0x0, 0x0⟩,
  ⟨0xF00000, [], 0x0, 0xFFFF, 0x0, 0x0, 0x0, 0xFFFF0000, 0x0, 0x0⟩,
  ⟨0xF00010, [(0x4, 4)], 0x0, 0xFFFFFFFF, 0x0, 0x0, 0x0, 0x0, 0x0, 0x0⟩,
  ⟨0xF01000, [(0x10, 64)], 0x0, 0x0, 0x0, 0xFFFFFFFF, 0x0, 0x0, 0x0, 0x0⟩,
  ⟨0xF01004, [(0x10, 64)], 0x0, 0xFFFFFFFF, 0x0, 0x0, 0x0, 0x0, 0x0, 0x0⟩,
  ⟨0xF01008, [(0x10, 64)], 0x0, 0x0, 0x0, 0x80000000, 0x0, 0x7FFFFFFF, 0x0, 0x0⟩,
  ⟨0xF0100C, [(0x10, 64)], 0xFFFF, 0xFFFF0000, 0x0, 0x0, 0x0, 0x0, 0x0, 0x0⟩,
  ⟨0xF02000, [(0x10, 32)], 0x0, 0x0, 0x0, 0xFFFFFFFF, 0x0, 0x0, 0x0, 0x0⟩,
  ⟨0xF02004, [(0x10, 32)], 0x0, 0xFFFFFFFF, 0x0, 0x0, 0x0, 0x0, 0x0, 0x0⟩,
  ⟨0xF02008, [(0x10, 32)], 0xFFFFFFFF, 0x0, 0x0, 0x0, 0x0, 0x0, 0x0, 0x0⟩,
  ⟨0xF0200C, [(0x10, 32)], 0x0, 0xFFFFFFFF, 0x0, 0x0, 0x0, 0x0, 0x0, 0x0⟩]
/-- The rows of the CODEC block. -/
def RegRow.codecRows : List RegRow := RegRow.codecRows1
/-- Rows of the PHASEIO block, part 1. -/
def RegRow.phaseioRows1 : List RegRow := [
  ⟨0x1300100, [], 0x0, 0x0, 0x0, 0xFFFFFFFF, 0x0, 0x0, 0x0, 0x0⟩,
  ⟨0x1300104, [], 0xFFFFFFFF, 0x0, 0x0, 0x0, 0x0, 0x0, 0x0, 0x0⟩,
  ⟨0x1300108, [], 0xF0FFFFFF, 0x0, 0x0, 0x0, 0x0, 0xF000000, 0x0, 0x1⟩,
  ⟨0x130010C, [], 0xFFFF0000, 0xFFFF, 0x0, 0x0, 0x0, 0x0, 0x0, 0x0⟩,
  ⟨0x1301000, [(0x40, 9)], 0x0, 0x0, 0x0, 0x0, 0xCFFFFFFF, 0x30000000, 0x0, 0x6080000⟩,
  ⟨0x1301004, [(0x40, 9)], 0x0, 0x0, 0x0, 0x0, 0x7FFFFFF, 0xF8000000, 0x0, 0x0⟩,
  ⟨0x1301108, [(0x40, 2)], 0x0, 0x0, 0x0, 0x0, 0xFFFF3FFF, 0xC000, 0x0, 0xCDC0064⟩,
  ⟨0x130100C, [(0x40, 9)], 0x0, 0x77FFFFFF, 0x88000000, 0x0, 0x0, 0x0, 0x0, 0x0⟩,
  ⟨0x1301010, [(0x40, 4)], 0x0, 0xFFFFFFFF, 0x0, 0x0, 0x0, 0x0, 0x0, 0x0⟩,
  ⟨0x1301014, [(0x40, 4)], 0x0, 0x7FFFFFFF, 0x80000000, 0x0, 0x0, 0x0, 0x0, 0x0⟩,
  ⟨0x1301018, [(0x40, 9)], 0xFFFFFFFF, 0x0, 0x0, 0x0, 0x0, 0x0, 0x0, 0x0⟩]
/-- The rows of the PHASEIO block. -/
def RegRow.phaseioRows : List RegRow := RegRow.phaseioRows1
/-- Rows of the DDR block, part 1. -/
def RegRow.ddrRows1 : List RegRow := [
  ⟨0x1000100, [], 0x0, 0x0, 0x0, 0xFFFFFFFF, 0x0, 0x0, 0x0, 0x0⟩,
  ⟨0x1000104, [], 0xFFFFFFFF, 0x0, 0x0, 0x0, 0x0, 0x0, 0x0, 0x0⟩,
  ⟨0x1000108, [], 0xF0FFFFFF, 0x0, 0x0, 0x0, 0x0, 0xF000000, 0x0, 0x1⟩,
  ⟨0x100010C, [], 0xFFFF0000, 0xFFFF, 0x0, 0x0, 0x0, 0x0, 0x0, 0x0⟩,
  ⟨0x1000018, [(0x4, 6)], 0x0, 0x0, 0x0, 0x0, 0xFF, 0xFFFFFF00, 0x0, 0x1⟩,
  ⟨0x1000040, [], 0x0, 0xFFFFFFFF, 0x0, 0x0, 0x0, 0x0, 0x0, 0x0⟩,
  ⟨0x1000044, [], 0xFFF, 0x0, 0x0, 0x0, 0x0, 0xFFFFF000, 0x0, 0x0⟩,
  ⟨0x1000048, [], 0x0, 0xFFFFFFFF, 0x0, 0x0, 0x0, 0x0, 0x0, 0x0⟩,
  ⟨0x1000080, [], 0x0, 0xFFFFFFFF, 0x0, 0x0, 0x0, 0x0, 0x0, 0x0⟩,
  ⟨0x1000084, [], 0xFFFFFFFF, 0x0, 0x0, 0x0, 0x0, 0x0, 0x0, 0x0⟩,
  ⟨0x1000088, [], 0xFFFFFFFF, 0x0, 0x0, 0x0, 0x0, 0x0, 0x0, 0x0⟩,
  ⟨0x100008C, [], 0xFFFFFFFF, 0x0, 0x0, 0x0, 0x0, 0x0, 0x0, 0x0⟩,
  ⟨0x1000090, [], 0xFFFF, 0xFFFF0000, 0x0, 0x0, 0x0, 0x0, 0x0, 0x0⟩]
/-- The rows of the DDR block. -/
def RegRow.ddrRows : List RegRow := RegRow.ddrRows1
/-- Rows of the PCIE block, part 1. -/
def RegRow.pcieRows1 : List RegRow := [
  ⟨0x1100100, [], 0x0, 0x0, 0x0, 0xFFFFFFFF, 0x0, 0x0, 0x0, 0x0⟩,
  ⟨0x1100104, [], 0xFFFFFFFF, 0x0, 0x0, 0x0, 0x0, 0x0, 0x0, 0x0⟩,
  ⟨0x1100108, [], 0xF0FFFFFF, 0x0, 0x0, 0x0, 0x0, 0xF000000, 0x0, 0x1⟩,
  ⟨0x110010C, [], 0xFFFF0000, 0xFFFF, 0x0, 0x0, 0x0, 0x0, 0x0, 0x0⟩,
  ⟨0x1100000, [], 0x0, 0x0, 0x0, 0x0, 0x3, 0xFFFFFFFC, 0x0, 0x0⟩]
/-- The rows of the PCIE block. -/
def RegRow.pcieRows : List RegRow := RegRow.pcieRows1
/-- Rows of the INTEGRITY block, part 1. -/
def RegRow.integrityRows1 : List RegRow := [
  ⟨0x1700100, [], 0x0, 0x0, 0x0, 0xFFFFFFFF, 0x0, 0x0, 0x0, 0x0⟩,
  ⟨0x1700104, [], 0xFFFFFFFF, 0x0, 0x0, 0x0, 0x0, 0x0, 0x0, 0x0⟩,
  ⟨0x1700108, [], 0xF0FFFFFF, 0x0, 0x0, 0x0, 0x0, 0xF000000, 0x0, 0x1⟩,
  ⟨0x170010C, [], 0xFFFF0000, 0xFFFF, 0x0, 0x0, 0x0, 0x0, 0x0, 0x0⟩,
  ⟨0x1700000, [], 0x0, 0xE0000001, 0x6, 0x0, 0x0, 0x1FFFFFF8, 0x0, 0x0⟩,
  ⟨0x1700004, [], 0x0, 0xFFFFFFFF, 0x0, 0x0, 0x0, 0x0, 0x0, 0x0⟩,
  ⟨0x1700008, [], 0x0, 0xFFFFFFFF, 0x0, 0x0, 0x0, 0x0, 0x0, 0x0⟩,
  ⟨0x170000C, [], 0x0, 0x7FFFFFFF, 0x80000000, 0x0, 0x0, 0x0, 0x0, 0x0⟩,
  ⟨0x1700200, [(0x8, 16)], 0x0, 0xFFFFFFFF, 0x0, 0x0, 0x0, 0x0, 0x0, 0x0⟩,
  ⟨0x1700204, [(0x8, 16)], 0x0, 0x7FFFFFFF, 0x80000000, 0x0, 0x0, 0x0, 0x0, 0x0⟩,
  ⟨0x1700280, [], 0x0, 0xFFFFFFFF, 0x0, 0x0, 0x0, 0x0, 0x0, 0x0⟩,
  ⟨0x1701010, [], 0x0, 0xFFFFFFFF, 0x0, 0x0, 0x0, 0x0, 0x0, 0x1⟩,
  ⟨0x1701020, [], 0x0, 0xFFFFFFFF, 0x0, 0x0, 0x0, 0x0, 0x0, 0x1⟩,
  ⟨0x1701030, [], 0x0, 0xFFFFFFFF, 0x0, 0x0, 0x0, 0x0, 0x0, 0x1⟩,
  ⟨0x1701040, [], 0x0, 0xFFFFFFFF, 0x0, 0x0, 0x0, 0x0, 0x0, 0x1⟩,
  ⟨0x1701050, [], 0x0, 0xFFFFFFFF, 0x0, 0x0, 0x0, 0x0, 0x0, 0x1⟩,
  ⟨0x1701060, [], 0x0, 0xFFFFFFFF, 0x0, 0x0, 0x0, 0x0, 0x0, 0x1⟩,
  ⟨0x1701070, [], 0x0, 0xFFFFFFFF, 0x0, 0x0, 0x0, 0x0, 0x0, 0x1⟩,
  ⟨0x1701080, [], 0x0, 0xFFFFFFFF, 0x0, 0x0, 0x0, 0x0, 0x0, 0x1⟩,
  ⟨0x1701090, [], 0x0, 0xFFFFFFFF, 0x0, 0x0, 0x0, 0x0, 0x0, 0x1⟩]
/-- Rows of the INTEGRITY block, part 2. -/
def RegRow.integrityRows2 : List RegRow := [
  ⟨0x17010A0, [], 0x0, 0xFFFFFFFF, 0x0, 0x0, 0x0, 0x0, 0x0, 0x1⟩,
  ⟨0x17010B0, [], 0x0, 0xFFFFFFFF, 0x0, 0x0, 0x0, 0x0, 0x0, 0x1⟩,
  ⟨0x17010C0, [], 0x0, 0xFFFFFFFF, 0x0, 0x0, 0x0, 0x0, 0x0, 0x1⟩,
  ⟨0x17010D0, [], 0x0, 0xFFFFFFFF, 0x0, 0x0, 0x0, 0x0, 0x0, 0x1⟩,
  ⟨0x17010E0, [], 0x0, 0xFFFFFFFF, 0x0, 0x0, 0x0, 0x0, 0x0, 0x3⟩,
  ⟨0x17010F0, [], 0x0, 0xFFFFFFFF, 0x0, 0x0, 0x0, 0x0, 0x0, 0x3⟩,
  ⟨0x1701100, [], 0x0, 0xFFFFFFFF, 0x0, 0x0, 0x0, 0x0, 0x0, 0x3⟩,
  ⟨0x1701110, [], 0x0, 0xFFFFFFFF, 0x0, 0x0, 0x0, 0x0, 0x0, 0x1⟩,
  ⟨0x1701014, [], 0x0, 0xFFFFFFFF, 0x0, 0x0, 0x0, 0x0, 0x0, 0x40⟩,
  ⟨0x1701024, [], 0x0, 0xFFFFFFFF, 0x0, 0x0, 0x0, 0x0, 0x0, 0x40⟩,
  ⟨0x1701034, [], 0x0, 0xFFFFFFFF, 0x0, 0x0, 0x0, 0x0, 0x0, 0x0⟩,
  ⟨0x1701044, [], 0x0, 0xFFFFFFFF, 0x0, 0x0, 0x0, 0x0, 0x0, 0x0⟩,
  ⟨0x1701054, [], 0x0, 0xFFFFFFFF, 0x0, 0x0, 0x0, 0x0, 0x0, 0x10⟩,
  ⟨0x1701064, [], 0x0, 0xFFFFFFFF, 0x0, 0x0, 0x0, 0x0, 0x0, 0x10⟩,
  ⟨0x1701074, [], 0x0, 0xFFFFFFFF, 0x0, 0x0, 0x0, 0x0, 0x0, 0xC8⟩,
  ⟨0x1701084, [], 0x0, 0xFFFFFFFF, 0x0, 0x0, 0x0, 0x0, 0x0, 0x500028⟩,
  ⟨0x1701094, [], 0x0, 0xFFFFFFFF, 0x0, 0x0, 0x0, 0x0, 0x0, 0x190⟩,
  ⟨0x17010A4, [], 0x0, 0xFFFFFFFF, 0x0, 0x0, 0x0, 0x0, 0x0, 0x0⟩,
  ⟨0x17010B4, [], 0x0, 0xFFFFFFFF, 0x0, 0x0, 0x0, 0x0, 0x0, 0x0⟩,
  ⟨0x17010C4, [], 0x0, 0xFFFFFFFF, 0x0, 0x0, 0x0, 0x0, 0x0, 0x2710⟩]
/-- Rows of the INTEGRITY block, part 3. -/
def RegRow.integrityRows3 : List RegRow := [
  ⟨0x17010D4, [], 0x0, 0xFFFFFFFF, 0x0, 0x0, 0x0, 0x0, 0x0, 0x0⟩,
  ⟨0x17010E4, [], 0x0, 0xFFFFFFFF, 0x0, 0x0, 0x0, 0x0, 0x0, 0x0⟩,
  ⟨0x17010F4, [], 0x0, 0xFFFFFFFF, 0x0, 0x0, 0x0, 0x0, 0x0, 0x0⟩,
  ⟨0x1701104, [], 0x0, 0xFFFFFFFF, 0x0, 0x0, 0x0, 0x0, 0x0, 0x0⟩,
  ⟨0x1701114, [], 0x0, 0xFFFFFFFF, 0x0, 0x0, 0x0, 0x0, 0x0, 0x20041⟩,
  ⟨0x1701018, [(0x10, 17)], 0xFFFFFFFF, 0x0, 0x0, 0x0, 0x0, 0x0, 0x0, 0x0⟩,
  ⟨0x170101C, [(0x10, 17)], 0x0, 0xFFFFFFFF, 0x0, 0x0, 0x0, 0x0, 0x0, 0x0⟩]
/-- The rows of the INTEGRITY block. -/
def RegRow.integrityRows : List RegRow := RegRow.integrityRows1 ++ RegRow.integrityRows2 ++ RegRow.integrityRows3
/-- Rows of the PIPE block, part 1. -/
def RegRow.pipeRows1 : List RegRow := [
  ⟨0xA00000, [(0x100000, 4)], 0x0, 0x0, 0x0, 0x0, 0x1, 0xFFFFFFFE, 0x0, 0x0⟩,
  ⟨0xA00004, [(0x100000, 4)], 0xFFFF, 0xFFFF0000, 0x0, 0x0, 0x0, 0x0, 0x0, 0x0⟩,
  ⟨0xA00008, [(0x100000, 4)], 0x0, 0x0, 0x0, 0x0, 0xFFFF0000, 0xFFFF, 0x0, 0x0⟩,
  ⟨0xA0000C, [(0x100000, 4)], 0x0, 0x0, 0x0, 0x0, 0xFFFF, 0xFFFF0000, 0x0, 0x0⟩,
  ⟨0xA00010, [(0x100000, 4)], 0xFFFF, 0x0, 0x0, 0x0, 0x0, 0xFFFF0000, 0x0, 0x0⟩,
  ⟨0xA08000, [(0x100000, 4)], 0x0, 0x0, 0x0, 0x0, 0x1, 0xFFFFFFFE, 0x0, 0x0⟩,
  ⟨0xA08004, [(0x100000, 4)], 0x0, 0x0, 0x0, 0x0, 0xFFFC000, 0xF0003FFF, 0x0, 0xFF84000⟩,
  ⟨0xA08008, [(0x100000, 4)], 0x0, 0x0, 0x0, 0x0, 0xFFFFFF1F, 0xE0, 0x0, 0x0⟩,
  ⟨0xA0800C, [(0x100000, 4)], 0x0, 0x0, 0x0, 0x0, 0xFFFFFFFF, 0x0, 0x0, 0x0⟩,
  ⟨0xA08010, [(0x100000, 4)], 0xFFFF0000, 0x1, 0x2, 0x0, 0x0, 0xFFFC, 0x0, 0x0⟩,
  ⟨0xA08014, [(0x100000, 4)], 0x0, 0xFFFFFFFF, 0x0, 0x0, 0x0, 0x0, 0x0, 0x0⟩,
  ⟨0xA08018, [(0x100000, 4)], 0x0, 0xFFFFFFFF, 0x0, 0x0, 0x0, 0x0, 0x0, 0x0⟩,
  ⟨0xA08020, [(0x100000, 4), (0x8, 2)], 0x0, 0x0, 0x0, 0x0, 0xFFFFFFFF, 0x0, 0x0, 0x0⟩,
  ⟨0xA08024, [(0x100000, 4), (0x8, 2)], 0x0, 0x0, 0x0, 0x0, 0xFFFF, 0xFFFF0000, 0x0, 0x0⟩,
  ⟨0xA09000, [(0x100000, 4), (0x4, 3136)], 0x0, 0x0, 0x0, 0x0, 0xFFFFFFFF, 0x0, 0x0, 0x0⟩,
  ⟨0xA0C400, [(0x100000, 4), (0x4, 128)], 0x0, 0x0, 0x0, 0x0, 0xFFFFFFFF, 0x0, 0x0, 0x0⟩,
  ⟨0xA0C600, [(0x100000, 4), (0x4, 128)], 0x0, 0x0, 0x0, 0x0, 0xFFFFFFFF, 0x0, 0x0, 0x0⟩]
/-- The rows of the PIPE block. -/
def RegRow.pipeRows : List RegRow := RegRow.pipeRows1
/-- Rows of the ETH block, part 1. -/
def RegRow.ethRows1 : List RegRow := [
  ⟨0x1201000, [(0x100, 6)], 0x0, 0x9FFFFFFF, 0x20000000, 0x40000000, 0x0, 0x0, 0x0, 0x0⟩,
  ⟨0x1201004, [(0x100, 6)], 0x0, 0xFFFFFFFF, 0x0, 0x0, 0x0, 0x0, 0x0, 0x0⟩,
  ⟨0x1201008, [(0x100, 6)], 0x0, 0xFFFFFFFF, 0x0, 0x0, 0x0, 0x0, 0x0, 0x0⟩,
  ⟨0x120100C, [(0x100, 6)], 0x0, 0xFFFFFFFF, 0x0, 0x0, 0x0, 0x0, 0x0, 0x0⟩,
  ⟨0x1201010, [(0x100, 6)], 0x0, 0xFFFFFFFF, 0x0, 0x0, 0x0, 0x0, 0x0, 0x0⟩]
/-- The rows of the ETH block. -/
def RegRow.ethRows : List RegRow := RegRow.ethRows1
/-- Rows of the SAFETY block, part 1. -/
def RegRow.safetyRows1 : List RegRow := [
  ⟨0x1400000, [(0x10, 4)], 0x0, 0xFFFFFFFF, 0x0, 0x0, 0x0, 0x0, 0x0, 0x0⟩,
  ⟨0x1400004, [(0x10, 4)], 0x0, 0x0, 0x1FF3FFF, 0x0, 0x0, 0xFE00C000, 0x0, 0x0⟩,
  ⟨0x1400008, [(0x10, 4)], 0x0, 0xFFFFFFFF, 0x0, 0x0, 0x0, 0x0, 0x0, 0x0⟩,
  ⟨0x1400040, [], 0x0, 0xFFFFFFFF, 0x0, 0x0, 0x0, 0x0, 0x0, 0x0⟩,
  ⟨0x1400044, [], 0x0, 0x0, 0x0, 0x0, 0x0, 0xFFF0FFF0, 0xF000F, 0xF0000⟩,
  ⟨0x1400048, [], 0x0, 0x0, 0x0, 0xFFFFFFFF, 0x0, 0x0, 0x0, 0x0⟩,
  ⟨0x140004C, [], 0x0, 0xFFFFFFFF, 0x0, 0x0, 0x0, 0x0, 0x0, 0x0⟩]
/-- The rows of the SAFETY block. -/
def RegRow.safetyRows : List RegRow := RegRow.safetyRows1
/-- Rows of the CLOCK block, part 1. -/
def RegRow.clockRows1 : List RegRow := [
  ⟨0x1500000, [], 0x0, 0xFFFFFFFF, 0x0, 0x0, 0x0, 0x0, 0x0, 0x0⟩,
  ⟨0x1500004, [], 0x0, 0x0, 0x0, 0x0, 0x90000000, 0x6FFFFFFF, 0x0, 0x80000000⟩,
  ⟨0x1500008, [], 0x0, 0xFFFFFFFF, 0x0, 0x0, 0x0, 0x0, 0x0, 0x18101406⟩,
  ⟨0x150000C, [], 0x0, 0xFFFFFFFF, 0x0, 0x0, 0x0, 0x0, 0x0, 0x0⟩,
  ⟨0x1500010, [], 0xFFFF, 0x0, 0x0, 0x0, 0x0, 0xFFFF0000, 0x0, 0x0⟩,
  ⟨0x1500014, [], 0x0, 0xFFFFFFFF, 0x0, 0x0, 0x0, 0x0, 0x0, 0x0⟩]
/-- The rows of the CLOCK block. -/
def RegRow.clockRows : List RegRow := RegRow.clockRows1
/-- Rows of the POWER block, part 1. -/
def RegRow.powerRows1 : List RegRow := [
  ⟨0x1600000, [], 0x0, 0xFFFCFFFF, 0x30000, 0x0, 0x0, 0x0, 0x0, 0x55F02D00⟩,
  ⟨0x1600004, [], 0x1, 0x0, 0x0, 0x0, 0x0, 0xFFFFFFFE, 0x0, 0x1⟩,
  ⟨0x1600008, [], 0x0, 0x0, 0x0, 0xFFFFFFFF, 0x0, 0x0, 0x0, 0x0⟩,
  ⟨0x160000C, [], 0x0, 0x0, 0x0, 0x0, 0xFF, 0xFFFFFF00, 0x0, 0xA⟩,
  ⟨0x1600010, [], 0x0, 0xFFFFFFFF, 0x0, 0x0, 0x0, 0x0, 0x0, 0x0⟩,
  ⟨0x1600014, [], 0xFFFF0000, 0xFFFF, 0x0, 0x0, 0x0, 0x0, 0x0, 0x0⟩,
  ⟨0x1600020, [(0x4, 8)], 0xFFFFFFFF, 0x0, 0x0, 0x0, 0x0, 0x0, 0x0, 0x0⟩,
  ⟨0x1600040, [], 0x0, 0xFFFFFFFF, 0x0, 0x0, 0x0, 0x0, 0x0, 0x0⟩]
/-- The rows of the POWER block. -/
def RegRow.powerRows : List RegRow := RegRow.powerRows1
/-- Rows of the BOOT block, part 1. -/
def RegRow.bootRows1 : List RegRow := [
  ⟨0x1800000, [], 0x0, 0xFFFFE000, 0x0, 0x0, 0x0, 0x1FFF, 0x0, 0x0⟩,
  ⟨0x1800004, [], 0x0, 0xFFFFFFFF, 0x0, 0x0, 0x0, 0x0, 0x0, 0x1⟩,
  ⟨0x1800008, [], 0x0, 0xFFFFFFFF, 0x0, 0x0, 0x0, 0x0, 0x0, 0x0⟩,
  ⟨0x180000C, [], 0x0, 0xFFFFFFFF, 0x0, 0x0, 0x0, 0x0, 0x0, 0x0⟩,
  ⟨0x1800010, [], 0x0, 0xFFFFFFFF, 0x0, 0x0, 0x0, 0x0, 0x0, 0x0⟩,
  ⟨0x1800014, [], 0x0, 0xFFFFFFFF, 0x0, 0x0, 0x0, 0x0, 0x0, 0x0⟩,
  ⟨0x1800020, [], 0x0, 0xFFFFFFFF, 0x0, 0x0, 0x0, 0x0, 0x0, 0x0⟩,
  ⟨0x1800024, [], 0x0, 0xFFFFFFFF, 0x0, 0x0, 0x0, 0x0, 0x0, 0x0⟩,
  ⟨0x1800028, [], 0x0, 0xFFFFFFFF, 0x0, 0x0, 0x0, 0x0, 0x0, 0x0⟩,
  ⟨0x180002C, [], 0x0, 0xFFFFFFFF, 0x0, 0x0, 0x0, 0x0, 0x0, 0x0⟩,
  ⟨0x1800018, [], 0x0, 0x0, 0x0, 0xFFFFFFFF, 0x0, 0x0, 0x0, 0x0⟩,
  ⟨0x180001C, [], 0x0, 0x0, 0x0, 0xFFFFFFFF, 0x0, 0x0, 0x0, 0x0⟩,
  ⟨0x1800040, [(0x4, 12)], 0x0, 0xFFFFFFFF, 0x0, 0x0, 0x0, 0x0, 0x0, 0x0⟩,
  ⟨0x1800080, [(0x4, 4)], 0x0, 0xFFFFFFFF, 0x0, 0x0, 0x0, 0x0, 0x0, 0x0⟩,
  ⟨0x1800090, [(0x4, 4)], 0x0, 0xFFFFFFFF, 0x0, 0x0, 0x0, 0x0, 0x0, 0x0⟩,
  ⟨0x1800200, [(0x4, 24)], 0x0, 0xFFFFFFFF, 0x0, 0x0, 0x0, 0x0, 0x0, 0x0⟩]
/-- The rows of the BOOT block. -/
def RegRow.bootRows : List RegRow := RegRow.bootRows1
/-- Rows of the FWP block, part 1. -/
def RegRow.fwpRows1 : List RegRow := [
  ⟨0x1900000, [(0x40, 5)], 0x0, 0xFFFFFFFF, 0x0, 0x0, 0x0, 0x0, 0x0, 0x0⟩,
  ⟨0x1900004, [(0x40, 5)], 0x0, 0xFFFFFFFF, 0x0, 0x0, 0x0, 0x0, 0x0, 0x0⟩,
  ⟨0x1900008, [(0x40, 5)], 0xFFFF, 0x0, 0x0, 0x0, 0x0, 0xFFFF0000, 0x0, 0x0⟩,
  ⟨0x190000C, [(0x40, 5)], 0x0, 0xFFFFFFFF, 0x0, 0x0, 0x0, 0x0, 0x0, 0x0⟩,
  ⟨0x1900200, [], 0x0, 0x0, 0x0, 0x0, 0xFFFFF00F, 0xFF0, 0x0, 0x0⟩,
  ⟨0x1900204, [], 0x0, 0x0, 0x0, 0x0, 0xFFFF, 0xFFFF0000, 0x0, 0x0⟩,
  ⟨0x1900208, [], 0x0, 0x0, 0x0, 0xFFFFFFFF, 0x0, 0x0, 0x0, 0x0⟩,
  ⟨0x190020C, [], 0x0, 0xFFFFFFFF, 0x0, 0x0, 0x0, 0x0, 0x0, 0x0⟩,
  ⟨0x1900210, [], 0x0, 0x0, 0x0, 0x0, 0xFFFFF00F, 0xFF0, 0x0, 0x0⟩,
  ⟨0x1900214, [], 0x0, 0x0, 0x0, 0x0, 0xFFFF, 0xFFFF0000, 0x0, 0x0⟩,
  ⟨0x1900218, [], 0xFFFFFFFF, 0x0, 0x0, 0x0, 0x0, 0x0, 0x0, 0x0⟩,
  ⟨0x1900240, [], 0x0, 0x0, 0x0, 0x0, 0xFFFFF00F, 0xFF0, 0x0, 0x0⟩,
  ⟨0x1900244, [], 0x0, 0x0, 0x0, 0x0, 0xFFFF, 0xFFFF0000, 0x0, 0x0⟩,
  ⟨0x1900248, [], 0x0, 0xFFFFFFFF, 0x0, 0x0, 0x0, 0x0, 0x0, 0x0⟩,
  ⟨0x190024C, [], 0x3FF, 0x0, 0x0, 0x0, 0x0, 0xFFFFFC00, 0x0, 0x155⟩,
  ⟨0x1901000, [(0x4, 64)], 0x0, 0xFFFFFFFF, 0x0, 0x0, 0x0, 0x0, 0x0, 0xFF00000⟩]
/-- The rows of the FWP block. -/
def RegRow.fwpRows : List RegRow := RegRow.fwpRows1
/-- Rows of the PINMUX block, part 1. -/
def RegRow.pinmuxRows1 : List RegRow := [
  ⟨0x1A00000, [], 0x0, 0x0, 0x0, 0x0, 0x7FF, 0xFFFFF800, 0x0, 0x2⟩,
  ⟨0x1A00004, [], 0x0, 0x0, 0x0, 0x0, 0x7FF, 0xFFFFF800, 0x0, 0x2⟩,
  ⟨0x1A00008, [], 0x0, 0x0, 0x0, 0x0, 0x7FF, 0xFFFFF800, 0x0, 0x2⟩,
  ⟨0x1A0000C, [], 0x0, 0x0, 0x0, 0x0, 0x7FF, 0xFFFFF800, 0x0, 0x2⟩,
  ⟨0x1A00010, [], 0x0, 0x0, 0x0, 0x0, 0x7FF, 0xFFFFF800, 0x0, 0x3⟩,
  ⟨0x1A00014, [], 0x0, 0x0, 0x0, 0x0, 0x7FF, 0xFFFFF800, 0x0, 0x3⟩,
  ⟨0x1A00018, [], 0x0, 0x0, 0x0, 0x0, 0x7FF, 0xFFFFF800, 0x0, 0x3⟩,
  ⟨0x1A0001C, [], 0x0, 0x0, 0x0, 0x0, 0x7FF, 0xFFFFF800, 0x0, 0x3⟩,
  ⟨0x1A00020, [], 0x0, 0x0, 0x0, 0x0, 0x7FF, 0xFFFFF800, 0x0, 0x404⟩,
  ⟨0x1A00024, [], 0x0, 0x0, 0x0, 0x0, 0x7FF, 0xFFFFF800, 0x0, 0x404⟩,
  ⟨0x1A00028, [], 0x0, 0x0, 0x0, 0x0, 0x7FF, 0xFFFFF800, 0x0, 0x405⟩,
  ⟨0x1A0002C, [], 0x0, 0x0, 0x0, 0x0, 0x7FF, 0xFFFFF800, 0x0, 0x301⟩,
  ⟨0x1A00030, [], 0x0, 0x0, 0x0, 0x0, 0x7FF, 0xFFFFF800, 0x0, 0x106⟩,
  ⟨0x1A00034, [], 0x0, 0x0, 0x0, 0x0, 0x7FF, 0xFFFFF800, 0x0, 0x106⟩,
  ⟨0x1A00038, [], 0x0, 0x0, 0x0, 0x0, 0x7FF, 0xFFFFF800, 0x0, 0x106⟩,
  ⟨0x1A0003C, [], 0x0, 0x0, 0x0, 0x0, 0x7FF, 0xFFFFF800, 0x0, 0x106⟩,
  ⟨0x1A00040, [], 0x0, 0x0, 0x0, 0x0, 0x7FF, 0xFFFFF800, 0x0, 0x7⟩,
  ⟨0x1A00044, [], 0x0, 0x0, 0x0, 0x0, 0x7FF, 0xFFFFF800, 0x0, 0x7⟩,
  ⟨0x1A00048, [], 0x0, 0x0, 0x0, 0x0, 0x7FF, 0xFFFFF800, 0x0, 0x7⟩,
  ⟨0x1A0004C, [], 0x0, 0x0, 0x0, 0x0, 0x7FF, 0xFFFFF800, 0x0, 0x7⟩]
/-- Rows of the PINMUX block, part 2. -/
def RegRow.pinmuxRows2 : List RegRow := [
  ⟨0x1A00050, [], 0x0, 0x0, 0x0, 0x0, 0x7FF, 0xFFFFF800, 0x0, 0x8⟩,
  ⟨0x1A00054, [], 0x0, 0x0, 0x0, 0x0, 0x7FF, 0xFFFFF800, 0x0, 0x9⟩,
  ⟨0x1A00058, [], 0x0, 0x0, 0x0, 0x0, 0x7FF, 0xFFFFF800, 0x0, 0x10A⟩,
  ⟨0x1A0005C, [], 0x0, 0x0, 0x0, 0x0, 0x7FF, 0xFFFFF800, 0x0, 0x10A⟩,
  ⟨0x1A00060, [], 0x0, 0x0, 0x0, 0x0, 0x7FF, 0xFFFFF800, 0x0, 0xB⟩,
  ⟨0x1A00080, [], 0x0, 0xFFFFFFFF, 0x0, 0x0, 0x0, 0x0, 0x0, 0x2⟩,
  ⟨0x1A00084, [], 0x0, 0xFFFFFFFF, 0x0, 0x0, 0x0, 0x0, 0x0, 0x2⟩,
  ⟨0x1A00088, [], 0x0, 0xFFFFFFFF, 0x0, 0x0, 0x0, 0x0, 0x0, 0x2⟩,
  ⟨0x1A0008C, [], 0x0, 0xFFFFFFFF, 0x0, 0x0, 0x0, 0x0, 0x0, 0x2⟩,
  ⟨0x1A00090, [], 0x0, 0xFFFFFFFF, 0x0, 0x0, 0x0, 0x0, 0x0, 0x3⟩,
  ⟨0x1A00094, [], 0x0, 0xFFFFFFFF, 0x0, 0x0, 0x0, 0x0, 0x0, 0x3⟩,
  ⟨0x1A00098, [], 0x0, 0xFFFFFFFF, 0x0, 0x0, 0x0, 0x0, 0x0, 0x3⟩,
  ⟨0x1A0009C, [], 0x0, 0xFFFFFFFF, 0x0, 0x0, 0x0, 0x0, 0x0, 0x3⟩,
  ⟨0x1A000A0, [], 0x0, 0xFFFFFFFF, 0x0, 0x0, 0x0, 0x0, 0x0, 0x404⟩,
  ⟨0x1A000A4, [], 0x0, 0xFFFFFFFF, 0x0, 0x0, 0x0, 0x0, 0x0, 0x404⟩,
  ⟨0x1A000A8, [], 0x0, 0xFFFFFFFF, 0x0, 0x0, 0x0, 0x0, 0x0, 0x405⟩,
  ⟨0x1A000AC, [], 0x0, 0xFFFFFFFF, 0x0, 0x0, 0x0, 0x0, 0x0, 0x301⟩,
  ⟨0x1A000B0, [], 0x0, 0xFFFFFFFF, 0x0, 0x0, 0x0, 0x0, 0x0, 0x106⟩,
  ⟨0x1A000B4, [], 0x0, 0xFFFFFFFF, 0x0, 0x0, 0x0, 0x0, 0x0, 0x106⟩,
  ⟨0x1A000B8, [], 0x0, 0xFFFFFFFF, 0x0, 0x0, 0x0, 0x0, 0x0, 0x106⟩]
/-- Rows of the PINMUX block, part 3. -/
def RegRow.pinmuxRows3 : List RegRow := [
  ⟨0x1A000BC, [], 0x0, 0xFFFFFFFF, 0x0, 0x0, 0x0, 0x0, 0x0, 0x106⟩,
  ⟨0x1A000C0, [], 0x0, 0xFFFFFFFF, 0x0, 0x0, 0x0, 0x0, 0x0, 0x7⟩,
  ⟨0x1A000C4, [], 0x0, 0xFFFFFFFF, 0x0, 0x0, 0x0, 0x0, 0x0, 0x7⟩,
  ⟨0x1A000C8, [], 0x0, 0xFFFFFFFF, 0x0, 0x0, 0x0, 0x0, 0x0, 0x7⟩,
  ⟨0x1A000CC, [], 0x0, 0xFFFFFFFF, 0x0, 0x0, 0x0, 0x0, 0x0, 0x7⟩,
  ⟨0x1A000D0, [], 0x0, 0xFFFFFFFF, 0x0, 0x0, 0x0, 0x0, 0x0, 0x8⟩,
  ⟨0x1A000D4, [], 0x0, 0xFFFFFFFF, 0x0, 0x0, 0x0, 0x0, 0x0, 0x9⟩,
  ⟨0x1A000D8, [], 0x0, 0xFFFFFFFF, 0x0, 0x0, 0x0, 0x0, 0x0, 0x10A⟩,
  ⟨0x1A000DC, [], 0x0, 0xFFFFFFFF, 0x0, 0x0, 0x0, 0x0, 0x0, 0x10A⟩,
  ⟨0x1A000E0, [], 0x0, 0xFFFFFFFF, 0x0, 0x0, 0x0, 0x0, 0x0, 0xB⟩,
  ⟨0x1A00200, [], 0x0, 0x1F00, 0x7, 0x0, 0x0, 0xFFFFE0F8, 0x0, 0x0⟩,
  ⟨0x1A00300, [], 0xFFFFFFFF, 0x0, 0x0, 0x0, 0x0, 0x0, 0x0, 0x0⟩,
  ⟨0x1A00304, [], 0xFFFFFFFF, 0x0, 0x0, 0x0, 0x0, 0x0, 0x0, 0x0⟩,
  ⟨0x1A00308, [], 0xFFFFFFFF, 0x0, 0x0, 0x0, 0x0, 0x0, 0x0, 0x0⟩,
  ⟨0x1A0030C, [], 0xFFFFFFFF, 0x0, 0x0, 0x0, 0x0, 0x0, 0x0, 0x0⟩,
  ⟨0x1A00310, [], 0x0, 0xFFFFFFFF, 0x0, 0x0, 0x0, 0x0, 0x0, 0x0⟩,
  ⟨0x1A00314, [], 0x0, 0xFFFFFFFF, 0x0, 0x0, 0x0, 0x0, 0x0, 0x0⟩]
/-- The rows of the PINMUX block. -/
def RegRow.pinmuxRows : List RegRow := RegRow.pinmuxRows1 ++ RegRow.pinmuxRows2 ++ RegRow.pinmuxRows3
/-- Rows of the GATE block, part 1. -/
def RegRow.gateRows1 : List RegRow := [
  ⟨0x1B00000, [(0x8, 64)], 0x0, 0x0, 0x0, 0xFFFFFFFF, 0x0, 0x0, 0x0, 0x0⟩,
  ⟨0x1B00004, [(0x8, 64)], 0x0, 0xFFFFFFFF, 0x0, 0x0, 0x0, 0x0, 0x0, 0x0⟩,
  ⟨0x1B00400, [], 0x0, 0xFFFFFFFF, 0x0, 0x0, 0x0, 0x0, 0x0, 0x0⟩,
  ⟨0x1B00404, [], 0x0, 0xFFFFFFFF, 0x0, 0x0, 0x0, 0x0, 0x0, 0x0⟩,
  ⟨0x1B00408, [], 0x0, 0xFFFFFFFF, 0x0, 0x0, 0x0, 0x0, 0x0, 0x0⟩,
  ⟨0x1B0040C, [], 0x0, 0xFFFFFFFF, 0x0, 0x0, 0x0, 0x0, 0x0, 0x0⟩]
/-- The rows of the GATE block. -/
def RegRow.gateRows : List RegRow := RegRow.gateRows1
/-- The rows of the block with a code (R805). -/
def RegRow.ofBlock : Nat → List RegRow
  | 0x0 => RegRow.chipRows
  | 0x1 => RegRow.parterreRows
  | 0x2 => RegRow.weirRows
  | 0x3 => RegRow.clepsydraRows
  | 0x4 => RegRow.fountainRows
  | 0x5 => RegRow.fountainRows
  | 0x6 => RegRow.fountainRows
  | 0x7 => RegRow.fountainRows
  | 0x8 => RegRow.cascadeRows
  | 0x9 => RegRow.cisternRows
  | 0xA => RegRow.pipeRows
  | 0xB => RegRow.pipeRows
  | 0xC => RegRow.pipeRows
  | 0xD => RegRow.pipeRows
  | 0xE => RegRow.csiRows
  | 0xF => RegRow.codecRows
  | 0x10 => RegRow.ddrRows
  | 0x11 => RegRow.pcieRows
  | 0x12 => RegRow.ethRows
  | 0x13 => RegRow.phaseioRows
  | 0x14 => RegRow.safetyRows
  | 0x15 => RegRow.clockRows
  | 0x16 => RegRow.powerRows
  | 0x17 => RegRow.integrityRows
  | 0x18 => RegRow.bootRows
  | 0x19 => RegRow.fwpRows
  | 0x1A => RegRow.pinmuxRows
  | 0x1B => RegRow.gateRows
  | _ => []

/-- The row of the register at an offset of the register region, if a chapter assigns the offset. -/
def RegRow.of? (off : Nat) : Option RegRow := (RegRow.ofBlock (off / 0x100000)).find? fun r => r.covers off

/-- The reset value of the register at an offset. -/
def RegRow.resetOf (off : Nat) : W32 := ((RegRow.of? off).map RegRow.reset).getD 0

end Sys2Proof.Machine
end

