-- ==== Sys2Proof/Machine/Table.lean ====
section
/-! DEFINITION. Sys2Proof/Machine/Table.lean: sparse tables and memories in one canonical form.

A table is a list of keys and values with the keys strictly rising and no entry equal to what an unlisted key reads as
(its default), so that equal tables are equal lists. A memory is a table of bytes whose default is 0x00 (log entry 2). -/
namespace Sys2Proof.Machine

/-- A sparse table, keys strictly rising. -/
abbrev Table (α : Type) := List (Nat × α)

/-- The value a table holds at a key, or the default. -/
def Table.get {α : Type} (d : α) : Table α → Nat → α
  | [], _ => d
  | (j, v) :: t, k => if j = k then v else Table.get d t k

/-- The table without a key. -/
def Table.erase {α : Type} (t : Table α) (k : Nat) : Table α := t.filter fun e => e.1 != k

/-- The table with a value listed at a key. -/
def Table.insert {α : Type} : Table α → Nat → α → Table α
  | [], k, v => [(k, v)]
  | (j, w) :: t, k, v =>
    if j = k then (k, v) :: t else if k < j then (k, v) :: (j, w) :: t else (j, w) :: Table.insert t k v

/-- The table with a value written at a key: writing the default removes the entry. -/
def Table.put {α : Type} [DecidableEq α] (d : α) (t : Table α) (k : Nat) (v : α) : Table α :=
  if v = d then Table.erase t k else Table.insert t k v

/-- Every key of the table is above a bound, the keys strictly rise, and no value is the default. -/
def Table.above {α : Type} [DecidableEq α] (d : α) : Nat → Table α → Bool
  | _, [] => true
  | b, (k, v) :: t => b ≤ k && v ≠ d && Table.above d (k + 1) t

/-- The canonical form of a table. -/
def Table.wf {α : Type} [DecidableEq α] (d : α) (t : Table α) : Bool := Table.above d 0 t

/-- The table with every key of a range removed. -/
def Table.clear {α : Type} (t : Table α) (lo n : Nat) : Table α :=
  t.filter fun e => e.1 < lo || lo + n ≤ e.1

/-- A memory: a sparse table of bytes. What an unlisted address reads as is 0x00. -/
abbrev Mem := List Host.Cell

/-- What a byte of memory that nothing has written reads as (log entry 2). -/
def Mem.unwritten : Byte := 0#8

/-- One byte of a memory. -/
def Mem.rd (m : Mem) (a : Nat) : Byte := Table.get Mem.unwritten m a

/-- A memory with one byte written. -/
def Mem.wr (m : Mem) (a : Nat) (b : Byte) : Mem := Table.put Mem.unwritten m a b

/-- The canonical form of a memory. -/
def Mem.wf (m : Mem) : Bool := Table.wf Mem.unwritten m

/-- n bytes from an address, lowest address first. -/
def Mem.rdBytes (m : Mem) (a : Nat) : Nat → List Byte
  | 0 => []
  | n + 1 => Mem.rd m a :: Mem.rdBytes m (a + 1) n

/-- A memory with bytes written from an address upward. -/
def Mem.wrBytes (m : Mem) (a : Nat) : List Byte → Mem
  | [] => m
  | b :: bs => Mem.wrBytes (Mem.wr m a b) (a + 1) bs

/-- The little-endian value of a list of bytes. -/
def leNat : List Byte → Nat
  | [] => 0
  | b :: bs => b.toNat + 256 * leNat bs

/-- The n bytes of a value, little-endian. -/
def leBytes (v : Nat) : Nat → List Byte
  | 0 => []
  | n + 1 => BitVec.ofNat 8 v :: leBytes (v / 256) n

/-- The little-endian number in n bytes of a memory. -/
def Mem.rdN (m : Mem) (a n : Nat) : Nat := leNat (Mem.rdBytes m a n)

/-- A memory with a little-endian number of n bytes written. -/
def Mem.wrN (m : Mem) (a n v : Nat) : Mem := Mem.wrBytes m a (leBytes v n)

/-- The listed bytes of n addresses from lo, moved to start at a new address. -/
def Mem.slice (m : Mem) (lo n dst : Nat) : Mem :=
  (m.filter fun e => lo ≤ e.1 && e.1 < lo + n).map fun e => (e.1 - lo + dst, e.2)

/-- Memory dst with n bytes from address d taken from address a of memory src. -/
def Mem.copy (dst : Mem) (d : Nat) (src : Mem) (a n : Nat) : Mem :=
  (dst.filter fun e => e.1 < d) ++ Mem.slice src a n d ++ (dst.filter fun e => d + n ≤ e.1)

end Sys2Proof.Machine
end

