-- ==== Sys2Proof/Machine/Types.lean ====
section
/-! DEFINITION. Sys2Proof/Machine/Types.lean: the records that State is made of, one for each kind of thing the spec
gives the machine beside its registers: events, rings, contexts, Gates' waiters, clocks, phase inputs, comparators,
detectors, injection points, safety pairs, the clock unit, the power sequencer and the pins. -/
namespace Sys2Proof.Machine

/-! Events and rings (spec/09 R497 to R501, spec/10 R524 to R526). -/

/-- An event on its way to a ring (R497). `twinBad`: its twin words disagree (R662). -/
structure Event where
  ring : Ring
  gts : Nat
  source : Nat
  type : Nat
  detail : Nat
  cookie : Nat := 0
  ctxId : Nat := 0xFFFF
  twinBad : Bool := false
deriving DecidableEq, Repr

/-- The counts of a ring: records written and consumed, drops (R500), and what R501 has yet to signal: how many records, the GTS
of the oldest, and whether one of them is safety-class. -/
structure RingSt where
  written : Nat := 0
  read : Nat := 0
  lost : Nat := 0
  unreported : Nat := 0
  unsig : Nat := 0
  oldest : Option Nat := none
  safetyNew : Bool := false
deriving DecidableEq, Repr

/-- A submission queue of a resident context (R476, R480 to R486). Each pointer is a twin word: a value of 16 bits and its
complement (R449, R453); `doorbells` are the latched tails, oldest first. -/
structure Queue where
  ringVa : Nat := 0
  progressVa : Nat := 0
  log2 : Nat := 0
  enable : Bool := false
  head : Nat := 0
  headC : Nat := 65535
  tail : Nat := 0
  tailC : Nat := 65535
  doorbells : List Nat := []
  coalesced : Bool := false
  twinBad : Bool := false
  cancelIgnored : Bool := false
  stopped : Bool := false
deriving DecidableEq, Repr

/-- The fields of a completion record that do not depend on its place in the ring (R492). -/
structure CplRec where
  status : Nat
  kind : Nat
  fault : Nat := 0
  replays : Nat := 0
  ringCount : Nat
  queue : Nat
  fountain : Nat
  cookie : Nat
  gts : Nat
  offer : Nat := 0
  deadline : Nat := 0
  progressVa : Nat := 0
  lastLayer : Nat := 0xFFFF
  outBits : Nat := 0
  cflags : Nat := 0
deriving DecidableEq, Repr

/-- A context in a resident slot (R475 to R479), with its own copy of the record's page-table root (R449). `cplHeld`:
completion records held back (R486). `finals`: final records that wait until the events of their jobs' layers are in the event
ring (R496). `closing`: a CTX_DESTROY has closed its doorbell pages (R479). `vt`: its virtual time on each engine (R444). -/
structure Ctx where
  resident : Bool := false
  ctxId : Nat := 0
  share : Nat := 0
  queueCount : Nat := 0
  ptRoot : Nat := 0
  guarMax : Nat := 0
  beMax : Nat := 0
  recVa : Nat := 0
  cplVa : Nat := 0
  cplLog2 : Nat := 0
  cplVector : Nat := 0xFF
  evtVa : Nat := 0
  evtLog2 : Nat := 0
  evtVector : Nat := 0xFF
  modUs : Nat := 0
  cpl : RingSt := {}
  evt : RingSt := {}
  cplHeld : Nat := 0
  finals : List CplRec := []
  queues : Table Queue := []
  vt : Table Nat := []
  closing : Bool := false
deriving DecidableEq, Repr

/-! Time (spec/10). -/

/-- A pending operation of the TAI write mailbox (R532, R533). `op`: 1 SET, 2 ADD, 3 RATE. -/
structure TaiOp where
  op : Nat
  sec : Nat
  ns : Nat
  adj : Nat
  onStrobe : Bool
  ready : Bool
deriving DecidableEq, Repr

/-- A comparator, of time or of phase (R552 to R556). `base`: BASE of a time comparator; `dir`, `input`: DIR and INPUT
of a phase comparator; `fresh`: armed, at the GTS `armedAt`, with its condition already met. The target of a TAI comparator is in
nanoseconds. -/
structure Cmp where
  armed : Bool := false
  fresh : Bool := false
  armedAt : Nat := 0
  base : Nat := 0
  dir : Nat := 0
  input : Nat := 0
  target : Nat := 0
  period : Nat := 0
deriving DecidableEq, Repr

/-- A phase input (R540 to R551). `hist`: the positions it has held, each with the GTS it took it, newest first. `a`, `b`, `z` and
`level`: the accepted levels of its balls; `fa`, `fb`, `fz` and `fl`: their filters, the samples in a row that were unlike the
accepted level; `sampled` and `zSampled`: the GTS of the last sample that a command brought of A and B or of the one ball, and of
Z (R542). -/
structure Phase where
  pos : Nat := 0
  hist : List (Nat × Nat) := []
  a : Bool := false
  b : Bool := false
  z : Bool := false
  level : Bool := false
  fa : Nat := 0
  fb : Nat := 0
  fz : Nat := 0
  fl : Nat := 0
  sampled : Option Nat := none
  zSampled : Option Nat := none
  lastMains : Option Nat := none
  rawPrev : Nat := 0
  gotFirst : Bool := false
  badRun : Nat := 0
  frameStart : Option Nat := none
  lastStart : Option Nat := none
  lastGood : Nat := 0
  sampleGts : Nat := 0
  reasonGts : Nat := 0
deriving DecidableEq, Repr

/-- A frame-sync output (R559, R560): the GTS of a match it has yet to act on, and the GTS at which it asserted. -/
structure Fsync where
  matched : Option Nat := none
  asserted : Option Nat := none
deriving DecidableEq, Repr

/-- An egress time stamp of an Ethernet port (R537, R824). -/
structure Stamp where
  sec : Nat
  ns : Nat
  seqId : Nat
  domain : Nat
  msgType : Nat
deriving DecidableEq, Repr

/-- An Ethernet port: its egress stamps, the stamp of the last received event message, the originTimestamp that the last one-step
Sync took and whether its UDP checksum was cleared, the TAI at which its gate cycle was last cut, and the TAI in ns at which the
next began (R537 to R539). -/
structure EthPort where
  queue : List Stamp := []
  ingress : Option Stamp := none
  originTs : Option Stamp := none
  csumCleared : Bool := false
  qbvCut : Option (Nat × Nat) := none
  qbvNext : Option Nat := none
deriving DecidableEq, Repr

/-- The mask bit of an MSI-X table entry, and its bit of the pending-bit array (R502). -/
structure MsixVec where
  masked : Bool := false
  pending : Bool := false
deriving DecidableEq, Repr

/-! Integrity and safety (spec/13). -/

/-- An injection point (R635 to R641): the unlock stage, the accesses counted since arming, and the address of its last
injection at a memory site. -/
structure Inj where
  stage : Nat := 0
  count : Nat := 0
  lastAddr : Option Nat := none
deriving DecidableEq, Repr

/-- What a memory word holds beside its data: a stored error, or poison (R643 to R649). `inj`: put there by an
injection (R641). -/
inductive Mark where
  | clean
  | single (inj : Bool)
  | double (inj : Bool)
  | poison (inj : Bool)
deriving DecidableEq, Repr

/-- A safety pair (R671 to R678, R105). `since`: the GTS from which R676 counts; `occAt`: the GTS of the last occurrence of
each cause that drove it (R677). `fresh`: the SAFETY section has applied with nothing latched, and the alive pattern is still
to begin (R107). `held`: a cause has latched under LATCH_TO_RESET, so the pair stays at STOP until a device reset (R107, R676). `entered`: the GTS at which the pair last entered STOP, whose
event names the lowest of the causes of that cycle (R678). -/
structure Pair where
  applied : Bool := false
  enable : Bool := false
  latch : Bool := false
  mask : Nat := 0
  run : Bool := false
  since : Nat := 0
  fresh : Bool := false
  held : Bool := false
  entered : Option Nat := none
  occAt : Table (Option Nat) := []
deriving DecidableEq, Repr

/-! Clocks and power (spec/15). -/

/-- The judging of one candidate reference (R725): the deviations, in ppm of nominal, of the windows seen in a row within the
band, newest first; whether it is judged good, and the GTS since which it has been. -/
structure Judge where
  counts : List Int := []
  good : Bool := false
  since : Nat := 0
deriving DecidableEq, Repr

/-- What the root PLL runs from (CLK_REF_STATUS.SOURCE). -/
inductive RefSrc where
  | judging
  | refClk
  | recovered
  | holdover
deriving DecidableEq, Repr

/-- The clock unit (R721 to R736). `gated`: every clock but the always-on oscillator is gated (R733). -/
structure ClockS where
  src : RefSrc := .judging
  refClk : Judge := {}
  recov : Judge := {}
  recovWanted : Bool := false
  locked : Bool := false
  gated : Bool := false
  selfRefresh : Bool := false
  shutdown : Bool := false
  standby : Bool := false
  transfers : Nat := 0
deriving DecidableEq, Repr

/-- An AVSBus frame in flight (R738, R741, R744): a Voltage write for an operating point, whether it is the second attempt,
and the GTS at which it began. -/
structure Frame where
  op : Nat
  retry : Bool := false
  start : Nat := 0
deriving DecidableEq, Repr

/-- The power sequencer and FWP4's loop (R737 to R756, R760, R761, R6). `op`: the point whose divider is in force; `target`: the
point whose voltage was last commanded, at the GTS `cmdGts`; `reached`: the samples of R742 seen in a row, the last at the
GTS `sampleAt`. `spLow` and `spHigh`: the least and the greatest set point, in mV, of the slew in progress (R745). `ceiling`: the fastest point that FWP4 may request. `capSet`: the cap in W; `capLimit`: the limit of R6 while
`limited`; `belowSince`: the GTS from which R6 counts its next second. `est`: the last estimates, newest first, in 0.01 W, the
newest at the GTS `estAt`; `underSince`: the GTS since which the mean has stayed 3 W below the cap; `checkAt`: the GTS of the
last comparison; `capThrottle` and `heldReason`: reasons 0 and 5 of R751. `sensors` and `prev`: the last two readings of the 24
sensors, in 0.25 °C, the newest at the GTS `readAt`; `warned` and `trip`: the warning and the trip have occurred and not yet
passed; `lastStep`: the GTS from which the next thermal step counts; `peakSet`: PEAK holds a reading. `retrainAt`: the GTS at
which FWP4 requests the window of R761. -/
structure PowerS where
  op : Nat := 5
  target : Nat := 5
  pending : Option Nat := none
  frame : Option Frame := none
  cmdGts : Nat := 0
  slewing : Bool := false
  reached : Nat := 0
  spLow : Nat := 600
  spHigh : Nat := 600
  sampleAt : Option Nat := none
  avsFault : Bool := false
  ceiling : Nat := 0
  capSet : Nat := 45
  capLimit : Nat := 45
  limited : Bool := false
  belowSince : Option Nat := none
  est : List Nat := []
  estAt : Option Nat := none
  underSince : Option Nat := none
  checkAt : Option Nat := none
  capThrottle : Bool := false
  heldReason : Bool := false
  sensors : List Int := []
  prev : List Int := []
  readAt : Option Nat := none
  warned : Bool := false
  trip : Bool := false
  lastStep : Nat := 0
  peakSet : Bool := false
  retrainAt : Option Nat := none
deriving DecidableEq, Repr

/-- A pin group (R777 to R786): the GTS at which its switch applied, while one goes on (R784), and the staged value that
its strobe has taken, with the PMX_STATUS bits of the rules that the strobe found it to break (R781 to R783). -/
structure PinGroup where
  switchAt : Option Nat := none
  due : Option (W32 × Nat) := none
deriving DecidableEq, Repr

/-! Jobs and the Weir (spec/01, spec/08, spec/09 R484 to R491). -/

/-- A handle-table entry as the Weir copied it (R469, R474). `inTable`: the handle lies below WEIR_HANDLE_COUNT and is
not 0, and its entry could be read. -/
structure Handle where
  num : Nat := 0
  inTable : Bool := false
  baseVa : Nat := 0
  size : Nat := 0
  attr : Nat := 0
  resv : Nat := 0
deriving DecidableEq, Repr

/-- A job descriptor as it was taken (R490, R484). -/
structure Desc where
  ctxId : Nat := 0
  queue : Nat := 0
  dflags : Nat := 0
  fountain : Nat := 0
  phaseInput : Nat := 0
  handleCount : Nat := 0
  resv : Nat := 0
  certVa : Nat := 0
  listVa : Nat := 0
  deadline : Nat := 0
  deadlineC : Nat := 0
  cookie : Nat := 0
  handles : List Nat := []
deriving DecidableEq, Repr

/-- A descriptor in the Weir's intake (R484): where it came from, its submission GTS, and the handle entries its list
names; `listOk`: the handle list could be read. `cancelled`: cancelled before its decision (R488). -/
structure Intake where
  slot : Nat
  queue : Nat
  ringCount : Nat
  gts : Nat
  desc : Desc
  handles : List Handle
  listOk : Bool := true
  cancelled : Bool := false
deriving DecidableEq, Repr

/-- A page entry of a certificate (R402). -/
structure CertPage where
  obj : Nat := 0
  flags : Nat := 0
  view : Nat := 0
  objPage : Nat := 0
  first : Nat := 0
  last : Nat := 0
  resv : Nat := 0
deriving DecidableEq, Repr

/-- A sync entry of a certificate (R404): a wait or a set of a Gate to a value by a layer. -/
structure CertSync where
  layer : Nat := 0
  gate : Nat := 0
  isSet : Bool := false
  value : Bool := false
  resv : Nat := 0
deriving DecidableEq, Repr

/-- A layer entry of a certificate (R399). -/
structure CertLayer where
  kind : Nat := 1
  flags : Nat := 0
  held : Nat := 0
  resv : Nat := 0
  bound : Nat := 0
  firstTile : Nat := 0
  tiles : Nat := 0
  outLast : Nat := 0
  resv2 : Nat := 0
deriving DecidableEq, Repr

/-- A certificate: its header (R398), page table and sync table, as read at admission (R405, R406). -/
structure Cert where
  magic : Nat := 0
  version : Nat := 0
  layerCount : Nat := 0
  fsize : Nat := 0
  pw : Nat := 0
  outputCount : Nat := 0
  resvB : Nat := 0
  longest : Nat := 0
  tileCount : Nat := 0
  slots : Nat := 0
  pageCount : Nat := 0
  syncCount : Nat := 0
  skimLayers : Nat := 0
  sumCyc : Nat := 0
  sumSkim : Nat := 0
  maxCyc : Nat := 0
  maxSkim : Nat := 0
  maxUnit : Nat := 0
  programVa : Nat := 0
  scaleVa : Nat := 0
  layerOff : Nat := 0
  pageOff : Nat := 0
  syncOff : Nat := 0
  totalLength : Nat := 0
  resvT : Nat := 0
  pages : List CertPage := []
  syncs : List CertSync := []
deriving DecidableEq, Repr

/-- A phase deadline (R31 to R33): the input, the target position, and whether the target lies above p0. -/
structure PhaseDl where
  input : Nat
  target : Nat
  up : Bool
deriving DecidableEq, Repr

/-- A bound tensor of a job's scale snapshot (R386 to R389): ADJ and EPOCH at the first dispatch, the largest positive
code of the format that writes it, whether the job binds it as OUT_T, and the frame's totals. -/
structure ScaleEnt where
  tensor : Nat := 0
  adj : Int := 0
  epoch : Nat := 0
  lmax : Nat := 0
  out : Bool := false
  sat : Nat := 0
  elems : Nat := 0
  maxabs : Nat := 0
deriving DecidableEq, Repr

/-- A binding of a scale-state object (R383). -/
structure Bind where
  layer : Nat := 0
  dcd : Nat := 0
  outT : Nat := 0xFFFF
  inT : Nat := 0xFFFF
  resT : Nat := 0xFFFF
  resv : Nat := 0
deriving DecidableEq, Repr

/-- An accepted job (R65): its class, deadlines, reserve and progress, and the running sums of R405. `producers`: the
job and layer that sets each flag it waits on (R413). `granted`: its slots and pages are granted (R420). `scaleHdr`: TENSOR_OFFSET, LOG_OFFSET and LOG_ENTRIES of its scale-state object, read at the first dispatch (R386). `ended`: the
final status of a job whose writeback is still going on (R73). `sets`: the flags its commits have set (R63). `doneAt`:
the GTS of the last commit of a job that awaits its writeback (R313). `cancelAt`: the GTS of a cancel, which takes effect as its cycle
ends (R489). -/
structure Job where
  id : Nat
  slot : Nat
  queue : Nat
  ringCount : Nat
  ctxId : Nat
  cookie : Nat
  guar : Bool
  fountain : Nat
  deadline : Nat
  twinOk : Bool := true
  phase : Option PhaseDl := none
  reserve : Nat := 0
  replays : Nat := 0
  lastDet : Nat := 0
  certVa : Nat := 0
  cert : Cert := {}
  handles : List Handle := []
  submitGts : Nat := 0
  acceptGts : Nat := 0
  release : Nat := 0
  partBDeadline : Nat := 0
  producers : List (Nat × Nat × Nat × Bool) := []
  granted : Bool := false
  nextLayer : Nat := 0
  lastCommit : Option Nat := none
  outBits : Nat := 0
  tileDone : Nat := 0
  progressVa : Nat := 0
  cycSum : Nat := 0
  skimSum : Nat := 0
  unitSum : Nat := 0
  skimSeen : Nat := 0
  nextTile : Nat := 0
  outSeen : Nat := 0
  lastBound : Nat := 0
  started : Bool := false
  scale : List ScaleEnt := []
  binds : List Bind := []
  scaleHdr : Nat × Nat × Nat := (0, 0, 0)
  sets : List (Nat × Bool) := []
  doneAt : Option Nat := none
  cancelAt : Option Nat := none
  wbPages : Nat := 0
  ended : Option Nat := none
deriving DecidableEq, Repr

/-- A layer on an engine: its job and index, its certificate entry, the GTS of its dispatch edge, and its attempt.
`stopped`: stopped by a fault, awaiting its replay since the GTS. -/
structure LayerRun where
  job : Nat
  layer : Nat
  ent : CertLayer
  dispatchGts : Nat
  attempt : Nat := 0
  stoppedAt : Option Nat := none
deriving DecidableEq, Repr

/-- The Weir (spec/08): the intake, the accepted jobs in order of acceptance, the maintenance window, and the turns it
takes. `flagLast`: the last write of each Gate flag, its GTS and its place in the order of one cycle, a Fountain's number or 4 for
the driver (R243). `hadReady`: the slots × 8 + engine that had a ready best-effort layer (R446). `floorBreach`: R64. `clocksBad`: the CLOCKS twin is in mismatch (R664). -/
structure WeirS where
  intake : List Intake := []
  jobs : List Job := []
  nextId : Nat := 1
  maintPending : Bool := false
  maintStart : Option Nat := none
  admitHeld : Bool := false
  floorBreach : Bool := false
  clocksBad : Bool := false
  lastServed : Nat := 0
  lastQueue : Table Nat := []
  skimTurn : Nat := 0
  invPending : Option (Nat × Nat) := none
  invAll : Bool := false
  cache : Table Nat := []
  locked : List (Nat × Nat × Nat) := []
  flagLast : Table (Option (Nat × Nat)) := []
  hadReady : List Nat := []
deriving DecidableEq, Repr

/-! The checker and the integrity unit (spec/02, spec/13). -/

/-- The Parterre checker: its own copy of the image under check (R826) and the tags of its sections, whether the check is of
the boot image, whether the lock was set, and the first section whose blocks were not idle, when the check began (R130, R132).
`inForce`: an image is in force. -/
structure CheckerS where
  tags : List Nat := []
  copy : List Byte := []
  boot : Bool := false
  lockAtStart : Bool := false
  busyAtStart : Option Nat := none
  inForce : Bool := false
deriving DecidableEq, Repr

/-- Detectors, injection points, word marks, parity failures and monitors. `corrected`: the corrected count of each
detector (R631). `marks`: stored errors and poison by memory word. `parBad`: registers whose parity has failed and that
have not been written since (R659, R660); `stagedBad`: registers whose staged value's parity has failed (R658). `clkOut`, `railOut`, `clkStopped`: findings present now (R665). `yesOk`: the
GTS since which every Yes row is in range (R667). `cleared`: the GTS at which a No row's finding cleared (R668), domains
at their number and rails at 16 + number. `stopped`: No rows whose blocks are stopped. `tamper`: failed samples in a
row of each loop (R792), those that no injection made at 2 + loop. `swKick`: the GTS at which the software watchdog's period
began; `swExpired`: a watchdog has raised cause bit 5 and no kick has come since (R675). -/
structure IntegS where
  corrected : Table Nat := []
  injs : Table Inj := []
  marks : Table Mark := []
  parBad : List Nat := []
  stagedBad : List Nat := []
  clkOut : Nat := 0
  railOut : Nat := 0
  clkStopped : Nat := 0
  protective : Bool := false
  yesOk : Nat := 0
  stopped : List Nat := []
  cleared : Table Nat := []
  tamper : Table Nat := []
  swKick : Nat := 0
  swExpired : Bool := false
  safetyBad : Bool := false
deriving DecidableEq, Repr

/-! The engines (spec/03 to spec/07). -/

/-- A weight pointer (R228): the cursor, and the strides in units of 64 bytes. -/
structure WPtr where
  cur : Nat := 0
  step : Int := 0
  bstep : Int := 0
deriving DecidableEq, Repr

/-- A bound comparator (R207, R208). -/
structure CmpBind where
  lca : Nat
  cond : Nat
  refsel : Bool
  lcb : Nat
  imm : Nat
deriving DecidableEq, Repr

/-- A held effect (R38, R244, R240), or the mark of a tile commit between the effects of two tiles (R41). -/
inductive Held where
  | evt (code : Nat)
  | setf (gate : Nat) (val : Bool)
  | tile
deriving DecidableEq, Repr

/-- A matrix instruction in progress (R217): its fields, its weight cursor and strides as it issued, the batch and step
it stands at, the drain selection it took (R231), the address of its bundle. `phase`: 0 the preload of the batch, 1 its
steps, 2 its drain. `drn`: it is a DRN (R232), whose only phase is 2; `mpl`: it is an MPL (R223), whose only phase is 0. `pp`: the preload pointer as it issued; `scale`: for
each core in order, the 288 bytes of scales of its MX block (R366). -/
structure MRun where
  m : MSlot
  w : Nat := 0
  step : Int := 0
  bstep : Int := 0
  b : Nat := 0
  s : Nat := 0
  phase : Nat := 0
  dcd : Nat := 0
  sr : Nat := 0
  drn : Bool := false
  mpl : Bool := false
  addr : Nat := 0
  bank : Nat := 0
  pp : Nat := 0
  scale : List (List Byte) := []
deriving DecidableEq, Repr

/-- A statistics slot (R378, R379). -/
structure Stat where
  maxabs : Nat := 0
  sat : Nat := 0
  elems : Nat := 0
  nan : Bool := false
  float : Bool := false
deriving DecidableEq, Repr

/-- A layer that commits while the next one has been dispatched over it (R411): its run, its held effects and tiles, its
statistics and drain set, and its FTN_CYCLES. -/
structure Over where
  run : LayerRun
  held : List Held := []
  tileNow : Nat := 0
  stats : Table Stat := []
  drainSet : List Byte := []
  cycles : Nat := 0
deriving DecidableEq, Repr

/-- A Fountain: the layer on it, its sequencer (R204 to R210), its instruction memory (R255 to R260), its held effects,
its matrix instructions in order, and its counts. `ir`: the 32 bytes of the bundle fetched at the
program counter, none before its fetch. `asm`: the slots of it that have been presented. `hits`: the faults that cores have met
in the cycle and that are still to be charged (core, detector, lost retained input). `waitf`: the Gate, value
and GTS of a hold at WAITF. `active`, `pend`: the job, layer and segment that each bank holds, with their bundle counts.
`frac`: the part of a Cascade cycle not yet counted. `tileNow`: the tile commits of this attempt. `carryOf`: the job
whose next layer is a carry layer (R327). `ovl`: the layer whose commit the dispatch of `run` overlaps (R411). `storeAt`: the GTS of
the layer's last store (R632). `wrote`: what the running layer has written in the Cistern and in DRAM (memory
code, address, length). -/
structure Fountain where
  run : Option LayerRun := none
  stopped : Bool := false
  started : Bool := false
  committing : Bool := false
  tileReqs : Nat := 0
  bank : Nat := 0
  pc : Nat := 0
  lastPc : Nat := 0
  lastBank : Nat := 0
  count : Nat := 0
  active : Option (Nat × Nat × Nat) := none
  segCount : Nat := 0
  swapPending : Bool := false
  pend : Option (Nat × Nat × Nat) := none
  pendCount : Nat := 0
  imem0 : Mem := []
  imem1 : Mem := []
  ir : List Byte := []
  asm : List SlotOp := []
  hits : List (Nat × Nat × Bool) := []
  lc : Table Nat := []
  cmp : Table (Option CmpBind) := []
  pred : Nat := 0
  wp : Table WPtr := []
  pp : Nat := 0
  dcd : Nat := 0
  sr : Nat := 0
  held : List Held := []
  heldTotal : Nat := 0
  waitf : Option (Nat × Bool × Nat) := none
  mats : List MRun := []
  rillSet : List Byte := []
  drainSet : List Byte := []
  drainM : Table Nat := []
  view : Table Nat := []
  stats : Table Stat := []
  frac : Nat := 0
  tileNow : Nat := 0
  carryOf : Option Nat := none
  ovl : Option Over := none
  storeAt : Option Nat := none
  wrote : List (Nat × Nat × Nat) := []
deriving DecidableEq, Repr

/-- A Rill (R272): its state code of RILL_STATUS, its program, the elements completed, the bytes moved on the linear side, the
drops taken and given, the bundle that started it, the transposer's group and its outputs still to be moved, and the bytes of an
unfilled queue entry. `start` is the start base, in units of 32 bytes. Of the element in work, `cur` is what a load Rill has read and
not yet moved, `off` the linear bytes that a store Rill has moved, and `pk` the bytes of its packed run. `stopReq`: a stop awaits the
end of the element (R226). -/
structure Rill where
  st : Nat := 0
  prog : Nat := 0
  start : Nat := 0
  idx : Nat := 0
  lin : Nat := 0
  taken : Nat := 0
  given : Nat := 0
  addr : Nat := 0
  bank : Nat := 0
  trn : List (List Byte) := []
  outq : List (List Byte) := []
  part : List Byte := []
  cur : List Byte := []
  off : Nat := 0
  pk : Nat := 0
  stopReq : Bool := false
deriving DecidableEq, Repr

/-- A row in the raw buffer of a drain chain (R345): its array, its index in the tile, the drain it belongs to, its
elements with their SAT bits, and an error that an injection left in the buffer (R642). -/
structure RawRow where
  arr : Nat
  row : Nat
  m : Nat
  dcd : Nat
  sr : Nat
  float : Bool
  elems : List (Nat × Bool)
  err : Option Nat := none
deriving DecidableEq, Repr

/-- A finished row in the output buffer: the store Rill it is for, its bytes, and its worst-case size (R345). -/
structure OutRow where
  sr : Nat
  bytes : List Byte
  size : Nat
deriving DecidableEq, Repr

/-- A core: accumulator elements (32-bit value, SAT at bit 32) by array × 2,048 + row × 64 + column, the residue of each (R180),
the format + 16 × mode that last wrote each tile (R336), 32-bit vector lanes by register × 64 + lane, its memories, Sluices, Rills (4 and 5 are the store
Rills), operand queues, drain buffers, and its self-test. `wrote`: what the running layer has written in the Basin and the
Reservoir (memory code, address, length). -/
structure Core where
  acc : Table Nat := []
  res : Table Nat := []
  tile : Table Nat := []
  vreg : Table Nat := []
  basin : Mem := []
  resv : Mem := []
  sluice : Table Nat := []
  rills : Table Rill := []
  queues : Table (List (List Byte)) := []
  raw : List RawRow := []
  pool : List (List (Int × Bool)) := []
  out : List OutRow := []
  wrote : List (Nat × Nat × Nat) := []
  badcol : Table Nat := []
  unfit : Bool := false
  tested : Bool := false
  testing : Bool := false
deriving DecidableEq, Repr

/-- A page of the WEIGHT or FEATURE pool (R308): its state, the device-virtual page it holds, or the job and view page
of a scratch page, the order in which it became FREE, and the DMA Rill and the job of its fill. -/
structure Page where
  st : Nat := 0
  va : Option Nat := none
  scratch : Option (Nat × Nat) := none
  weight : Bool := false
  dirty : Bool := false
  poison : Bool := false
  seq : Nat := 0
  dma : Nat := 0
  by_ : Nat := 0
deriving DecidableEq, Repr

/-- The Skimmer (R357): the layer it runs, its command, its view map, and its cycles. -/
structure SkimS where
  run : Option LayerRun := none
  cmd : List Byte := []
  view : Table Nat := []
  stopped : Bool := false
deriving DecidableEq, Repr

/-- The free transactions of a requester that wait for the top arbiter (R319 to R321): how many, its weight, its deficit in
bytes, and the frames in a row in which it has been granted none. -/
structure FreeReq where
  lines : Nat := 0
  weight : Nat := 0
  deficit : Nat := 0
  waited : Nat := 0
deriving DecidableEq, Repr

/-- The DRAM path (R316 to R321, R432): transactions of each holder in the present frame (a job at its number, pipe p at
2^40 + p), how many of them were reserved, the free requests that wait, by END_TAG, the END_TAG that was granted last, bytes
granted to the selected END_TAG, and the next line of each channel's scrub. -/
structure DdrS where
  used : Table Nat := []
  reserved : Nat := 0
  pend : Table FreeReq := []
  lastTag : Nat := 0
  tagBytes : Nat := 0
  scrub : Nat := 0
deriving DecidableEq, Repr

/-! Requests of the host and the firmware (spec/09 R511, R512; spec/14 R693 to R717). -/

/-- A ring that the host fills: the count taken or finished, and the last tail accepted, 16-bit counts (R482, R512). -/
structure TailQ where
  head : Nat := 0
  tail : Nat := 0
deriving DecidableEq, Repr

/-- A firmware request as FWP3 took it (R693). -/
structure FwReq where
  code : Nat
  tag : Nat
  a0 : Nat
  a1 : Nat
  a2 : Nat
deriving DecidableEq, Repr

/-- The firmware: its request ring, the requests taken and not yet answered, oldest first (R696), the responses written
and consumed, the GTSs of each processor's restarts, newest first (R717), the restarts that wait for another, with their
causes (R715), and the log records kept before the log ring is written (spec/14, Log ring). -/
structure FwpS where
  req : TailQ := {}
  taken : List FwReq := []
  written : Nat := 0
  read : Nat := 0
  restarts : Table (List Nat) := []
  waiting : List (Nat × Nat) := []
  early : List (List Byte) := []
deriving DecidableEq, Repr

/-! Cameras, pipes, Jets, the Spout and the tokeniser (spec/11; spec/06 R350 to R356). -/

/-- A frame of a stream (R570 to R588, R622): its record's fields, the stream entry and tuning record read at its start, the
CFA period, the last good samples (one more than the code, by phase) and lines (by row phase) of R576, and, of an in-line
frame, the lines that its pipe has yet to use, its Jet's registers at the frame start, and the output lines delivered. -/
structure FrameS where
  stream : Nat := 0
  frame : Nat := 0
  fsGts : Nat := 0
  feGts : Nat := 0
  doneGts : Nat := 0
  csiFn : Nat := 0
  slot : Nat := 0xFF
  marks : Nat := 0
  got : Nat := 0
  lines : Nat := 0
  crcLines : Nat := 0
  ecc : Nat := 0
  spilled : Nat := 0
  ent : List Byte := []
  tune : List Byte := []
  period : Nat := 2
  lastS : Table Nat := []
  lastL : Table (List Nat) := []
  rows : List (List Nat) := []
  outY : Nat := 0
  closed : Bool := false
  jetOn : Bool := false
  jetRegs : Table W32 := []
deriving DecidableEq, Repr

/-- A stream (R570 to R586): its entry as last read, the frames begun and the records written since ENABLE, the GTS from
which TIMEOUT_US counts, the open frame, the frames whose records are due, a frame start seen while STOPPED (GTS and frame
number, R580), and RELEASED as it stood before the writes of the cycle at `relAt` (R586). `rel`: RELEASED of a decoded
stream. -/
structure StreamS where
  ent : List Byte := []
  begun : Nat := 0
  recs : Nat := 0
  since : Nat := 0
  cur : Option FrameS := none
  ready : List FrameS := []
  lateFs : Option (Nat × Nat) := none
  rel : Nat := 0
  relOld : Nat := 0
  relAt : Option Nat := none
deriving DecidableEq, Repr

/-- A frame in a Jet (R350 to R355): the Jet's registers at its start, the picture's size, the formatted lines delivered,
the next output row, the frame's number, and the frame's marks so far. -/
structure JetRun where
  frame : Nat
  regs : Table W32
  w : Nat
  h : Nat
  lines : List (List Byte) := []
  oy : Nat := 0
  marks : Nat := 0
deriving DecidableEq, Repr

/-- A complete row in a Jet's Cistern ring (R352, R353): where it lies and how long it is, where it goes, the frame it
belongs to and that frame's marks, and whether it is the frame's last. -/
structure JetRow where
  addr : Nat
  pitch : Nat
  dst : Nat
  frame : Nat
  last : Bool
  marks : Nat
deriving DecidableEq, Repr

/-- An image pipe and its Jet (R587 to R594, R350 to R355): closed in-line frames whose lines it has yet to deliver,
memory-path frames in the order of R587, PIPE_TUNE_SEL before the writes of the cycle at `selAt` (R594), the frame in the
Jet, the rows in the Jet's ring, oldest first, and the offset in the ring at which its next row goes (R351, R355). -/
structure PipeS where
  inl : List FrameS := []
  queue : List FrameS := []
  selOld : Nat := 0
  selAt : Option Nat := none
  jet : Option JetRun := none
  ring : List JetRow := []
  ringAt : Nat := 0
deriving DecidableEq, Repr

/-- A Spout part (R602 to R604): its request's ring count and 64 bytes, its rows, its estimate, and the GTS at which it
started. -/
structure SpoutPart where
  count : Nat
  req : List Byte
  k : Nat
  est : Nat
  start : Option Nat := none
deriving DecidableEq, Repr

/-- The Spout (R599 to R605): its request ring, the parts taken, oldest first, and the host entries written and consumed. -/
structure SpoutS where
  req : TailQ := {}
  parts : List SpoutPart := []
  written : Nat := 0
  read : Nat := 0
deriving DecidableEq, Repr

/-- A tokeniser request that has run (R511, R513): what TOKENS_DONE reports. -/
structure TokEnd where
  ctxId : Nat
  cookie : Nat
  countVa : Nat
  result : Nat
  count : Nat
deriving DecidableEq, Repr

/-! Codecs (spec/12). -/

/-- A decoded picture on its way to its stream's ring (R622): AU_SEQ of its access unit, the GTS at which its decoding began,
whether the stream's policy discards it, and the draw of its samples. -/
structure DecPic where
  auSeq : Nat
  fsGts : Nat
  pic : Picture
  stop : Bool
  draw : Nat
deriving DecidableEq, Repr

/-- An access unit that engine 7 has taken: when, its descriptor's count and bytes, and what the sender says of it (R620,
R627). -/
structure AuTaken where
  at_ : Nat
  count : Nat
  desc : List Byte
  unsupported : Bool
  rap : Bool
  pic : Option Picture
  order : List Nat
deriving DecidableEq, Repr

/-- A decode session (R615 to R627): its record, engine, descriptor ring and stream entry, the pictures that the decoder
holds, those ready for output in output order, the samples of the last picture output, and the access units that the stopped
session took in one cycle. -/
structure DecS where
  opened : Bool := false
  ses : List Byte := []
  engine : Nat := 0
  q : TailQ := {}
  ent : List Byte := []
  held : List DecPic := []
  out : List DecPic := []
  last : List Nat := []
  late : List AuTaken := []
deriving DecidableEq, Repr

/-- An encode session (R615, R628, R629): its record, engine and descriptor ring, the bytes written and consumed of its output
ring, whether the next picture must be coded as IDR, the pictures since the last IDR, and the last QP. -/
structure EncS where
  opened : Bool := false
  ses : List Byte := []
  engine : Nat := 0
  q : TailQ := {}
  bytes : RingSt := {}
  idrNext : Bool := true
  since : Nat := 0
  qp : Nat := 0
deriving DecidableEq, Repr

/-! Boot (spec/14). -/

/-- The boot flash, the boot SRAM, the fuses and the boot's own state (R680 to R709, R717): `starting`: start-up in the sense of
R706; `hold`: the device is in TAMPER_HOLD (R709); `sramLock`: the bytes of boot SRAM that are
write-protected (R689); `comps`: the component table of the running image, in the clear; `key`: PARTERRE_KEY;
`trialEnd`: the GTS at which the trial watchdog expires; `camTable`: the CAMERA_TABLE component; `confirming`: a CONFIRM
whose steps of R702 are still to be done; `wakeAt`: the GTS at which standby
ends, 0 for none; `wake`: the boot is that of a wake from standby; `tamperWake`: a tamper loop has fired in standby; `probed`:
one more than the GTS at which FWP1 last probed each port (R598, R720). -/
structure BootS where
  board : Board := {}
  flash : Mem := []
  sram : Mem := []
  starting : Bool := true
  hold : Bool := false
  sramLock : Nat := 0
  comps : List (List Byte) := []
  key : List Byte := []
  trialEnd : Option Nat := none
  camTable : List Byte := []
  confirming : Bool := false
  wakeAt : Nat := 0
  wake : Bool := false
  tamperWake : Bool := false
  probed : Table Nat := []
deriving DecidableEq, Repr

end Sys2Proof.Machine
end

