-- ==== Sys2Proof/Machine/State.lean ====
section
/-! DEFINITION. Sys2Proof/Machine/State.lean: everything the spec gives the device, as plain data, and the state right
after reset. A register has one home: the register file (live and staged values, by the register's offset in the
register region), or, where a register only shows a part of the structured state, that part (readReg of Registers.lean
computes it). -/
namespace Sys2Proof.Machine

/-- Why a step stops. No command of the block ends in a fault: what the spec reports is an effect on State. -/
inductive Fault where
  /-- No meaning answers with it, so no command raises it: where an access finds no memory, the spec says what happens. Safe. -/
  | absent
deriving DecidableEq, Repr

/-- Why a command is turned away. -/
inductive Refusal where
  /-- The command has no meaning yet, rejected by its mnemonic. Raised by exec's own arms alone; safe. -/
  | notModelled (mnemonic : String)
deriving DecidableEq, Repr

/-- The state of the device. -/
structure State where
  /-- The commands that wait, first in, first out (the model's own, R809). -/
  pending : List Instr := []
  /-- How many free values have been drawn (the model's own, log entry 6). -/
  freeCount : Nat := 0
  /-- The global time-stamp counter (R521). -/
  gts : Nat := 0
  /-- TAI: seconds, nanoseconds, fraction, RATE and TAI_VALID (R530, R531). -/
  taiSec : Nat := 0
  taiNs : Nat := 0
  taiFrac : Nat := 0
  taiRate : Int := 0
  taiValid : Bool := false
  /-- The pending operation of the TAI write mailbox (R533). -/
  taiOp : Option TaiOp := none
  /-- The snapshot mailboxes with a capture pending (R527, R528). -/
  snapPending : List Nat := []
  /-- The value in force of every register that differs from its reset value. -/
  live : Table W32 := []
  /-- The staged value of every register that holds one (R814). -/
  staged : Table (Option W32) := []
  /-- The payload of each section in force, by tag (R83, R84). -/
  sections : Table (List Byte) := []
  /-- The checker (R114 to R133, R826). -/
  checker : CheckerS := {}
  /-- The run-time holder of each unit, by class × 1024 + unit (R134 to R138). -/
  claims : Table Nat := []
  /-- Events raised and not yet in their ring, in the order of issue (R525, R526). -/
  events : List Event := []
  /-- The device ring (R497, R500). -/
  devRing : RingSt := {}
  /-- The resident slots (R449, R475). -/
  ctxs : Table Ctx := []
  /-- How often each vector was signalled: MSI-X entry v at v, line v of the on-chip controller at 64 + v (R502). -/
  vectors : Table Nat := []
  /-- The mask and pending bits of the MSI-X entries (R502). -/
  msixVecs : Table MsixVec := []
  tcmp : Table Cmp := []
  pcmp : Table Cmp := []
  phases : Table Phase := []
  fsyncs : Table Fsync := []
  eth : Table EthPort := []
  /-- The integrity unit, the safety pairs and the monitors (spec/13). -/
  integ : IntegS := {}
  pairs : Table Pair := []
  clk : ClockS := {}
  pwr : PowerS := {}
  pins : Table PinGroup := []
  /-- A PCIe link is up (R794). -/
  pcieUp : Bool := false
  weir : WeirS := {}
  /-- DRAM, by physical address (R800). -/
  dram : Mem := []
  /-- The Cistern, by byte offset (R294), and its pages (R308). -/
  cistern : Mem := []
  pages : Table Page := []
  freeSeq : Nat := 0
  ftns : Table Fountain := []
  cores : Table Core := []
  skim : SkimS := {}
  ddr : DdrS := {}
  /-- The firmware and its rings (spec/14), and the tokeniser's ring (spec/09 R511). -/
  fwp : FwpS := {}
  tok : TailQ := {}
  tokEnd : Option TokEnd := none
  /-- The streams 0 to 127, the image pipes with their Jets, and the Spout (spec/11). -/
  streams : Table StreamS := []
  pipes : Table PipeS := []
  spout : SpoutS := {}
  /-- The codec sessions (spec/12). -/
  decs : Table DecS := []
  encs : Table EncS := []
  /-- The boot flash, the fuses and the boot (spec/14). -/
  boot : BootS := {}
deriving DecidableEq, Repr

/-- The device at the rising edge of POR_N: every register at its reset value, nothing listed in any memory, every
clock but the always-on oscillator waiting for the root PLL (R521, R530, R727, R822). -/
def State.reset : State := {}

end Sys2Proof.Machine
end

