-- ==== Sys2Proof/Machine/Ops.lean ====
section
/-! DEFINITION. Sys2Proof/Machine/Ops.lean: the named operations every family shares: registers, free values, fields of
byte lists, the image sections in force, events, detectors and the causes of the safety pairs. -/
namespace Sys2Proof.Machine

/-! Registers (R812). -/

/-- The value in force of the register at an offset. -/
def State.rd (s : State) (off : Nat) : W32 := Table.get (RegRow.resetOf off) s.live off

/-- The state with the value in force of a register set. -/
def State.wr (s : State) (off : Nat) (v : W32) : State :=
  { s with live := Table.put (RegRow.resetOf off) s.live off v }

/-- A field of a register. -/
def State.rf (s : State) (off : Nat) (f : Fld) : Nat := (s.rd off).fld f

/-- The state with a field of a register set. -/
def State.wf (s : State) (off : Nat) (f : Fld) (v : Nat) : State := s.wr off ((s.rd off).setFld f v)

/-- The whole of a register as a number. -/
def State.rn (s : State) (off : Nat) : Nat := (s.rd off).toNat

/-- The state with a whole register set to a number. -/
def State.wn (s : State) (off v : Nat) : State := s.wr off (BitVec.ofNat 32 v)

/-- A field that counts and stops at its largest value. -/
def State.bumpSat (s : State) (off : Nat) (f : Fld) : State := s.wf off f (satInc f.width (s.rf off f))

/-- A field that counts modulo its width. -/
def State.bump (s : State) (off : Nat) (f : Fld) : State := s.wf off f (s.rf off f + 1)

/-- The field that is a whole register. -/
def F.whole : Fld := ⟨31, 0⟩

/-- The staged value of a register, if it holds one (R814). -/
def State.stagedAt (s : State) (off : Nat) : Option W32 := Table.get none s.staged off

/-- The state with a register's staged value set or discarded. -/
def State.stage (s : State) (off : Nat) (v : Option W32) : State := { s with staged := Table.put none s.staged off v }

/-- A free value drawn from a place of the spec (log entry 6), with the state that has drawn it. -/
def State.draw (s : State) (site : Nat) : Nat × State :=
  (Config.freeValue site s.freeCount, { s with freeCount := s.freeCount + 1 })

/-! Fields of byte lists, little-endian (R8). -/

/-- n bytes of a list from an offset, as a number. -/
def fieldAt (l : List Byte) (off n : Nat) : Nat := leNat ((l.drop off).take n)

/-- A byte of a list. -/
def u8 (l : List Byte) (off : Nat) : Nat := fieldAt l off 1
/-- A 2-byte field of a list. -/
def u16 (l : List Byte) (off : Nat) : Nat := fieldAt l off 2
/-- A 4-byte field of a list. -/
def u32 (l : List Byte) (off : Nat) : Nat := fieldAt l off 4
/-- An 8-byte field of a list. -/
def u64 (l : List Byte) (off : Nat) : Nat := fieldAt l off 8

/-! The image sections in force (spec/02). -/

/-- Tags of the sections (R83). -/
def Tag.fountains : Nat := 1
def Tag.cistern : Nat := 2
def Tag.streams : Nat := 3
def Tag.pins : Nat := 4
def Tag.clocks : Nat := 5
def Tag.safety : Nat := 6
def Tag.detectors : Nat := 7
def Tag.weir : Nat := 8
def Tag.legacy : Nat := 9

/-- The payload in force of a section. -/
def State.sec (s : State) (tag : Nat) : List Byte := Table.get [] s.sections tag

/-- FLOOR_OP in force (R100). -/
def State.floorOp (s : State) : Nat := u8 (s.sec Tag.clocks) 1
/-- BOOT_OP in force (R100). -/
def State.bootOp (s : State) : Nat := u8 (s.sec Tag.clocks) 2
/-- The lock of the image (R132). -/
def State.imageLocked (s : State) : Bool := s.rf Reg.parterreStatus F.parterreStatus_LOCKED == 1
/-- The device runs the LPL-3020 profile (R112). -/
def State.legacy (s : State) : Bool := s.rf Reg.chipMode F.chipMode_LEGACY_1CTX == 1

/-- Entry i of the strobe entries of a CLOCKS payload (R101): GROUP, TRIGGER, COMPARATOR, BLOCK_MASK. -/
def strobeEntry (pl : List Byte) (i : Nat) : Nat × Nat × Nat × Nat :=
  (u8 pl (8 + 8 * i), u8 pl (9 + 8 * i), u8 pl (10 + 8 * i), u32 pl (12 + 8 * i))

/-- The strobe entries of a CLOCKS payload. -/
def strobeEntries (pl : List Byte) : List (Nat × Nat × Nat × Nat) :=
  if pl.length < 8 then [] else (List.range (u8 pl 7)).map (strobeEntry pl)

/-- The strobe group of a block (R102, R820). -/
def State.groupOf (s : State) (block : Nat) : Nat :=
  match (strobeEntries (s.sec Tag.clocks)).find? fun e => e.2.2.2.testBit block with
  | some e => e.1
  | none => 0

/-- The strobe entry of a group, if the CLOCKS section in force holds one. -/
def State.strobeOf (s : State) (g : Nat) : Option (Nat × Nat × Nat × Nat) :=
  (strobeEntries (s.sec Tag.clocks)).find? fun e => e.1 == g

/-! The fabric clock (R721, R727, R733, R756). -/

/-- The fabric clock runs: the root PLL is locked, and nothing gates or holds the fabric. -/
def State.clockOn (s : State) : Bool := s.clk.locked && !s.clk.gated && !s.clk.shutdown && !s.clk.standby

/-- The fabric works: its clock runs, and the device is not in TAMPER_HOLD (R709). -/
def State.up (s : State) : Bool := s.clockOn && !s.boot.hold

/-- A command of the fabric: it acts only while the fabric clock runs (log entry 4). -/
def onFabric (s : State) (f : State → State) : Host.Outcome State Fault Refusal :=
  .next (if s.up then f s else s)

/-- A command that acts whether or not the fabric clock runs. -/
def always (s : State) (f : State → State) : Host.Outcome State Fault Refusal := .next (f s)

/-- A change that needs a condition; without it nothing changes (log entry 4). -/
def guarded (c : Bool) (f : State → State) (s : State) : State := if c then f s else s

/-! Events (spec/09 R497, R498; spec/10 R524 to R526). -/

/-- TYPE codes of R498. -/
def Ev.program : Nat := 0x0001
def Ev.saturation : Nat := 0x0002
def Ev.scaleChange : Nat := 0x0003
def Ev.jetFrame : Nat := 0x0004
def Ev.tokensDone : Nat := 0x0005
def Ev.gateBroken : Nat := 0x0006
def Ev.parterre : Nat := 0x0007
def Ev.context : Nat := 0x0008
def Ev.xlateFault : Nat := 0x0009
def Ev.detector : Nat := 0x000A
def Ev.twin : Nat := 0x000B
def Ev.overflow : Nat := 0x000C
def Ev.fwRestart : Nat := 0x000D
def Ev.writebackDone : Nat := 0x000E
def Ev.deadlineBreach : Nat := 0xBF40
def Ev.overspeed : Nat := 0xBE41
def Ev.thermalTrip : Nat := 0xBD42
def Ev.tamper : Nat := 0xBC43
def Ev.safeStop : Nat := 0xBB44
def Ev.safetyDetector : Nat := 0xBA45

/-- The event is safety-class: the low byte of its TYPE is 0x40 or more (R497). -/
def Event.safety (e : Event) : Bool := 0x40 ≤ e.type % 256

/-- The ring an event is bound to: in the LPL-3020 profile every event goes to the one event ring of context 0 (R519). -/
def State.route (s : State) (r : Ring) : Ring := if s.legacy then .ctx 0 else r

/-- An event is raised (R524): it waits in the Clepsydra for its ring. -/
def State.raise (s : State) (e : Event) : State :=
  { s with events := s.events ++ [{ e with ring := s.route e.ring }] }

/-- An event on the device ring, of no job and no context, at the present GTS. -/
def State.raiseDev (s : State) (source type detail : Nat) : State :=
  s.raise { ring := .dev, gts := s.gts, source := source, type := type, detail := detail }

/-- An event on the ring of a resident slot. -/
def State.raiseCtx (s : State) (slot source type detail cookie : Nat) : State :=
  s.raise { ring := .ctx slot, gts := s.gts, source := source, type := type, detail := detail, cookie := cookie,
            ctxId := (Table.get {} s.ctxs slot).ctxId }

/-! The safety pairs (spec/13 R671 to R678). -/

/-- A safety pair. -/
def State.pair (s : State) (k : Nat) : Pair := Table.get {} s.pairs k

/-- The state with a safety pair set. -/
def State.setPair (s : State) (k : Nat) (p : Pair) : State := { s with pairs := Table.put {} s.pairs k p }

/-- The pair has qualified to return to RUN and waits for its alive pattern (R676). -/
def State.qualified (s : State) (k : Nat) : Bool :=
  let p := s.pair k
  p.applied && p.enable && !p.latch && !p.held && !p.run && !s.integ.safetyBad && s.rn (Reg.safeCause k) == 0 &&
    decide (p.since + 10000000 ≤ s.gts)

/-- A pair enters STOP for a cause (R678). -/
def State.stopPair (s : State) (k c : Nat) : State :=
  let p := s.pair k
  let s := s.setPair k { p with run := false, fresh := false, held := p.held || p.latch, since := s.gts, entered := some s.gts }
  let s := s.bump (Reg.safePairStatus k) F.safePairStatus_STOP_COUNT
  let s := s.wf (Reg.safePairStatus k) F.safePairStatus_LAST_CAUSE c
  let s := s.wn (Reg.safeStopGts k) s.gts
  s.raiseDev (6 + k) Ev.safeStop (k * 256 + c)

/-- A cause of the cycle in which a pair entered STOP, lower than the one reported: it takes that one's place (R678). -/
def State.lowerCause (s : State) (k c : Nat) : State :=
  if (s.pair k).entered = some s.gts ∧ c < s.rf (Reg.safePairStatus k) F.safePairStatus_LAST_CAUSE then
    let s := s.wf (Reg.safePairStatus k) F.safePairStatus_LAST_CAUSE c
    { s with events := s.events.map fun e =>
        if e.source = 6 + k ∧ e.type = Ev.safeStop ∧ e.gts = s.gts then { e with detail := k * 256 + c } else e }
  else s

/-- A cause drives a pair: its bit latches, and the pair enters STOP, or, at STOP and qualified, its count of
10,000,000 ns starts again (R675, R677, R678). -/
def State.drivePair (s : State) (c k : Nat) : State :=
  let q := s.qualified k
  let s := s.wr (Reg.safeCause k) (s.rd (Reg.safeCause k) ||| BitVec.ofNat 32 (2 ^ c))
  let s := s.setPair k { s.pair k with occAt := Table.put none (s.pair k).occAt c (some s.gts) }
  let p := s.pair k
  if p.run then s.stopPair k c
  else (s.setPair k { p with fresh := false, held := p.held || p.latch, since := if q then s.gts else p.since }).lowerCause k c

/-- A cause of R106 occurs: it drives every pair whose CAUSE_MASK names it. -/
def State.cause (s : State) (c : Nat) : State :=
  [0, 1, 2, 3].foldl (fun s k => if (s.pair k).mask.testBit c then s.drivePair c k else s) s

/-! Detectors (spec/13 R630 to R634). -/

/-- Kinds of occurrence (R633). -/
def Kind.corrected : Nat := 1
def Kind.uncorrectable : Nat := 2
def Kind.poisonMerge : Nat := 3
def Kind.occurrence : Nat := 4
def Kind.warning : Nat := 5
def Kind.scrubUe : Nat := 6

/-- An occurrence of a detector: its number, KIND, UNIT, INDEX, and whether an injection made it (R633). -/
structure Occ where
  det : Nat
  kind : Nat
  unit : Nat
  index : Nat
  inj : Bool := false
deriving DecidableEq, Repr

/-- The detail word of an occurrence (R633). -/
def Occ.detail (o : Occ) : Nat :=
  o.det * 2 ^ 24 + o.kind * 2 ^ 20 + b2n o.inj * 2 ^ 19 + o.unit * 2 ^ 8 + o.index

/-- A detector is enabled (R630). -/
def State.detOn (s : State) (d : Nat) : Bool := s.rf (Reg.detCtl d) F.detCtl_ENABLE == 1

/-- What the table of R630 says of a detector with ENABLE 0: it is not counted. -/
def detSilent (d : Nat) : Bool := d == 1 || d == 2 || d == 3 || d == 8

/-- What the table of R630 says of a detector with ENABLE 0: it raises no event. -/
def detNoEvent (d : Nat) : Bool := detSilent d || d == 5 || d == 6 || d == 0xC

/-- The occurrence is reported by SAFETY_DETECTOR (R630): clock, voltage and watchdog detectors, register parity of the
SAFETY, CLOCK, POWER, PINMUX, PHASEIO and INTEGRITY blocks, and twins of safety class. -/
def Occ.isSafety (o : Occ) (safetyTwin : Bool) : Bool :=
  o.det == 7 || o.det == 8 || o.det == 0xA || (o.det == 4 && safetyTwin) ||
  (o.det == 3 && (o.unit == 0x14 || o.unit == 0x15 || o.unit == 0x16 || o.unit == 0x1A || o.unit == 0x13 || o.unit == 0x17))

/-- An occurrence is counted and kept as the detector's last (R631, R633). -/
def State.detCount (s : State) (o : Occ) : State :=
  if !s.detOn o.det && detSilent o.det then s else
  let s := s.bumpSat (Reg.detCount o.det) F.whole
  let s := s.wn (Reg.detLast o.det) o.detail
  if o.kind == Kind.corrected then
    { s with integ := { s.integ with
        corrected := Table.put 0 s.integ.corrected o.det (Table.get 0 s.integ.corrected o.det + 1) } }
  else s

/-- An occurrence that is reported now raises an event (R631). -/
def State.detEvents (s : State) (o : Occ) : Bool :=
  (s.detOn o.det || !detNoEvent o.det) &&
  (o.kind != Kind.corrected || s.rf (Reg.detCtl o.det) F.detCtl_EVENT_EACH == 1 ||
    (Table.get 0 s.integ.corrected o.det % s.rn (Reg.detThresh o.det) == 0))

/-- The event of an occurrence, of DETECTOR or SAFETY_DETECTOR, from source 256 + detector (R498, R633). -/
def State.detRaise (s : State) (o : Occ) (safetyTwin : Bool) : State :=
  if o.isSafety safetyTwin then s.raiseDev (256 + o.det) Ev.safetyDetector o.det
  else s.raiseDev (256 + o.det) Ev.detector o.detail

/-- A detector records an occurrence, counts it, and raises its event by its THRESHOLD (R631). -/
def State.occur (s : State) (o : Occ) (safetyTwin : Bool := false) : State :=
  let s := s.detCount o
  if s.detEvents o then s.detRaise o safetyTwin else s

/-- A warning of a unit that watches something else (R732, R743): counted, and reported by a DETECTOR event. -/
def State.warn (s : State) (det unit index : Nat) : State :=
  let o : Occ := ⟨det, Kind.warning, unit, index, false⟩
  ((s.bumpSat (Reg.detCount det) F.whole).wn (Reg.detLast det) o.detail).raiseDev (256 + det) Ev.detector o.detail

/-- A mismatch on a safety-class twin: detector 0x04 and cause bit 6 (R661). -/
def State.safetyTwin (s : State) (unit index : Nat) (inj : Bool) : State :=
  (s.occur ⟨4, Kind.occurrence, unit, index, inj⟩ true).cause 6

/-- The first uncorrectable error since INT_UE_HI.VALID was cleared is recorded (R634). -/
def State.logUe (s : State) (unit addr : Nat) : State :=
  if s.rf Reg.intUeHi F.intUeHi_VALID == 1 then s else
  let s := s.wn Reg.intUeLo addr
  s.wn Reg.intUeHi (2 ^ 31 + unit * 256 + (addr / 2 ^ 32) % 256)

/-- A POISON_MERGE is logged in the oldest entry, which holds while its VALID is set (R634, R823; log entry 146). -/
def State.logPoison (s : State) (unit addr : Nat) : State :=
  let n := s.rn Reg.intPmCount
  let s := if s.rf (Reg.intPmHi (n % 16)) F.intPmHi_VALID == 1 then s else
    (s.wn (Reg.intPmLo (n % 16)) addr).wn (Reg.intPmHi (n % 16)) (2 ^ 31 + unit * 256 + (addr / 2 ^ 32) % 256)
  s.wn Reg.intPmCount (n + 1)

/-! Injection points (spec/13 R635 to R642, R830). -/

/-- The address of the register INJ_SEL of an injection point: its block and, for a core or a Fountain, its instance. -/
def injBase (block inst : Nat) : Nat :=
  if block = 8 then 0x800100 + 0x10000 * inst else block * 0x100000 + 0x100

/-- The key of an injection point. -/
def injKey (block inst : Nat) : Nat := block * 32 + inst

/-- An injection point. -/
def State.inj (s : State) (block inst : Nat) : Inj := Table.get {} s.integ.injs (injKey block inst)

/-- The state with an injection point set. -/
def State.setInj (s : State) (block inst : Nat) (j : Inj) : State :=
  { s with integ := { s.integ with injs := Table.put {} s.integ.injs (injKey block inst) j } }

/-- The entry of an injection point after a write to a block: an unlock sequence that has begun at a point of the block ends. -/
def Inj.touched (block : Nat) (e : Nat × Inj) : Nat × Inj :=
  if e.1 / 32 = block ∧ e.2.stage = 1 then (e.1, { e.2 with stage := 0 }) else e

/-- A write to a block ends an unlock sequence that has begun at an injection point of it (R635). -/
def State.touch (s : State) (block : Nat) : State :=
  { s with integ := { s.integ with injs := (s.integ.injs.map (Inj.touched block)).filter fun e => e.2 != {} } }

/-- Fields of INJ_SEL, INJ_MODE and INJ_COUNT. -/
def F.inj_SITE : Fld := ⟨23, 16⟩
def F.inj_TARGET : Fld := ⟨15, 0⟩
def F.inj_ARM : Fld := ⟨31, 31⟩
def F.inj_EVERY : Fld := ⟨30, 30⟩
def F.inj_ERR : Fld := ⟨29, 28⟩
def F.inj_N : Fld := ⟨23, 0⟩
def F.inj_LIMIT : Fld := ⟨31, 16⟩
def F.inj_MADE : Fld := ⟨15, 0⟩

/-- An injection point is armed at a site and a target. -/
def State.injArmed (s : State) (block inst site target : Nat) : Bool :=
  let b := injBase block inst
  s.rf (b + 8) F.inj_ARM == 1 && s.rf (b + 4) F.inj_SITE == site && s.rf (b + 4) F.inj_TARGET == target

/-- A qualifying access at an injection site: answers the ERR of the injection made at this access, if one is made, and
the state that has counted it (R638, R640, R830). -/
def State.inject (s : State) (block inst site target : Nat) : Option Nat × State :=
  if !s.injArmed block inst site target then (none, s) else
  let b := injBase block inst
  let j := s.inj block inst
  let c := j.count + 1
  let n := s.rf (b + 8) F.inj_N
  if c < n then (none, s.setInj block inst { j with count := c }) else
  let made := s.rf (b + 0xC) F.inj_MADE + 1
  let limit := s.rf (b + 0xC) F.inj_LIMIT
  let every := s.rf (b + 8) F.inj_EVERY == 1
  let s := s.setInj block inst { j with count := 0 }
  let s := s.wf (b + 0xC) F.inj_MADE made
  let disarm := !every || (limit != 0 && limit ≤ made)
  let err := s.rf (b + 8) F.inj_ERR
  (some err, if disarm then s.wf (b + 8) F.inj_ARM 0 else s)

/-! Claims (spec/02 R117, R134 to R138). -/

/-- Resource classes (R117). -/
def Cls.pinGroup : Nat := 1
def Cls.timeComp : Nat := 2
def Cls.phaseComp : Nat := 3
def Cls.strobeGroup : Nat := 4
def Cls.cisternPage : Nat := 5
def Cls.fsyncOutput : Nat := 6

/-- The run-time holder of a unit, 0 for none. -/
def State.claimOf (s : State) (cls unit : Nat) : Nat := Table.get 0 s.claims (cls * 1024 + unit)

/-- The state with the run-time holder of a unit set. -/
def State.setClaim (s : State) (cls unit owner : Nat) : State :=
  { s with claims := Table.put 0 s.claims (cls * 1024 + unit) owner }

end Sys2Proof.Machine
end

