-- ==== Sys2Proof/Machine/Gates.lean ====
section
/-! DEFINITION. Sys2Proof/Machine/Gates.lean: the 64 Gates (spec/09 R503 to R510; spec/13 R661, R829). A Gate's one home is
its GATE_STATE register. -/
namespace Sys2Proof.Machine

/-- The flag of a Gate. -/
def State.gateFlag (s : State) (g : Nat) : Bool := s.rf (Reg.gateState g) F.gateState_FLAG == 1

/-- The owner of a Gate, 0 for none. -/
def State.gateOwner (s : State) (g : Nat) : Nat := s.rf (Reg.gateState g) F.gateState_OWNER

/-- The state with a Gate's owner set; LOCKED says that there is one. -/
def State.setOwner (s : State) (g o : Nat) : State :=
  (s.wf (Reg.gateState g) F.gateState_OWNER o).wf (Reg.gateState g) F.gateState_LOCKED (if o % 0x10000 = 0 then 0 else 1)

/-- The state with a Gate's flag set. -/
def State.setFlag (s : State) (g : Nat) (v : Bool) : State := s.wf (Reg.gateState g) F.gateState_FLAG (b2n v)

/-- OP ACQUIRE: OWNER becomes the owner of a Gate that has none (R504, R508). -/
def State.gateAcquire (s : State) (g o : Nat) : State :=
  if s.rf (Reg.gateState g) F.gateState_LOCKED = 1 then s else s.setOwner g o

/-- OP RELEASE: the owner frees its Gate and clears BROKEN (R506). -/
def State.gateRelease (s : State) (g o : Nat) : State :=
  if s.rf (Reg.gateState g) F.gateState_LOCKED = 1 ∧ s.gateOwner g = o % 0x10000 then
    (s.setOwner g 0).wf (Reg.gateState g) F.gateState_BROKEN 0
  else s

/-- A flag path of a Gate fails its twin check: detector 0x04 and a TWIN event of the GATE block (R661, R829, R498). -/
def State.gateTwinFail (s : State) (g : Nat) (inj : Bool) : State :=
  (s.occur ⟨4, Kind.occurrence, 0x1B, g, inj⟩).raiseDev 39 Ev.twin (2 ^ 31 + g * 2 ^ 16)

/-- A write of the same cycle that stands later in the order of R243 has reached the Gate already. -/
def State.flagLater (s : State) (g place : Nat) : Bool :=
  match Table.get none s.weir.flagLast g with
  | some (t, p) => t == s.gts && decide (place < p)
  | none => false

/-- The flag of a Gate takes a write; among the writes of one cycle the one of the highest place holds (R243). -/
def State.placeFlag (s : State) (g place : Nat) (v : Bool) : State :=
  if s.flagLater g place then s else
  ({ s with weir := { s.weir with flagLast := Table.put none s.weir.flagLast g (some (s.gts, place)) } } : State).setFlag g v

/-- A flag write reaches a Gate: whether it was applied, and the state after it (R243, R661, R829). `place`: its writer's place
in a cycle, a Fountain's number, or 4 for the driver. `ok`: its twin halves agree as it is sent. -/
def State.flagWrite (s : State) (g place : Nat) (v ok : Bool) : Bool × State :=
  let (err, s) := s.inject 2 0 4 g
  if ok && err.isNone then (true, s.placeFlag g place v) else (false, s.gateTwinFail g err.isSome)

/-- A Gate breaks: it is freed, marked BROKEN and reported; its flag keeps its value (R507). -/
def State.breakGate (s : State) (g : Nat) : State :=
  let o := s.gateOwner g
  ((s.setOwner g 0).wf (Reg.gateState g) F.gateState_BROKEN 1).raiseDev 39 Ev.gateBroken (g * 2 ^ 16 + o)

/-- Every Gate of an owner breaks (R507). -/
def State.breakGates (s : State) (o : Nat) : State :=
  (List.range 64).foldl (fun s g =>
    if s.rf (Reg.gateState g) F.gateState_LOCKED = 1 ∧ s.gateOwner g = o then s.breakGate g else s) s

/-- Owner IDs (R503). -/
def Owner.context (id : Nat) : Nat := 0x1000 + id
def Owner.fwp (n : Nat) : Nat := 0x2000 + n
def Owner.hostCore (c : Nat) : Nat := 0x3000 + c
def Owner.pcieHost : Nat := 0x4000

def execGateAcquire (g o : Nat) (s : State) := onFabric s (guarded (decide (g < 64)) fun s => s.gateAcquire g o)
def execGateRelease (g o : Nat) (s : State) := onFabric s (guarded (decide (g < 64)) fun s => s.gateRelease g o)
def execGateFlag (g : Nat) (v ok : Bool) (s : State) :=
  onFabric s (guarded (decide (g < 64)) fun s => (s.flagWrite g 4 v ok).2)
def execHostCoreReset (c : Nat) (s : State) :=
  onFabric s (guarded (decide (c < 8)) fun s => s.breakGates (Owner.hostCore c))

end Sys2Proof.Machine
end

