-- ==== Sys2Proof/Machine/Sections.lean ====
section
/-! DEFINITION. Sys2Proof/Machine/Sections.lean: what the image sections in force say (spec/02 R86 to R111), read from
their payloads. -/
namespace Sys2Proof.Machine

/-- SIZE of a Fountain (R86). -/
def State.ftnSize (s : State) (f : Nat) : Nat := if f < 4 then u8 (s.sec Tag.fountains) (4 + f) else 0

/-- The first core of a Fountain (R87). -/
def State.ftnFirst (s : State) (f : Nat) : Nat := ((List.range f).map s.ftnSize).sum

/-- The cores of a Fountain, in ascending order. -/
def State.ftnCores (s : State) (f : Nat) : List Nat := (List.range (s.ftnSize f)).map (· + s.ftnFirst f)

/-- The Fountain that a core belongs to, if any. -/
def State.ftnOf (s : State) (c : Nat) : Option Nat := [0, 1, 2, 3].find? fun f => (s.ftnCores f).contains c

/-- Entry i of the pools of a CISTERN body (R89): type, first page, page count. -/
def poolEntry (pl : List Byte) (i : Nat) : Nat × Nat × Nat :=
  (u8 pl (4 + 8 * i), u16 pl (6 + 8 * i), u16 pl (8 + 8 * i))

/-- The pools of a CISTERN body. -/
def poolEntries (pl : List Byte) : List (Nat × Nat × Nat) := (List.range (u8 pl 0)).map (poolEntry pl)

/-- Pool types (R89). -/
def Pool.weight : Nat := 1
def Pool.feature : Nat := 2
def Pool.dictionary : Nat := 3
def Pool.spill : Nat := 4
def Pool.hostWindow : Nat := 5

/-- The first page and page count of a pool in force, if it exists. -/
def State.pool (s : State) (ty : Nat) : Option (Nat × Nat) :=
  ((poolEntries (s.sec Tag.cistern)).find? fun e => e.1 == ty).map fun e => e.2

/-- The pages of a pool in force. -/
def State.poolPages (s : State) (ty : Nat) : List Nat :=
  match s.pool ty with
  | some (a, n) => (List.range n).map (· + a)
  | none => []

/-- A page lies in a pool in force. -/
def State.inPool (s : State) (ty pg : Nat) : Bool :=
  match s.pool ty with
  | some (a, n) => decide (a ≤ pg) && decide (pg < a + n)
  | none => false

/-- A pipe entry of STREAMS in force (R93): MODE, CSI_PORT, VC, JET_EN, JET_FIRST_PAGE, JET_PAGE_COUNT. -/
def State.pipeMode (s : State) (p : Nat) : Nat := u8 (s.sec Tag.streams) (16 * p)
def State.pipePort (s : State) (p : Nat) : Nat := u8 (s.sec Tag.streams) (16 * p + 1)
def State.pipeVc (s : State) (p : Nat) : Nat := u8 (s.sec Tag.streams) (16 * p + 2)
def State.jetEn (s : State) (p : Nat) : Bool := u8 (s.sec Tag.streams) (16 * p + 3) == 1
def State.jetFirst (s : State) (p : Nat) : Nat := u16 (s.sec Tag.streams) (16 * p + 4)
def State.jetCount (s : State) (p : Nat) : Nat := u16 (s.sec Tag.streams) (16 * p + 6)

/-- A page lies in the Jet range of a pipe. -/
def State.inJet (s : State) (p pg : Nat) : Bool :=
  s.jetEn p && decide (s.jetFirst p ≤ pg) && decide (pg < s.jetFirst p + s.jetCount p)

/-- The frame-sync entry of an output (R95): its trigger and comparator. -/
def State.fsyncBind (s : State) (out : Nat) : Option (Nat × Nat) :=
  let pl := s.sec Tag.streams
  ((List.range (u8 pl 0x40)).find? fun i => u8 pl (0x44 + 4 * i) == out).map
    fun i => (u8 pl (0x45 + 4 * i), u8 pl (0x46 + 4 * i))

/-- POLICY of an input stream (R96): MODE and FILL. -/
def State.policy (s : State) (st : Nat) : Nat × Nat :=
  (u8 (s.sec Tag.streams) (0x84 + 2 * st) % 4, u8 (s.sec Tag.streams) (0x85 + 2 * st))

/-- REF_SRC, POWER_CAP_W and the dividers of CLOCKS in force (R100). -/
def State.refSrcCfg (s : State) : Nat := u8 (s.sec Tag.clocks) 0
def State.powerCapW (s : State) : Nat := u8 (s.sec Tag.clocks) 3

/-- The fields of WEIR in force (R110). -/
def State.horizonUs (s : State) : Nat := u32 (s.sec Tag.weir) 0
def State.guarSharePct (s : State) : Nat := u8 (s.sec Tag.weir) 4
def State.replayDefault (s : State) : Nat := u8 (s.sec Tag.weir) 5
def State.inlineSlots (s : State) (p : Nat) : Nat := if p < 4 then u8 (s.sec Tag.weir) (8 + p) else 0
def State.ctxSlotLimit (s : State) : Nat := u16 (s.sec Tag.weir) 0xC
def State.guarPageLimit (s : State) : Nat := u16 (s.sec Tag.weir) 0x10

/-- The slots that guaranteed work may reserve (R417): floor(GUAR_SHARE_PCT × 212 / 100). -/
def State.slotCap (s : State) : Nat := s.guarSharePct * 212 / 100

/-- The slots that the in-line streams hold. -/
def State.inlineTotal (s : State) : Nat := s.inlineSlots 0 + s.inlineSlots 1 + s.inlineSlots 2 + s.inlineSlots 3

/-- The divider D of an operating point, whose Cascade clock is 12 / D GHz (R407; the OP table of spec/15). -/
def opDiv (op : Nat) : Nat :=
  match op with
  | 0 => 8
  | 1 => 10
  | 2 => 12
  | 3 => 16
  | 4 => 20
  | _ => 24

/-- Cascade cycles converted to ns at the guarantee floor (R407). -/
def State.floorNs (s : State) (cycles : Nat) : Nat := ceilDiv (cycles * opDiv s.floorOp) 12

end Sys2Proof.Machine
end

