-- ==== Sys2Proof/Machine/Memory.lean ====
section
/-! DEFINITION. Sys2Proof/Machine/Memory.lean: the memories behind the register region: stored errors and poison (spec/13
R639 to R656), the DRAM path and its calendar (spec/05 R316 to R321, spec/08 R430 to R433), translation (spec/09 R458 to
R467), and the fences of the Cistern ports (spec/05 R294 to R301). -/
namespace Sys2Proof.Machine

/-! Words with a code (R643). -/

/-- Memory codes of R643. -/
def Mc.basin : Nat := 0x01
def Mc.resv : Nat := 0x02
def Mc.acc : Nat := 0x03
def Mc.vreg : Nat := 0x04
def Mc.imem : Nat := 0x05
def Mc.cistern : Nat := 0x06
def Mc.skim : Nat := 0x07
def Mc.codec : Nat := 0x0A
def Mc.dram : Nat := 0x10

/-- The bytes of a word of a memory (R643). -/
def Mc.word (code : Nat) : Nat := if code = Mc.acc ∨ code = Mc.vreg then 4 else if code = Mc.dram then 64 else 8

/-- The key of a word's mark: memory code, instance, byte address. -/
def markKey (code inst addr : Nat) : Nat := code * 2 ^ 52 + inst * 2 ^ 44 + addr

/-- The channel of a DRAM offset (R316). -/
def dramChannel (off : Nat) : Nat := (off / 2 ^ 8 % 8) ^^^ (off / 2 ^ 13 % 8)

/-- INDEX of an occurrence at a word (R633, R643). -/
def Mc.index (code inst addr : Nat) : Nat :=
  if code = Mc.cistern then addr / 64 % 32 else if code = Mc.dram then dramChannel addr else inst

/-- The block, instance and site of a memory's injection point (R642), and the target that names a word. -/
def Mc.site (code inst addr : Nat) : Nat × Nat × Nat × Nat :=
  match code with
  | 1 => (8, inst, 3, addr / 8 % 32)
  | 2 => (8, inst, 4, addr / 8 % 32)
  | 3 => (8, inst, 1, addr / 8192 * 8192 + addr / 256 % 32 * 256 + addr / 4 % 64)
  | 4 => (8, inst, 2, addr / 256 * 256 + addr / 4 % 64)
  | 5 => (4 + inst, 0, 1, addr / 0x20000)
  | 6 => (9, 0, 1, addr / 64 % 32)
  | 7 => (9, 0, 2, 0)
  | 10 => (15, 0, 1, inst)
  | 16 => (16, 0, 1, dramChannel addr)
  | c => (0x17, 0, 1, c * 256 + inst)

/-- The detector of a memory (R630). -/
def Mc.det (code : Nat) : Nat := if code = Mc.dram then 2 else 1

/-- The register that counts a memory's corrected errors, counted (R155, R174, R261, and the CE counts of spec/05, spec/06,
spec/13). -/
def State.ceBump (s : State) (code inst : Nat) : State :=
  match code with
  | 1 => s.bumpSat (Reg.memCeCount inst) F.memCeCount_BASIN
  | 2 => s.bumpSat (Reg.memCeCount inst) F.memCeCount_RESERVOIR
  | 3 => s.bumpSat (Reg.accCeCount inst) F.accCeCount_ACC
  | 4 => s.bumpSat (Reg.accCeCount inst) F.accCeCount_VREG
  | 5 => s.bumpSat (Reg.ftnImemStatus inst) F.ftnImemStatus_CE_COUNT
  | 6 => s.bumpSat Reg.cisCeCount F.whole
  | 7 => s.bumpSat Reg.skimCeCount F.skimCeCount_COUNT
  | 16 => s.bumpSat Reg.ddrCeCount F.whole
  | _ => s

/-- The records that an uncorrectable read of a memory leaves beside its occurrence: INT_UE, and the Cistern's and the
DRAM's own (R634, R651; CIS_UE_ADDR of spec/05). -/
def State.ueNote (s : State) (code addr : Nat) : State :=
  let s := s.logUe code (if code = Mc.dram then 0x1000000000 + addr else if code = Mc.cistern then addr else addr / Mc.word code)
  if code = Mc.dram then s.bumpSat Reg.ddrUeCount F.whole
  else if code = Mc.cistern ∧ s.rf Reg.cisUeAddr F.cisUeAddr_VALID = 0 then
    (s.wf Reg.cisUeAddr F.cisUeAddr_VALID 1).wf Reg.cisUeAddr F.cisUeAddr_ADDR addr
  else s

/-- The marked words of a memory that a range of bytes touches: each mark's key and the mark. -/
def State.marksIn (s : State) (code inst lo n : Nat) : List (Nat × Mark) :=
  let w := Mc.word code
  s.integ.marks.filter fun e => decide (markKey code inst (lo / w * w) ≤ e.1) && decide (e.1 < markKey code inst (lo + n))

/-- The state with the mark of a word set. -/
def State.setMark (s : State) (key : Nat) (m : Mark) : State :=
  { s with integ := { s.integ with marks := Table.put .clean s.integ.marks key m } }

/-- A read of one marked word: whether it is uncorrectable, and what the read records (R643, R644, R646). -/
def State.readMark (code inst : Nat) (r : Bool × State) (e : Nat × Mark) : Bool × State :=
  let addr := e.1 - markKey code inst 0
  match e.2 with
  | .clean => r
  | .single inj => (r.1, (r.2.occur ⟨Mc.det code, Kind.corrected, code, Mc.index code inst addr, inj⟩).ceBump code inst)
  | .double inj | .poison inj =>
    (true, (r.2.occur ⟨Mc.det code, Kind.uncorrectable, code, Mc.index code inst addr, inj⟩).ueNote code addr)

/-- A read of n bytes of a memory: whether any word of it is uncorrectable, and what it records. -/
def State.readEcc (s : State) (code inst lo n : Nat) : Bool × State :=
  if n = 0 then (false, s) else (s.marksIn code inst lo n).foldl (State.readMark code inst) (false, s)

/-- A write that touches one marked word, all of it or part of it (R647 to R649). -/
def State.writeMark (code inst lo n : Nat) (s : State) (e : Nat × Mark) : State :=
  let addr := e.1 - markKey code inst 0
  if lo ≤ addr ∧ addr + Mc.word code ≤ lo + n then s.setMark e.1 .clean
  else match e.2 with
    | .clean => s
    | .single inj =>
      ((s.occur ⟨Mc.det code, Kind.corrected, code, Mc.index code inst addr, inj⟩).ceBump code inst).setMark e.1 .clean
    | .double inj | .poison inj =>
      ((s.occur ⟨Mc.det code, Kind.poisonMerge, code, Mc.index code inst addr, inj⟩).logPoison code
        (if code = Mc.dram then 0x1000000000 + addr else if code = Mc.cistern then addr else addr / Mc.word code)).setMark
        e.1 (.poison inj)

/-- A write to a word of a memory's injection site (R639): the injection, if one is made, leaves its error in the word. -/
def State.injectWord (code inst : Nat) (s : State) (addr : Nat) : State :=
  let t := Mc.site code inst addr
  match s.inject t.1 t.2.1 t.2.2.1 t.2.2.2 with
  | (none, s) => s
  | (some err, s) => s.setMark (markKey code inst addr) (if err = 1 then .single true else .double true)

/-- The injection point of a memory is armed at the memory's site. -/
def State.siteArmed (s : State) (code inst : Nat) : Bool :=
  let t := Mc.site code inst 0
  let b := injBase t.1 t.2.1
  s.rf (b + 8) F.inj_ARM == 1 && s.rf (b + 4) F.inj_SITE == t.2.2.1

/-- A write of n bytes to a memory: what it does to stored errors, and the injections it meets (R639, R647 to R649). -/
def State.writeEcc (s : State) (code inst lo n : Nat) : State :=
  if n = 0 then s else
  let s := (s.marksIn code inst lo n).foldl (State.writeMark code inst lo n) s
  if s.siteArmed code inst then
    let w := Mc.word code
    ((List.range ((lo + n - 1) / w + 1 - lo / w)).map (fun i => (lo / w + i) * w)).foldl (State.injectWord code inst) s
  else s

/-! The DRAM path (R316 to R321, R430 to R433). -/

/-- The DRAM serves transactions: no maintenance window goes on (R429). -/
def State.dramServes (s : State) : Bool := s.weir.maintStart.isNone

/-- Who makes a DRAM access: its END_TAG (R317), and the holder whose calendar reservation it is charged to, a job at its
number or pipe p at 2^40 + p. -/
structure Who where
  tag : Nat
  holder : Option Nat := none
deriving DecidableEq, Repr

/-- END_TAGs that the Weir's tables and FWP3 use (R317, R463). -/
def Who.walker : Who := { tag := 0x610 }
def Who.fwp3 : Who := { tag := 0x603 }

/-- The job with a number, pending or in its writeback. -/
def State.job? (s : State) (id : Nat) : Option Job := s.weir.jobs.find? fun j => j.id == id

/-- The calendar slots a holder has reserved (R431). -/
def State.reservation (s : State) (h : Nat) : Nat :=
  if 2 ^ 40 ≤ h then s.inlineSlots (h - 2 ^ 40)
  else match s.job? h with
    | some j => if j.guar && j.granted then j.cert.slots else 0
    | none => 0

/-- The weight of a requester's free requests (R320): the best-effort share of its job's context for a core Rill or a DMA
Rill that works for a job, and DDR_CLASS_WEIGHT of its class for every other. -/
def State.freeWeight (s : State) (who : Who) : Nat :=
  let cls := who.tag / 256 % 16
  if 2 ≤ cls ∧ cls ≤ 7 then s.rf (Reg.ddrClassWeight cls) F.ddrClassWeight_WEIGHT else
  match who.holder.bind s.job? with
  | some j => (Table.get {} s.ctxs j.slot : Ctx).share
  | none => 0

/-- n transactions of 64 bytes: the holder's first 16 × N of a frame are reserved (R432); the others are free, and wait for
the top arbiter under the requester's END_TAG (R318, R319; log entry 131). -/
def State.charge (s : State) (who : Who) (n : Nat) : State :=
  let used := match who.holder with
    | some h => Table.get 0 s.ddr.used h
    | none => 0
  let cap := match who.holder with
    | some h => 16 * s.reservation h
    | none => 0
  let res := min n (cap - used)
  let used' := match who.holder with
    | some h => Table.put 0 s.ddr.used h (used + n)
    | none => s.ddr.used
  let q := Table.get {} s.ddr.pend who.tag
  let pend := if n = res then s.ddr.pend else
    Table.put {} s.ddr.pend who.tag { q with lines := q.lines + (n - res), weight := s.freeWeight who }
  { s with ddr := { s.ddr with used := used', reserved := s.ddr.reserved + res, pend := pend } }

/-! The top arbiter (R319 to R321, R430). -/

/-- Requesters in the order of a round: those after the one granted last, then the rest. -/
def roundOrder (last : Nat) (l : Table FreeReq) : Table FreeReq :=
  (l.filter fun e => last < e.1) ++ l.filter fun e => e.1 ≤ last

/-- One grant of the arbiter: g lines of 64 bytes to a requester that waits. -/
def DdrS.grant (d : DdrS) (sel tag g : Nat) : DdrS :=
  if g = 0 then d else
  let q : FreeReq := Table.get {} d.pend tag
  let left := q.lines - g
  { d with
    pend := Table.put {} d.pend tag
      (if left = 0 then {} else { q with lines := left, deficit := q.deficit - 64 * g, waited := 0 })
    lastTag := tag
    tagBytes := if sel = tag then d.tagBytes + 64 * g else d.tagBytes }

/-- The weights that count in a round: 0 counts only where every waiting requester has it (DDR_CLASS_WEIGHT). -/
def DdrS.roundWeight (d : DdrS) (q : FreeReq) : Nat := if d.pend.all fun e => e.2.weight == 0 then 1 else q.weight

/-- One round of deficit round robin in bytes over the lines left of a frame: each requester's deficit grows by its weighted
share of them, and it is granted what its deficit pays for (R319). Answers the lines left. -/
def DdrS.round (sel : Nat) (r : Nat × DdrS) : Nat × DdrS :=
  let d := r.2
  let total := (d.pend.map fun e => d.roundWeight e.2).sum
  (roundOrder d.lastTag d.pend).foldl (fun (x : Nat × DdrS) e =>
    let q : FreeReq := Table.get {} x.2.pend e.1
    let deficit := q.deficit + 64 * r.1 * d.roundWeight e.2 / total
    let g := min (min q.lines (deficit / 64)) x.1
    (x.1 - g, ({ x.2 with pend := Table.put {} x.2.pend e.1 { q with deficit := deficit } } : DdrS).grant sel e.1 g)) r

/-- Rounds go on while lines are left and a requester waits; each round serves one requester whole or all the lines. -/
def DdrS.rounds (sel : Nat) : Nat → Nat × DdrS → Nat × DdrS
  | 0, r => r
  | n + 1, r => if r.1 = 0 ∨ r.2.pend = [] then r else DdrS.rounds sel n (DdrS.round sel r)

/-- What the rounding of the shares leaves goes to the requesters in turn, where their weight counts. -/
def DdrS.rest (sel : Nat) (r : Nat × DdrS) : Nat × DdrS :=
  (roundOrder r.2.lastTag r.2.pend).foldl (fun (x : Nat × DdrS) e =>
    let g := if r.2.roundWeight e.2 = 0 then 0 else min e.2.lines x.1
    (x.1 - g, x.2.grant sel e.1 g)) r

/-- A requester that two frames have granted nothing is granted a line first (R321), but for one of a class whose weight is 0
(DDR_CLASS_WEIGHT; log entry 131). -/
def DdrS.aged (sel : Nat) (r : Nat × DdrS) : Nat × DdrS :=
  (roundOrder r.2.lastTag r.2.pend).foldl (fun (x : Nat × DdrS) e =>
    let g := if 3 ≤ e.2.waited ∧ ¬(0x200 ≤ e.1 ∧ e.2.weight = 0) then min 1 x.1 else 0
    (x.1 - g, x.2.grant sel e.1 g)) r

/-- The grants of a frame with lines free to be granted: the lines granted, and the arbiter after it. -/
def DdrS.frame (d : DdrS) (sel lines : Nat) : Nat × DdrS :=
  let d := { d with pend := d.pend.map fun e => (e.1, { e.2 with waited := e.2.waited + 1 }) }
  let r := DdrS.rest sel (DdrS.rounds sel (d.pend.length + 1) (DdrS.aged sel (lines, d)))
  (lines - r.1, r.2)

/-- The first physical address of DRAM (R800). -/
def dramBase : Nat := 0x1000000000

/-- The first physical address above the usable DRAM (R651, R800). -/
def State.dramEnd (s : State) : Nat := dramBase + 0x10000 * s.rn Reg.ddrUsable

/-- The 64-byte lines that n bytes from an address touch. -/
def linesOf (a n : Nat) : Nat := if n = 0 then 0 else (a + n - 1) / 64 + 1 - a / 64

/-- A read of a line over the link of its channel: whether it is lost on the read and its retry (R653, R642). -/
def State.linkRead (r : Bool × State) (off : Nat) : Bool × State :=
  match r.2.inject 16 0 2 (dramChannel off) with
  | (none, s) => (r.1, s)
  | (some err, s) =>
    if err = 1 then
      (r.1, (s.occur ⟨2, Kind.corrected, Mc.dram, dramChannel off, true⟩).bumpSat Reg.ddrLinkCeCount F.whole)
    else (true, (s.occur ⟨2, Kind.uncorrectable, Mc.dram, dramChannel off, true⟩).ueNote Mc.dram off)

/-- The checks of a read of n bytes of DRAM from an offset: whether it is uncorrectable, on the words or on the link; an
uncorrectable read raises cause bit 8 (R653, R654). -/
def State.dramCheck (s : State) (off n : Nat) : Bool × State :=
  let (bad, s) := s.readEcc Mc.dram 0 off n
  let (bad, s) :=
    if s.rf (injBase 16 0 + 8) F.inj_ARM == 1 && s.rf (injBase 16 0 + 4) F.inj_SITE == 2 then
      ((List.range (linesOf off n)).map (fun i => (off / 64 + i) * 64)).foldl State.linkRead (bad, s)
    else (bad, s)
  (bad, if bad && s.detOn 2 then s.cause 8 else s)

/-- n bytes of DRAM at a physical address: the bytes, whether the read is uncorrectable, and the state that has made it;
an uncorrectable read raises cause bit 8 (R654). -/
def State.dramRd (s : State) (who : Who) (pa n : Nat) : List Byte × Bool × State :=
  let s := s.charge who (linesOf pa n)
  (Mem.rdBytes s.dram pa n, s.dramCheck (pa - dramBase) n)

/-- DRAM with bytes written at a physical address. -/
def State.dramWr (s : State) (who : Who) (pa : Nat) (bytes : List Byte) : State :=
  let s := s.charge who (linesOf pa bytes.length)
  let s := s.writeEcc Mc.dram 0 (pa - dramBase) bytes.length
  { s with dram := Mem.wrBytes s.dram pa bytes }

/-! Translation (R458 to R464). -/

/-- The root of the page table (R458). -/
def State.ptRoot (s : State) : Nat := s.rf Reg.weirPtRootLo F.weirPtRootLo_ADDR * 512 + s.rf Reg.weirPtRootHi F.weirPtRootHi_ADDR * 2 ^ 32

/-- An entry of the page table at a physical address. -/
def State.pte (s : State) (pa : Nat) : Nat := Mem.rdN s.dram pa 8

/-- The physical address that a page-table entry holds. -/
def pteAddr (e : Nat) : Nat := bitsOf e 39 16 * 0x10000

/-- A page-table entry is valid, its reserved bits are 0, and its address lies in the installed DRAM (R460, R461). -/
def State.pteOk (s : State) (leaf : Bool) (e : Nat) : Bool :=
  e.testBit 0 && bitsOf e 15 2 == 0 && bitsOf e 63 40 == 0 && (leaf || !e.testBit 1) &&
  decide (dramBase ≤ pteAddr e) && decide (pteAddr e + 0x10000 ≤ s.dramEnd)

/-- The walk of a page (R459): the level-2 entry, or none where the walk faults. -/
def State.walk (s : State) (vpage : Nat) : Option Nat :=
  if 2 ^ 32 ≤ vpage then none else
  let e0 := s.pte (s.ptRoot + 8 * (vpage / 2 ^ 26))
  if !s.pteOk false e0 then none else
  let e1 := s.pte (pteAddr e0 + 8 * (vpage / 2 ^ 13 % 2 ^ 13))
  if !s.pteOk false e1 then none else
  let e2 := s.pte (pteAddr e1 + 8 * (vpage % 2 ^ 13))
  if !s.pteOk true e2 then none else some e2

/-- The translation the device holds for a page: its locked store, then its shared cache (R462, R466, R472). -/
def State.held? (s : State) (vpage : Nat) : Option Nat :=
  match s.weir.locked.find? fun e => e.2.1 == vpage with
  | some e => some e.2.2
  | none => let c := Table.get 0 s.weir.cache vpage; if c = 0 then none else some c

/-- The level-2 entry of a page, from a held translation or by a walk. -/
def State.entry (s : State) (vpage : Nat) : Option Nat :=
  match s.held? vpage with
  | some e => some e
  | none => s.walk vpage

/-- The physical address of a device-virtual byte for a read or a write, or none where the translation faults (R461). -/
def State.xlate (s : State) (wr : Bool) (va : Nat) : Option Nat :=
  match s.entry (va / 0x10000) with
  | some e => if wr && !e.testBit 1 then none else some (pteAddr e + va % 0x10000)
  | none => none

/-- The entries that the walk of a page reads, up to one that faults (R459, R461). -/
def State.walkReads (s : State) (vpage : Nat) : Nat :=
  if 2 ^ 32 ≤ vpage then 0 else
  let e0 := s.pte (s.ptRoot + 8 * (vpage / 2 ^ 26))
  if !s.pteOk false e0 then 1 else
  if !s.pteOk false (s.pte (pteAddr e0 + 8 * (vpage / 2 ^ 13 % 2 ^ 13))) then 2 else 3

/-- A translation that missed is kept in the shared cache of 4,096 entries (R462); where the cache is full, the entry it
replaces is a free value (log entry 6). The walk's reads are transactions of END_TAG 0x610, charged to the requester, whether or not it faults (R463). -/
def State.xfill (s : State) (who : Who) (va : Nat) : State :=
  let vp := va / 0x10000
  match s.held? vp with
  | some _ => s
  | none =>
    let s := s.charge { who with tag := 0x610 } (s.walkReads vp)
    match s.walk vp with
    | none => s
    | some e =>
      if s.weir.cache.length < 4096 then { s with weir := { s.weir with cache := Table.put 0 s.weir.cache vp e } } else
      let (v, s) := s.draw 1
      let victim := (s.weir.cache.getD (v % 4096) (0, 0)).1
      { s with weir := { s.weir with cache := Table.put 0 (Table.erase s.weir.cache victim) vp e } }

/-- The pages that n bytes of device-virtual memory touch. -/
def vpagesOf (va n : Nat) : List Nat :=
  if n = 0 then [] else (List.range ((va + n - 1) / 0x10000 + 1 - va / 0x10000)).map (· + va / 0x10000)

/-- Every page that n bytes touch translates. -/
def State.mapped (s : State) (wr : Bool) (va n : Nat) : Bool := (vpagesOf va n).all fun p => (s.xlate wr (p * 0x10000)).isSome

/-- The pieces of n bytes of device-virtual memory that lie in one page each: address and length. -/
def piecesOf (va n : Nat) : List (Nat × Nat) :=
  (vpagesOf va n).map fun p => let lo := max va (p * 0x10000); (lo, min (va + n) ((p + 1) * 0x10000) - lo)

/-- The translation of a byte for a requester's access, with the walk of a miss (R459, R462, R463). -/
def State.xlateFor (s : State) (who : Who) (wr : Bool) (va : Nat) : Option Nat × State :=
  let s := s.xfill who va
  (s.xlate wr va, s)

/-- The walks of an access to n bytes that meets a translation fault, up to the page that faults (R463). -/
def State.xfaulted (s : State) (who : Who) (wr : Bool) (va n : Nat) : State :=
  ((vpagesOf va n).foldl (fun (r : Bool × State) p =>
    if r.1 then r else
    let x := r.2.xlateFor who wr (p * 0x10000)
    (x.1.isNone, x.2)) (false, s)).2

/-- n bytes of device-virtual memory, or none where a translation faults: the bytes, whether the read is uncorrectable. -/
def State.vread (s : State) (who : Who) (va n : Nat) : Option (List Byte × Bool) × State :=
  if !s.mapped false va n then (none, s.xfaulted who false va n) else
  let r := (piecesOf va n).foldl (fun (r : List Byte × Bool × State) pc =>
    let s := r.2.2.xfill who pc.1
    match s.xlate false pc.1 with
    | some pa => let q := s.dramRd who pa pc.2; (r.1 ++ q.1, r.2.1 || q.2.1, q.2.2)
    | none => (r.1, r.2.1, s)) ([], false, s)
  (some (r.1, r.2.1), r.2.2)

/-- n bytes of device-virtual memory as they stand, without an access: what the Weir already knows of its tables. -/
def State.vpeek (s : State) (va n : Nat) : Option (List Byte) :=
  if !s.mapped false va n then none else
  some ((piecesOf va n).flatMap fun pc => match s.xlate false pc.1 with
    | some pa => Mem.rdBytes s.dram pa pc.2
    | none => [])

/-- Device-virtual memory with bytes written: false, and nothing written, where a translation faults (R462). -/
def State.vwrite (s : State) (who : Who) (va : Nat) (bytes : List Byte) : Bool × State :=
  if !s.mapped true va bytes.length then (false, s.xfaulted who true va bytes.length) else
  let r := (piecesOf va bytes.length).foldl (fun (r : List Byte × State) pc =>
    let s := r.2.xfill who pc.1
    match s.xlate true pc.1 with
    | some pa => (r.1.drop pc.2, s.dramWr who pa (r.1.take pc.2))
    | none => (r.1.drop pc.2, s)) (bytes, s)
  (true, r.2)

/-- A translation fault of a requester that runs no job's layer is reported (R462, R498). -/
def State.xlateFault (s : State) (tag : Nat) : State := s.raiseDev 0 Ev.xlateFault tag

/-! The Cistern and its ports (R294 to R301). -/

/-- Numbers of the ports, as CIS_ERR gives them. -/
def Port.dma (r : Nat) : Nat := 16 + r / 8
def Port.pipe (p : Nat) : Nat := 20 + p
def Port.stream : Nat := 24
def Port.codec : Nat := 25
def Port.host : Nat := 26
def Port.firmware : Nat := 27

/-- The pages that a port reaches (R300). -/
def State.portReaches (s : State) (port pg : Nat) : Bool :=
  if port < 16 then s.inPool Pool.weight pg || s.inPool Pool.feature pg || [0, 1, 2, 3].any (s.inJet · pg)
  else if port < 20 then s.inPool Pool.weight pg || s.inPool Pool.feature pg
  else if port < 24 then s.inJet (port - 20) pg || s.inPool Pool.spill pg
  else if port = 24 then s.inPool Pool.dictionary pg || s.inPool Pool.feature pg
  else if port = 25 then s.inPool Pool.feature pg
  else if port = 26 then [1, 2, 3, 4, 5].any (s.inPool · pg) || [0, 1, 2, 3].any (s.inJet · pg)
  else decide (pg < 768)

/-- An access that R300 refuses is recorded in CIS_ERR. -/
def State.cisRefuse (s : State) (port pg : Nat) : State :=
  let s := s.bumpSat Reg.cisErr F.cisErr_COUNT
  if s.rf Reg.cisErr F.cisErr_VALID = 1 then s else
  ((s.wf Reg.cisErr F.cisErr_VALID 1).wf Reg.cisErr F.cisErr_PORT port).wf Reg.cisErr F.cisErr_PAGE pg

/-- n bytes of the Cistern: the bytes and whether a word of them is uncorrectable. -/
def State.cisRd (s : State) (a n : Nat) : List Byte × Bool × State :=
  let (bad, s) := s.readEcc Mc.cistern 0 a n
  (Mem.rdBytes s.cistern a n, bad, s)

/-- The Cistern with bytes written. -/
def State.cisWr (s : State) (a : Nat) (bytes : List Byte) : State :=
  let s := s.writeEcc Mc.cistern 0 a bytes.length
  { s with cistern := Mem.wrBytes s.cistern a bytes }

end Sys2Proof.Machine
end

