-- ==== Sys2Proof/Machine/Rings.lean ====
section
/-! DEFINITION. Sys2Proof/Machine/Rings.lean: the event rings and completion rings (spec/09 R492 to R502, R827, R828; the
Clepsydra's order of events, spec/10 R525, R526). -/
namespace Sys2Proof.Machine

/-- A resident slot's context. -/
def State.ctx (s : State) (slot : Nat) : Ctx := Table.get {} s.ctxs slot

/-- The state with a resident slot's context set. -/
def State.setCtx (s : State) (slot : Nat) (c : Ctx) : State := { s with ctxs := Table.put {} s.ctxs slot c }

/-- The counts of an event ring. -/
def State.ringSt (s : State) : Ring → RingSt
  | .dev => s.devRing
  | .ctx k => (s.ctx k).evt

/-- The state with the counts of an event ring set. -/
def State.setRingSt (s : State) (r : Ring) (t : RingSt) : State :=
  match r with
  | .dev => { s with devRing := t }
  | .ctx k => s.setCtx k { s.ctx k with evt := t }

/-- The address of the device ring (R497). -/
def State.devRingVa (s : State) : Nat :=
  s.rf Reg.weirDevringLo F.weirDevringLo_VA * 0x1000 + s.rf Reg.weirDevringHi F.weirDevringHi_VA * 2 ^ 32

/-- Where an event ring lies and the log of its size, if the device has it (R475, WEIR_DEVRING_CFG). -/
def State.ringGeom (s : State) : Ring → Option (Nat × Nat)
  | .dev =>
    let l := s.rf Reg.weirDevringCfg F.weirDevringCfg_LOG2
    if l = 0 then none else some (s.devRingVa, l)
  | .ctx k => let c := s.ctx k; if c.resident then some (c.evtVa, c.evtLog2) else none

/-- The free records of an event ring (R500). -/
def State.ringFree (s : State) (r : Ring) : Nat :=
  match s.ringGeom r with
  | some (_, l) => 2 ^ l - ((s.ringSt r).written - (s.ringSt r).read)
  | none => 0

/-- Moderation of an event ring in µs (R501). -/
def State.modUs (s : State) : Ring → Nat
  | .dev => s.rf Reg.weirDevringCfg F.weirDevringCfg_MOD_US
  | .ctx k => (s.ctx k).modUs

/-- The 32 bytes of an event record (R497): SEQ is the record's number modulo 65,536. -/
def Event.bytes (e : Event) (n : Nat) : List Byte :=
  leBytes e.gts 8 ++ leBytes e.cookie 8 ++ leBytes e.source 2 ++ leBytes e.type 2 ++ leBytes e.detail 4 ++
  leBytes n 2 ++ leBytes e.ctxId 2 ++ leBytes (if e.safety then 2 ^ 32 - 1 - e.detail % 2 ^ 32 else 0) 4

/-- An event that finds no room is dropped and counted (R500). -/
def State.dropEvent (s : State) (r : Ring) : State :=
  let t := s.ringSt r
  s.setRingSt r { t with lost := t.lost + 1, unreported := t.unreported + 1 }

/-- A record is written in an event ring, or lost to a translation fault (R497, R828). -/
def State.putEvent (s : State) (r : Ring) (e : Event) : State :=
  match s.ringGeom r with
  | none => s.dropEvent r
  | some (va, l) =>
    let t := s.ringSt r
    let w := s.vwrite Who.walker (va + 32 * (t.written % 2 ^ l)) (e.bytes (t.written + 1))
    if w.1 then
      w.2.setRingSt r { t with
        written := t.written + 1
        unsig := t.unsig + 1
        oldest := some (t.oldest.getD s.gts)
        safetyNew := t.safetyNew || e.safety }
    else match r with
      | .dev => w.2.dropEvent .dev
      | .ctx _ => w.2.xlateFault 0x610

/-- a stands before b in R526's order: lower GTS, then lower source. -/
def Event.before (a b : Event) : Bool := decide (a.gts < b.gts) || (a.gts == b.gts && decide (a.source < b.source))

/-- The first event of a list in R526's order; among equals, the one issued first. -/
def firstEvent : List Event → Option Event
  | [] => none
  | e :: l => match firstEvent l with
    | none => some e
    | some b => if b.before e then some b else some e

/-- The next event of a ring (R526). -/
def State.nextEvent (s : State) (r : Ring) : Option Event := firstEvent (s.events.filter fun e => e.ring == r)

/-- The state without the first occurrence of an event. -/
def State.takeEvent (s : State) (e : Event) : State := { s with events := s.events.erase e }

/-- The ring takes an event now: a normal one needs 17 free records, a safety-class one needs 1 (R500). -/
def State.room (s : State) (e : Event) : Bool := decide ((if e.safety then 0 else 16) < s.ringFree e.ring)

/-- A normal event waits while drops are unreported and the OVERFLOW can be written (R500). -/
def State.behindOverflow (s : State) (e : Event) : Bool :=
  !e.safety && decide (0 < (s.ringSt e.ring).unreported) && decide (16 < s.ringFree e.ring)

/-- The event leaves the Clepsydra for its ring: written, or dropped and counted. -/
def State.deliver (s : State) (e : Event) : State :=
  let s := s.takeEvent e
  if s.room e then s.putEvent e.ring e else s.dropEvent e.ring

/-- What stands in the ring in place of a safety-class event that failed its twin check (R662). -/
def Event.replaced (e : Event) : Event := { e with source := 260, type := Ev.safetyDetector, detail := 4, twinBad := false }

/-- A safety-class event is checked as it leaves the Clepsydra; one that fails is replaced, counted, and raises cause bit
6 (R661, R662). -/
def State.checkEvent (s : State) (e : Event) : Bool × State :=
  if !e.safety || e.source == 260 then (true, s) else
  let (err, s) := s.inject 0x17 0 0xC 0
  if err.isNone && !e.twinBad then (true, s) else
  let s := { s with events := s.events.map fun x => if x == e then e.replaced else x }
  (false, (s.detCount ⟨4, Kind.occurrence, 3, 0, err.isSome⟩).cause 6)

/-- EVENT_RING_WRITE: the Clepsydra writes the next event of a ring, no earlier than its GTS plus 512 ns (R525, R526). -/
def State.eventRingWrite (s : State) (r : Ring) : State :=
  match s.nextEvent r with
  | none => s
  | some e =>
    if s.gts < e.gts + 512 ∨ s.behindOverflow e then s else
    let (ok, s) := s.checkEvent e
    if ok then s.deliver e else s

/-- The event that carries the count of drops of a ring since the last (R500). -/
def State.overflowEvent (s : State) (r : Ring) : Event :=
  { ring := r, gts := s.gts, source := 19, type := Ev.overflow, detail := min (s.ringSt r).unreported (2 ^ 32 - 1),
    ctxId := match r with
      | .dev => 0xFFFF
      | .ctx k => (s.ctx k).ctxId }

/-- OVERFLOW: once 17 records are free, one event carries the count of drops since the last (R500). Where its write meets a
translation fault no record carries the count, and it stays unreported (R828). -/
def State.overflow (s : State) (r : Ring) : State :=
  if (s.ringSt r).unreported = 0 ∨ s.ringFree r < 17 then s else
  let t := s.putEvent r (s.overflowEvent r)
  if (t.ringSt r).written = (s.ringSt r).written then t else t.setRingSt r { t.ringSt r with unreported := 0 }

/-! Vectors (R501, R502). -/

/-- The device presents an MSI-X capability: PCIE_CFG.MODE selects an endpoint (R502). -/
def State.msix (s : State) : Bool := s.rf Reg.pcieCfg F.pcieCfg_MODE % 3 == 0

/-- A signal of an MSI-X entry: its message is sent, or, while the entry is masked, its pending bit is set (R502). -/
def State.msixSend (s : State) (v : Nat) : State :=
  let x := Table.get {} s.msixVecs v
  if x.masked then { s with msixVecs := Table.put {} s.msixVecs v { x with pending := true } }
  else { s with vectors := Table.put 0 s.vectors v (Table.get 0 s.vectors v + 1) }

/-- The host sets or clears the mask of an MSI-X entry, whose place the spec does not give (log entry 15): a pending message of an
entry that is unmasked is sent. -/
def State.msixMask (s : State) (v : Nat) (m : Bool) : State :=
  let x := Table.get {} s.msixVecs v
  let t : State := { s with msixVecs := Table.put {} s.msixVecs v { masked := m, pending := x.pending && m } }
  if x.pending && !m then t.msixSend v else t

/-- A vector is signalled (R502): to MSI-X entry v, to line v of the on-chip controller, or to both. -/
def State.signal (s : State) (v : Nat) : State :=
  if 64 ≤ v then s else
  let m := s.rf Reg.weirIrqRoute F.weirIrqRoute_MODE
  let toMsi := s.msix && (m == 0 || m == 2 || m == 3)
  let toLine := !s.msix || m == 1 || m == 2
  let s := if toMsi then s.msixSend v else s
  if toLine then { s with vectors := Table.put 0 s.vectors (64 + v) (Table.get 0 s.vectors (64 + v) + 1) } else s

/-- A ring's counts, its moderation and its vector. -/
def State.ringSel (s : State) : RingSel → RingSt × Nat × Nat
  | .evt .dev => (s.devRing, s.modUs .dev, s.rf Reg.weirDevringCfg F.weirDevringCfg_VECTOR)
  | .evt (.ctx k) => ((s.ctx k).evt, (s.ctx k).modUs, (s.ctx k).evtVector)
  | .cpl k => ((s.ctx k).cpl, (s.ctx k).modUs, (s.ctx k).cplVector)

/-- The state with the counts of a ring that signals set. -/
def State.setSel (s : State) (r : RingSel) (t : RingSt) : State :=
  match r with
  | .evt e => s.setRingSt e t
  | .cpl k => s.setCtx k { s.ctx k with cpl := t }

/-- The conditions of R501 hold for a ring. With MOD_US 0 every record written signals, consumed or not. -/
def State.signalDue (s : State) (r : RingSel) : Bool :=
  let q := s.ringSel r
  if q.2.1 = 0 then decide (0 < q.1.unsig) else
  decide (q.1.read < q.1.written) && match q.1.oldest with
    | some g => q.1.safetyNew || decide (g + 1000 * q.2.1 ≤ s.gts)
    | none => false

/-- A vector is signalled a number of times. -/
def State.signalTimes (v : Nat) : Nat → State → State
  | 0, s => s
  | n + 1, s => State.signalTimes v n (s.signal v)

/-- INTERRUPT_SIGNAL: a ring's vector is signalled, with MOD_US 0 once for each record not yet signalled (R501). -/
def State.interruptSignal (s : State) (r : RingSel) : State :=
  if s.signalDue r then
    let q := s.ringSel r
    State.signalTimes q.2.2 (if q.2.1 = 0 then q.1.unsig else 1)
      (s.setSel r { q.1 with unsig := 0, oldest := none, safetyNew := false })
  else s

/-! Completion records (R492 to R496). -/

/-- The 64 bytes of record n (R492). -/
def CplRec.bytes (r : CplRec) (n : Nat) : List Byte :=
  leBytes r.status 1 ++ leBytes r.kind 1 ++ leBytes r.fault 1 ++ leBytes r.replays 1 ++ leBytes r.ringCount 2 ++
  leBytes r.queue 1 ++ leBytes r.fountain 1 ++ leBytes r.cookie 8 ++ leBytes r.gts 8 ++ leBytes r.offer 8 ++
  leBytes r.deadline 8 ++ leBytes r.progressVa 8 ++ leBytes r.lastLayer 2 ++ leBytes r.outBits 2 ++ leBytes n 4 ++
  leBytes r.cflags 1 ++ leBytes 0 7

/-- A completion record of a slot is written, or lost to a translation fault (R492, R494, R828). -/
def State.putCpl (s : State) (slot : Nat) (r : CplRec) : State :=
  let c := s.ctx slot
  let t := c.cpl
  let w := s.vwrite Who.walker (c.cplVa + 64 * (t.written % 2 ^ c.cplLog2)) (r.bytes (t.written + 1))
  if w.1 then
    w.2.setCtx slot { w.2.ctx slot with
      cpl := { t with written := t.written + 1, unsig := t.unsig + 1, oldest := some (t.oldest.getD s.gts) } }
  else w.2.xlateFault 0x610

/-- An event of a job's layers, named by its final record, waits for its ring (R496). -/
def State.awaits (s : State) (slot : Nat) (r : CplRec) : Bool :=
  s.events.any fun e => e.ring == s.route (.ctx slot) && e.type == Ev.program && e.cookie == r.cookie

/-- Final records of a slot are written, each once the events of its job's layers are in the event ring (R496); each gives back
the ring space held for it (R486). -/
def State.flushFinals (slot : Nat) (s : State) : State :=
  (s.ctx slot).finals.foldl (fun s r =>
    if s.awaits slot r then s else
    let s := s.putCpl slot r
    let c := s.ctx slot
    s.setCtx slot { c with cplHeld := c.cplHeld - 1, finals := c.finals.erase r }) s

/-- EVENT_RING_WRITE, and the final records that waited for its event. -/
def State.writeRing (s : State) (r : Ring) : State :=
  match r with
  | .dev => s.eventRingWrite .dev
  | .ctx k => (s.eventRingWrite (.ctx k)).flushFinals k

/-! Queues and their pages (R449, R453, R479 to R481). -/

/-- A queue of a resident slot. -/
def State.queue (s : State) (slot q : Nat) : Queue := Table.get {} (s.ctx slot).queues q
/-- The state with a queue of a resident slot set. -/
def State.setQueue (s : State) (slot q : Nat) (x : Queue) : State :=
  s.setCtx slot { s.ctx slot with queues := Table.put {} (s.ctx slot).queues q x }

/-- A doorbell page is open: its context is resident and not being destroyed, its queue enabled (R479, R480). -/
def State.pageOpen (s : State) (slot q : Nat) : Bool :=
  decide (slot < 48) && decide (q < 8) && (s.ctx slot).resident && !(s.ctx slot).closing && (s.queue slot q).enable

/-- The queue with a head pointer written, value and complement. -/
def Queue.setHead (x : Queue) (n : Nat) : Queue := { x with head := n % 65536, headC := 65535 - n % 65536 }
/-- The queue with a tail pointer written. -/
def Queue.setTail (x : Queue) (n : Nat) : Queue := { x with tail := n % 65536, tailC := 65535 - n % 65536 }
/-- Both pointers agree with their complements (R453). -/
def Queue.twinOk (x : Queue) : Bool := x.head + x.headC == 65535 && x.tail + x.tailC == 65535

/-! Consumed counts (R827). -/

/-- The consumed count after a write: R827 accepts it only between the count in force and the count written. -/
def consume (t : RingSt) (v : W32) : RingSt :=
  let d := (v.toNat + 2 ^ 32 - t.read % 2 ^ 32) % 2 ^ 32
  if d ≤ t.written - t.read then { t with read := t.read + d } else t

/-- EVT_READ of a slot is written, in the page of its queue 0 (R479, R480). -/
def State.evtRead (s : State) (slot : Nat) (v : W32) : State :=
  if s.pageOpen slot 0 then s.setCtx slot { s.ctx slot with evt := consume (s.ctx slot).evt v } else s

/-- CPL_READ of a slot is written, in the page of its queue 0. -/
def State.cplRead (s : State) (slot : Nat) (v : W32) : State :=
  if s.pageOpen slot 0 then s.setCtx slot { s.ctx slot with cpl := consume (s.ctx slot).cpl v } else s

/-- WEIR_DEVRING_READ is written. -/
def State.devringRead (s : State) (v : W32) : State := { s with devRing := consume s.devRing v }

/-! Meanings. -/

def execEventRingWrite (r : Ring) (s : State) := onFabric s (guarded s.dramServes fun s => s.writeRing r)
def execOverflow (r : Ring) (s : State) := onFabric s (guarded s.dramServes fun s => s.overflow r)
def execInterruptSignal (r : RingSel) (s : State) := onFabric s fun s => s.interruptSignal r
def execCplReadWrite (slot : Nat) (v : W32) (s : State) := onFabric s (guarded (!s.legacy) fun s => s.cplRead slot v)
def execEvtReadWrite (slot : Nat) (v : W32) (s : State) := onFabric s (guarded (!s.legacy) fun s => s.evtRead slot v)
def execWeirDevringReadWrite (v : W32) (s : State) := onFabric s fun s => (s.touch 2).devringRead v
def execLcqReadWrite (v : W32) (s : State) := onFabric s (guarded s.legacy fun s => s.cplRead 0 v)
def execLeqReadWrite (v : W32) (s : State) := onFabric s (guarded s.legacy fun s => s.evtRead 0 v)

end Sys2Proof.Machine
end

