-- ==== Sys2Proof/Machine/Engines.lean ====
section
/-! DEFINITION. Sys2Proof/Machine/Engines.lean: the engines as the Weir starts and stops them: Fountains and their cores
(spec/03 R144, R186 to R190; spec/04 R204), the Skimmer, and the virtual times of best-effort work (spec/08 R445). -/
namespace Sys2Proof.Machine

/-- A Fountain. -/
def State.ftn (s : State) (f : Nat) : Fountain := Table.get {} s.ftns f
/-- The state with a Fountain set. -/
def State.setFtn (s : State) (f : Nat) (x : Fountain) : State := { s with ftns := Table.put {} s.ftns f x }
/-- A core. -/
def State.core (s : State) (c : Nat) : Core := Table.get {} s.cores c
/-- The state with a core set. -/
def State.setCore (s : State) (c : Nat) (x : Core) : State := { s with cores := Table.put {} s.cores c x }

/-- The state with every core of a Fountain changed. -/
def State.onCores (s : State) (f : Nat) (g : Core → Core) : State :=
  (s.ftnCores f).foldl (fun s c => s.setCore c (g (s.core c))) s

/-! Widths (R186 to R189, R192). -/

/-- The bypassed columns of an array, one bit for each physical column: those that its fuses mark, and those that failed a
self-test (R186). -/
def State.badcol (s : State) (c a : Nat) : Nat := s.boot.board.badcol.getD (4 * c + a) 0 % 2 ^ 64 ||| Table.get 0 (s.core c).badcol a

/-- The good physical columns of an array, in ascending order (R187). -/
def State.goodCols (s : State) (c a : Nat) : List Nat := (List.range 64).filter fun n => !(s.badcol c a).testBit n

/-- The width of an array (R187). -/
def State.arrayWidth (s : State) (c a : Nat) : Nat :=
  let k := s.core c
  if k.tested && !k.testing && !k.unfit then (s.goodCols c a).length else 0

/-- The width of a core: the smallest among its arrays (R188), 0 while it tests, if it is unfit, or before its self-test
ends. -/
def State.coreWidth (s : State) (c : Nat) : Nat :=
  [1, 2, 3].foldl (fun m a => min m (s.arrayWidth c a)) (s.arrayWidth c 0)

/-- The width of a Fountain: the smallest among its cores (R188). -/
def State.ftnWidth (s : State) (f : Nat) : Nat :=
  if s.ftnSize f = 0 then 0 else (s.ftnCores f).foldl (fun m c => min m (s.coreWidth c)) 64

/-- The physical column of a logical column (R187). -/
def State.physCol (s : State) (c a j : Nat) : Nat := (s.goodCols c a).getD j j

/-! Stopping and starting (R204, R325, R348). -/

/-- A core at a stop: its Rills are stopped, its operand queues and its drain chain are empty (R325, R348). -/
def Core.halt (k : Core) : Core :=
  { k with rills := [], queues := [], raw := [], pool := [], out := [] }

/-- A core at a layer start: tiles ZERO with their SAT bits clear, vector registers 0, Sluices 0, Rills stopped (R204). -/
def Core.clear (k : Core) : Core :=
  { k.halt with acc := [], res := [], tile := [], vreg := [], sluice := [], wrote := [] }

/-- The layers of a job that engines hold: those that run, and those whose commit a dispatch overlaps (R411). -/
def State.layersOn (s : State) (id : Nat) : Nat :=
  ([0, 1, 2, 3].filter fun f => match (s.ftn f).ovl with
    | some o => o.run.job == id
    | none => false).length +
  ([0, 1, 2, 3].filter fun f => match (s.ftn f).run with
    | some r => r.job == id
    | none => false).length +
  (match s.skim.run with
   | some r => b2n (r.job == id)
   | none => 0)

/-- The first layer of a job that no engine has taken. -/
def State.firstWaiting (s : State) (j : Job) : Nat := j.nextLayer + s.layersOn j.id

/-- A Fountain's sequencer stops: held effects, the bundle in assembly and the matrix work are discarded (R39). -/
def Fountain.halt (x : Fountain) : Fountain :=
  { x with stopped := true, committing := false, tileReqs := 0, ir := [], asm := [], hits := [], held := [], waitf := none,
           mats := [], started := false, frac := 0 }

/-- A Fountain stops, keeping the layer it ran. -/
def State.haltFtn (s : State) (f : Nat) : State := (s.setFtn f (s.ftn f).halt).onCores f Core.halt

/-- Engine numbers: Fountains 0 to 3, and the Skimmer (R444). -/
def Eng.skim : Nat := 4

/-- The layer on an engine. -/
def State.runOf (s : State) (e : Nat) : Option LayerRun := if e = Eng.skim then s.skim.run else (s.ftn e).run

/-- The state with the layer on an engine set. -/
def State.setRun (s : State) (e : Nat) (r : Option LayerRun) : State :=
  if e = Eng.skim then { s with skim := { s.skim with run := r } } else s.setFtn e { s.ftn e with run := r }

/-- An engine stops. -/
def State.halt (s : State) (e : Nat) : State :=
  if e = Eng.skim then { s with skim := { s.skim with stopped := true } } else s.haltFtn e

/-- A best-effort layer leaves an engine: its context's VT grows by the engine time × 65,536 / SHARE (R445). -/
def State.chargeVt (s : State) (e : Nat) (r : LayerRun) : State :=
  match s.job? r.job with
  | none => s
  | some j =>
    let c := s.ctx j.slot
    if j.guar || c.share == 0 || r.stoppedAt.isSome then s else
    let t := (s.gts - r.dispatchGts) * 65536 / c.share
    s.setCtx j.slot { c with vt := Table.put 0 c.vt e (Table.get 0 c.vt e + t) }

/-- The layer on an engine is stopped and leaves it. -/
def State.dropRun (s : State) (e : Nat) : State :=
  match s.runOf e with
  | none => s
  | some r => ((s.chargeVt e r).halt e).setRun e none

/-- The layer dispatched over a commit that fails is stopped and discarded, and the committing layer is the Fountain's again
(R412). -/
def State.dropOver (s : State) (f : Nat) : State :=
  match (s.ftn f).ovl with
  | none => s
  | some o =>
    let s := (s.dropRun f).wn (Reg.ftnCycles f) o.cycles
    s.setFtn f { s.ftn f with run := some o.run, ovl := none, stopped := false, committing := true, held := o.held,
                              tileNow := o.tileNow, stats := o.stats, drainSet := o.drainSet }

/-- A job's layers leave an engine (R61, R69); where its commit was overlapped, the overlapped layer stops too (R412). -/
def State.dropJob (id : Nat) (s : State) (e : Nat) : State :=
  let ovl := decide (e < 4) && match (s.ftn e).ovl with
    | some o => o.run.job == id
    | none => false
  let s := if ovl then s.dropOver e else s
  match s.runOf e with
  | some r => if r.job = id then s.dropRun e else s
  | none => s

/-- The banks swap: the pending segment becomes active and the program counter is 0 (R258, R260). -/
def Fountain.swap (x : Fountain) : Fountain :=
  { x with bank := 1 - x.bank, pc := 0, ir := [], swapPending := false, active := x.pend, count := x.pendCount, pend := none }

/-- The Fountain's state at a layer start (R204), with the layer's statistics slots cleared (R380). -/
def Fountain.clear (x : Fountain) : Fountain :=
  { x with stopped := false, started := false, committing := false, tileReqs := 0, pc := 0, ir := [], asm := [], hits := [], lc := [],
           cmp := [], pred := 0, wp := [], pp := 0, dcd := 0, sr := 0, held := [], heldTotal := 0, waitf := none,
           mats := [], drainM := [], stats := [], frac := 0, tileNow := 0, storeAt := none, wrote := [] }

/-- Every core of a Fountain takes the program width (R190). -/
def State.setPw (s : State) (f pw : Nat) : State :=
  (s.ftnCores f).foldl (fun s c => s.wn (Reg.corePw c) pw) s

end Sys2Proof.Machine
end

