-- ==== Sys2Proof/Machine/Pages.lean ====
section
/-! DEFINITION. Sys2Proof/Machine/Pages.lean: the Cistern's pages and the Weir's paging (spec/05 R307 to R315, spec/08 R417 to
R420, R434 to R437). -/
namespace Sys2Proof.Machine

/-- Page states (R308, CIS_PAGE_INFO). -/
def Pg.free : Nat := 0
def Pg.filling : Nat := 1
def Pg.resident : Nat := 2
def Pg.writeback : Nat := 3

/-- A page. -/
def State.page (s : State) (n : Nat) : Page := Table.get {} s.pages n
/-- The state with a page set. -/
def State.setPage (s : State) (n : Nat) (p : Page) : State := { s with pages := Table.put {} s.pages n p }

/-- The jobs with no final record yet (R24). -/
def State.pendingJobs (s : State) : List Job := s.weir.jobs.filter fun j => j.ended.isNone
/-- A pending job. -/
def State.pending? (s : State) (id : Nat) : Option Job := s.pendingJobs.find? fun j => j.id == id

/-- The pending guaranteed jobs. -/
def State.guarJobs (s : State) : List Job := s.pendingJobs.filter fun j => j.guar

/-- The device-virtual page of a page entry of an object (R402). -/
def Job.vpage (j : Job) (p : CertPage) : Nat := (j.handles.getD p.obj {}).baseVa / 0x10000 + p.objPage

/-- A page entry names a page of an object. -/
def CertPage.ofObj (p : CertPage) : Bool := decide (p.obj < 0xFE)
/-- A page entry names a page of a Jet range (R403). -/
def CertPage.ofJet (p : CertPage) : Bool := p.obj == 0xFE
/-- PFLAGS of a page entry (R402). -/
def CertPage.weight (p : CertPage) : Bool := p.flags.testBit 0
def CertPage.fill (p : CertPage) : Bool := p.flags.testBit 1
def CertPage.writable (p : CertPage) : Bool := p.flags.testBit 2

/-- A page holds what an entry of a job names. -/
def Page.holds (q : Page) (j : Job) (p : CertPage) : Bool :=
  if p.ofObj then q.va == some (j.vpage p) else q.scratch == some (j.id, p.view)

/-- The Cistern page that an entry of a job stands in: a page of the Jet range (R403), or the one copy of its page (R311). -/
def State.pageFor (s : State) (j : Job) (p : CertPage) : Option Nat :=
  if p.ofJet then some (s.jetFirst (bitsOf p.objPage 17 16) + p.objPage % 2 ^ 16)
  else (s.pages.find? fun e => e.2.st != Pg.free && e.2.holds j p).map fun e => e.1

/-- A FREE page still holds the clean weight page that an entry of a job names (R312). -/
def State.keptClean (s : State) (j : Job) (p : CertPage) : Bool :=
  p.ofObj && s.pages.any fun e => e.2.st == Pg.free && e.2.weight && e.2.holds j p

/-- An entry of a job is RESIDENT; a page of a Jet range always is (R403). -/
def State.residentFor (s : State) (j : Job) (p : CertPage) : Bool :=
  p.ofJet || match s.pageFor j p with
    | some n => (s.page n).st == Pg.resident
    | none => false

/-- A pending job lists what a page holds. -/
def Job.lists (j : Job) (q : Page) : Bool := j.cert.pages.any fun p => !p.ofJet && q.holds j p

/-- The reference count of a page (R308): the pending jobs that list it. -/
def State.refs (s : State) (n : Nat) : Nat := (s.pendingJobs.filter fun j => j.lists (s.page n)).length

/-- The jobs that hold pages: the pending ones, and guaranteed ones that await their writeback (R73). -/
def State.holdingJobs (s : State) : List Job := s.weir.jobs.filter fun j => j.ended.isNone || j.guar

/-- A job still holds what a page holds: a guaranteed one whatever it lists, a best-effort one until the entry's last layer has
committed (R437). -/
def Job.keeps (j : Job) (q : Page) : Bool :=
  j.cert.pages.any fun p => !p.ofJet && q.holds j p && (j.guar || decide (j.nextLayer ≤ p.last))

/-- Some job still holds a page. -/
def State.kept (s : State) (n : Nat) : Bool := s.holdingJobs.any fun j => j.keeps (s.page n)

/-- The pages of the WEIGHT and FEATURE pools. -/
def State.cachePages (s : State) : List Nat := s.poolPages Pool.weight ++ s.poolPages Pool.feature

/-- The FREE page of a pool that has been FREE longest (R312). -/
def State.oldestFree (s : State) (ty : Nat) : Option Nat :=
  (s.poolPages ty).foldl (fun b n =>
    if (s.page n).st != Pg.free then b else
    match b with
    | none => some n
    | some m => if (s.page n).seq < (s.page m).seq then some n else some m) none

/-- A page becomes FREE; a clean weight page that no pending job lists keeps its contents for a job that lists it again
(R308, R312). -/
def State.freePage (s : State) (n : Nat) : State :=
  let p := s.page n
  let keep := p.weight && !p.poison && !s.pendingJobs.any fun j => j.lists p
  { s.setPage n { st := Pg.free, va := if keep then p.va else none, weight := keep, seq := s.freeSeq + 1 } with
    freeSeq := s.freeSeq + 1 }

/-- A RESIDENT page leaves the Cistern: a dirty one is written back first (R313). -/
def State.evict (s : State) (n : Nat) : State :=
  let p := s.page n
  if p.dirty then s.setPage n { p with st := Pg.writeback } else s.freePage n

/-- A page that no job holds any more is released (R437). -/
def State.releasePage (s : State) (n : Nat) : State :=
  if (s.page n).st != Pg.resident || s.kept n then s else s.evict n

/-- Every page that no job holds any more is released. -/
def State.releasePages (s : State) : State := (s.pages.map Prod.fst).foldl State.releasePage s

/-- The pages that pending guaranteed jobs list, each counted once (R417; WEIR_PAGES.GUAR). -/
def State.guarPages (s : State) : Nat :=
  let ids := s.guarJobs.flatMap fun j => (j.cert.pages.filter fun p => !p.ofJet).map fun p =>
    if p.ofObj then j.vpage p else 2 ^ 40 + j.id * 1024 + p.view
  ids.eraseDups.length

/-- The Cistern pages that best-effort jobs list and no guaranteed job lists (R435; WEIR_PAGES.BE). -/
def State.bePages (s : State) : Nat :=
  (s.pages.filter fun e => e.2.st != Pg.free &&
    s.pendingJobs.any (fun j => !j.guar && j.lists e.2) && !s.guarJobs.any (fun j => j.lists e.2)).length

/-- Those of them that are not on their way out. -/
def State.beStaying (s : State) : Nat :=
  (s.pages.filter fun e => e.2.st != Pg.free && e.2.st != Pg.writeback &&
    s.pendingJobs.any (fun j => !j.guar && j.lists e.2) && !s.guarJobs.any (fun j => j.lists e.2)).length

/-- The pages that best-effort work may hold (R435). -/
def State.beLimit (s : State) : Nat := s.cachePages.length - s.guarPageLimit

/-- The entries of a job that its layer uses. -/
def Job.pagesOf (j : Job) (layer : Nat) : List CertPage :=
  j.cert.pages.filter fun p => decide (p.first ≤ layer) && decide (layer ≤ p.last)

/-- Every page that a layer of a job lists is RESIDENT (R310); for a guaranteed job's first layer, every FILL page of the
job (R434). -/
def State.pagesReady (s : State) (j : Job) (layer : Nat) : Bool :=
  (j.pagesOf layer).all (s.residentFor j) &&
  (!j.guar || j.lastCommit.isSome || (j.cert.pages.filter CertPage.fill).all (s.residentFor j))

/-- The entries that a job's paging may bring in now: those of the layers that have not committed, of a granted guaranteed
job or of a best-effort one (R309, R420, R434 to R436). -/
def Job.wanted (j : Job) : List CertPage :=
  if j.guar && !j.granted then [] else j.cert.pages.filter fun p => j.guar || decide (j.nextLayer ≤ p.last)

/-- The first wanted entry that is not in the Cistern, by first layer (R309). -/
def State.nextFill (s : State) (j : Job) : Option CertPage :=
  ((j.wanted.filter fun p => !p.ofJet && (s.pageFor j p).isNone).foldl (fun b p => match b with
    | none => some p
    | some q => if p.first < q.first then some p else some q) none)

/-- What a page holds is listed only by layers of a job that no engine has taken, from a layer on (R436). -/
def Job.onlyFrom (j : Job) (q : Page) (layer : Nat) : Bool :=
  j.cert.pages.all fun p => p.ofJet || !q.holds j p || decide (layer ≤ p.first)

/-- A page among some that R436 lets the Weir reclaim: listed by best-effort jobs alone, and only by layers not yet dispatched,
of the job accepted last. For the next layer of a job its own pages of later layers count too (log entry 130). -/
def State.reclaim (s : State) (among : List Nat) (me : Option Job) : Option Nat :=
  let cand := among.filter fun n =>
    let q := s.page n
    q.st == Pg.resident && !s.holdingJobs.any (fun j => j.guar && j.lists q) &&
    s.pendingJobs.all fun j => j.onlyFrom q (s.firstWaiting j + match me with
      | some m => b2n (m.id == j.id)
      | none => 0)
  let age := fun n => ((s.pendingJobs.filter fun j => j.lists (s.page n)).map fun j => j.acceptGts).foldl max 0
  cand.foldl (fun b n => match b with
    | none => some n
    | some m => if age m < age n then some n else some m) none

/-- A job's page takes a FREE page of its pool: a page without FILL, or of no object, needs no transfer (R402); any other is
filled by a DMA Rill (R309, R314). -/
def State.placePage (s : State) (j : Job) (p : CertPage) (n dma : Nat) : State :=
  s.setPage n { st := if p.fill && p.ofObj then Pg.filling else Pg.resident,
                va := if p.ofObj then some (j.vpage p) else none,
                scratch := if p.ofObj then none else some (j.id, p.view),
                weight := p.weight, dma := dma, by_ := j.id }

/-- PAGE_FILL_START: the Weir brings in the next page of a job. It takes the FREE page that has been FREE longest (R312);
where a best-effort job finds none, or best-effort work holds all it may (R435), the next layer's paging reclaims a page
(R436), and paging further ahead waits. -/
def State.fillStart (s : State) (job dma : Nat) : State :=
  match s.pending? job with
  | none => s
  | some j =>
    match s.nextFill j with
    | none => s
    | some p =>
      let ty := if p.weight then Pool.weight else Pool.feature
      let full := !j.guar && decide (s.beLimit ≤ s.bePages)
      let soon := !j.guar && decide (p.first ≤ s.firstWaiting j)
      match (if full then none else s.oldestFree ty) with
      | some n => s.placePage j p n dma
      | none =>
        if !soon then s else
        match s.reclaim (if full then s.cachePages else s.poolPages ty) (some j) with
        | some n => s.evict n
        | none => s

/-- A new job lists what FREE pages still hold: they return to RESIDENT without a fill (R312). -/
def State.revive (s : State) (j : Job) : State :=
  s.pages.foldl (fun s e =>
    if e.2.st == Pg.free && e.2.weight && j.lists e.2 then s.setPage e.1 { e.2 with st := Pg.resident } else s) s

/-- Best-effort work gives up pages while it holds more than it may, by the order of R436 (R435; log entry 130). -/
def State.trimBe : Nat → State → State
  | 0, s => s
  | n + 1, s =>
    if s.beStaying ≤ s.beLimit then s else
    match s.reclaim s.cachePages none with
    | some pg => State.trimBe n (s.evict pg)
    | none => s

/-- Who makes the transfers of a fill: its DMA Rill, charged to the job (R314, R433). -/
def Page.who (q : Page) : Who := { tag := 0x100 + q.dma % 32, holder := some q.by_ }

/-- Who makes the transfers of a writeback: the page's DMA Rill, charged to a guaranteed job whose page it is (R433), or else
to the job that brought it in. -/
def State.backWho (s : State) (q : Page) : Who :=
  match s.holdingJobs.find? fun j => j.guar && j.lists q with
  | some j => { q.who with holder := some j.id }
  | none => q.who

/-- The Cistern page takes 64 KiB of DRAM from a physical address: whether the read is uncorrectable (R314, R315). -/
def State.copyIn (s : State) (n pa : Nat) : Bool × State :=
  let who := (s.page n).who
  let (bad, s) := (s.charge who 1024).dramCheck (pa - dramBase) 0x10000
  let s := s.writeEcc Mc.cistern 0 (n * 0x10000) 0x10000
  (bad, { s with cistern := Mem.copy s.cistern (n * 0x10000) s.dram pa 0x10000 })

/-- The DRAM page at a physical address takes the 64 KiB of a Cistern page (R313). -/
def State.copyOut (s : State) (n pa : Nat) : State :=
  let (_, s) := s.readEcc Mc.cistern 0 (n * 0x10000) 0x10000
  let s := (s.charge (s.backWho (s.page n)) 1024).writeEcc Mc.dram 0 (pa - dramBase) 0x10000
  { s with dram := Mem.copy s.dram pa s.cistern (n * 0x10000) 0x10000 }

/-- The view map entry of a page: the physical page, with WRITABLE above it (R298, R301, R403). -/
def viewEntry (pg : Nat) (writable : Bool) : Nat := 1 + pg + b2n writable * 1024

/-- The view map that the Weir writes at the dispatch of a layer (R298): the pages of the job that are RESIDENT. -/
def State.viewMap (s : State) (j : Job) (layer : Nat) : Table Nat :=
  j.cert.pages.foldl (fun t p =>
    if p.ofJet && (layer < p.first || p.last < layer) then t else
    match s.pageFor j p with
    | some n =>
      if s.residentFor j p then Table.put 0 t p.view (viewEntry n (p.writable && !p.ofJet && !(s.page n).weight)) else t
    | none => t) []

/-- The physical Cistern address of a view address, or none where R299 faults. -/
def viewAddr (view : Table Nat) (wr : Bool) (a : Nat) : Option Nat :=
  let e := Table.get 0 view (a / 0x10000)
  if a / 0x10000 ≥ 768 ∨ e = 0 ∨ (wr ∧ e ≤ 1024) then none else some ((e - 1) % 1024 * 0x10000 + a % 0x10000)

/-- Pages that the view addresses of a write touch become dirty, where they hold a page of an object (R313). -/
def State.dirtyPages (s : State) (a n : Nat) : State :=
  (vpagesOf a n).foldl (fun s p => if (s.page p).va.isSome then s.setPage p { s.page p with dirty := true } else s) s

end Sys2Proof.Machine
end

