-- ==== Sys2Proof/Machine/Jobs.lean ====
section
/-! DEFINITION. Sys2Proof/Machine/Jobs.lean: how a job ends (spec/01 R58 to R73), how a fault is charged (R49 to R57), and
what the rest of the device asks of the Weir. -/
namespace Sys2Proof.Machine

/-- Status codes (R493). -/
def St.accepted : Nat := 0x01
def St.refusedSchedule : Nat := 0x02
def St.refusedWidth : Nat := 0x03
def St.refusedResource : Nat := 0x04
def St.done : Nat := 0x10
def St.partial_ : Nat := 0x11
def St.failedFault : Nat := 0x12
def St.failedDeadlock : Nat := 0x13
def St.certOverrun : Nat := 0x14
def St.breach : Nat := 0x15
def St.cancelled : Nat := 0x16

/-- Breach causes (R59). -/
def Br.floor : Nat := 0x01
def Br.inputLost : Nat := 0x02
def Br.overspeed : Nat := 0x03
def Br.phaseReached : Nat := 0x04
def Br.replayExhausted : Nat := 0x05
def Br.twin : Nat := 0x06
def Br.producerFailed : Nat := 0x07
def Br.unexplained : Nat := 0x0F

/-- The state with a job's entry changed. -/
def State.modJob (s : State) (id : Nat) (g : Job → Job) : State :=
  { s with weir := { s.weir with jobs := s.weir.jobs.map fun j => if j.id = id then g j else j } }

/-- A page in the Cistern belongs to an output object of a job (R73, R313). -/
def Job.outputPage (j : Job) (q : Page) : Bool :=
  j.cert.pages.any fun p => decide (p.obj < j.cert.outputCount) && p.ofObj && q.holds j p

/-- The dirty pages of a job's output objects, those in their writeback among them. -/
def State.dirtyOutputs (s : State) (j : Job) : Nat :=
  (s.pages.filter fun e => j.outputPage e.2 && ((e.2.dirty && e.2.st == Pg.resident) || e.2.st == Pg.writeback)).length

/-- Every dirty page of a job's output objects goes to its writeback (R313). -/
def State.writeOutputs (s : State) (j : Job) : State :=
  s.pages.foldl (fun s e =>
    if j.outputPage e.2 && e.2.dirty && e.2.st == Pg.resident then s.setPage e.1 { e.2 with st := Pg.writeback } else s) s

/-- The final record of a job (R65, R71, R73, R492), which waits for the events of its layers (R496); its pages are
released. A job whose output pages are still dirty writes them back, and keeps its reservation, and a guaranteed one its pages,
until its WRITEBACK_DONE (R73). -/
def State.finalRecord (s : State) (j : Job) (status fault gts : Nat) : State :=
  let dirty := s.dirtyOutputs j
  let wb := status != St.done && decide (0 < dirty)
  let rec_ : CplRec :=
    { status := status, kind := 2, fault := fault, replays := j.replays, ringCount := j.ringCount, queue := j.queue,
      fountain := j.fountain, cookie := j.cookie, gts := gts, deadline := j.deadline, progressVa := j.progressVa,
      lastLayer := j.lastCommit.getD 0xFFFF, outBits := j.outBits, cflags := b2n wb }
  let s := (s.setCtx j.slot { s.ctx j.slot with finals := (s.ctx j.slot).finals ++ [rec_] }).flushFinals j.slot
  let s := if wb then (s.modJob j.id fun j => { j with ended := some status, wbPages := dirty }).writeOutputs j
    else { s with weir := { s.weir with jobs := s.weir.jobs.filter fun k => k.id != j.id } }
  s.releasePages

/-- The engines that run a layer of a job, or commit one while the next is dispatched (R411). -/
def State.enginesOf (s : State) (id : Nat) : List Nat :=
  [0, 1, 2, 3, 4].filter fun e => (match s.runOf e with
    | some r => r.job == id
    | none => false) || decide (e < 4) && match (s.ftn e).ovl with
    | some o => o.run.job == id
    | none => false

/-- A safety-class DEADLINE_BREACH goes to the job's ring and the device ring (R62); its occurrence is counted, and it is
cause bit 0 (R106, R630). -/
def State.breachEvents (s : State) (j : Job) (c : Nat) : State :=
  let e : Event := { ring := .ctx j.slot, gts := s.gts, source := 0, type := Ev.deadlineBreach, detail := c,
                     cookie := j.cookie, ctxId := j.ctxId }
  let s := s.detCount ⟨0x0E, Kind.occurrence, 2, j.fountain, false⟩
  let s := (s.raise e).raise { e with ring := .dev }
  s.cause 0

/-- What a final status reports beside the record (R62, R630; causes 0 and 11 of R106). -/
def State.endReports (s : State) (j : Job) (status fault : Nat) : State :=
  if status = St.breach then s.breachEvents j fault
  else if status = St.certOverrun then (s.occur ⟨0x0D, Kind.occurrence, 2, j.fountain, false⟩).cause 11
  else s

/-- One pending job ends: its layer stops (R61, R69), the reports are raised, the final record is written. -/
def State.endOne (s : State) (j : Job) (status fault : Nat) : State :=
  let s := (s.enginesOf j.id).foldl (State.dropJob j.id) s
  (s.endReports j status fault).finalRecord j status fault (if status = St.done then j.doneAt.getD s.gts else s.gts)

/-- The pending jobs that wait on a flag that an ended job has not set (R63). -/
def State.orphans (s : State) (j : Job) : List Nat :=
  (s.pendingJobs.filter fun k =>
    k.producers.any fun p => p.1 == j.id && !j.sets.contains (p.2.2.1, p.2.2.2)).map Job.id

/-- Jobs end, and with each the jobs whose producer it was (R63). A job that awaits only its writeback has ended with
DONE and keeps that status (R489). -/
def State.endJobs : Nat → List (Nat × Nat × Nat) → State → State
  | 0, _, s => s
  | _, [], s => s
  | n + 1, (id, status, fault) :: rest, s =>
    match s.pending? id with
    | none => State.endJobs n rest s
    | some j =>
      if j.doneAt.isSome && status != St.done then State.endJobs n rest s else
      let s' := s.endOne j status fault
      State.endJobs n (rest ++ (s'.orphans j).map fun k => (k, St.breach, Br.producerFailed)) s'

/-- The fuel that endJobs needs: each job brings in at most every other job. -/
def State.endFuel (s : State) (l : List (Nat × Nat × Nat)) : Nat :=
  l.length + s.weir.jobs.length * s.weir.jobs.length + 1

/-- A list of jobs ends. -/
def State.endAll (s : State) (l : List (Nat × Nat × Nat)) : State := State.endJobs (s.endFuel l) l s

/-- A job ends with a status and fault code. -/
def State.endJob (s : State) (id status fault : Nat) : State := s.endAll [(id, status, fault)]

/-- A job ends with a status whose fault code is the detector of its last replayed fault (the final-record table). -/
def State.endWith (s : State) (id status : Nat) : State :=
  match s.pending? id with
  | some j => s.endJob id status j.lastDet
  | none => s

/-- A pending guaranteed job ends with DEADLINE_BREACH (R58). -/
def State.breach (s : State) (id c : Nat) : State := s.endJob id St.breach c

/-- Every pending guaranteed job ends with cause FLOOR, and the Weir refuses guaranteed work (R59, R64). -/
def State.breachFloor (s : State) : State :=
  let s := s.endAll (s.guarJobs.map fun j => (j.id, St.breach, Br.floor))
  { s with weir := { s.weir with floorBreach := true } }

/-- The pending jobs with a phase deadline on an input. -/
def State.phaseJobs (s : State) (n : Nat) : List Job :=
  s.pendingJobs.filter fun j => match j.phase with
    | some p => p.input == n
    | none => false

/-- Every pending job with a phase deadline on an input ends with cause OVERSPEED (R59). -/
def State.overspeedJobs (s : State) (n : Nat) : State :=
  s.endAll ((s.phaseJobs n).map fun j => (j.id, St.breach, Br.overspeed))

/-! Faults of a layer. -/

/-- The job of an engine's layer ends, by class: a guaranteed one with a breach, a best-effort one with FAILED_FAULT. -/
def State.failJob (s : State) (j : Job) (c det : Nat) : State :=
  if j.guar then s.breach j.id c else s.endJob j.id St.failedFault det

/-- A fault is charged to the layer on an engine (R49 to R57): it stops; a struck retained input ends the job; otherwise it
replays within its reserve, or ends. While a commit is overlapped and the next layer has issued nothing, the fault is the committing
layer's (R412; log entry 132). ARITH_RESIDUE with the reserve spent is cause bit 7, and an SRAM error that ends the
job cause bit 9 (R106). -/
def State.chargeFault (s : State) (e det : Nat) (input : Bool) : State :=
  let s := if e < 4 ∧ !(s.ftn e).started then s.dropOver e else s
  match s.runOf e with
  | none => s
  | some r =>
    match s.pending? r.job with
    | none => s
    | some j =>
      if r.stoppedAt.isSome then s else
      let s := ((s.chargeVt e r).halt e).setRun e (some { r with stoppedAt := some s.gts })
      let s := if e < 4 then s.setFtn e { s.ftn e with stats := [] } else s
      let s := if det = 1 ∧ (input ∨ j.reserve ≤ j.replays) then s.cause 9 else s
      if input then s.failJob j Br.inputLost det
      else if j.replays < j.reserve then
        s.modJob j.id fun j => { j with replays := j.replays + 1, lastDet := det }
      else (if det = 0x0B then s.cause 7 else s).failJob j Br.replayExhausted det

/-- A fault of a core is charged to its Fountain's layer, and CORE_STATUS.FAULT says so (R56). -/
def State.coreFault (s : State) (c det : Nat) (input : Bool) : State :=
  match s.ftnOf c with
  | none => s
  | some f =>
    match (s.ftn f).run with
    | none => s
    | some _ => (s.wf (Reg.coreStatus c) F.coreStatus_FAULT 1).chargeFault f det input

/-- A program fault of a Fountain's layer: FTN_FAULT takes the first, and the job ends with CERT_OVERRUN (R254). -/
def State.progFault (s : State) (f code bank addr : Nat) : State :=
  let s := if s.rf (Reg.ftnFault f) F.ftnFault_VALID = 1 then s else
    s.wn (Reg.ftnFault f) (2 ^ 31 + code * 2 ^ 24 + bank * 2 ^ 12 + addr % 2 ^ 12)
  match (s.ftn f).run with
  | some r => s.endWith r.job St.certOverrun
  | none => s

/-- RESIDUE_COUNT counts a failure in a core, and RESIDUE_LOG records it if it is the first (R182). -/
def State.residueNote (s : State) (c a i col fmt mode : Nat) : State :=
  let s := s.bumpSat (Reg.residueCount c) F.residueCount_COUNT
  if s.rf (Reg.residueLog c) F.residueLog_VALID = 1 then s else
  let w := (s.rd (Reg.residueLog c)).setFld F.residueLog_VALID 1
  let w := (w.setFld F.residueLog_ARRAY a).setFld F.residueLog_ROW i
  let w := (w.setFld F.residueLog_PHYS_COL col).setFld F.residueLog_FMT fmt
  s.wr (Reg.residueLog c) (w.setFld F.residueLog_MODE mode)

/-- Program-fault codes (R253, R278, R349, R389, R462). -/
def Pf.illegal : Nat := 0x1
def Pf.basinRange : Nat := 0x2
def Pf.sluiceRange : Nat := 0x3
def Pf.rillBusy : Nat := 0x4
def Pf.fetchRange : Nat := 0x5
def Pf.swapNone : Nat := 0x6
def Pf.tileRange : Nat := 0x7
def Pf.rillFormat : Nat := 0x8
def Pf.rillRange : Nat := 0x9
def Pf.rillSluice : Nat := 0xA
def Pf.drainFull : Nat := 0xB
def Pf.drainFormat : Nat := 0xC
def Pf.scaleBind : Nat := 0xD
def Pf.xlate : Nat := 0xE

/-- The Skimmer's layer breaks R358 or leaves its view (R363). -/
def State.skimFault (s : State) (code : Nat) : State :=
  let s := (s.wf Reg.skimStatus F.skimStatus_FAULT code).wf Reg.skimStatus F.skimStatus_FAULT_VALID 1
  match s.skim.run with
  | some r => s.endWith r.job St.certOverrun
  | none => s

/-! What the rest of the device asks of the Weir. -/

/-- A queued job: submitted, with no final record yet (spec/08 R453). -/
def State.queuedCount (s : State) : Nat := s.weir.intake.length + s.pendingJobs.length

/-- A guaranteed job is pending on a Fountain (R457). -/
def State.guarOn (s : State) (f : Nat) : Bool := s.guarJobs.any fun j => j.fountain == f

/-- A context is resident (R467). -/
def State.anyResident (s : State) : Bool := s.ctxs.any fun e => e.2.resident

/-- A job for a Fountain is pending or under an admission test (R191). -/
def State.jobsFor (s : State) (f : Nat) : Bool :=
  s.pendingJobs.any (fun j => j.fountain == f) || s.weir.intake.any (fun i => i.desc.fountain == f)

end Sys2Proof.Machine
end

