-- ==== Sys2Proof/Machine/Cert.lean ====
section
/-! DEFINITION. Sys2Proof/Machine/Cert.lean: how descriptors, handle entries, certificates and program images are read
(spec/04 R263 to R265, spec/08 R397 to R406, spec/09 R469 to R474, R490, R491). -/
namespace Sys2Proof.Machine

/-- A descriptor from its 128 bytes (R490). -/
def Desc.parse (b : List Byte) : Desc :=
  { ctxId := u16 b 0, queue := u8 b 2, dflags := u8 b 3, fountain := u8 b 4, phaseInput := u8 b 5, handleCount := u8 b 6,
    resv := u8 b 7, certVa := u64 b 8, listVa := u64 b 0x10, deadline := u64 b 0x18, deadlineC := u64 b 0x20,
    cookie := u64 b 0x28, handles := (List.range 20).map fun i => u32 b (0x30 + 4 * i) }

/-- DFLAGS (R490). -/
def Desc.guar (d : Desc) : Bool := d.dflags.testBit 0
def Desc.phase (d : Desc) : Bool := d.dflags.testBit 1
def Desc.replay (d : Desc) : Nat := bitsOf d.dflags 4 2

/-- The halves of the deadline agree (R490, R661). -/
def Desc.twinOk (d : Desc) : Bool := d.deadline + d.deadlineC == 2 ^ 64 - 1

/-- The physical address of the handle table (R468). -/
def State.handleBase (s : State) : Nat :=
  s.rf Reg.weirHandleBaseLo F.weirHandleBaseLo_ADDR * 0x10000 + s.rf Reg.weirHandleBaseHi F.weirHandleBaseHi_ADDR * 2 ^ 32

/-- The handle entry of a number, as the Weir copies it (R468, R469, R474). -/
def State.readHandle (s : State) (h : Nat) : Handle :=
  let n := h % 2 ^ 20
  let ok := h == n && n != 0 && decide (n < s.rf Reg.weirHandleCount F.weirHandleCount_COUNT)
  let a := s.handleBase + 16 * n
  if ok then
    { num := n, inTable := true, baseVa := Mem.rdN s.dram a 8, size := Mem.rdN s.dram (a + 8) 4,
      attr := Mem.rdN s.dram (a + 0xC) 2, resv := Mem.rdN s.dram (a + 0xE) 2 }
  else { num := h }

/-- Attributes (R469). -/
def Handle.twin (h : Handle) : Bool := h.attr.testBit 2
def Handle.pageable (h : Handle) : Bool := h.attr.testBit 3
def Handle.pinned (h : Handle) : Bool := h.attr.testBit 4
/-- The size of an object in bytes. -/
def Handle.bytes (h : Handle) : Nat := 256 * h.size

/-- A handle names an entry that keeps the rules of R469 and R470 (R491). -/
def Handle.ok (h : Handle) : Bool :=
  h.inTable && h.attr.testBit 0 && bitsOf h.attr 15 5 == 0 && h.resv == 0 && decide (h.baseVa < 2 ^ 48) &&
  h.baseVa % 256 == 0 && (!(h.pageable || h.pinned) || h.baseVa % 0x10000 == 0) && decide (0 < h.size) &&
  (!h.twin || (h.size % 2 == 0 && !h.pageable)) && (!h.pageable || h.size % 256 == 0)

/-- A page entry of 16 bytes (R402). -/
def CertPage.parse (b : List Byte) : CertPage :=
  { obj := u8 b 0, flags := u8 b 1, view := u16 b 2, objPage := u32 b 4, first := u16 b 8, last := u16 b 0xA,
    resv := u32 b 0xC }

/-- A sync entry of 4 bytes (R404). -/
def CertSync.parse (b : List Byte) : CertSync :=
  { layer := u16 b 0, gate := u8 b 2, isSet := (u8 b 3).testBit 0, value := (u8 b 3).testBit 1, resv := u8 b 3 / 4 }

/-- A layer entry of 16 bytes (R399). -/
def CertLayer.parse (b : List Byte) : CertLayer :=
  { kind := u8 b 0, flags := u8 b 1, held := u8 b 2, resv := u8 b 3, bound := u32 b 4, firstTile := u16 b 8,
    tiles := u16 b 0xA, outLast := u16 b 0xC, resv2 := u16 b 0xE }

/-- LFLAGS (R399). -/
def CertLayer.carry (l : CertLayer) : Bool := l.flags.testBit 0
def CertLayer.streaming (l : CertLayer) : Bool := l.flags.testBit 1

/-- A certificate from its bytes: its header, page table and sync table (R397, R398, R405). -/
def Cert.parse (b : List Byte) : Cert :=
  let pc := u16 b 0x12
  let sc := u16 b 0x14
  let po := u32 b 0x44
  let so := u32 b 0x48
  { magic := u32 b 0, version := u16 b 4, layerCount := u16 b 6, fsize := u8 b 8, pw := u8 b 9, outputCount := u8 b 0xA,
    resvB := u8 b 0xB, longest := u16 b 0xC, tileCount := u16 b 0xE, slots := u16 b 0x10, pageCount := pc,
    syncCount := sc, skimLayers := u16 b 0x16, sumCyc := u64 b 0x18, sumSkim := u32 b 0x20, maxCyc := u32 b 0x24,
    maxSkim := u32 b 0x28, maxUnit := u32 b 0x2C, programVa := u64 b 0x30, scaleVa := u64 b 0x38, layerOff := u32 b 0x40,
    pageOff := po, syncOff := so, totalLength := u32 b 0x4C, resvT := u64 b 0x50 + u64 b 0x58,
    pages := (List.range (min pc 768)).map fun i => CertPage.parse (b.drop (po + 16 * i)),
    syncs := (List.range (min sc 256)).map fun i => CertSync.parse (b.drop (so + 4 * i)) }

/-- The Header check of R406. -/
def Cert.headerOk (c : Cert) : Bool :=
  c.magic == 0x54524543 && c.version == 0x0100 && c.resvB == 0 && c.resvT == 0 && decide (1 ≤ c.layerCount) &&
  decide (1 ≤ c.fsize) && decide (c.fsize ≤ 16) && decide (56 ≤ c.pw) && decide (c.pw ≤ 64) &&
  decide (c.outputCount ≤ 16) && decide (c.longest < c.layerCount) && decide (c.tileCount ≤ 4096) &&
  decide (c.slots ≤ 212) && decide (c.pageCount ≤ 768) && decide (c.syncCount ≤ 256) &&
  decide (c.skimLayers ≤ c.layerCount) && decide (c.programVa < 2 ^ 48) && decide (c.scaleVa < 2 ^ 48) &&
  c.layerOff % 8 == 0 && c.pageOff % 8 == 0 && c.syncOff % 8 == 0 && c.totalLength % 8 == 0 &&
  decide (c.totalLength ≤ 4194304) && decide (96 ≤ c.totalLength) && decide (c.layerOff + 16 * c.layerCount ≤ c.totalLength) &&
  decide (c.pageOff + 16 * c.pageCount ≤ c.totalLength) && decide (c.syncOff + 4 * c.syncCount ≤ c.totalLength)

/-- No two members of a list are equal. -/
def allDistinct : List Nat → Bool
  | [] => true
  | x :: l => !l.contains x && allDistinct l

/-- A page entry keeps R402 and R403. -/
def State.pageOk (s : State) (c : Cert) (hs : List Handle) (p : CertPage) : Bool :=
  decide (p.view < 768) && decide (p.first ≤ p.last) && decide (p.last < c.layerCount) && p.resv == 0 &&
  if p.ofJet then
    let pipe := bitsOf p.objPage 17 16
    p.flags == 0 && p.objPage < 2 ^ 18 && s.jetEn pipe && decide (p.objPage % 2 ^ 16 < s.jetCount pipe)
  else bitsOf p.flags 7 3 == 0 && !(p.weight && p.writable) &&
    if p.ofObj then
      let h := hs.getD p.obj {}
      decide (p.obj < hs.length) && h.pageable && decide ((p.objPage + 1) * 0x10000 ≤ h.bytes)
    else p.obj == 0xFF && p.objPage == 0 && !p.fill

/-- The Pages check of R406. -/
def State.pagesOk (s : State) (c : Cert) (hs : List Handle) : Bool :=
  allDistinct (c.pages.map CertPage.view) &&
  allDistinct ((c.pages.filter fun p => p.obj != 0xFF).map fun p =>
    if p.ofJet then 2 ^ 60 + p.objPage else (hs.getD p.obj {}).baseVa / 0x10000 + p.objPage) &&
  c.pages.all (s.pageOk c hs)

/-- The Syncs check of R406. -/
def Cert.syncsOk (c : Cert) : Bool := c.syncs.all fun y => decide (y.layer < c.layerCount) && decide (y.gate ≤ 63)

/-- The Program check of R406: the program's MAGIC, LAYER_COUNT and PW. -/
def State.programOk (s : State) (c : Cert) : Bool :=
  match s.vpeek c.programVa 64 with
  | some b => u32 b 0 == 0x4E4C414B && u16 b 8 == c.layerCount && u8 b 0xC == c.pw
  | none => false

/-- The certificate at an address, if its bytes can be read: the header says how many. -/
def State.readCert (s : State) (va : Nat) : Option Cert :=
  match s.vpeek va 96 with
  | none => none
  | some h =>
    match s.vpeek va (min (max 96 (u32 h 0x4C)) 4194304) with
    | none => none
    | some b => some (Cert.parse b)

/-- Every check of R406 passes. -/
def State.certOk (s : State) (f : Nat) (c : Cert) (hs : List Handle) : Bool :=
  c.headerOk && s.programOk c && c.fsize == s.ftnSize f && decide (c.maxSkim ≤ s.rf Reg.weirSkimMax F.weirSkimMax_CYCLES) &&
  s.pagesOk c hs && c.syncsOk

/-- Layer n's entry of a job's certificate (R399). -/
def State.layerEnt (s : State) (j : Job) (n : Nat) : Option CertLayer :=
  if n < j.cert.layerCount then (s.vpeek (j.certVa + j.cert.layerOff + 16 * n) 16).map CertLayer.parse else none

/-- A layer of a job's program (R264): first segment, segment count, Rill set, drain set. -/
def State.progLayer (s : State) (j : Job) (n : Nat) : Option (Nat × Nat × Nat × Nat) :=
  match s.vpeek j.cert.programVa 64 with
  | none => none
  | some h => (s.vpeek (j.cert.programVa + u32 h 0x10 + 8 * n) 8).map fun b => (u16 b 0, u16 b 2, u16 b 4, u16 b 6)

/-- A segment of a job's program (R264): its address and its bundle count. -/
def State.segment (s : State) (j : Job) (n : Nat) : Option (Nat × Nat) :=
  match s.vpeek j.cert.programVa 64 with
  | none => none
  | some h => (s.vpeek (j.cert.programVa + u32 h 0x14 + 8 * n) 8).map fun b =>
    (j.cert.programVa + u32 h 0x20 + 32 * u32 b 0, u16 b 4)

/-- A set of a job's program (R265): the bytes of the Rill set or drain set with an index. -/
def State.progSet (s : State) (j : Job) (drain : Bool) (n : Nat) : List Byte :=
  match s.vpeek j.cert.programVa 64 with
  | none => []
  | some h =>
    match s.vpeek (j.cert.programVa + u32 h (if drain then 0x1C else 0x18) + 8 * n) 8 with
    | none => []
    | some e => (s.vpeek (j.cert.programVa + u32 e 0) (u32 e 4)).getD []

end Sys2Proof.Machine
end

