-- ==== Sys2Proof/Machine/Fwp.lean ====
section
/-! DEFINITION. Sys2Proof/Machine/Fwp.lean: the firmware processors' states, and the request and response rings (spec/14
R693 to R697; spec/09 R827, R828). -/
namespace Sys2Proof.Machine

/-- Codes of FWP_STATE.STATE. -/
def Fw.down : Nat := 0
def Fw.loading : Nat := 1
def Fw.running : Nat := 2
def Fw.restarting : Nat := 3
def Fw.failed : Nat := 4

/-- The state of a firmware processor. -/
def State.fwState (s : State) (n : Nat) : Nat := s.rf (Reg.fwpState n) F.fwpState_STATE
/-- A firmware processor runs. -/
def State.fwUp (s : State) (n : Nat) : Bool := s.fwState n == Fw.running
/-- The device is READY (R697, R718). -/
def State.ready (s : State) : Bool := s.rf Reg.bootStatus F.bootStatus_READY == 1

/-! Tails (R482, R512, R695). -/

/-- The tail that a twin-encoded write gives a ring of 2^l entries, if R482 accepts it. -/
def TailQ.tailOf (q : TailQ) (l : Nat) (v : W32) : Option Nat :=
  let t := v.toNat % 65536
  if v.toNat / 65536 + t == 65535 && decide ((t + 65536 - q.head) % 65536 ≤ 2 ^ l) then some t else none

/-- A tail write is ignored: detector 0x04 counts it, with no event (R661). -/
def State.tailTwin (s : State) (unit index : Nat) : State := s.detCount ⟨4, Kind.occurrence, unit, index, false⟩

/-- A ring with a tail write taken, or ignored and counted where its halves disagree (R482, R661). -/
def TailQ.write (q : TailQ) (l : Nat) (v : W32) : TailQ :=
  match q.tailOf l v with
  | some t => { q with tail := t }
  | none => q

/-- The halves of a tail write agree. -/
def tailTwinOk (v : W32) : Bool := v.toNat / 65536 + v.toNat % 65536 == 65535

/-- The entries of a ring that wait. -/
def TailQ.waiting (q : TailQ) : Nat := (q.tail + 65536 - q.head) % 65536

/-- The ring with one more entry taken. -/
def TailQ.next (q : TailQ) : TailQ := { q with head := (q.head + 1) % 65536 }

/-! The request ring and the response ring (R693 to R697). -/

/-- LOG2 of the two rings; 0 while no ring is set. -/
def State.fwLog2 (s : State) : Nat := s.rf Reg.fwpReqRingLo F.fwpReqRingLo_LOG2
/-- The address of the request ring. -/
def State.fwReqVa (s : State) : Nat :=
  s.rf Reg.fwpReqRingLo F.fwpReqRingLo_VA * 0x1000 + s.rf Reg.fwpReqRingHi F.fwpReqRingHi_VA * 2 ^ 32
/-- The address of the response ring. -/
def State.fwRspVa (s : State) : Nat :=
  s.rf Reg.fwpRspRingLo F.fwpRspRingLo_VA * 0x1000 + s.rf Reg.fwpRspRingHi F.fwpRspRingHi_VA * 2 ^ 32

/-- Results (R694). -/
def Rs.ok : Nat := 0x00
def Rs.verifyFail : Nat := 0x30
def Rs.flashDenied : Nat := 0x31
def Rs.flashError : Nat := 0x32
def Rs.keyLocked : Nat := 0x33
def Rs.tokenBad : Nat := 0x34
def Rs.unknownCode : Nat := 0xF0
def Rs.badArg : Nat := 0xF1
def Rs.procFailed : Nat := 0xF2

/-- The processor that owns a request code (R693, R753). -/
def fwOwner (code : Nat) : Option Nat :=
  if code = 0x01 then some 3
  else if code = 0x02 then some 0
  else if 0x10 ≤ code ∧ code ≤ 0x12 then some 3
  else if code = 0x20 ∨ code = 0x21 then some 2
  else if code = 0x30 then some 1
  else if 0x40 ≤ code ∧ code ≤ 0x44 then some 4
  else if 0x50 ≤ code ∧ code ≤ 0x55 then some 0
  else if code = 0x56 then some 4
  else none

/-- A response is written (R693, R695), or lost to a translation fault (R828). A VALUE that the spec does not state is a
free value (log entry 6). -/
def State.putRsp (s : State) (code tag result : Nat) (value : Option Nat) : State :=
  let (x, s) := match value with
    | some x => (x, s)
    | none => s.draw 10
  let n := s.fwp.written
  let b := leBytes code 1 ++ leBytes result 1 ++ leBytes tag 2 ++ leBytes (n + 1) 4 ++ leBytes x 8
  let w := s.vwrite Who.fwp3 (s.fwRspVa + 16 * (n % 2 ^ s.fwLog2)) b
  if w.1 then { w.2 with fwp := { w.2.fwp with written := n + 1 } } else w.2.xlateFault 0x603

/-- A request as its 32 bytes say (R693). -/
def FwReq.parse (b : List Byte) : FwReq := ⟨u8 b 0, u16 b 2, u64 b 8, u64 b 0x10, u64 b 0x18⟩

/-- FWP3 takes a request now (R429, R696, R697). -/
def State.fwCanTake (s : State) : Bool :=
  s.ready && s.dramServes && s.fwUp 3 && decide (4 ≤ s.fwLog2) && s.fwp.req.waiting != 0 &&
  decide (s.fwp.written - s.fwp.read + s.fwp.taken.length < 2 ^ s.fwLog2)

/-- FWP3 takes the next request. One whose code has no owner is answered at once; one that cannot be read is answered with
BAD_ARG, its code and tag free values (log entry 6). -/
def State.fwTake (s : State) : State :=
  let va := s.fwReqVa + 32 * (s.fwp.req.head % 2 ^ s.fwLog2)
  let s := { s with fwp := { s.fwp with req := s.fwp.req.next } }
  match s.vread Who.fwp3 va 32 with
  | (none, s) =>
    let (c, s) := s.draw 11
    let (t, s) := s.draw 11
    (s.xlateFault 0x603).putRsp c t Rs.badArg none
  | (some (b, _), s) =>
    let r := FwReq.parse b
    match fwOwner r.code with
    | none => s.putRsp r.code r.tag Rs.unknownCode none
    | some _ => { s with fwp := { s.fwp with taken := s.fwp.taken ++ [r] } }

/-- The state with a taken request answered. -/
def State.fwAnswer (s : State) (r : FwReq) (result : Nat) (value : Option Nat) : State :=
  ({ s with fwp := { s.fwp with taken := s.fwp.taken.erase r } } : State).putRsp r.code r.tag result value

/-- Requests whose owner has failed end with PROC_FAILED (R717). -/
def State.fwSweep (s : State) : State :=
  (s.fwp.taken.filter fun r => match fwOwner r.code with
    | some p => s.fwState p == Fw.failed
    | none => false).foldl (fun s r => s.fwAnswer r Rs.procFailed none) s

/-- FWP3 takes every request that it can take (R696). -/
def State.fwPumpN : Nat → State → State
  | 0, s => s
  | n + 1, s => if s.fwCanTake then State.fwPumpN n s.fwTake.fwSweep else s

/-- FWP3 takes every request that it can take; the ring holds at most 1,024. -/
def State.fwPump (s : State) : State := State.fwPumpN 1024 s.fwSweep

/-- What a service of a request answers: its result and value, or none while the request has not completed. -/
abbrev FwResult := Option (Nat × Option Nat) × State

/-- The oldest taken request of a code is served by its owner (R693, R696), once the DRAM can take its answer (R429). -/
def State.fwServe (s : State) (code : Nat) (f : FwReq → State → FwResult) : State :=
  let s := s.fwPump
  match s.fwp.taken.find? fun r => r.code == code with
  | none => s
  | some r =>
    if s.dramServes && ((fwOwner code).map s.fwUp).getD false then
      match f r s with
      | (none, s) => s
      | (some (res, v), s) => (s.fwAnswer r res v).fwPump
    else s

/-- FWP_REQ_TAIL is written (R695). -/
def State.fwTail (s : State) (v : W32) : State :=
  if tailTwinOk v then ({ s with fwp := { s.fwp with req := s.fwp.req.write s.fwLog2 v } } : State).fwPump
  else s.tailTwin 0x19 0

/-- FWP_RSP_READ is written (R827). -/
def State.fwRspRead (s : State) (v : W32) : State :=
  let t : RingSt := consume { written := s.fwp.written, read := s.fwp.read } v
  ({ s with fwp := { s.fwp with read := t.read } } : State).fwPump

def execFwpReqTailWrite (v : W32) (s : State) := onFabric s fun s => s.fwTail v
def execFwpRspReadWrite (v : W32) (s : State) := onFabric s fun s => s.fwRspRead v
def execPing (s : State) := onFabric s fun s => s.fwServe 0x01 fun _ s => (some (Rs.ok, none), s)

end Sys2Proof.Machine
end

