-- ==== Sys2Proof/Machine/Intake.lean ====
section
/-! DEFINITION. Sys2Proof/Machine/Intake.lean: doorbells, the intake, and cancels (spec/09 R480 to R491, R517, R518), and
what a phase input tells the Weir (spec/10 R541, R547, R561). -/
namespace Sys2Proof.Machine

/-! Phase inputs, as the Weir reads them. -/

/-- A phase input. -/
def State.phase (s : State) (n : Nat) : Phase := Table.get {} s.phases n
/-- The state with a phase input set. -/
def State.setPhase (s : State) (n : Nat) (p : Phase) : State := { s with phases := Table.put {} s.phases n p }

/-- The signed difference of two positions, modulo 2^48 (R541). -/
def sdiff48 (a b : Nat) : Int := sext 48 (a + 2 ^ 48 - b % 2 ^ 48)

/-- FILT of an input: the filter length in samples (R542). -/
def State.phaseFilt (s : State) (n : Nat) : Nat := s.rf (Reg.phaseCfg n) F.phaseCfg_FILT + 1
/-- ENABLE of an input. -/
def State.phaseOn (s : State) (n : Nat) : Bool := decide (n < 9) && s.rf (Reg.phaseCfg n) F.phaseCfg_ENABLE == 1
/-- VMAX of an input. -/
def State.vmax (s : State) (n : Nat) : Nat := s.rf (Reg.phaseVmax n) F.phaseVmax_VMAX
/-- The input is an SSI encoder. -/
def isSsi (n : Nat) : Bool := n == 4 || n == 5
/-- The sample GTS of a position (R547). -/
def State.phaseSample (s : State) (n : Nat) : Nat :=
  if isSsi n then (s.phase n).sampleGts else s.gts - (s.phaseFilt n + 4) * 10

/-- The input is declared (R561); none is while detector 0x0F is off (R630). -/
def State.phaseDeclared (s : State) (n : Nat) : Bool :=
  s.phaseOn n && s.detOn 0xF && decide (1 ≤ s.vmax n) && s.rf (Reg.phaseStatus n) F.phaseStatus_OVERSPEED == 0

/-! Queues (R476, R480 to R483). -/

/-- The halves of a twin-encoded write agree (R482). -/
def twinTail (v : W32) : Bool := v.toNat / 65536 + v.toNat % 65536 == 65535

/-- A tail or cancel write is ignored (R482): it is counted by detector 0x04, with no event (R661). -/
def State.dbTwinBad (s : State) (slot q : Nat) : State :=
  (s.setQueue slot q { s.queue slot q with twinBad := true }).detCount ⟨4, Kind.occurrence, 2, slot, false⟩

/-- A doorbell write latches; where 256 are latched it replaces the newest (R483). -/
def Queue.latch (x : Queue) (tail : Nat) : Queue :=
  if x.doorbells.length < 256 then { x.setTail tail with doorbells := x.doorbells ++ [tail] }
  else { x.setTail tail with doorbells := x.doorbells.dropLast ++ [tail], coalesced := true }

/-- Latched doorbells that cover no descriptor any more leave their latch (R483). -/
def Queue.settle (x : Queue) : Queue :=
  { x with doorbells := x.doorbells.dropWhile fun t =>
      let d := (t + 65536 - x.head) % 65536; d == 0 || decide (2 ^ x.log2 < d) }

/-- A queue pointer fails its twin check: the queue stops, and a TWIN event of KIND 0 is raised (R453, R498, R661). -/
def State.pointerTwin (s : State) (slot q : Nat) (inj : Bool) : State :=
  let s := s.setQueue slot q { s.queue slot q with stopped := true }
  (s.occur ⟨4, Kind.occurrence, 2, slot, inj⟩).raiseDev 0 Ev.twin (slot * 256 + q)

/-- A use of the pointers of a queue that has not stopped, with the injection that it may meet: whether they pass their twin
check (R453, R642, R830). -/
def State.usePointers (s : State) (slot q : Nat) : Bool × State :=
  let (err, s) := s.inject 2 0 3 (slot * 256 + q)
  let x := s.queue slot q
  let x := if err.isSome then { x with headC := x.head } else x
  let s := s.setQueue slot q x
  if x.twinOk then (true, s) else (false, s.pointerTwin slot q err.isSome)

/-- A tail is written to the doorbell page of a queue (R482). -/
def State.ringDoorbell (s : State) (slot q : Nat) (v : W32) : State :=
  let tail := v.toNat % 65536
  if !twinTail v then s.dbTwinBad slot q
  else if (s.queue slot q).stopped then s
  else match s.usePointers slot q with
    | (false, s) => s
    | (true, s) =>
      let x := s.queue slot q
      if 2 ^ x.log2 < (tail + 65536 - x.head) % 65536 then s.setQueue slot q { x with twinBad := true }
      else s.setQueue slot q (x.latch tail).settle

/-! Taking a descriptor (R484 to R486). -/

/-- The room of a context's completion ring beyond the records held back (R486). -/
def Ctx.cplRoom (c : Ctx) : Nat := 2 ^ c.cplLog2 - (c.cpl.written - c.cpl.read) - c.cplHeld

/-- The queued jobs of a context, of one class. -/
def State.queuedOf (s : State) (slot : Nat) (guar : Bool) : Nat :=
  (s.weir.intake.filter fun i => i.slot == slot && i.desc.guar == guar).length +
  (s.pendingJobs.filter fun j => j.slot == slot && j.guar == guar).length

/-- What the LPL-3020 profile makes of a descriptor (R518). -/
def State.profileDesc (s : State) (d : Desc) : Desc :=
  if s.legacy then
    { d with ctxId := 0, queue := 0, dflags := 4 * s.replayDefault, fountain := 0, phaseInput := 0, deadline := 0,
             deadlineC := 2 ^ 64 - 1 }
  else d

/-- The address of a queue's next descriptor (R481). -/
def Queue.nextVa (x : Queue) : Nat := x.ringVa + 128 * (x.head % 2 ^ x.log2)

/-- A queue has a descriptor to take. -/
def State.hasWork (s : State) (slot q : Nat) : Bool :=
  let x := s.queue slot q
  s.pageOpen slot q && !x.stopped && !x.doorbells.isEmpty

/-- R486 holds a queue's next descriptor back. -/
def State.heldBack (s : State) (slot q : Nat) : Bool :=
  let c := s.ctx slot
  decide (c.cplRoom < 2) ||
  match s.vpeek (s.queue slot q).nextVa 128 with
  | some b =>
    let d := s.profileDesc (Desc.parse b)
    if d.guar then decide (c.guarMax ≤ s.queuedOf slot true) else decide (c.beMax ≤ s.queuedOf slot false)
  | none => false

/-- The queue that FWP3 serves next: in turn, in ascending order of slot and queue, after the one it served last (R483). -/
def State.nextQueue (s : State) : Option Nat :=
  let n := s.weir.lastServed + 1
  ((List.range 384).map fun i => (n + i) % 384).find? fun k => s.hasWork (k / 8) (k % 8) && !s.heldBack (k / 8) (k % 8)

/-- The handle list of a descriptor (R473): whether it could be read, and the entries. -/
def State.handleList (s : State) (d : Desc) : Bool × List Nat × State :=
  if d.handleCount ≤ 20 then (true, d.handles.take d.handleCount, s)
  else match s.vread Who.fwp3 d.listVa (4 * d.handleCount) with
    | (some (b, _), s) => (true, (List.range d.handleCount).map fun i => u32 b (4 * i), s)
    | (none, s) => (false, [], s.xlateFault 0x603)

/-- A descriptor enters the intake (R484, R474). -/
def State.takeIn (s : State) (slot q : Nat) (b : List Byte) : State :=
  let d := s.profileDesc (Desc.parse b)
  let x := s.queue slot q
  let (ok, hs, s) := s.handleList d
  let item : Intake := { slot := slot, queue := q, ringCount := x.head, gts := s.gts, desc := d,
                         handles := hs.map s.readHandle, listOk := ok }
  let s := { s with weir := { s.weir with intake := s.weir.intake ++ [item], lastServed := 8 * slot + q } }
  let s := s.setQueue slot q (x.setHead (x.head + 1)).settle
  s.setCtx slot { s.ctx slot with cplHeld := (s.ctx slot).cplHeld + 2 }

/-- DESCRIPTOR_TAKEN: FWP3 moves the next descriptor into the Weir's intake (R483 to R486). -/
def State.takeDescriptor (s : State) : State :=
  if !s.fwUp 3 ∨ 64 ≤ s.weir.intake.length ∨ 65536 ≤ s.queuedCount then s else
  match s.nextQueue with
  | none => s
  | some k =>
    let slot := k / 8
    let q := k % 8
    match s.usePointers slot q with
    | (false, s) => s
    | (true, s) =>
      match s.vread Who.fwp3 (s.queue slot q).nextVa 128 with
      | (some (b, _), s) => s.takeIn slot q b
      | (none, s) => s.xlateFault 0x603

/-! Cancels (R488, R489). -/

/-- A pending job is to end with CANCELLED as the present cycle ends: a commit, a breach or a fault of the same cycle that ends
it comes before (R69, R489). -/
def State.markCancel (s : State) (id : Nat) : State := s.modJob id fun j => { j with cancelAt := some s.gts }

/-- As a cycle ends, the jobs cancelled in it that are still pending end (R489). -/
def State.cancelDue (s : State) : State :=
  s.endAll ((s.pendingJobs.filter fun j => j.cancelAt.isSome).map fun j => (j.id, St.cancelled, j.lastDet))

/-- CANCEL is written: the named job ends with CANCELLED as the cycle ends, is marked for it before its decision, or the write is
ignored. -/
def State.cancel (s : State) (slot q : Nat) (v : W32) : State :=
  let n := v.toNat % 65536
  if !twinTail v then s.dbTwinBad slot q else
  match s.pendingJobs.find? fun j => j.slot == slot && j.queue == q && j.ringCount == n with
  | some j => s.markCancel j.id
  | none =>
    if s.weir.intake.any fun i => i.slot == slot && i.queue == q && i.ringCount == n then
      { s with weir := { s.weir with intake := s.weir.intake.map fun i =>
          if i.slot == slot && i.queue == q && i.ringCount == n then { i with cancelled := true } else i } }
    else s.setQueue slot q { s.queue slot q with cancelIgnored := true }

/-! Meanings. -/

def execSqTailWrite (page : Nat) (v : W32) (s : State) :=
  onFabric s (guarded (!s.legacy && s.pageOpen (page / 8) (page % 8)) fun s => s.ringDoorbell (page / 8) (page % 8) v)
def execLsqTailWrite (v : W32) (s : State) :=
  onFabric s (guarded (s.legacy && s.pageOpen 0 0) fun s => s.ringDoorbell 0 0 v)

end Sys2Proof.Machine
end

