-- ==== Sys2Proof/Machine/Admission.lean ====
section
/-! DEFINITION. Sys2Proof/Machine/Admission.lean: the admission test (spec/08 R407 to R426, spec/01 R20 to R34, R50): the
demand of a job, the parts of a job that waits, the rows of the test, the counter-offer, and the decision. -/
namespace Sys2Proof.Machine

/-! Demand (R407 to R410). -/

/-- WEIR_SKIM_MAX in force. -/
def State.skimMax (s : State) : Nat := s.rf Reg.weirSkimMax F.weirSkimMax_CYCLES
/-- WEIR_BE_MAX of a Fountain, in ns. -/
def State.beMaxNs (s : State) (f : Nat) : Nat := 1000 * s.rf (Reg.weirBeMax f) F.weirBeMax_US

/-- The replay charge of R408. -/
def State.replayCharge (s : State) (c : Cert) : Nat := max (s.floorNs c.maxCyc) c.maxSkim + 4000

/-- The demand of a certificate with a replay reserve (R409). -/
def State.demand (s : State) (c : Cert) (reserve : Nat) : Nat :=
  s.floorNs c.sumCyc + c.sumSkim + c.skimLayers * 4 * s.skimMax + reserve * s.replayCharge c

/-- The layer of a job that runs on an engine, if it is not stopped for a replay. -/
def State.runningOf (s : State) (id e : Nat) : Option LayerRun :=
  match s.runOf e with
  | some r => if r.job == id && r.stoppedAt.isNone then some r else none
  | none => none

/-- The cycles that the layer running on a Fountain may still take: BOUND − 96 less FTN_CYCLES (R410). -/
def State.ftnLeft (s : State) (f : Nat) (r : LayerRun) : Nat := r.ent.bound - 96 - s.rn (Reg.ftnCycles f)

/-- The cycles that the Skimmer's layer may still take: BOUND − 64 less SKIM_CYCLES (R410). -/
def State.skimLeft (s : State) (r : LayerRun) : Nat := r.ent.bound - 64 - s.rn Reg.skimCycles

/-- What is left of a job, or of a part of it: Cascade cycles of the layers on a Fountain and of the others, Skimmer cycles,
Skimmer layers (R410). -/
structure Work where
  cycRun : Nat := 0
  cyc : Nat := 0
  skim : Nat := 0
  waits : Nat := 0
deriving DecidableEq, Repr

/-- The layers of a job on its Fountain, each with its BOUND and the cycles that it may still take: the layer that runs, and one
whose commit its dispatch overlaps (R410, R411). -/
def State.ftnRuns (s : State) (j : Job) : List (Nat × Nat × Nat) :=
  (match (s.ftn j.fountain).ovl with
   | some o => if o.run.job = j.id then [(o.run.layer, o.run.ent.bound, o.run.ent.bound - 96 - o.cycles)] else []
   | none => []) ++
  (match s.runningOf j.id j.fountain with
   | some r => [(r.layer, r.ent.bound, s.ftnLeft j.fountain r)]
   | none => [])

/-- The layer of a job that runs on the Skimmer, in the same form. -/
def State.skimRuns (s : State) (j : Job) : List (Nat × Nat × Nat) :=
  match s.runningOf j.id Eng.skim with
  | some r => [(r.layer, r.ent.bound, s.skimLeft r)]
  | none => []

/-- The BOUNDs of a list of running layers. -/
def boundsOf (l : List (Nat × Nat × Nat)) : Nat := (l.map fun r => r.2.1).sum
/-- The cycles that a list of running layers may still take. -/
def leftOf (l : List (Nat × Nat × Nat)) : Nat := (l.map fun r => r.2.2).sum

/-- The work left of a whole job, from its header and the figures that R405 has checked (R410). A Skimmer layer that runs has
not committed, so its wait still counts. -/
def State.workLeft (s : State) (j : Job) : Work :=
  { cyc := j.cert.sumCyc - j.cycSum - boundsOf (s.ftnRuns j), cycRun := leftOf (s.ftnRuns j),
    skim := j.cert.sumSkim - j.skimSum - boundsOf (s.skimRuns j) + leftOf (s.skimRuns j),
    waits := j.cert.skimLayers - j.skimSeen }

/-- The work of the layers from a to b − 1 that do not run, by the layer table (log entry 19). -/
def State.workOf (s : State) (j : Job) (a b : Nat) : Work :=
  ((List.range (b - a)).map fun i => s.layerEnt j (a + i)).foldl (fun w l => match l with
    | some e => if e.kind = 1 then { w with cyc := w.cyc + e.bound }
        else { w with skim := w.skim + e.bound, waits := w.waits + 1 }
    | none => w) {}

/-- The time of work at the floor. -/
def State.workNs (s : State) (w : Work) : Nat :=
  s.floorNs (w.cyc + w.cycRun) + w.skim + w.waits * 4 * s.skimMax

/-! Entries and parts (R413, R414). -/

/-- An entry of the test, or a part of one: `unit`: MAX_UNIT at the floor, if it has Fountain layers still to run; `runs`:
the layer running on the Fountain belongs to it; `isB`: it is a part B; `isNew`: it belongs to the job under test. -/
structure Entry where
  deadline : Nat
  release : Nat
  load : Nat
  unit : Nat
  runs : Bool := false
  isB : Bool := false
  isNew : Bool := false
deriving DecidableEq, Repr

/-- The first layer of a certificate that lists a wait. -/
def Cert.firstWait (c : Cert) : Option Nat :=
  ((c.syncs.filter fun y => !y.isSet).map CertSync.layer).min?

/-- The entries of a job (R414): one, or part A up to its first waiting layer and part B from there. A job's replay reserve
stands in its last part; a part B that is the job's first part is not released before the job is (R418; log entry 97). -/
def State.entriesOf (s : State) (j : Job) (isNew : Bool) : List Entry :=
  let all := s.workLeft j
  let reserve := (j.reserve - j.replays) * s.replayCharge j.cert
  let unit := s.floorNs j.cert.maxUnit
  let runs := s.ftnRuns j
  match j.cert.firstWait with
  | none => [{ deadline := j.deadline, release := j.release, load := s.workNs all + reserve,
               unit := if 0 < all.cyc then unit else 0, runs := !runs.isEmpty, isNew := isNew }]
  | some w =>
    let inA := fun (r : Nat × Nat × Nat) => decide (r.1 < w)
    let rest := s.workOf j (s.firstWaiting j) w
    let skA := (s.skimRuns j).filter inA
    let a : Work := { rest with cycRun := leftOf (runs.filter inA), skim := rest.skim + leftOf skA,
                                waits := rest.waits + skA.length }
    let b : Work := { cyc := all.cyc - a.cyc, cycRun := all.cycRun - a.cycRun, skim := all.skim - a.skim,
                      waits := all.waits - a.waits }
    let partA : List Entry := if s.workNs a = 0 then [] else
      [{ deadline := j.partBDeadline, release := j.release, load := s.workNs a,
         unit := if 0 < a.cyc then unit else 0, runs := runs.any inA, isNew := isNew }]
    partA ++ [{ deadline := j.deadline, release := if w = 0 then max j.partBDeadline j.release else j.partBDeadline,
                load := s.workNs b + reserve, unit := if 0 < b.cyc then unit else 0,
                runs := runs.any fun r => !inA r, isB := true, isNew := isNew }]

/-- An entry is placed after every entry whose deadline is not later than its own (R421). -/
def placeEntry (e : Entry) : List Entry → List Entry
  | [] => [e]
  | x :: l => if x.deadline ≤ e.deadline then x :: placeEntry e l else e :: x :: l

/-- Entries in order of deadline, then of acceptance (R421). -/
def orderEntries (l : List Entry) : List Entry := l.foldl (fun o e => placeEntry e o) []

/-- The pending guaranteed entries and parts of a Fountain, in order. -/
def State.entriesOn (s : State) (f : Nat) : List Entry :=
  orderEntries ((s.guarJobs.filter fun j => j.fountain == f).flatMap fun j => s.entriesOf j false)

/-! Rows (R421 to R423). -/

/-- What a test knows beside its entries: the GTS at which it begins, the remaining time at the floor of the layer running on
the Fountain, whether that layer is best-effort, WEIR_BE_MAX, and what a pending maintenance window adds. -/
structure TestCtx where
  t : Nat
  tail : Nat
  beRuns : Bool
  beMax : Nat
  maint : Nat
  plain : Bool := false
deriving DecidableEq, Repr

/-- The layer of a best-effort job. -/
def State.beLayer (s : State) (r : LayerRun) : Bool :=
  match s.job? r.job with
  | some j => !j.guar
  | none => false

/-- The context of a test on a Fountain. While a dispatch overlaps a commit, both layers count as running (log entry 132). -/
def State.testCtx (s : State) (f : Nat) : TestCtx :=
  let r := match (s.ftn f).run with
    | some r => if r.stoppedAt.isNone then some r else none
    | none => none
  let o := (s.ftn f).ovl
  { t := s.gts
    tail := s.floorNs ((match r with
        | some r => s.ftnLeft f r
        | none => 0) + match o with
        | some o => o.run.ent.bound - 96 - o.cycles
        | none => 0)
    beRuns := (match r with
      | some r => s.beLayer r
      | none => false) || match o with
      | some o => s.beLayer o.run
      | none => false
    beMax := s.beMaxNs f
    maint := if s.weir.maintPending || s.weir.maintStart.isSome then 40000 else 0 }

/-- The release of an entry in a test that begins at t: one released before counts as released at t. -/
def Entry.rel (e : Entry) (t : Nat) : Nat := max t e.release

/-- The release points of a list of entries (R421). -/
def points (t : Nat) (l : List Entry) : List Nat := t :: ((l.map (Entry.rel · t)).filter fun r => t < r)

/-- load(r, k): the demands of the entries up to k that are released at or after r (R421). -/
def loadAt (t r : Nat) (upto : List Entry) : Nat := ((upto.filter fun e => r ≤ e.rel t).map Entry.load).sum

/-- block(k): the largest of the three terms of R422. -/
def blockOf (c : TestCtx) (after : List Entry) : Nat :=
  max (max (if c.beRuns || after.any Entry.runs then c.tail else 0) ((after.map Entry.unit).foldl max 0)) c.beMax

/-- extra of a row (R423). -/
def extraOf (c : TestCtx) (r : Nat) (upto all : List Entry) : Nat :=
  if c.plain then c.maint else
  (if upto.any fun e => e.isNew && decide (r ≤ e.rel c.t) then 20000 else 0) + c.maint +
  (if all.any fun e => e.isB && e.rel c.t == r then 1000 else 0)

/-- The left side of a row, or none where its load is 0 and it is skipped (R421). -/
def rowLhs (c : TestCtx) (all : List Entry) (r k : Nat) : Option Nat :=
  let upto := all.take (k + 1)
  let load := loadAt c.t r upto
  if load = 0 then none else some (r + extraOf c r upto all + blockOf c (all.drop (k + 1)) + load)

/-- The row (r, k) passes. -/
def rowOk (c : TestCtx) (all : List Entry) (r : Nat) (k : Nat) (e : Entry) : Bool :=
  decide (e.deadline < r) || match rowLhs c all r k with
    | some l => decide (l ≤ e.deadline)
    | none => true

/-- The test passes: every row does (R421). -/
def testPasses (c : TestCtx) (all : List Entry) : Bool :=
  (points c.t all).all fun r => (all.zipIdx).all fun p => rowOk c all r p.2 p.1

/-! The counter-offer (R425). -/

/-- The rows of every entry but the one at place k pass. -/
def othersPass (c : TestCtx) (all : List Entry) (k : Nat) : Bool :=
  (points c.t all).all fun r => (all.zipIdx).all fun p => p.2 == k || rowOk c all r p.2 p.1

/-- The least deadline, from d up, that every row of place k allows. -/
def leastDeadline (c : TestCtx) (all : List Entry) (k d : Nat) : Nat :=
  let rs := points c.t all
  (List.range rs.length).foldl (fun d _ => rs.foldl (fun d r =>
    if d < r then d else match rowLhs c all r k with
      | some l => max d l
      | none => d) d) d

/-- The deadline that a place gives the new job, if one lies within the place's interval; none lies before the test. `fixed` are the other entries in
order, `e` the new job's last part. -/
def placeDeadline (c : TestCtx) (fixed : List Entry) (e : Entry) (k : Nat) : Option Nat :=
  let all := fixed.take k ++ e :: fixed.drop k
  let lo := match (fixed.take k).getLast? with
    | some x => x.deadline
    | none => 0
  if !othersPass c all k then none else
  let d := leastDeadline c all k (max lo c.t)
  match (fixed.drop k).head? with
  | some x => if d < x.deadline then some d else none
  | none => some d

/-- The earliest deadline at which the test would pass, before rounding (R425). -/
def counterOffer (c : TestCtx) (fixed : List Entry) (e : Entry) : Option Nat :=
  ((List.range (fixed.length + 1)).filterMap (placeDeadline c fixed e)).min?

/-- A value rounded up to a whole µs. -/
def ceilUs (n : Nat) : Nat := ceilDiv n 1000 * 1000

/-! Resources (R417 to R419). -/

/-- The entries of a job that count as pages of the Cistern pools (R403). -/
def Job.ownPages (j : Job) : List CertPage := j.cert.pages.filter fun p => !p.ofJet

/-- A number for what a page entry of a job names, one for each distinct page. -/
def Job.pageId (j : Job) (p : CertPage) : Nat := if p.ofObj then j.vpage p else 2 ^ 40 + j.id * 1024 + p.view

/-- The distinct pages that a list of jobs lists. -/
def pageIds (js : List Job) : List Nat := (js.flatMap fun j => j.ownPages.map j.pageId).eraseDups

/-- The job's pages that are not RESIDENT, and would not return to RESIDENT without a fill as the job lists them (R312; log
entry 100). -/
def State.absentPages (s : State) (j : Job) : List CertPage :=
  j.ownPages.filter fun p => !s.residentFor j p && !s.keptClean j p

/-- The slots that a list of jobs holds. -/
def slotsOf (js : List Job) : Nat := (js.map fun j => j.cert.slots).sum

/-- R417 holds at a time x, when the pending jobs of a later deadline hold their slots and pages. -/
def State.fitsAt (s : State) (j : Job) (x : Nat) : Bool :=
  let held := s.guarJobs.filter fun k => x < k.deadline
  decide (s.inlineTotal + slotsOf held + j.cert.slots ≤ s.slotCap) &&
  decide (slotsOf (held.filter fun k => k.slot == j.slot) + j.cert.slots ≤ s.ctxSlotLimit) &&
  decide ((pageIds held).length + (s.absentPages j).length ≤ s.guarPageLimit)

/-- The start time s of a new job (R417). -/
def State.startTime (s : State) (j : Job) : Nat :=
  ((s.gts :: ((s.guarJobs.map Job.deadline).filter fun d => s.gts < d)).filter (s.fitsAt j)).min?.getD s.gts

/-- The release of a new job's first part (R418). -/
def State.firstRelease (s : State) (j : Job) : Nat :=
  let n := ((s.absentPages j).filter CertPage.fill).length
  s.startTime j + if n = 0 then 0 else ceilDiv (n * 64000) j.cert.slots + 2000

/-- A reason MEMORY applies (R419). -/
def State.memoryRefused (s : State) (j : Job) : Bool :=
  decide (s.slotCap < j.cert.slots + s.inlineTotal) || decide (s.ctxSlotLimit < j.cert.slots) ||
  decide (s.guarPageLimit < j.ownPages.length) || (j.cert.slots == 0 && (s.absentPages j).any CertPage.fill)

/-- A best-effort job's layer lists more pages than best-effort work may hold (R426). -/
def State.beMemoryRefused (s : State) (j : Job) : Bool :=
  j.ownPages.any fun p => decide (s.beLimit < (j.ownPages.filter fun q => q.first ≤ p.first && p.first ≤ q.last).length)

/-! Grants (R420). -/

/-- The Weir grants slots and pages in order of acceptance, a job that still waits holding its place (R420). -/
def State.grantStep (r : List Job × State) (j : Job) : List Job × State :=
  let (before, s) := r
  if j.granted then (before ++ [j], s) else
  let fits := decide (s.inlineTotal + slotsOf before + j.cert.slots ≤ s.slotCap) &&
    decide (slotsOf (before.filter fun k => k.slot == j.slot) + j.cert.slots ≤ s.ctxSlotLimit) &&
    decide ((pageIds before).length + ((s.absentPages j).filter fun p => !(pageIds before).contains (j.pageId p)).length ≤
      s.guarPageLimit)
  (before ++ [j], if fits then s.modJob j.id fun k => { k with granted := true } else s)

/-- Every grant that is possible now is made. -/
def State.grantAll (s : State) : State := ((s.weir.jobs.filter fun j => j.guar).foldl State.grantStep ([], s)).2

/-! Producers (R413). -/

/-- The producer of a wait: the pending guaranteed job accepted last that sets the flag to the value, and its layer. -/
def State.producer (s : State) (y : CertSync) : Option (Nat × Nat) :=
  (s.guarJobs.reverse.filterMap fun j =>
    (j.cert.syncs.find? fun z => z.isSet && z.gate == y.gate && z.value == y.value).map fun z => (j.id, z.layer)).head?

/-- The producers of a certificate's waits, or none where a wait has no producer. -/
def State.producers (s : State) (c : Cert) : Option (List (Nat × Nat × Nat × Bool)) :=
  (c.syncs.filter fun y => !y.isSet).foldr (fun y r => match r, s.producer y with
    | some l, some (id, layer) => some ((id, layer, y.gate, y.value) :: l)
    | _, _ => none) (some [])

/-! Deadlines (R31 to R34, R562). -/

/-- A phase deadline at GTS t₀ = now: whether the target is passed, and the converted deadline. -/
def State.convertPhase (s : State) (n target : Nat) : Bool × Nat × Bool :=
  let v := s.vmax n
  let diff := sdiff48 target (s.phase n).pos
  let m := ceilDiv (v * (s.gts - s.phaseSample n)) 1000000000
  let d := diff.natAbs - m
  (d == 0, s.gts + d * 1000000000 / v, decide (0 < diff))

/-! Reasons (R25, R424, R491). -/

def Rs.schedule : Nat := 0x20
def Rs.width : Nat := 0x21
def Rs.pendingFull : Nat := 0x22
def Rs.memory : Nat := 0x23
def Rs.horizon : Nat := 0x24
def Rs.belowFloor : Nat := 0x25
def Rs.descInvalid : Nat := 0x26
def Rs.descTwin : Nat := 0x27
def Rs.producer : Nat := 0x28
def Rs.phasePassed : Nat := 0x29

/-- A descriptor keeps the rules of R25, R490 and R491 that do not need its certificate. -/
def State.descOk (s : State) (i : Intake) : Bool :=
  let d := i.desc
  d.resv == 0 && d.dflags / 32 == 0 && decide (d.replay ≤ 4) && decide (d.fountain < 4) &&
  d.ctxId == (s.ctx i.slot).ctxId && d.queue == i.queue && decide (d.handleCount ≤ 254) && d.certVa % 8 == 0 &&
  (if d.handleCount ≤ 20 then d.listVa == 0 && (d.handles.drop d.handleCount).all (· == 0)
   else d.listVa % 4 == 0 && d.handles.all (· == 0)) &&
  (if d.phase then d.guar && decide (d.phaseInput ≤ 8) && s.phaseDeclared d.phaseInput &&
      (d.deadline / 2 ^ 47 == 0 || d.deadline / 2 ^ 47 == 2 ^ 17 - 1)
   else d.phaseInput == 0 && (!d.guar || d.deadline != 0)) &&
  i.listOk && i.handles.all Handle.ok

/-- The certificate is found, and passes R406 and R491 (R398 to R406). -/
def State.certFound (s : State) (i : Intake) (c : Cert) : Bool :=
  s.certOk i.desc.fountain c i.handles && decide (c.outputCount ≤ i.desc.handleCount) &&
  (c.tileCount == 0 || (s.queue i.slot i.queue).progressVa != 0)

/-- The Weir reads a certificate and its program's header (R405, R406); a translation fault raises XLATE_FAULT (R462). -/
def State.loadCert (s : State) (va : Nat) : Option Cert × State :=
  match s.vread Who.walker va 96 with
  | (none, s) => (none, s.xlateFault 0x610)
  | (some (h, _), s) =>
    match s.vread Who.walker va (min (max 96 (u32 h 0x4C)) 4194304) with
    | (none, s) => (none, s.xlateFault 0x610)
    | (some (b, _), s) =>
      let c := Cert.parse b
      match s.vread Who.walker c.programVa 64 with
      | (none, s) => (some c, s.xlateFault 0x610)
      | (some _, s) => (some c, s)

/-- The Cascade runs below the guarantee floor, or guaranteed work is refused for it (R25, R64, R664). -/
def State.belowFloor (s : State) : Bool :=
  decide (s.floorOp < s.pwr.op) || s.weir.floorBreach || s.weir.clocksBad

/-! The decision. -/

/-- What a test answers: the reason (0 for an acceptance), the counter-offer, and the job as it would stand. -/
structure Decision where
  reason : Nat
  offer : Nat := 0
  job : Job
deriving DecidableEq, Repr

/-- The job that a descriptor asks for. -/
def State.newJob (s : State) (i : Intake) (c : Cert) : Job :=
  let q := s.queue i.slot i.queue
  { id := s.weir.nextId, slot := i.slot, queue := i.queue, ringCount := i.ringCount, ctxId := (s.ctx i.slot).ctxId,
    cookie := i.desc.cookie, guar := i.desc.guar, fountain := i.desc.fountain, deadline := i.desc.deadline,
    reserve := i.desc.replay, certVa := i.desc.certVa, cert := c, handles := i.handles, submitGts := i.gts,
    acceptGts := s.gts, release := s.gts,
    progressVa := if c.tileCount = 0 then 0 else q.progressVa + 512 * (i.ringCount % 2 ^ q.log2) }

/-- The Weir decides a best-effort job (R26, R426). -/
def State.decideBe (s : State) (i : Intake) (c : Option Cert) : Decision :=
  let j := s.newJob i (c.getD {})
  let found := match c with
    | some c => s.certFound i c
    | none => false
  if !i.desc.twinOk then ⟨Rs.descTwin, 0, j⟩
  else if !s.descOk i || !found then ⟨Rs.descInvalid, 0, j⟩
  else if s.ftnWidth i.desc.fountain < j.cert.pw then ⟨Rs.width, 0, j⟩
  else if s.beMemoryRefused j then ⟨Rs.memory, 0, j⟩
  else ⟨0, 0, j⟩

/-- The demand-bound test of a job whose other conditions hold (R421, R424, R425). -/
def State.decideTest (s : State) (j : Job) : Decision :=
  let limit := j.submitGts + 1000 * s.horizonUs
  if limit < j.deadline then ⟨Rs.horizon, 0, j⟩ else
  let c := s.testCtx j.fountain
  let others := s.entriesOn j.fountain
  let own := s.entriesOf j true
  let all := own.foldl (fun o e => placeEntry e o) others
  if testPasses c all then ⟨0, 0, j⟩ else
  match own.getLast? with
  | none => ⟨0, 0, j⟩
  | some e =>
    let fixed := own.dropLast.foldl (fun o x => placeEntry x o) others
    match counterOffer c fixed e with
    | none => ⟨Rs.horizon, 0, j⟩
    | some d => if ceilUs d ≤ limit then ⟨Rs.schedule, ceilUs d, j⟩ else ⟨Rs.horizon, 0, j⟩

/-- The Weir decides a guaranteed job whose descriptor and certificate are good, in the order of R424. -/
def State.decideGuar (s : State) (i : Intake) (c : Cert) : Decision :=
  let j := s.newJob i c
  let conv := s.convertPhase i.desc.phaseInput i.desc.deadline
  let j := if i.desc.phase then
      { j with deadline := conv.2.1
               phase := some { input := i.desc.phaseInput, target := i.desc.deadline % 2 ^ 48, up := conv.2.2 } }
    else j
  if s.ftnWidth j.fountain < c.pw then ⟨Rs.width, 0, j⟩
  else if 256 ≤ s.guarJobs.length then ⟨Rs.pendingFull, 0, j⟩
  else if s.belowFloor then ⟨Rs.belowFloor, 0, j⟩
  else if i.desc.phase && conv.1 then ⟨Rs.phasePassed, 0, j⟩
  else match s.producers c with
    | none => ⟨Rs.producer, 0, j⟩
    | some ps =>
      if s.memoryRefused j then ⟨Rs.memory, 0, j⟩ else
      let p := (ps.map fun x => match s.pending? x.1 with
        | some k => k.deadline
        | none => 0).foldl max 0
      s.decideTest { j with producers := ps, partBDeadline := p, release := s.firstRelease j }

/-- The Weir decides the job of a descriptor. -/
def State.verdict (s : State) (i : Intake) (c : Option Cert) : Decision :=
  if !i.desc.guar then s.decideBe i c else
  let bad := s.newJob i (c.getD {})
  if !i.desc.twinOk then ⟨Rs.descTwin, 0, bad⟩
  else match c with
    | none => ⟨Rs.descInvalid, 0, bad⟩
    | some k => if s.descOk i && s.certFound i k then s.decideGuar i k else ⟨Rs.descInvalid, 0, bad⟩

/-- The status of a decision (R25). -/
def statusOf (reason : Nat) : Nat :=
  if reason = 0 then St.accepted else if reason = Rs.schedule then St.refusedSchedule
  else if reason = Rs.width then St.refusedWidth else St.refusedResource

/-- The DEADLINE field of a decision record (R492): none is stated for a phase deadline that was never converted, so that
one is a free value (log entry 6). -/
def State.recordDeadline (s : State) (i : Intake) (d : Decision) : Nat × State :=
  if i.desc.phase && d.job.phase.isNone then
    let (v, s) := s.draw 2
    (v % 2 ^ 64, s)
  else (d.job.deadline, s)

/-- WEIR_LAST_TEST after a test: its length, at most 19,900 ns (R426), is a free value. -/
def State.noteTest (s : State) (f reason : Nat) : State :=
  let (v, s) := s.draw 3
  ((s.wf Reg.weirLastTest F.weirLastTest_REASON reason).wf Reg.weirLastTest F.weirLastTest_FOUNTAIN f).wf
    Reg.weirLastTest F.weirLastTest_DURATION_NS (v % 19901)

/-- A twin check on a job's deadline entry or admission decision fails: the job ends with cause TWIN (R59, R661). -/
def State.jobTwinFail (s : State) (id : Nat) (inj : Bool) : State :=
  let f := match s.pending? id with
    | some j => j.fountain
    | none => 0
  (s.safetyTwin 2 f inj).breach id Br.twin

/-- The deadline entries are compared: every job whose entry is in mismatch ends (R661). -/
def State.checkEntries (s : State) : State :=
  ((s.guarJobs.filter fun j => !j.twinOk).map Job.id).foldl (fun s id => s.jobTwinFail id true) s

/-- The memory code of the Weir tables (R643). -/
def Mc.weir : Nat := 0x0B

/-- A word of the Weir tables is written and read back under the injection of R642: whether it is uncorrectable, which is
handled as a twin mismatch of its entry (R643). -/
def State.weirWord (s : State) : Bool × State :=
  match s.inject 0x17 0 1 (Mc.weir * 256) with
  | (none, s) => (false, s)
  | (some e, s) =>
    if e = 1 then (false, s.occur ⟨1, Kind.corrected, Mc.weir, 0, true⟩)
    else (true, (s.occur ⟨1, Kind.uncorrectable, Mc.weir, 0, true⟩).logUe Mc.weir 0)

/-- An accepted job enters the Weir (R23, R420, R495); its bitmap is zeroed first. What FREE pages still hold of its pages
returns to RESIDENT (R308, R312). -/
def State.accept (s : State) (j : Job) : State :=
  let s := if j.progressVa = 0 then s else
    let w := s.vwrite Who.walker j.progressVa (List.replicate 512 0#8)
    if w.1 then w.2 else w.2.xlateFault 0x610
  let (bad, s) := if j.guar then
      let r := s.inject 2 0 1 0
      let w := r.2.weirWord
      (r.1.isSome || w.1, w.2)
    else (false, s)
  { s with weir := { s.weir with jobs := s.weir.jobs ++ [{ j with twinOk := !bad }], nextId := s.weir.nextId + 1 } }.revive j

/-- The decision record of a descriptor (R21, R492). -/
def State.decisionRecord (s : State) (i : Intake) (d : Decision) : State :=
  let (dl, s) := s.recordDeadline i d
  s.putCpl i.slot
    { status := statusOf d.reason, kind := 1, fault := d.reason, ringCount := i.ringCount, queue := i.queue,
      fountain := i.desc.fountain, cookie := i.desc.cookie, gts := s.gts, offer := d.offer, deadline := dl }

/-- A decision takes effect: the record, the job, its grants, and a cancel that came before it (R486, R488). -/
def State.conclude (s : State) (i : Intake) (d : Decision) : State :=
  let s := if d.reason = 0 then s.accept d.job else s
  let s := s.decisionRecord i d
  let c := s.ctx i.slot
  let s := s.setCtx i.slot { c with cplHeld := c.cplHeld - (if d.reason = 0 then 1 else 2) }
  let (bad, s) := s.inject 2 0 2 0
  let s := if bad.isSome && !(d.reason == 0 && d.job.guar) then s.safetyTwin 2 i.desc.fountain true else s
  let s := if bad.isSome && d.reason == 0 && d.job.guar then s.jobTwinFail d.job.id true else s
  let s := s.checkEntries.grantAll
  if i.cancelled && d.reason == 0 then s.endWith d.job.id St.cancelled else s

/-- Tests wait while an image is under check or none is in force (R131, WEIR_STATUS.ADMIT_HELD). -/
def State.testsHeld (s : State) : Bool := s.weir.admitHeld || !s.checker.inForce

/-- ADMISSION_TEST: the Weir decides the oldest descriptor of its intake (R20, R21, R424, R426). -/
def State.admissionTest (s : State) : State :=
  match s.weir.intake with
  | [] => s
  | i :: rest =>
    if s.testsHeld then s else
    let s := { s with weir := { s.weir with intake := rest } }
    let s := if i.desc.guar then s.checkEntries else s
    let s := if i.desc.twinOk then s else s.detCount ⟨4, Kind.occurrence, 2, i.desc.fountain, false⟩
    let (c, s) := s.loadCert i.desc.certVa
    let d := s.verdict i c
    let s := if i.desc.guar then s.noteTest i.desc.fountain d.reason else s
    s.conclude i d

def execDescriptorTaken (s : State) := onFabric s (guarded s.dramServes State.takeDescriptor)

end Sys2Proof.Machine
end

