-- ==== Sys2Proof/Machine/RillProg.lean ====
section
/-! DEFINITION. Sys2Proof/Machine/RillProg.lean: Rill programs (spec/05 R266 to R277): their layout, what makes one
malformed, and the addresses and pads of an element. -/
namespace Sys2Proof.Machine

/-- Space codes (R269). -/
def Sp.basin : Nat := 0
def Sp.resv : Nat := 1
def Sp.cistern : Nat := 2
def Sp.dram : Nat := 3
def Sp.queue : Nat := 4
def Sp.drain : Nat := 5

/-- A LOOP word (R271): iterations and signed stride. -/
structure RLoop where
  n : Nat
  stride : Int
deriving DecidableEq, Repr

/-- A PAD word (R271). -/
structure RPad where
  la : Nat
  mula : Nat
  lb : Nat
  posmul : Nat
  offset : Int
  limit : Nat
deriving DecidableEq, Repr

/-- A WRAP word (R271): its side (true: patterned), base and size in bytes. -/
structure RWrap where
  pat : Bool
  base : Nat
  size : Nat
deriving DecidableEq, Repr

/-- A program slot (R267, R268). `words`: the 16 instruction words. -/
structure RProg where
  kind : Nat := 0
  pspace : Nat := 0
  lspace : Nat := 0
  elem : Nat := 0
  icount : Nat := 0
  flags : Nat := 0
  pre : Nat := 0
  post : Nat := 0
  patOff : Int := 0
  lin : Nat := 0
  grp : Nat := 0
  obj : Nat := 0
  fill : Nat := 0
  resv : Nat := 0
  words : List Nat := []
deriving DecidableEq, Repr

/-- A program slot from its 152 bytes. -/
def RProg.parse (b : List Byte) : RProg :=
  let n := fun off k => leNat ((b.drop off).take k)
  { kind := n 0 1, pspace := n 1 1 % 16, lspace := n 1 1 / 16, elem := n 2 2, icount := n 4 1, flags := n 5 1,
    pre := n 6 1, post := n 7 1, patOff := sext 32 (n 8 4), lin := n 0xC 4, grp := n 0x10 2, obj := n 0x12 1,
    fill := n 0x14 2, resv := n 0x13 1 + n 0x16 2, words := (List.range 16).map fun i => n (24 + 8 * i) 8 }

/-- Program i of a Rill set (R266), if the set holds it. -/
def rillProg (set : List Byte) (i : Nat) : Option RProg :=
  let cnt := leNat (set.take 1)
  if i < cnt ∧ cnt ≤ 16 ∧ leNat ((set.drop 1).take 7) = 0 ∧ set.length = 8 + 152 * cnt then
    some (RProg.parse ((set.drop (8 + 152 * i)).take 152))
  else none

def RProg.sb32 (p : RProg) : Bool := p.flags.testBit 0
def RProg.trn (p : RProg) : Bool := p.flags.testBit 1
def RProg.trn16 (p : RProg) : Bool := p.flags.testBit 2
def RProg.qe64 (p : RProg) : Bool := p.flags.testBit 3
/-- The Sluice that PRE_SL or POST_SL names, if its EN bit is 1. -/
def slOf (v : Nat) : Option Nat := if v.testBit 7 then some (v % 8) else none

/-- The opcode of an instruction word. -/
def rOpcode (w : Nat) : Nat := bitsOf w 63 60

/-- The instruction words of a program. -/
def RProg.code (p : RProg) : List Nat := p.words.take p.icount

/-- The LOOP words, outermost first. -/
def RProg.loops (p : RProg) : List RLoop :=
  (p.code.filter fun w => rOpcode w == 1).map fun w => ⟨bitsOf w 59 44 + 1, sext 32 w⟩

/-- The PAD words. -/
def RProg.pads (p : RProg) : List RPad :=
  (p.code.filter fun w => rOpcode w == 2).map fun w =>
    ⟨bitsOf w 59 57, bitsOf w 56 54, bitsOf w 53 51, bitsOf w 50 40, sext 16 (bitsOf w 39 24), bitsOf w 23 8⟩

/-- The WRAP words. -/
def RProg.wraps (p : RProg) : List RWrap :=
  (p.code.filter fun w => rOpcode w == 3).map fun w => ⟨w.testBit 59, 32 * bitsOf w 55 32, 32 * bitsOf w 31 8⟩

/-- The WRAP word of a side, if the program has one. -/
def RProg.wrap (p : RProg) (pat : Bool) : Option RWrap := p.wraps.find? fun w => w.pat == pat

/-- The elements that a program generates. -/
def RProg.total (p : RProg) : Nat := p.loops.foldl (fun m l => m * l.n) 1

/-- Bytes of a unit of the transposer (R275). -/
def RProg.unit (p : RProg) : Nat := if p.trn16 then 2 else 1

/-- A word of a program is one of R271's, with its unlisted bits 0. -/
def RProg.wordOk (p : RProg) (w : Nat) : Bool :=
  match rOpcode w with
  | 1 => bitsOf w 43 32 == 0
  | 2 =>
    let n := p.loops.length
    bitsOf w 7 0 == 0 && decide (1 ≤ bitsOf w 56 54) && decide (bitsOf w 56 54 ≤ 4) && decide (bitsOf w 59 57 < n) &&
    (bitsOf w 53 51 == 7 || decide (bitsOf w 53 51 < n))
  | 3 => bitsOf w 58 56 == 0 && bitsOf w 7 0 == 0 && decide (1 ≤ bitsOf w 31 8)
  | _ => false

/-- The spaces of a program are a row of R269. -/
def RProg.spacesOk (p : RProg) : Bool :=
  if p.kind = 1 then decide (p.pspace ≤ 3) && (p.lspace == 0 || p.lspace == 1 || p.lspace == 4)
  else (p.pspace == 0 || p.pspace == 2 || p.pspace == 3) && (p.lspace == 0 || p.lspace == 5)

/-- A program is well formed (R267 to R271, R277). Only a load Rill has a transposer in R272, so TRN in a store program is
malformed (DEDUCED, log entry 21). -/
def RProg.ok (p : RProg) : Bool :=
  (p.kind == 1 || p.kind == 2) && p.spacesOk && decide (1 ≤ p.elem) && decide (p.elem ≤ 2048) &&
  decide (1 ≤ p.icount) && decide (p.icount ≤ 16) && p.flags / 16 == 0 && p.pre / 8 % 16 == 0 && p.post / 8 % 16 == 0 &&
  p.lin % 8 == 0 && (decide (p.lspace ≤ 3) || p.lin == 0) && p.resv == 0 &&
  (if p.trn then decide (2 ≤ p.grp) && decide (p.grp ≤ 64) else p.grp == 0) && (p.pspace == 3 || p.obj == 0) &&
  (p.words.drop p.icount).all (· == 0) && p.code.all p.wordOk &&
  decide (1 ≤ p.loops.length) && decide (p.loops.length ≤ 6) && decide (p.pads.length ≤ 4) &&
  decide (p.wraps.length ≤ 2) && decide ((p.wraps.filter RWrap.pat).length ≤ 1) &&
  decide ((p.wraps.filter fun w => !w.pat).length ≤ 1) &&
  (!p.trn || (decide (p.grp * p.elem ≤ 2048) && p.total % p.grp == 0 && p.kind == 1)) &&
  (!p.trn16 || p.elem % 2 == 0) && (!p.qe64 || p.lspace == 4) &&
  (!p.sb32 || ((p.pspace == 2 || p.pspace == 3) && p.elem % 32 == 0))

/-- The index tuple of an element, outermost first (R272). -/
def tupleOf : List RLoop → Nat → List Nat
  | [], _ => []
  | _ :: ls, i => i / (ls.foldl (fun m l => m * l.n) 1) :: tupleOf ls (i % ls.foldl (fun m l => m * l.n) 1)

/-- The patterned address of an element before WRAP (R270, R272). -/
def RProg.addr (p : RProg) (base i : Nat) : Int :=
  (p.loops.zip (tupleOf p.loops i)).foldl (fun a x => a + x.1.stride * (x.2 : Int)) ((base : Int) * 32 + p.patOff)

/-- An element is padded, on a core at a position (R272). -/
def RProg.padded (p : RProg) (pos i : Nat) : Bool :=
  let t := tupleOf p.loops i
  p.pads.any fun d =>
    let c : Int := (d.mula * t.getD d.la 0 : Nat) + d.offset + (d.posmul * pos : Nat)
    let c := if d.lb = 7 then c else c + (t.getD d.lb 0 : Nat)
    decide (c < 0) || decide ((d.limit : Int) ≤ c)

/-- n bytes from an address, as the runs of addresses they occupy under a WRAP (R273), with fuel for the runs. -/
def wrapRuns (w : RWrap) : Nat → Int → Nat → List (Int × Nat)
  | 0, _, _ => []
  | k + 1, a, n =>
    if n = 0 then [] else
    let off := ((a - w.base) % (w.size : Int)).toNat
    let m := min n (w.size - off)
    ((w.base + off : Nat), m) :: wrapRuns w k (a + m) (n - m)

/-- The runs of addresses of n bytes on a side of a program. -/
def RProg.runs (p : RProg) (pat : Bool) (a : Int) (n : Nat) : List (Int × Nat) :=
  match p.wrap pat with
  | none => [(a, n)]
  | some w => wrapRuns w (n / 32 + 2) a n

/-- A padded element (R274). -/
def RProg.fillBytes (p : RProg) : List Byte :=
  (List.range p.elem).map fun k => BitVec.ofNat 8 (p.fill / 256 ^ (k % 2))

/-- The outputs of a transposer group (R275). -/
def transpose (unit : Nat) (grp : List (List Byte)) : List (List Byte) :=
  (List.range ((grp.headD []).length / unit)).map fun j => grp.flatMap fun e => (e.drop (unit * j)).take unit

end Sys2Proof.Machine
end

