-- ==== Sys2Proof/Machine/Operands.lean ====
section
/-! DEFINITION. Sys2Proof/Machine/Operands.lean: the number formats of spec/07 (R364, R365) and the exact arithmetic over
them: what a code means, how a value is rounded to a format, and the functions that the arrays, the vector unit and the
drain chain share (R163 to R179, R339, R372 to R377). -/
namespace Sys2Proof.Machine

/-! Rounding of integers. -/

/-- v / d rounded to nearest, ties to even, for d above 0. -/
def rneDiv (v : Int) (d : Nat) : Int :=
  let q := v / (d : Int)
  let r := 2 * (v - q * (d : Int))
  if r < (d : Int) then q else if (d : Int) < r then q + 1 else if q % 2 = 0 then q else q + 1

/-- rne of R339: v / 2^s rounded to nearest, ties to even; a negative s multiplies. -/
def rne (v : Int) (s : Int) : Int := if s ≤ 0 then v * (2 : Int) ^ (-s).toNat else rneDiv v (2 ^ s.toNat)

/-- The signed range of w bits. -/
def satS (w : Nat) (v : Int) : Int :=
  let hi : Int := (2 : Int) ^ (w - 1) - 1
  let lo : Int := -((2 : Int) ^ (w - 1))
  if hi < v then hi else if v < lo then lo else v

/-- The largest x of n bits with p x, for a p that holds of 0 and is downward closed. -/
def searchBits (p : Nat → Bool) : Nat → Nat → Nat
  | 0, x => x
  | n + 1, x => searchBits p n (if p (x + 2 ^ n) then x + 2 ^ n else x)

/-! Floating-point values. -/

/-- The value of a float: a NaN, an infinity, or a signed m × 2^e. -/
inductive FNum where
  | nan
  | inf (neg : Bool)
  | fin (neg : Bool) (m : Nat) (e : Int)
deriving DecidableEq, Repr

/-- A float format (R364): exponent bits, significand bits, bias, and whether it has infinities. -/
structure FFmt where
  eb : Nat
  mb : Nat
  bias : Nat
  hasInf : Bool := true
deriving DecidableEq, Repr

def FFmt.e4m3 : FFmt := ⟨4, 3, 7, false⟩
def FFmt.e5m2 : FFmt := ⟨5, 2, 15, true⟩
def FFmt.fp16 : FFmt := ⟨5, 10, 15, true⟩
def FFmt.bf16 : FFmt := ⟨8, 7, 127, true⟩
def FFmt.fp32 : FFmt := ⟨8, 23, 127, true⟩

/-- The position of the sign bit. -/
def FFmt.signBit (f : FFmt) : Nat := 2 ^ (f.eb + f.mb)

/-- The code of the largest finite value, without its sign. -/
def FFmt.maxCode (f : FFmt) : Nat :=
  if f.hasInf then (2 ^ f.eb - 1) * 2 ^ f.mb - 1 else (2 ^ f.eb - 1) * 2 ^ f.mb + 2 ^ f.mb - 2

/-- The canonical NaN of a format (R365). -/
def FFmt.nanCode (f : FFmt) : Nat :=
  if f.hasInf then (2 ^ f.eb - 1) * 2 ^ f.mb + 2 ^ (f.mb - 1) else 2 ^ (f.eb + f.mb) - 1

/-- What a code of a format means (R364). -/
def FFmt.value (f : FFmt) (c : Nat) : FNum :=
  let neg := f.signBit ≤ c % (2 * f.signBit)
  let mag := c % f.signBit
  let ex := mag / 2 ^ f.mb
  let ma := mag % 2 ^ f.mb
  if f.hasInf && ex == 2 ^ f.eb - 1 then (if ma = 0 then .inf neg else .nan)
  else if !f.hasInf && mag == f.signBit - 1 then .nan
  else if ex = 0 then .fin neg ma (1 - (f.bias : Int) - (f.mb : Int))
  else .fin neg (2 ^ f.mb + ma) ((ex : Int) - (f.bias : Int) - (f.mb : Int))

/-- The magnitude code of m × 2^e rounded to nearest, ties to even, as if the exponent had no upper end. -/
def FFmt.roundMag (f : FFmt) (m : Nat) (e : Int) : Nat :=
  if m = 0 then 0 else
  let qmin : Int := 1 - (f.bias : Int) - (f.mb : Int)
  let top : Int := (Nat.log2 m : Int) + e - (f.mb : Int)
  let q := if top < qmin then qmin else top
  let n := (rne (m : Int) (q - e)).toNat
  (q - qmin).toNat * 2 ^ f.mb + n

/-- A value rounded to a format under R166: overflow gives an infinity, a NaN the canonical NaN. -/
def FFmt.round (f : FFmt) : FNum → Nat
  | .nan => f.nanCode
  | .inf neg => b2n neg * f.signBit + (f.maxCode + 1)
  | .fin neg m e => b2n neg * f.signBit + (let c := f.roundMag m e; if f.maxCode < c then f.maxCode + 1 else c)

/-- The narrowing conversion of R375: the code, and whether the element counts as saturated. -/
def FFmt.narrow (f : FFmt) : FNum → Nat × Bool
  | .nan => (f.nanCode, true)
  | .inf neg => (b2n neg * f.signBit + f.maxCode, true)
  | .fin neg m e =>
    let c := f.roundMag m e
    if f.maxCode < c then (b2n neg * f.signBit + f.maxCode, true) else (b2n neg * f.signBit + c, false)

/-- The value of an FP32 code. -/
def f32 (c : Nat) : FNum := FFmt.fp32.value c
/-- A value rounded to FP32. -/
def toF32 (x : FNum) : Nat := FFmt.fp32.round x

/-- The signed significand of a finite value. -/
def FNum.sig (neg : Bool) (m : Nat) : Int := if neg then -(m : Int) else (m : Int)

/-- An integer times a power of two. -/
def FNum.ofInt (v : Int) (e : Int := 0) : FNum := .fin (decide (v < 0)) v.natAbs e

/-- The negation of a value. -/
def FNum.neg : FNum → FNum
  | .nan => .nan
  | .inf n => .inf (!n)
  | .fin n m e => .fin (!n) m e

/-- The exact sum of two values; an exact zero from unlike signs is +0 (R166). -/
def FNum.add : FNum → FNum → FNum
  | .nan, _ => .nan
  | _, .nan => .nan
  | .inf a, .inf b => if a = b then .inf a else .nan
  | .inf a, _ => .inf a
  | _, .inf b => .inf b
  | .fin na ma ea, .fin nb mb eb =>
    let e := if ea < eb then ea else eb
    let v := FNum.sig na ma * (2 : Int) ^ (ea - e).toNat + FNum.sig nb mb * (2 : Int) ^ (eb - e).toNat
    if v = 0 then .fin (na && nb) 0 e else FNum.ofInt v e

/-- The exact product of two values; infinity times zero is a NaN (R167). -/
def FNum.mul : FNum → FNum → FNum
  | .nan, _ => .nan
  | _, .nan => .nan
  | .inf a, .inf b => .inf (a != b)
  | .inf a, .fin n m _ => if m = 0 then .nan else .inf (a != n)
  | .fin n m _, .inf a => if m = 0 then .nan else .inf (a != n)
  | .fin na ma ea, .fin nb mb eb => .fin (na != nb) (ma * mb) (ea + eb)

/-- The value times 2^k. -/
def FNum.scale (x : FNum) (k : Int) : FNum :=
  match x with
  | .fin n m e => .fin n m (e + k)
  | y => y

/-- The value divided by d, with enough digits and a sticky bit that one rounding gives the correctly rounded quotient. -/
def FNum.divNat (x : FNum) (d : Nat) : FNum :=
  match x with
  | .fin n m e => let q := m * 2 ^ 64 / d; .fin n (2 * q + (if m * 2 ^ 64 % d = 0 then 0 else 1)) (e - 65)
  | y => y

/-- The value is a NaN. -/
def FNum.isNan : FNum → Bool
  | .nan => true
  | _ => false

/-- The value is a zero of either sign. -/
def FNum.isZero : FNum → Bool
  | .fin _ 0 _ => true
  | _ => false

/-- a < b, for values that are not NaN. -/
def FNum.lt : FNum → FNum → Bool
  | .nan, _ => false
  | _, .nan => false
  | .inf a, .inf b => a && !b
  | .inf a, _ => a
  | _, .inf b => !b
  | .fin na ma ea, .fin nb mb eb =>
    let e := if ea < eb then ea else eb
    decide (FNum.sig na ma * (2 : Int) ^ (ea - e).toNat < FNum.sig nb mb * (2 : Int) ^ (eb - e).toNat)

/-- a = b as values: −0 equals +0, and a NaN equals nothing. -/
def FNum.eq (a b : FNum) : Bool := !a.isNan && !b.isNan && !FNum.lt a b && !FNum.lt b a

/-- The nearest integer to a finite value, ties to even. -/
def FNum.toInt (neg : Bool) (m : Nat) (e : Int) : Int := rne (FNum.sig neg m) (-e)

/-- The largest integer not above a finite value. -/
def FNum.floor (neg : Bool) (m : Nat) (e : Int) : Int :=
  if e < 0 then FNum.sig neg m / (2 : Int) ^ (-e).toNat else FNum.sig neg m * (2 : Int) ^ e.toNat

/-- FP32 addition. -/
def addF32 (a b : Nat) : Nat := toF32 (FNum.add (f32 a) (f32 b))
/-- FP32 multiplication. -/
def mulF32 (a b : Nat) : Nat := toF32 (FNum.mul (f32 a) (f32 b))
/-- FP32 fused multiply-add, rounded once. -/
def fmaF32 (a b c : Nat) : Nat := toF32 (FNum.add (FNum.mul (f32 a) (f32 b)) (f32 c))

/-! The table functions of R178. -/

/-- n / 2^24 as the FP32 value of the nearest half unit below: n is the floor of 2 × 2^k × the constant. -/
def tableRound (n : Nat) (sticky : Bool) (k : Int) : Nat := toF32 (.fin false (2 * n + b2n sticky) (-(k + 1)))

/-- t[i] of EXP2: 2^(i/256) rounded to FP32. -/
def tExp2 (i : Nat) : Nat :=
  let n := searchBits (fun x => x ^ 256 ≤ 2 ^ (30 * 256 + i)) 32 0
  tableRound n (n ^ 256 != 2 ^ (30 * 256 + i)) 30

/-- t[i] of RECIP: 1 / (1 + i/256) rounded to FP32. -/
def tRecip (i : Nat) : Nat := toF32 ((FNum.fin false 256 0).divNat (256 + i))

/-- t[i] of RSQRT: 1 / sqrt(1 + 3i/256) rounded to FP32. -/
def tRsqrt (i : Nat) : Nat :=
  let n := searchBits (fun x => x * x * (256 + 3 * i) ≤ 256 * 2 ^ 60) 32 0
  tableRound n (n * n * (256 + 3 * i) != 256 * 2 ^ 60) 30

/-- fma(t[i+1] − t[i], u, t[i]) of R178, for u given as an FP32 code; the table ends at entry 256. -/
def interp (t : Nat → Nat) (i u : Nat) : Nat :=
  let a := t i
  let b := t (if i < 256 then i + 1 else 256)
  fmaF32 (addF32 b (toF32 (f32 a).neg)) u a

/-- exp2 of R178 and R179. -/
def exp2F32 (c : Nat) : Nat :=
  match f32 c with
  | .nan => FFmt.fp32.nanCode
  | .inf neg => if neg then 0 else FFmt.fp32.maxCode + 1
  | .fin neg m e =>
    if FNum.lt (.fin neg m e) (.fin true 149 0) then 0
    else if !FNum.lt (.fin neg m e) (.fin false 128 0) then FFmt.fp32.maxCode + 1
    else
      let n := FNum.floor neg m e
      let f := toF32 (FNum.add (.fin neg m e) (FNum.ofInt (-n)))
      let f256 := FNum.scale (f32 f) 8
      let i := match f256 with
        | .fin sg k ex => FNum.floor sg k ex
        | _ => 0
      let u := toF32 (FNum.add f256 (FNum.ofInt (-i)))
      toF32 (FNum.scale (f32 (interp tExp2 i.toNat u)) n)

/-- recip of R178 and R179; the spec states no result for an infinity. -/
def recipF32 (c : Nat) : Option Nat :=
  match f32 c with
  | .nan => some FFmt.fp32.nanCode
  | .inf _ => none
  | .fin neg m e =>
    if m = 0 then some (toF32 (.inf neg)) else
    let l := Nat.log2 m
    let ex : Int := (l : Int) + e
    let fr := FNum.scale (.fin false (m - 2 ^ l) (-(l : Int))) 8
    let i := match fr with
      | .fin sg k x => FNum.floor sg k x
      | _ => 0
    let u := toF32 (FNum.add fr (FNum.ofInt (-i)))
    let r := toF32 (FNum.scale (f32 (interp tRecip i.toNat u)) (-ex))
    some (b2n neg * 2 ^ 31 + r)

/-- rsqrt of R178 and R179; the spec states no result for a zero or an infinity. Each step rounds under R166. -/
def rsqrtF32 (c : Nat) : Option Nat :=
  match f32 c with
  | .nan => some FFmt.fp32.nanCode
  | .inf neg => if neg then some FFmt.fp32.nanCode else none
  | .fin neg m e =>
    if m = 0 then none
    else if neg then some FFmt.fp32.nanCode
    else
      let l : Int := (Nat.log2 m : Int) + e
      let ex := l / 2
      let ma := FNum.fin false m (e - 2 * ex)
      let m1 := FNum.scale (FNum.add ma (FNum.ofInt (-1))) 8
      let q := toF32 (m1.divNat 3)
      let i := match f32 q with
        | .fin sg k x => FNum.floor sg k x
        | _ => 0
      let u := toF32 (FNum.add (f32 q) (FNum.ofInt (-i)))
      some (toF32 (FNum.scale (f32 (interp tRsqrt i.toNat u)) (-ex)))

/-! Element formats of the matrix slot (R149) and of the drain chain (R333). -/

/-- The matrix format accumulates in FP32. -/
def fmtFloat (fmt : Nat) : Bool := 2 ≤ fmt

/-- The matrix format is a microscaling format. -/
def fmtMx (fmt : Nat) : Bool := 8 ≤ fmt

/-- Cycles per step of a format and mode (R152). -/
def fmtCycles (mode fmt : Nat) : Nat :=
  if mode != 0 then 1
  else if fmt = 6 ∨ fmt = 7 then 4
  else if fmt = 2 ∨ fmt = 3 ∨ fmt = 4 ∨ fmt = 5 ∨ fmt = 9 ∨ fmt = 10 then 2 else 1

/-- Bytes of an activation or weight element of a float format. -/
def fmtBytes (fmt : Nat) : Nat := if fmt = 6 ∨ fmt = 7 then 2 else 1

/-- Weight bytes per array per step, in units of 64 (R152, R217). -/
def fmtWb (fmt : Nat) : Nat := fmtBytes fmt

/-- The value of a weight code of a float format (R149, R170). -/
def weightValue (fmt c : Nat) : FNum :=
  match fmt with
  | 2 | 4 | 9 => FFmt.e4m3.value c
  | 3 | 5 | 10 => FFmt.e5m2.value c
  | 6 => FFmt.bf16.value c
  | 7 => FFmt.fp16.value c
  | _ => FNum.ofInt (sext 8 c) (-6)

/-- The value of an activation code of a float format (R149, R170). -/
def actValue (fmt c : Nat) : FNum :=
  match fmt with
  | 2 | 5 | 9 => FFmt.e4m3.value c
  | 3 | 4 | 10 => FFmt.e5m2.value c
  | 6 => FFmt.bf16.value c
  | 7 => FFmt.fp16.value c
  | _ => FNum.ofInt (sext 8 c) (-6)

/-- A one-byte code, signed or unsigned (R151). -/
def codeInt (signed : Bool) (c : Nat) : Int := if signed then sext 8 c else ((c % 256 : Nat) : Int)

/-- Bytes of an output or residual format (R333). -/
def outBytes (fmt : Nat) : Nat :=
  match fmt with
  | 0 | 1 | 4 | 5 => 1
  | 2 | 6 | 7 => 2
  | _ => 4

/-- The output format is a float format. -/
def outFloat (fmt : Nat) : Bool := 4 ≤ fmt

/-- The range of an integer output format. -/
def outRange (fmt : Nat) : Int × Int :=
  match fmt with
  | 0 => (-128, 127)
  | 1 => (0, 255)
  | 2 => (-32768, 32767)
  | _ => (-2147483648, 2147483647)

/-- The float format of an output code. -/
def outFmt (fmt : Nat) : FFmt :=
  match fmt with
  | 4 => FFmt.e4m3
  | 5 => FFmt.e5m2
  | 6 => FFmt.bf16
  | 7 => FFmt.fp16
  | _ => FFmt.fp32

/-- The integer of a code of an integer format. -/
def outInt (fmt c : Nat) : Int :=
  match fmt with
  | 0 => sext 8 c
  | 1 => ((c % 256 : Nat) : Int)
  | 2 => sext 16 c
  | _ => sext 32 c

end Sys2Proof.Machine
end

