-- ==== Sys2Proof/Machine/DrainSet.lean ====
section
/-! DEFINITION. Sys2Proof/Machine/DrainSet.lean: drain sets, the arithmetic of the drain chain's stages, SB32 packing, and
tensor statistics (spec/06 R331 to R343, spec/07 R372 to R379, spec/05 R302 to R304). Between stages an element is an
integer; on a float tile, and after R373, it is the FP32 code. -/
namespace Sys2Proof.Machine

/-! SB32 (R302, R303). -/

/-- One SB32 block of 32 raw bytes (R302). -/
def sb32Block (raw : List Byte) : List Byte :=
  let mask := (raw.zipIdx).foldl (fun m p => if p.1 = 0#8 then m else m + 2 ^ p.2) 0
  leBytes mask 4 ++ raw.filter (· ≠ 0#8)

/-- An SB32 run of raw bytes, with fuel for its blocks (R303). -/
def sb32Pack : Nat → List Byte → List Byte
  | 0, _ => []
  | _, [] => []
  | n + 1, raw => sb32Block (raw.take 32) ++ sb32Pack n (raw.drop 32)

/-- The raw bytes that a mask and its bytes stand for. -/
def sb32Fill (mask : Nat) : Nat → Nat → List Byte → List Byte
  | 0, _, _ => []
  | n + 1, k, bs =>
    if mask.testBit k then bs.headD 0#8 :: sb32Fill mask n (k + 1) bs.tail else 0#8 :: sb32Fill mask n (k + 1) bs

/-- How many bits of a number below 2^n are 1. -/
def popCount : Nat → Nat → Nat
  | 0, _ => 0
  | n + 1, v => v % 2 + popCount n (v / 2)

/-! Drain sets (R331 to R333). -/

/-- A drain-chain descriptor (R333). -/
structure DrainDesc where
  stages : Nat := 0
  dflags : Nat := 0
  fmt : Nat := 0
  act : Nat := 0
  shift : Int := 0
  statSlot : Nat := 0
  pFirst : Nat := 0
  pStep : Nat := 0
  pAstep : Nat := 0
  pWrap : Nat := 0
  zp : Int := 0
  clo : Nat := 0
  chi : Nat := 0
  actBase : Int := 0
  actShift : Nat := 0
  resQ : Nat := 0
  resFmt : Nat := 0
  pool : Nat := 0
  resZp : Int := 0
  resShift : Nat := 0
  patchH : Nat := 0
  patchW : Nat := 0
  resMult : Nat := 0
  resv : Nat := 0
deriving DecidableEq, Repr

/-- A descriptor from its 64 bytes (R333). -/
def DrainDesc.parse (b : List Byte) : DrainDesc :=
  { stages := u8 b 0, dflags := u8 b 1, fmt := u8 b 2, act := u8 b 3, shift := sext 8 (u8 b 4), statSlot := u8 b 5,
    pFirst := u16 b 6, pStep := u16 b 8, pAstep := u16 b 0xA, pWrap := u16 b 0xC, zp := sext 16 (u16 b 0xE),
    clo := u32 b 0x10, chi := u32 b 0x14, actBase := sext 32 (u32 b 0x18), actShift := u8 b 0x1C, resQ := u8 b 0x1D,
    resFmt := u8 b 0x1E, pool := u8 b 0x1F, resZp := sext 16 (u16 b 0x20), resShift := u8 b 0x22, patchH := u8 b 0x23,
    patchW := u8 b 0x24, resMult := u32 b 0x28,
    resv := fieldAt b 0x25 3 + fieldAt b 0x2C 20 }

/-- DCOUNT, TCOUNT and PCOUNT of a drain set (R331). -/
def dsetD (set : List Byte) : Nat := u8 set 0
def dsetT (set : List Byte) : Nat := u8 set 1
def dsetP (set : List Byte) : Nat := u16 set 2

/-- Descriptor i of a drain set, if the set has it. -/
def dsetDesc (set : List Byte) (i : Nat) : Option DrainDesc :=
  if i < dsetD set then some (DrainDesc.parse (set.drop (8 + 64 * i))) else none

/-- Entry i of activation table t (R332). -/
def dsetTable (set : List Byte) (t i : Nat) : Int := sext 16 (u16 set (8 + 64 * dsetD set + 512 * t + 2 * i))

/-- BIAS and SCALE of parameter entry i (R332). -/
def dsetParam (set : List Byte) (i : Nat) : Nat × Nat :=
  let b := 8 + 64 * dsetD set + 512 * dsetT set + 8 * i
  (u32 set b, u32 set (b + 4))

def DrainDesc.bias (d : DrainDesc) : Bool := d.stages.testBit 0
def DrainDesc.requant (d : DrainDesc) : Bool := d.stages.testBit 1
def DrainDesc.hasAct (d : DrainDesc) : Bool := d.stages.testBit 2
def DrainDesc.resid (d : DrainDesc) : Bool := d.stages.testBit 3
def DrainDesc.pools (d : DrainDesc) : Bool := d.stages.testBit 4
def DrainDesc.clamp (d : DrainDesc) : Bool := d.stages.testBit 5
def DrainDesc.zcomp (d : DrainDesc) : Bool := d.stages.testBit 6
def DrainDesc.stats (d : DrainDesc) : Bool := d.stages.testBit 7
def DrainDesc.actLate (d : DrainDesc) : Bool := d.dflags.testBit 0
def DrainDesc.perTensor (d : DrainDesc) : Bool := d.dflags.testBit 1
def DrainDesc.accFloat (d : DrainDesc) : Bool := d.dflags.testBit 2
def DrainDesc.actTable (d : DrainDesc) : Bool := d.act % 4 == 1
/-- The values of the descriptor's later stages are FP32: a float tile, or R373. -/
def DrainDesc.isF (d : DrainDesc) : Bool := d.accFloat || (outFloat d.fmt && d.requant)
/-- The side of the pooling window (R341). -/
def DrainDesc.win (d : DrainDesc) : Nat := if d.pool.testBit 0 then 3 else 2

/-- A clamp limit as an integer, or as the value of its FP32 code. -/
def DrainDesc.limInt (v : Nat) : Int := sext 32 v

/-- CLO and CHI lie in the range of OUT_FMT, in order (R333, R335). -/
def DrainDesc.clampOk (d : DrainDesc) : Bool :=
  if outFloat d.fmt then
    let m := outFmt d.fmt
    let big := m.value m.maxCode
    !(f32 d.clo).isNan && !(f32 d.chi).isNan && !FNum.lt (f32 d.chi) (f32 d.clo) &&
    !FNum.lt (f32 d.clo) big.neg && !FNum.lt big (f32 d.chi)
  else
    let r := outRange d.fmt
    decide (r.1 ≤ sext 32 d.clo) && decide (sext 32 d.clo ≤ sext 32 d.chi) && decide (sext 32 d.chi ≤ r.2)

/-- A descriptor of a drain set is well formed and legal (R331 to R335, R371, R373). -/
def DrainDesc.ok (d : DrainDesc) (set : List Byte) : Bool :=
  let off := fun (on : Bool) (v : Nat) => on || v == 0
  d.resv == 0 && d.dflags / 8 == 0 && decide (d.fmt ≤ 8) && d.act / 16 == 0 && decide (d.act % 4 ≤ 1) &&
  decide (-32 ≤ d.shift) && decide (d.shift ≤ 31) && decide (d.statSlot ≤ 15) &&
  (!outFloat d.fmt || d.zp == 0) && d.pool / 4 == 0 && decide (d.resQ ≤ 3) && decide (d.resShift ≤ 31) &&
  decide (d.actShift ≤ 20) &&
  -- the fields of a bypassed stage are 0 (R334)
  (d.bias || d.requant || !d.perTensor) && off d.hasAct d.act && off d.hasAct (d.dflags % 2) && (d.requant || d.shift == 0) && off d.stats d.statSlot &&
  off d.clamp d.clo && off d.clamp d.chi && (d.hasAct || (d.actBase == 0 && d.actShift == 0)) &&
  (d.resid || (d.resQ == 0 && d.resFmt == 0 && d.resZp == 0 && d.resShift == 0 && d.resMult == 0)) &&
  off d.pools d.pool && off d.pools d.patchH && off d.pools d.patchW &&
  (if d.bias || d.requant then decide (1 ≤ d.pWrap) && decide (d.pWrap ≤ 2048) && decide (d.pFirst + d.pWrap ≤ dsetP set)
   else true) &&
  (!(d.hasAct && d.actTable) || decide (d.act / 4 < dsetT set)) &&
  (!d.pools || (decide (1 ≤ d.patchH) && decide (d.patchH ≤ 32) && d.patchH % d.win == 0 && decide (1 ≤ d.patchW) &&
    decide (d.patchW ≤ 32) && d.patchW % d.win == 0 && decide (d.patchH * d.patchW ≤ 32))) &&
  -- legal combinations (R335, R373)
  (if d.accFloat then
     d.fmt != 3 && (outFloat d.fmt || d.requant) && !(d.hasAct && d.actTable) &&
     (!d.resid || d.resFmt == 6 || d.resFmt == 7)
   else
     (!outFloat d.fmt || (d.requant && !(d.hasAct && d.actTable) && !d.resid)) && (!d.resid || decide (d.resFmt ≤ 2))) &&
  (!d.clamp || d.clampOk)

/-! Stage arithmetic (R337 to R342). -/

/-- The effective SHIFT, the bias exponent and the effective RES_SHIFT of a descriptor in a job (R387). -/
structure Eff where
  shift : Int
  aIn : Int := 0
  resShift : Int
deriving DecidableEq, Repr

/-- The parameter entry of column j of array a in drain m (R337). -/
def DrainDesc.param (d : DrainDesc) (set : List Byte) (m a j : Nat) : Nat × Nat :=
  let k := if d.perTensor then 0 else j
  dsetParam set (d.pFirst + (m * d.pStep + a * d.pAstep + k) % d.pWrap)

/-- The BIAS stage (R337, R387). -/
def DrainDesc.doBias (d : DrainDesc) (e : Eff) (b : Nat) (y : Int) : Int :=
  if d.accFloat then (toF32 (FNum.add (f32 y.toNat) ((f32 b).scale e.aIn)) : Nat)
  else
    let v := sext 32 b
    satS 32 (y + if e.aIn < 0 then rne v (-e.aIn) else satS 32 (v * (2 : Int) ^ e.aIn.toNat))

/-- The REQUANT stage (R372 to R374). -/
def DrainDesc.doRequant (d : DrainDesc) (e : Eff) (sc : Nat) (y : Int) : Int :=
  if d.accFloat then (toF32 ((FNum.mul (f32 y.toNat) (f32 sc)).scale e.shift) : Nat)
  else if outFloat d.fmt then (toF32 (FNum.ofInt (y * sext 32 sc) (e.shift - 31)) : Nat)
  else satS 32 (rne (y * sext 32 sc) (31 - e.shift))

/-- The ACT stage (R339). -/
def DrainDesc.doAct (d : DrainDesc) (set : List Byte) (y : Int) : Int :=
  if !d.actTable then
    if d.isF then
      let v := f32 y.toNat
      if v.isNan then y else if FNum.lt (.fin false 0 0) v then y else 0
    else max y 0
  else
    let t := d.act / 4 % 4
    let x := y - d.actBase
    let i := x / (2 : Int) ^ d.actShift
    if i < 0 then dsetTable set t 0
    else if 255 ≤ i then dsetTable set t 255
    else
      let n := i.toNat
      let f := x - i * (2 : Int) ^ d.actShift
      satS 32 (dsetTable set t n + rne ((dsetTable set t (n + 1) - dsetTable set t n) * f) d.actShift)

/-- The RESID stage with a residual code (R339). -/
def DrainDesc.doResid (d : DrainDesc) (e : Eff) (code : Nat) (y : Int) : Int :=
  if d.accFloat then
    (addF32 y.toNat (toF32 (FNum.mul ((outFmt d.resFmt).value code) (f32 d.resMult))) : Nat)
  else satS 32 (y + rne ((outInt d.resFmt code - d.resZp) * sext 32 d.resMult) e.resShift)

/-- One element through the stages before POOL (R337). `code`: its residual code. -/
def DrainDesc.element (d : DrainDesc) (set : List Byte) (e : Eff) (m a j code : Nat) (acc : Int) : Int :=
  let p := d.param set m a j
  let y := if d.bias then d.doBias e p.1 acc else acc
  let y := if d.requant then d.doRequant e p.2 y else y
  let y := if d.hasAct && !d.actLate then d.doAct set y else y
  let y := if d.resid then d.doResid e code y else y
  if d.hasAct && d.actLate then d.doAct set y else y

/-- The greater of two FP32 codes, the first where their values are equal. -/
def fmax (x y : Int) : Int := if FNum.lt (f32 x.toNat) (f32 y.toNat) then y else x

/-- The maximum of a window of FP32 values; the spec states none where a NaN takes part, or where zeros of both signs are
the largest (log entry 6). -/
def fmaxOpt (l : List Int) : Option Int :=
  let m := l.tail.foldl fmax (l.headD 0)
  if l.any fun x => (f32 x.toNat).isNan || (FNum.eq (f32 x.toNat) (f32 m.toNat) && x != m) then none else some m

/-- One pooled element of a window (R341). -/
def DrainDesc.poolOne (d : DrainDesc) (w : List Int) : Option Int :=
  let n := w.length
  if d.pool.testBit 1 then
    if d.isF then
      some (toF32 ((f32 (w.tail.foldl (fun s y => addF32 s y.toNat) (w.headD 0).toNat)).divNat n) : Nat)
    else some (rneDiv (w.tail.foldl (fun s y => satS 32 (s + y)) (w.headD 0)) n)
  else if d.isF then fmaxOpt w else some (w.tail.foldl max (w.headD 0))

/-- What STATS observes of an element (R378, R379): the magnitude, whether it is a NaN, and whether it saturated. -/
structure Seen where
  mag : Nat
  nan : Bool
  sat : Bool
deriving DecidableEq, Repr

/-- The narrowing of R342, R375 to R377: the output code and what STATS observes. -/
def DrainDesc.narrow (d : DrainDesc) (y : Int) (sat : Bool) : Nat × Seen :=
  if d.isF then
    let v := f32 y.toNat
    let seen := fun s => ({ mag := if v.isNan then 0 else y.toNat % 2 ^ 31, nan := v.isNan, sat := sat || s } : Seen)
    let limit := fun (lo hi : FNum) =>
      if !d.clamp || v.isNan then v else if FNum.lt v lo then lo else if FNum.lt hi v then hi else v
    if outFloat d.fmt then
      let r := (outFmt d.fmt).narrow (limit (f32 d.clo) (f32 d.chi))
      (r.1, seen r.2)
    else
      let rg := outRange d.fmt
      let x := limit (FNum.ofInt (sext 32 d.clo - d.zp)) (FNum.ofInt (sext 32 d.chi - d.zp))
      let q : Int × Bool := match x with
        | .nan => (max rg.1 (min rg.2 d.zp), true)
        | .inf n => (if n then rg.1 else rg.2, true)
        | .fin n m ex =>
          let u := FNum.toInt n m ex + d.zp
          if u < rg.1 then (rg.1, true) else if rg.2 < u then (rg.2, true) else (u, false)
      (wrapN 32 q.1, seen q.2)
  else
    let rg := outRange d.fmt
    let v := y + d.zp
    let lim := if d.clamp then (sext 32 d.clo, sext 32 d.chi) else rg
    let w := if v < lim.1 then lim.1 else if lim.2 < v then lim.2 else v
    (wrapN 32 w, { mag := min y.natAbs (2 ^ 31 - 1), nan := false,
                   sat := sat || decide (v < rg.1) || decide (rg.2 < v) })

/-- The bytes of a row of output codes. -/
def rowBytes (fmt : Nat) (codes : List Nat) : List Byte := codes.flatMap fun c => leBytes c (outBytes fmt)

/-- A list padded with 0x00 to a multiple of 32 bytes (R343). -/
def padTo32 (l : List Byte) : List Byte := l ++ List.replicate ((32 - l.length % 32) % 32) 0#8

/-- The bytes that a row leaves the chain with (R342, R343). -/
def DrainDesc.finish (d : DrainDesc) (codes : List Nat) : List Byte :=
  let b := rowBytes d.fmt codes
  if d.zcomp then let p := padTo32 b; sb32Pack (p.length / 32) p else b

/-- The worst-case size of an output row (R345). -/
def DrainDesc.rowSize (d : DrainDesc) (pw : Nat) : Nat :=
  let n := pw * outBytes d.fmt
  if d.zcomp then (n + 31) / 32 * 36 else n

/-- The size of a padded row, which a store Rill with SB32 has as ELEM_BYTES (R344). -/
def DrainDesc.padSize (d : DrainDesc) (pw : Nat) : Nat := (pw * outBytes d.fmt + 31) / 32 * 32

/-- An element is added to a statistics slot (R378, R379). -/
def Stat.see (t : Stat) (float : Bool) (x : Seen) : Stat :=
  { maxabs := if x.nan then t.maxabs else max t.maxabs x.mag
    sat := if x.sat then min (t.sat + 1) (2 ^ 32 - 1) else t.sat
    elems := min (t.elems + 1) (2 ^ 32 - 1)
    nan := t.nan || x.nan
    float := float }

end Sys2Proof.Machine
end

