-- ==== Sys2Proof/Machine/Scale.lean ====
section
/-! DEFINITION. Sys2Proof/Machine/Scale.lean: scale-state objects and adaptive scaling (spec/07 R381 to R394). -/
namespace Sys2Proof.Machine

/-- The header of a scale-state object (R381). -/
structure ScaleHdr where
  magic : Nat
  version : Nat
  tensors : Nat
  binds : Nat
  logs : Nat
  logHead : Nat
  tOff : Nat
  bOff : Nat
  lOff : Nat
  resv : Nat
deriving DecidableEq, Repr

/-- A header from its 32 bytes. -/
def ScaleHdr.parse (b : List Byte) : ScaleHdr :=
  { magic := u32 b 0, version := u16 b 4, tensors := u16 b 6, binds := u16 b 8, logs := u16 b 0xA, logHead := u32 b 0xC,
    tOff := u32 b 0x10, bOff := u32 b 0x14, lOff := u32 b 0x18, resv := u32 b 0x1C }

/-- A binding from its 16 bytes (R383). -/
def Bind.parse (b : List Byte) : Bind :=
  { layer := u16 b 0, dcd := u8 b 2, outT := u16 b 4, inT := u16 b 6, resT := u16 b 8,
    resv := u8 b 3 + fieldAt b 0xA 6 }

/-- The tensors that a binding names. -/
def Bind.tensors (b : Bind) : List Nat := [b.outT, b.inT, b.resT].filter (· != 0xFFFF)

/-- The saturation detector's number and its fields (R385). -/
def Sat.det : Nat := 0x11
def State.satRatio (s : State) : Nat := bitsOf (s.rn (Reg.detThresh Sat.det)) 15 0
def State.satBound (s : State) : Nat := bitsOf (s.rn (Reg.detThresh Sat.det)) 19 16
def State.satRecover (s : State) : Nat := bitsOf (s.rn (Reg.detThresh Sat.det)) 27 20

/-- A handle entry's object holds an address. -/
def Handle.covers (va : Nat) (h : Handle) : Bool :=
  h.inTable && decide (h.baseVa ≤ va) && decide (va < h.baseVa + h.bytes)

/-- The memory object that an address lies in: of the job's handle list, or of the handle table (R468; log entry 20). -/
def State.objectAt (s : State) (j : Job) (va : Nat) : Option Handle :=
  match j.handles.find? (Handle.covers va) with
  | some h => some h
  | none => (List.range (s.rf Reg.weirHandleCount F.weirHandleCount_COUNT)).findSome? fun n =>
      let h := s.readHandle n
      if h.attr.testBit 0 && h.covers va then some h else none

/-- The bytes of the scale-state object from its address on; an address in no object has none. -/
def State.scaleRoom (s : State) (j : Job) : Nat :=
  match s.objectAt j j.cert.scaleVa with
  | some h => h.baseVa + h.bytes - j.cert.scaleVa
  | none => 0

/-- The header is well formed and its tables lie in the object (R381, R389). -/
def ScaleHdr.ok (h : ScaleHdr) (room : Nat) : Bool :=
  h.magic == 0x53435354 && h.version == 0x0100 && decide (1 ≤ h.tensors) && decide (h.tensors ≤ 1024) &&
  decide (h.binds ≤ 4096) && decide (16 ≤ h.logs) && decide (h.logs ≤ 4096) && h.resv == 0 && h.tOff % 32 == 0 &&
  h.bOff % 16 == 0 && h.lOff % 16 == 0 && decide (h.tOff + 32 * h.tensors ≤ room) &&
  decide (h.bOff + 16 * h.binds ≤ room) && decide (h.lOff + 16 * h.logs ≤ room)

/-- What the Weir reads of a scale-state object at a job's first dispatch (R386). -/
structure ScaleRead where
  hdr : ScaleHdr
  binds : List Bind
  /-- TFLAGS, ADJ and EPOCH of each tensor that a binding names. -/
  tens : List (Nat × Nat × Int × Nat)
deriving DecidableEq, Repr

/-- The entry of a tensor: TFLAGS, ADJ, EPOCH. -/
def State.readTensor (s : State) (va t : Nat) : Option (Nat × Nat × Int × Nat) × State :=
  match s.vread Who.walker (va + 32 * t) 32 with
  | (some (b, _), s) => (some (t, u8 b 0, sext 8 (u8 b 1), u16 b 2), s)
  | (none, s) => (none, s)

/-- The Weir reads the header, the bindings and their tensors; none where a translation faults. -/
def State.readScale (s : State) (j : Job) : Option ScaleRead × State :=
  let va := j.cert.scaleVa
  match s.vread Who.walker va 32 with
  | (none, s) => (none, s)
  | (some (hb, _), s) =>
    let h := ScaleHdr.parse hb
    if !h.ok (s.scaleRoom j) then (some ⟨h, [], []⟩, s) else
    match s.vread Who.walker (va + h.bOff) (16 * h.binds) with
    | (none, s) => (none, s)
    | (some (bb, _), s) =>
      let bs := (List.range h.binds).map fun i => Bind.parse (bb.drop (16 * i))
      let ids := ((bs.flatMap Bind.tensors).filter (· < h.tensors)).eraseDups
      let r := ids.foldl (fun (r : Option (List (Nat × Nat × Int × Nat)) × State) t =>
        match r.1, r.2.readTensor (va + h.tOff) t with
        | some l, (some e, s) => (some (l ++ [e]), s)
        | _, (_, s) => (none, s)) (some [], s)
      match r.1 with
      | some l => (some ⟨h, bs, l⟩, r.2)
      | none => (none, r.2)

/-- The descriptor that a binding names, from the job's program. -/
def State.bindDesc (s : State) (j : Job) (b : Bind) : Option DrainDesc :=
  if j.cert.layerCount ≤ b.layer then none else
  match s.progLayer j b.layer with
  | none => none
  | some l => dsetDesc (s.progSet j true l.2.2.2) b.dcd

/-- ADJ of a tensor in a list of entries, 0 for none. -/
def ScaleRead.adj (r : ScaleRead) (t : Nat) : Int :=
  match r.tens.find? fun e => e.1 == t with
  | some e => e.2.2.1
  | none => 0

/-- The effective exponents of a descriptor under a binding (R387). -/
def DrainDesc.eff (d : DrainDesc) (aOut aIn aRes : Int) : Eff :=
  { shift := d.shift + aOut - aIn, aIn := aIn, resShift := (d.resShift : Int) + aRes - aOut }

/-- The exponents of a descriptor without a binding. -/
def DrainDesc.plainEff (d : DrainDesc) : Eff := { shift := d.shift, resShift := d.resShift }

/-- A binding keeps the rules of R389 that concern it alone. -/
def ScaleRead.bindOk (r : ScaleRead) (b : Bind) (d : Option DrainDesc) : Bool :=
  match d with
  | none => false
  | some d =>
    let adapt := r.tens.any fun e => e.1 == b.outT && e.2.1.testBit 0
    let e := d.eff (r.adj b.outT) (r.adj b.inT) (r.adj b.resT)
    b.tensors.all (· < r.hdr.tensors) &&
    (!adapt || (d.zp == 0 && decide (d.fmt ≤ 2) && !(d.hasAct && d.actTable))) &&
    decide (-32 ≤ e.shift) && decide (e.shift ≤ 31) && decide (0 ≤ e.resShift) && decide (e.resShift ≤ 31)

/-- No two bindings name one descriptor, and no statistics slot of one layer feeds two tensors (R389). -/
def bindsDistinct (l : List (Bind × Option DrainDesc)) : Bool :=
  allDistinct (l.map fun p => p.1.layer * 256 + p.1.dcd) &&
  l.all fun p => l.all fun q => match p.2, q.2 with
    | some d, some e => !(p.1.layer == q.1.layer && d.stats && e.stats && d.statSlot == e.statSlot &&
        p.1.outT != 0xFFFF && q.1.outT != 0xFFFF && p.1.outT != q.1.outT)
    | _, _ => true

/-- Every check of R389 passes. -/
def State.scaleOk (s : State) (j : Job) (r : ScaleRead) : Bool :=
  let ds := r.binds.map fun b => (b, s.bindDesc j b)
  r.hdr.ok (s.scaleRoom j) && ds.all (fun p => r.bindOk p.1 p.2) && bindsDistinct ds &&
  r.tens.all fun e => decide (e.2.2.1.natAbs ≤ s.satBound)

/-- The snapshot that a job keeps (R386, R390). -/
def State.snapScale (s : State) (j : Job) (r : ScaleRead) : List ScaleEnt :=
  r.tens.map fun e =>
    let wr := r.binds.filter fun b => b.outT == e.1
    let top := wr.foldl (fun m b => match s.bindDesc j b with
      | some d => max m (outRange d.fmt).2.toNat
      | none => m) 0
    { tensor := e.1, adj := e.2.2.1, epoch := e.2.2.2, lmax := top, out := !wr.isEmpty }

/-- The job's ADJ of a tensor, 0 for none. -/
def Job.adjOf (j : Job) (t : Nat) : Int :=
  match j.scale.find? fun e => e.tensor == t with
  | some e => e.adj
  | none => 0

/-- The effective exponents of descriptor i of a layer of a job (R387). -/
def Job.effOf (j : Job) (layer i : Nat) (d : DrainDesc) : Eff :=
  match j.binds.find? fun b => b.layer == layer && b.dcd == i with
  | some b => d.eff (j.adjOf b.outT) (j.adjOf b.inT) (j.adjOf b.resT)
  | none => d.plainEff

/-- The tensor that a statistics slot of a layer feeds, if any (R388). -/
def Job.slotTensor (j : Job) (set : List Byte) (layer slot : Nat) : Option Nat :=
  (j.binds.find? fun b => b.layer == layer && b.outT != 0xFFFF && match dsetDesc set b.dcd with
    | some d => d.stats && d.statSlot == slot
    | none => false).map Bind.outT

/-- Frame totals with a statistics slot added (R388). -/
def ScaleEnt.add (e : ScaleEnt) (t : Stat) : ScaleEnt :=
  { e with sat := min (e.sat + t.sat) (2 ^ 32 - 1), elems := min (e.elems + t.elems) (2 ^ 32 - 1),
           maxabs := max e.maxabs t.maxabs }

/-- A layer's statistics are added to its job's frame totals (R388). -/
def Job.addStats (j : Job) (set : List Byte) (layer : Nat) (stats : Table Stat) : Job :=
  { j with scale := j.scale.map fun e => stats.foldl (fun e p =>
      if j.slotTensor set layer p.1 == some e.tensor then e.add p.2 else e) e }

/-! The update at the end of a frame (R390 to R394). -/

/-- The signed byte of an ADJ. -/
def adjByte (a : Int) : Nat := wrapN 8 a

/-- An event of a job's tensor (R394). -/
def State.tensorEvent (s : State) (j : Job) (type detail : Nat) : State :=
  s.raise { ring := .ctx j.slot, gts := s.gts, source := 0, type := type, detail := detail, cookie := j.cookie,
            ctxId := j.ctxId }

/-- What R390 makes of a tensor entry's ADJ and CALM_RUN. -/
def nextAdj (bound recover calmRun : Nat) (adj : Int) (crossed calm : Bool) : Int × Nat :=
  if crossed then (if -(bound : Int) < adj then adj - 1 else adj, 0)
  else if calm then
    let c := min (calmRun + 1) 65535
    if 0 < recover && recover ≤ c && adj < (bound : Int) then (adj + 1, 0) else (adj, c)
  else (adj, 0)

/-- A log entry is written and LOG_HEAD incremented (R384). `h`: the offsets of the tables and LOG_ENTRIES as R386 read them. -/
def State.scaleLog (s : State) (va : Nat) (h : Nat × Nat × Nat) (gts t : Nat) (old new : Int) (cookie : Nat) : State :=
  match s.vread Who.walker (va + 0xC) 4 with
  | (none, s) => s.xlateFault 0x610
  | (some (hb, _), s) =>
    let head := u32 hb 0
    let w := s.vwrite Who.walker (va + h.2.1 + 16 * (head % h.2.2))
      (leBytes gts 8 ++ leBytes t 2 ++ leBytes (adjByte old) 1 ++ leBytes (adjByte new) 1 ++ leBytes cookie 4)
    (w.2.vwrite Who.walker (va + 0xC) (leBytes (head + 1) 4)).2

/-- One tensor of a DONE job is updated (R390, R391, R393). -/
def State.updateTensor (s : State) (j : Job) (gts : Nat) (e : ScaleEnt) : State :=
  let va := j.cert.scaleVa + j.scaleHdr.1 + 32 * e.tensor
  match s.vread Who.walker va 32 with
  | (none, s) => s.xlateFault 0x610
  | (some (b, _), s) =>
    let on := s.detOn Sat.det
    let each := s.rf (Reg.detCtl Sat.det) F.detCtl_EVENT_EACH == 1
    let adj := sext 8 (u8 b 1)
    let epoch := u16 b 2
    let crossed := decide (s.satRatio * e.elems < e.sat * 65536)
    let wasCrossed := (u8 b 6).testBit 0
    let s := if on && crossed && (each || !wasCrossed) then
        (s.detCount ⟨Sat.det, Kind.occurrence, 2, j.fountain, false⟩).tensorEvent j Ev.saturation
          (e.tensor * 65536 + min e.sat 0xFFFF)
      else s
    let calm := e.sat == 0 && decide (e.maxabs * 4 ≤ e.lmax)
    let moves := on && (u8 b 0).testBit 0 && epoch == e.epoch
    let (new, run) := if moves then nextAdj s.satBound s.satRecover (u16 b 4) adj crossed calm else (adj, u16 b 4)
    let ep := if new = adj then epoch else (epoch + 1) % 65536
    let w := s.vwrite Who.walker va
      (leBytes (u8 b 0) 1 ++ leBytes (adjByte new) 1 ++ leBytes ep 2 ++ leBytes run 2 ++ leBytes (b2n crossed) 1 ++
       leBytes (u8 b 7) 1 ++ leBytes e.maxabs 4 ++ leBytes e.sat 4 ++ leBytes e.elems 4 ++ leBytes gts 8)
    if !w.1 then w.2.xlateFault 0x610
    else if new = adj then w.2
    else (w.2.scaleLog j.cert.scaleVa j.scaleHdr gts e.tensor adj new j.cookie).tensorEvent j Ev.scaleChange
      (e.tensor * 65536 + adjByte adj * 256 + adjByte new)

/-- A tensor entry placed in ascending index order. -/
def insertEnt (e : ScaleEnt) : List ScaleEnt → List ScaleEnt
  | [] => [e]
  | x :: l => if x.tensor < e.tensor then x :: insertEnt e l else e :: x :: l

/-- Before a DONE final record the tensors that the job binds as OUT_T are updated, in ascending order (R390). -/
def State.updateScale (s : State) (j : Job) (gts : Nat) : State :=
  let outs := (j.scale.filter ScaleEnt.out).foldr insertEnt []
  outs.foldl (fun s e => s.updateTensor j gts e) s

end Sys2Proof.Machine
end

