-- ==== Sys2Proof/Machine/Dispatching.lean ====
section
/-! DEFINITION. Sys2Proof/Machine/Dispatching.lean: which layer runs next, and its dispatch (spec/08 R401, R405, R411,
R415, R427, R438 to R447; spec/04 R204, R257 to R259; spec/05 R298, R310, R327; spec/07 R386, R389). -/
namespace Sys2Proof.Machine

/-! What a layer waits for. -/

/-- The entries of the sync table that a layer lists. -/
def Cert.syncsOf (c : Cert) (layer : Nat) : List CertSync := c.syncs.filter fun y => y.layer == layer

/-- The producer's layer of a wait has committed: its job has got past it, or has ended (R63 ends the waiting job where it
ended without setting the flag). -/
def State.produced (s : State) (p : Nat × Nat × Nat × Bool) : Bool :=
  match s.pending? p.1 with
  | some k => match k.lastCommit with
    | some l => decide (p.2.1 ≤ l)
    | none => false
  | none => true

/-- R415 allows a guaranteed layer: the producers' layers have committed and the flags have their values. -/
def State.waitsMet (s : State) (j : Job) (layer : Nat) : Bool :=
  (j.cert.syncsOf layer).all fun y => y.isSet ||
    ((j.producers.filter fun p => p.2.2.1 == y.gate && p.2.2.2 == y.value).all s.produced && s.gateFlag y.gate == y.value)

/-- A layer of the job is on some engine. -/
def State.jobRuns (s : State) (id : Nat) : Bool := !(s.enginesOf id).isEmpty

/-- The first segment of a layer, if the program has the layer (R264). -/
def State.firstSeg (s : State) (j : Job) (layer : Nat) : Option Nat := (s.progLayer j layer).map fun l => l.1

/-- The layer's first segment is loaded in the inactive bank of its Fountain (R259). -/
def State.segReady (s : State) (j : Job) (layer : Nat) : Bool :=
  let x := s.ftn j.fountain
  x.swapPending && match s.firstSeg j layer with
    | some g => x.pend == some (j.id, layer, g)
    | none => false

/-- The job is the one that its queue runs now: best-effort jobs of one queue run one at a time, in submission order
(R447). -/
def State.queueTurn (s : State) (j : Job) : Bool :=
  j.guar || match s.pendingJobs.find? fun k => !k.guar && k.slot == j.slot && k.queue == j.queue && k.doneAt.isNone with
    | some k => k.id == j.id
    | none => false

/-- A job's next layer is ready for its engine, but for the segment that a Fountain needs (R310, R415, R438). -/
def State.nextOk (s : State) (j : Job) (kind : Nat) : Bool :=
  j.doneAt.isNone && !s.jobRuns j.id && s.queueTurn j && (!j.guar || j.granted) &&
  (match s.layerEnt j j.nextLayer with
   | some e => e.kind == kind
   | none => kind == 1) &&
  s.pagesReady j j.nextLayer && (!j.guar || s.waitsMet j j.nextLayer)

/-- A job's next layer is ready for its Fountain (R438, R259). -/
def State.ftnReady (s : State) (j : Job) : Bool := s.nextOk j 1 && s.segReady j j.nextLayer

/-- The deadline by which a guaranteed job's next layer is dispatched: part A takes P (R439). -/
def Job.dispatchDeadline (j : Job) : Nat :=
  match j.cert.firstWait with
  | some w => if j.nextLayer < w then j.partBDeadline else j.deadline
  | none => j.deadline

/-- The job of the earliest dispatch deadline; ties by acceptance, which is the list's order. -/
def earliest (l : List Job) : Option Job :=
  l.foldl (fun b j => match b with
    | none => some j
    | some k => if j.dispatchDeadline < k.dispatchDeadline then some j else some k) none

/-- A guaranteed job of a Fountain runs, or waits for, a Skimmer layer (R439). -/
def State.skimHolds (s : State) (f : Nat) : Bool :=
  s.guarJobs.any fun j => j.fountain == f && (match s.skim.run with
    | some r => r.job == j.id || s.nextOk j 2
    | none => s.nextOk j 2)

/-! Best-effort shares (R444 to R446). -/

/-- The virtual time of a slot on an engine. -/
def State.vt (s : State) (slot e : Nat) : Nat := Table.get 0 (s.ctx slot).vt e

/-- The best-effort jobs with a ready layer on an engine. -/
def State.beReady (s : State) (e : Nat) : List Job :=
  s.pendingJobs.filter fun j => !j.guar && (if e = Eng.skim then s.nextOk j 2 else j.fountain == e && s.ftnReady j)

/-- The slots of a list of jobs, in ascending order. -/
def slotsOrder (l : List Job) : List Nat := (List.range 48).filter fun k => l.any fun j => j.slot == k

/-- The context that an engine serves next among those of a list of jobs (R444, R445). -/
def State.chooseSlot (s : State) (e : Nat) (l : List Job) : Option Nat :=
  let all := slotsOrder l
  let paid := all.filter fun k => (s.ctx k).share != 0
  (if paid.isEmpty then all else paid).foldl (fun b k => match b with
    | none => some k
    | some m => if s.vt k e < s.vt m e then some k else some m) none

/-- The queue of a context that an engine serves next: in turn, in ascending order (R444). -/
def State.chooseQueue (s : State) (e slot : Nat) (l : List Job) : Option Job :=
  let start := match Table.get 0 s.weir.lastQueue (slot * 8 + e) with
    | 0 => 0
    | n + 1 => n + 1
  ((List.range 8).map fun i => (start + i) % 8).findSome? fun q => l.find? fun j => j.slot == slot && j.queue == q

/-- The best-effort job that an engine takes a layer of (R444). -/
def State.chooseBe (s : State) (e : Nat) (l : List Job) : Option Job :=
  match s.chooseSlot e l with
  | some k => s.chooseQueue e k l
  | none => none

/-- The turn of a queue is taken; the table holds the queue after 1. -/
def State.tookQueue (s : State) (e : Nat) (j : Job) : State :=
  if j.guar then s else
  { s with weir := { s.weir with lastQueue := Table.put 0 s.weir.lastQueue (j.slot * 8 + e) (j.queue + 1) } }

/-- A context that gains a ready layer on an engine on which it had none has its VT raised (R446); the VT of a context with SHARE 0 does not change (R445). -/
def State.raiseVt (s : State) (e slot : Nat) (others : List Nat) : State :=
  match (others.map fun k => s.vt k e).min? with
  | none => s
  | some m =>
    if s.vt slot e < m ∧ (s.ctx slot).share ≠ 0 then s.setCtx slot { s.ctx slot with vt := Table.put 0 (s.ctx slot).vt e m } else s

/-- The contexts with ready layers on an engine are looked at again (R446). -/
def State.noteEngine (s : State) (e : Nat) : State :=
  let now := slotsOrder (s.beReady e)
  let was := s.weir.hadReady
  let s := (now.filter fun k => !was.contains (k * 8 + e)).foldl (fun s k => s.raiseVt e k (now.filter (· != k))) s
  { s with weir := { s.weir with hadReady := was.filter (fun x => x % 8 != e) ++ now.map fun k => k * 8 + e } }

/-- Every engine's ready contexts are looked at again. -/
def State.noteReady (s : State) : State := [0, 1, 2, 3, 4].foldl State.noteEngine s

/-! The dispatch check (R405). -/

/-- The outputs below OUTPUT_COUNT that a layer writes last, with bit 16 where one has appeared before. -/
def outsAfter (count seen last : Nat) : Nat :=
  let new := last % 2 ^ count
  (seen ||| new) ||| (if seen % 65536 &&& new = 0 then 0 else 65536)

/-- What R405 requires of the last layer: the sums, the Skimmer layers and the outputs. -/
def Job.lastOk (j : Job) (e : CertLayer) : Bool :=
  let sk := e.kind == 2
  let outs := outsAfter j.cert.outputCount j.outSeen e.outLast
  let want := 2 ^ j.cert.outputCount - 1
  (if sk then j.cycSum else j.cycSum + e.bound) == j.cert.sumCyc &&
  (if sk then j.skimSum + e.bound else j.skimSum) == j.cert.sumSkim &&
  (if sk then j.skimSeen + 1 else j.skimSeen) == j.cert.skimLayers &&
  outs < 65536 && outs &&& want == want

/-- Every check of R405 passes for a layer. -/
def Job.layerOk (j : Job) (n : Nat) (e : CertLayer) : Bool :=
  let sk := e.kind == 2
  let unit := if e.carry then j.unitSum + e.bound else e.bound
  (e.kind == 1 || sk) && decide (e.bound ≤ if sk then j.cert.maxSkim else j.cert.maxCyc) &&
  (if sk then decide (j.skimSum + e.bound ≤ j.cert.sumSkim)
   else decide (j.cycSum + e.bound ≤ j.cert.sumCyc) && decide (unit ≤ j.cert.maxUnit) && decide (e.held ≤ 16)) &&
  (if e.streaming then e.firstTile == j.nextTile && decide (e.firstTile + e.tiles ≤ j.cert.tileCount) else true) &&
  (n + 1 != j.cert.layerCount || j.lastOk e)

/-- What a commit changes in its job (R36, R405). -/
def Job.committed (j : Job) (layer : Nat) (e : CertLayer) : Job :=
  let sk := e.kind == 2
  { j with
    nextLayer := layer + 1
    lastCommit := some layer
    outBits := j.outBits ||| (e.outLast % 2 ^ j.cert.outputCount)
    cycSum := if sk then j.cycSum else j.cycSum + e.bound
    skimSum := if sk then j.skimSum + e.bound else j.skimSum
    unitSum := if sk then 0 else if e.carry then j.unitSum + e.bound else e.bound
    skimSeen := if sk then j.skimSeen + 1 else j.skimSeen
    nextTile := if e.streaming then e.firstTile + e.tiles else j.nextTile
    tileDone := if e.streaming then max j.tileDone (e.firstTile + e.tiles) else j.tileDone
    outSeen := outsAfter j.cert.outputCount j.outSeen e.outLast
    lastBound := e.bound }

/-- A job's scale-state object is read and checked at its first dispatch (R386, R389): the fault code where it fails. -/
def State.bindScale (s : State) (j : Job) : Option Nat × State :=
  if j.started || j.cert.scaleVa == 0 then (none, s) else
  match s.readScale j with
  | (none, s) => (some Pf.xlate, s)
  | (some r, s) =>
    if s.scaleOk j r then
      (none, s.modJob j.id fun j => { j with
        scale := s.snapScale j r, binds := r.binds, scaleHdr := (r.hdr.tOff, r.hdr.lOff, r.hdr.logs) })
    else (some Pf.scaleBind, s)

/-- A fault before a layer is on its engine: FTN_FAULT of the job's Fountain takes it, with ADDR 0; the job ends with
CERT_OVERRUN (R254, R389). The spec states no BANK for it, so that bit is a free value (log entry 6). -/
def State.dispatchFault (s : State) (j : Job) (code : Nat) : State :=
  let (v, s) := s.draw 4
  let s := if s.rf (Reg.ftnFault j.fountain) F.ftnFault_VALID = 1 then s else
    s.wn (Reg.ftnFault j.fountain) (2 ^ 31 + code * 2 ^ 24 + v % 2 * 2 ^ 12)
  s.endWith j.id St.certOverrun

/-- A layer lists a POISON page (R315). -/
def State.listsPoison (s : State) (j : Job) (layer : Nat) : Bool :=
  (j.pagesOf layer).any fun p => !p.ofJet && match s.pageFor j p with
    | some n => (s.page n).poison
    | none => false

/-! The dispatch itself. -/

/-- FTN_BUDGET of a layer: BOUND − 96, or 1,000 where the injection of R642 says so. -/
def State.layerBudget (s : State) (f bound : Nat) : Nat × State :=
  match s.inject 0x17 0 8 f with
  | (some _, s) => (1000, s)
  | (none, s) => (bound - 96, s)

/-- The registers of a Fountain and of its cores are written anew: a parity failure of one is past (R659, R660). -/
def State.rewriteRegs (s : State) (f : Nat) : State :=
  let mine := fun off => off / 0x100000 == 4 + f || (off / 0x100000 == 8 && (s.ftnCores f).contains (off / 0x10000 % 16))
  { s with integ := { s.integ with parBad := s.integ.parBad.filter fun off => !mine off } }

/-- The Fountain's state at a layer start (R204): registers, cores, sets and view map. The tiles and vector registers are written
in full, which clears the errors stored in them (R649). -/
def State.layerStart (s : State) (f : Nat) (j : Job) (layer : Nat) (e : CertLayer) : State :=
  let (budget, s) := s.layerBudget f e.bound
  let sets := (s.progLayer j layer).getD (0, 0, 0, 0)
  let x := s.ftn f
  let s := s.setFtn f { x.clear with
    rillSet := s.progSet j false sets.2.2.1, drainSet := s.progSet j true sets.2.2.2,
    segCount := sets.2.1, view := s.viewMap j layer, carryOf := none }
  let s := ((s.onCores f Core.clear).setPw f j.cert.pw).rewriteRegs f
  let s := (s.ftnCores f).foldl (fun s c => (s.writeEcc Mc.acc c 0 32768).writeEcc Mc.vreg c 0 8192) s
  ((s.wn (Reg.ftnBudget f) budget).wn (Reg.ftnCycles f) 0).wn (Reg.ftnWait f) 0

/-- A layer is put on its Fountain: the banks swap and the layer starts (R204, R258). `j`: the job with the layer as its next. -/
def State.dispatchFtn (s : State) (f : Nat) (j : Job) (e : CertLayer) : State :=
  let s := s.setFtn f { (s.ftn f).swap with
    run := some { job := j.id, layer := j.nextLayer, ent := e, dispatchGts := s.gts } }
  let s := (s.layerStart f j j.nextLayer e).modJob j.id fun j => { j with started := true }
  s.tookQueue f j

/-- The Weir dispatches a job's next layer to its Fountain, if its checks pass (R310, R315, R389, R401, R405). -/
def State.dispatchLayer (s : State) (f : Nat) (j : Job) : State :=
  if s.listsPoison j j.nextLayer then s.failJob j Br.inputLost 2 else
  match s.layerEnt j j.nextLayer with
  | none => s.dispatchFault j Pf.xlate
  | some e =>
    if !j.layerOk j.nextLayer e then s.endWith j.id St.certOverrun else
    if (s.progLayer j j.nextLayer).isNone then s.dispatchFault j Pf.xlate else
    match s.bindScale j with
    | (some code, s) => s.dispatchFault j code
    | (none, s) =>
      match s.pending? j.id with
      | some j => s.dispatchFtn f j e
      | none => s

/-- The job of a Fountain whose next layer is a carry layer of a job (R327). -/
def State.carryNext (s : State) (id : Nat) : Option Nat :=
  match s.pending? id with
  | some k => match s.layerEnt k k.nextLayer with
    | some n => if n.kind = 1 ∧ n.carry then some k.id else none
    | none => none
  | none => none

/-- The layer that R439 chooses for an idle Fountain: a carry layer's job, the guaranteed layer of the earliest deadline, or
a best-effort layer. -/
def State.chooseLayer (s : State) (f : Nat) : Option Job :=
  match (s.ftn f).carryOf with
  | some id => match s.pending? id with
    | some j => if s.ftnReady j then some j else none
    | none => none
  | none =>
    match earliest (s.guarJobs.filter fun j => j.fountain == f && s.ftnReady j) with
    | some j => some j
    | none =>
      if s.skimHolds f then none else
      let l := s.beReady f
      let l := if s.guarOn f then l.filter fun j => match s.layerEnt j j.nextLayer with
          | some e => decide (s.floorNs e.bound ≤ s.beMaxNs f)
          | none => true
        else l
      s.chooseBe f l

/-- A Fountain may be given a layer: it exists, has none, and HOST_IMEM is 0 (R262). -/
def State.ftnFree (s : State) (f : Nat) : Bool :=
  decide (0 < s.ftnSize f) && (s.ftn f).run.isNone && (s.ftn f).ovl.isNone && s.rf (Reg.ftnCtrl f) F.ftnCtrl_HOST_IMEM == 0

/-! The dispatch that overlaps a commit (R411, R412). -/

/-- The layer of a Fountain that LAYER_COMMIT commits: the one whose commit a dispatch overlaps, or the one that runs and has
reached its COMMIT bundle with no fault charged. -/
def Fountain.committer (x : Fountain) : Option Over :=
  match x.ovl with
  | some o => some o
  | none => match x.run with
    | some r =>
      if r.stoppedAt.isNone && x.committing then
        some { run := r, held := x.held, tileNow := x.tileNow, stats := x.stats, drainSet := x.drainSet }
      else none
    | none => none

/-- The store Rills of a Fountain that a program feeds from the Basin have made all their stores (R35, R41, R269); what the drain
chain holds is waited for at COMMIT (R238, R248; log entry 137). -/
def State.storesLanded (s : State) (f : Nat) : Bool :=
  (s.ftnCores f).all fun c => [4, 5].all fun r =>
    let q : Rill := Table.get {} (s.core c).rills r
    !(q.st == 1 || q.st == 3) || match rillProg (s.ftn f).rillSet q.prog with
      | some p => p.lspace == Sp.drain || decide (p.total ≤ q.idx)
      | none => true

/-- The stores of a Fountain have landed, the last of them 32 ns ago with no fault reported since (R35, R632). -/
def State.storesQuiet (s : State) (f : Nat) : Bool :=
  s.storesLanded f && (s.ftn f).storeAt.all fun t => decide (t + 32 ≤ s.gts)

/-- The conditions of R35 hold for the layer on a Fountain, all its requested tiles have committed, and no dispatch overlaps its
commit yet: a dispatch may (R411). -/
def State.ftnOverlaps (s : State) (f : Nat) : Option Over :=
  let x := s.ftn f
  if 0 < s.ftnSize f ∧ x.ovl = none ∧ x.tileReqs = 0 ∧ s.storesQuiet f = true ∧ s.rf (Reg.ftnCtrl f) F.ftnCtrl_HOST_IMEM = 0 then
    x.committer.map fun o => { o with cycles := s.rn (Reg.ftnCycles f) }
  else none

/-- The Weir's view of its jobs as the layer on a Fountain commits: the layer counts as committed and the Fountain as free, but a
producer's layer has not committed yet (R415). -/
def State.asCommitted (s : State) (f : Nat) (o : Over) : State :=
  let s := s.setFtn f { s.ftn f with run := none }
  let s := s.modJob o.run.job fun j =>
    let k := j.committed o.run.layer o.run.ent
    { k with lastCommit := j.lastCommit, doneAt := if k.nextLayer < k.cert.layerCount then none else some s.gts }
  s.setFtn f { s.ftn f with carryOf := s.carryNext o.run.job }

/-- A job's next layer passes every check of its dispatch, with no translation still to be made (R315, R389, R405). -/
def State.dispatchSure (s : State) (j : Job) : Bool :=
  !s.listsPoison j j.nextLayer && (j.started || j.cert.scaleVa == 0) && (s.progLayer j j.nextLayer).isSome &&
  match s.layerEnt j j.nextLayer with
  | some e => j.layerOk j.nextLayer e
  | none => false

/-- A layer is dispatched over the commit of the layer on its Fountain (R411). -/
def State.dispatchOver (s : State) (f : Nat) (o : Over) : State :=
  let v := s.asCommitted f o
  match v.chooseLayer f with
  | none => s
  | some j =>
    match v.dispatchSure j, v.layerEnt j j.nextLayer with
    | true, some e => (s.setFtn f { s.ftn f with ovl := some o }).dispatchFtn f j e
    | _, _ => s

/-- LAYER_DISPATCH (R411, R439). A carry job that has ended leaves its Fountain free for any layer. -/
def State.layerDispatch (s : State) (f : Nat) : State :=
  match s.ftnOverlaps f with
  | some o => s.checkEntries.grantAll.noteReady.dispatchOver f o
  | none =>
    if !s.ftnFree f then s else
    let s := s.checkEntries.grantAll.noteReady
    let x := s.ftn f
    let s := match x.carryOf with
      | some id => if (s.pending? id).isNone then s.setFtn f { x with carryOf := none } else s
      | none => s
    match s.chooseLayer f with
    | some j => s.dispatchLayer f j
    | none => s

/-- SEGMENT_LOADED: the Weir has written a segment of a job's layer into the inactive bank (R257, R259). It loads the next
segments of the running layer, or the first of a layer that it will dispatch. -/
def State.segmentLoaded (s : State) (f job layer seg : Nat) : State :=
  match s.pending? job with
  | none => s
  | some j =>
    if j.fountain != f || s.ftnSize f == 0 then s else
    match s.progLayer j layer, s.segment j seg with
    | some l, some (va, n) =>
      let x := s.ftn f
      let runs := match x.run with
        | some r => r.job == job && r.layer == layer
        | none => false
      let fits := if runs then decide (l.1 < seg) && decide (seg < l.1 + l.2.1) && decide (layer < j.cert.layerCount)
        else layer == s.firstWaiting j && seg == l.1 && decide (layer < j.cert.layerCount)
      if !fits || n == 0 || 4096 < n then s else
      match s.vread Who.walker va (32 * n) with
      | (none, s) => s.dispatchFault j Pf.xlate
      | (some (b, _), s) =>
        let bank := 1 - x.bank
        let s := s.writeEcc Mc.imem f (bank * 0x20000) (32 * n)
        let x := s.ftn f
        let x := if bank = 0 then { x with imem0 := Mem.wrBytes x.imem0 0 b } else { x with imem1 := Mem.wrBytes x.imem1 0 b }
        (s.setFtn f { x with swapPending := true, pend := some (job, layer, seg), pendCount := n }).noteReady
    | _, _ => s

def execLayerDispatch (f : Nat) (s : State) :=
  onFabric s (guarded (decide (f < 4) && !s.integ.protective) fun s => s.layerDispatch f)
def execSegmentLoaded (f job layer seg : Nat) (s : State) :=
  onFabric s (guarded (decide (f < 4) && s.dramServes) fun s => s.segmentLoaded f job layer seg)

end Sys2Proof.Machine
end

