-- ==== Sys2Proof/Machine/Commit.lean ====
section
/-! DEFINITION. Sys2Proof/Machine/Commit.lean: commits, the end of jobs, faults and replays, and the Weir's watches
(spec/01 R35 to R73; spec/08 R401, R416, R427 to R429, R434 to R437, R440, R448, R454 to R456; spec/10 R564). -/
namespace Sys2Proof.Machine

/-- Grants are made, best-effort pages kept within their number, and ready contexts looked at, after a change of the Weir's jobs
(R420, R435, R446). -/
def State.settle (s : State) : State := (State.trimBe s.pages.length s.grantAll).noteReady

/-! Held effects (R38, R41, R240, R244, R829). -/

/-- Tile n's bit of a job's progress bitmap is set (R42). -/
def State.setProgress (s : State) (j : Job) (n : Nat) : State :=
  if j.progressVa = 0 then s else
  let a := j.progressVa + n / 8
  match s.vread Who.walker a 1 with
  | (none, s) => s.xlateFault 0x610
  | (some (b, _), s) =>
    let w := s.vwrite Who.walker a [BitVec.ofNat 8 (leNat b ||| 2 ^ (n % 8))]
    if w.1 then w.2 else w.2.xlateFault 0x610

/-- A released SETF that fails at the GATE block: the pending guaranteed jobs that wait on it end (R63, R829). -/
def State.lostFlag (s : State) (id g : Nat) (v : Bool) : State :=
  s.endAll ((s.guarJobs.filter fun k => k.producers.any fun p => p.1 == id && p.2.2 == (g, v)).map
    fun k => (k.id, St.breach, Br.producerFailed))

/-- One held effect of a job's layer is released (R240, R244). -/
def State.releaseOne (f : Nat) (j : Job) (s : State) (h : Held) : State :=
  match h with
  | .tile => s
  | .evt code => s.raise { ring := .ctx j.slot, gts := s.gts, source := 32 + f, type := Ev.program,
                           detail := f * 2 ^ 30 + code, cookie := j.cookie, ctxId := j.ctxId }
  | .setf g v =>
    let r := s.flagWrite g f v true
    if r.1 then r.2.modJob j.id fun k => { k with sets := (g, v) :: k.sets } else r.2.lostFlag j.id g v

/-- Held effects of the tiles of a layer, tile n first, are released in order of issue; those of tiles that had committed
before a replay are discarded (R43, R44). The effects after the last mark are the layer's own. -/
def State.releaseTiles (f : Nat) (j : Job) (s : State) (n : Nat) : List Held → State
  | [] => s
  | .tile :: l => State.releaseTiles f j s (n + 1) l
  | h :: l =>
    let own := !(l.contains .tile)
    State.releaseTiles f j (if own || decide (j.tileDone ≤ n) then State.releaseOne f j s h else s) n l

/-! Commits (R35 to R44). -/

/-- A job whose last layer has committed, and whose outputs are in DRAM, ends with DONE (R65, R313, R390). -/
def State.endDone (s : State) (id : Nat) : State :=
  match s.pending? id with
  | none => s
  | some j => (s.updateScale j (j.doneAt.getD s.gts)).endWith id St.done

/-- After a commit: a job whose last layer has committed ends, once its output pages are written back (R313). -/
def State.afterCommit (s : State) (id : Nat) : State :=
  match s.pending? id with
  | none => s
  | some j =>
    if j.nextLayer < j.cert.layerCount then s else
    let s := s.modJob id fun k => { k with doneAt := some s.gts }
    if s.dirtyOutputs j = 0 then s.endDone id else s.writeOutputs j

/-- A guaranteed job's deadline has passed without its end: nothing of it commits any more (R30, R60). -/
def State.overdue (s : State) (j : Job) : Bool := j.guar && j.doneAt.isNone && decide (j.deadline < s.gts)

/-- The effects of a commit (R36 to R38, R42, R43, R388): tiles, held effects, statistics, the job's progress, and the engine
time of its context. -/
def State.commitEffects (s : State) (f : Nat) (j : Job) (o : Over) : State :=
  let e := o.run.ent
  let tiles := if e.streaming then (List.range e.tiles).map (· + e.firstTile) else []
  let s := (tiles.filter fun n => j.tileDone ≤ n).foldl (fun s n => s.setProgress j n) s
  let s := State.releaseTiles f j s (e.firstTile + o.tileNow) o.held
  let s := s.modJob j.id fun k => (k.addStats o.drainSet o.run.layer o.stats).committed o.run.layer e
  s.chargeVt f o.run

/-- LAYER_COMMIT (R35 to R38, R43, R388, R411): the layer on a Fountain has reached its COMMIT bundle with no fault charged, and
commits, or its commit, which a dispatch overlaps, completes. -/
def State.layerCommit (s : State) (f : Nat) : State :=
  let x := s.ftn f
  match x.committer with
  | none => s
  | some o =>
    match s.pending? o.run.job with
    | none => s
    | some j =>
      if x.ovl.isNone && !s.storesQuiet f then s else
      if s.overdue j then s.breach j.id Br.unexplained else
      let s := s.commitEffects f j o
      let s := if x.ovl.isSome then s.setFtn f { s.ftn f with ovl := none } else
        (s.setFtn f { (s.ftn f).halt with run := none, stopped := false, carryOf := s.carryNext j.id }).onCores f Core.halt
      s.releasePages.afterCommit j.id

/-- TILE_COMMIT (R41, R42, R44): the oldest requested tile of the layer on a Fountain. -/
def State.tileCommit (s : State) (f : Nat) : State :=
  let x := s.ftn f
  match x.run with
  | none => s
  | some r =>
    match s.pending? r.job with
    | none => s
    | some j =>
      if r.stoppedAt.isSome || x.tileReqs = 0 || !s.storesQuiet f then s else
      if s.overdue j then s.breach j.id Br.unexplained else
      let n := r.ent.firstTile + x.tileNow
      let own := x.held.takeWhile (· != .tile)
      let s := s.setFtn f { x with held := (x.held.dropWhile (· != .tile)).tail, tileNow := x.tileNow + 1,
                                   tileReqs := x.tileReqs - 1 }
      if n < j.tileDone then s else
      let s := s.setProgress j n
      let s := own.foldl (State.releaseOne f j) s
      s.modJob j.id fun k => { k with tileDone := n + 1 }

/-! Deadlines and watches. -/

/-- DEADLINE_MISS (R60): a pending guaranteed job's deadline has come, or the injection of R642 says so of the earliest. -/
def State.deadlineMiss (s : State) (id : Nat) : State :=
  let s := s.checkEntries
  match s.pending? id with
  | none => s
  | some j =>
    if !j.guar || j.doneAt.isSome then s else
    if j.deadline ≤ s.gts then s.breach id Br.unexplained else
    if s.guarJobs.any fun k => k.deadline < j.deadline then s else
    match s.inject 0x17 0 9 0 with
    | (some _, s) => s.breach id Br.unexplained
    | (none, s) => s

/-- STOP_TIME_REACHED (R13, R14). -/
def State.stopTime (s : State) (id : Nat) : State :=
  match s.pending? id with
  | none => s
  | some j => if !j.guar && j.deadline != 0 && j.deadline ≤ s.gts then s.endWith id St.partial_ else s

/-- BUDGET_EXHAUSTED (R67, R401). -/
def State.budgetOut (s : State) (f : Nat) : State :=
  match (s.ftn f).run with
  | some r =>
    if r.stoppedAt.isNone && !((s.ftn f).committing && s.storesLanded f) && (s.ftn f).started &&
        decide (s.rn (Reg.ftnBudget f) ≤ s.rn (Reg.ftnCycles f)) then s.endWith r.job St.certOverrun else s
  | none => s

/-- SKIMMER_BUDGET_EXHAUSTED (R401). -/
def State.skimBudgetOut (s : State) : State :=
  match s.skim.run with
  | some r =>
    if r.stoppedAt.isNone && decide (r.ent.bound - 64 ≤ s.rn Reg.skimCycles) then s.endWith r.job St.certOverrun else s
  | none => s

/-- A phase target is reached (R33, R541). -/
def State.targetReached (s : State) (p : PhaseDl) : Bool :=
  let d := sdiff48 (s.phase p.input).pos p.target
  if p.up then decide (0 ≤ d) else decide (d ≤ 0)

/-- PHASE_TARGET_CHECK (R564). -/
def State.phaseCheck (s : State) : State :=
  s.endAll ((s.pendingJobs.filter fun j => match j.phase with
    | some p => s.targetReached p
    | none => false).map fun j => (j.id, St.breach, Br.phaseReached))

/-- WAITF_TIMEOUT (R416): a guaranteed layer has held at WAITF for more than 1,000 ns. -/
def State.waitfTimeout (s : State) (f : Nat) : State :=
  match (s.ftn f).run, (s.ftn f).waitf with
  | some r, some (g, v, t) =>
    match s.pending? r.job with
    | some j => if j.guar && s.gateFlag g != v && decide (t + 1000 < s.gts) then s.breach j.id Br.producerFailed else s
    | none => s
  | _, _ => s

/-- BE_WAITF_PREEMPT (R440): a best-effort layer that holds at WAITF gives way to a ready guaranteed layer. -/
def State.waitfPreempt (s : State) (f : Nat) : State :=
  match (s.ftn f).run, (s.ftn f).waitf with
  | some r, some (g, v, _) =>
    match s.pending? r.job with
    | some j =>
      if !j.guar && s.gateFlag g != v && s.guarJobs.any fun k => k.fountain == f && s.ftnReady k then
        let s := s.dropRun f
        s.setFtn f { s.ftn f with stopped := false }
      else s
    | none => s
  | _, _ => s

/-! Faults and replays (R49 to R56). -/

/-- FAULT_CHARGED: a detector reports an occurrence in the working state of the layer on an engine (R56, R632). An ARITH_RESIDUE
failure is counted and logged in its core (R182); the element that the log names is the detector's to find, a free value here (log
entry 6). -/
def State.faultCharged (s : State) (e core det unit index : Nat) (input : Bool) : State :=
  match s.runOf e with
  | none => s
  | some r =>
    if r.stoppedAt.isSome then s else
    let kind := if det = 1 ∨ det = 2 then Kind.uncorrectable else Kind.occurrence
    let s := s.occur ⟨det, kind, unit, index, false⟩
    let s := if det = 0x0B ∧ core < 16 then
        let (v, s) := s.draw 8
        s.residueNote core (v % 4) (v / 4 % 32) (v / 2 ^ 7 % 64) (v / 2 ^ 13 % 16) (v / 2 ^ 17 % 8)
      else s
    let s := if (s.ftnCores e).contains core then s.wf (Reg.coreStatus core) F.coreStatus_FAULT 1 else s
    s.chargeFault e det input

/-- What the refill of a page comes to. -/
inductive Refill where
  | good
  | bad
  | unmapped
deriving DecidableEq, Repr

/-- A weight page of a job whose Cistern copy was struck is filled again (R315, the replay of spec/01): whether its DRAM
copy is bad too, or its translation faults. -/
def State.refill (s : State) (j : Job) (p : CertPage) : Refill × State :=
  match s.pageFor j p with
  | none => (.good, s)
  | some n =>
    let struck := (s.marksIn Mc.cistern 0 (n * 0x10000) 0x10000).any fun e => match e.2 with
      | .double _ | .poison _ => true
      | _ => false
    if !struck then (.good, s) else
    match s.xlateFor (s.page n).who false (j.vpage p * 0x10000) with
    | (none, s) => (.unmapped, s)
    | (some pa, s) =>
      let (bad, s) := s.copyIn n pa
      if bad then (.bad, s.setPage n { s.page n with poison := true }) else (.good, s)

/-- The struck weight pages of a layer are filled again, up to one that cannot be. -/
def State.refillAll (s : State) (j : Job) (layer : Nat) : Refill × State :=
  ((j.pagesOf layer).filter fun p => p.weight && p.ofObj && p.fill).foldl (fun r p =>
    if r.1 = .good then r.2.refill j p else r) (.good, s)

/-- The first segment of a replayed layer stands in the active bank, loaded again if it has left it (R261); false where its
translation faults (R462). -/
def State.reloadSeg (s : State) (f : Nat) (j : Job) (layer : Nat) : Bool × State :=
  match s.firstSeg j layer with
  | none => (false, s)
  | some g =>
    let x := s.ftn f
    if x.active == some (j.id, layer, g) then (true, s.setFtn f { x with pc := 0 }) else
    match s.segment j g with
    | none => (false, s)
    | some (va, n) =>
      match s.vread Who.walker va (32 * n) with
      | (none, s) => (false, s)
      | (some (b, _), s) =>
        let s := s.writeEcc Mc.imem f ((1 - x.bank) * 0x20000) (32 * n)
        let x := s.ftn f
        let x := if x.bank = 1 then { x with imem0 := Mem.wrBytes x.imem0 0 b } else { x with imem1 := Mem.wrBytes x.imem1 0 b }
        (true, s.setFtn f ({ x with pend := some (j.id, layer, g), pendCount := n } : Fountain).swap)

/-- REPLAY_RESTART (R50 to R54, R443): the stopped layer of an engine restarts at its first bundle, with a fresh budget. -/
def State.replayRestart (s : State) (e : Nat) : State :=
  match s.runOf e with
  | none => s
  | some r =>
    match s.pending? r.job with
    | none => s
    | some j =>
      if r.stoppedAt.isNone then s else
      match s.refillAll j r.layer with
      | (.bad, s) => s.failJob j Br.inputLost 2
      | (.unmapped, s) => s.dispatchFault j Pf.xlate
      | (.good, s) =>
      let r' := { r with stoppedAt := none, attempt := r.attempt + 1, dispatchGts := s.gts }
      if e = Eng.skim then
        let s := { s with skim := { s.skim with stopped := false, view := s.viewMap j r.layer } }
        (s.setRun e (some r')).wn Reg.skimCycles 0
      else
        match s.reloadSeg e j r.layer with
        | (false, s) => s.dispatchFault j Pf.xlate
        | (true, s) => (s.setRun e (some r')).layerStart e j r.layer r.ent

/-! The deadlock walk (R454 to R456). -/

/-- A node of the walk: a resident queue. -/
def Job.node (j : Job) : Nat := j.slot * 8 + j.queue

/-- The best-effort jobs that hold a Fountain at WAITF, its flag not yet of the value: the job, the Fountain, the Gate and the
value. -/
def State.holders (s : State) : List (Job × Nat × Nat × Bool) :=
  [0, 1, 2, 3].filterMap fun f => match (s.ftn f).run, (s.ftn f).waitf with
    | some r, some (g, v, _) => match s.pending? r.job with
      | some j => if j.guar || s.gateFlag g == v then none else some (j, f, g, v)
      | none => none
    | _, _ => none

/-- The queues with a queued job whose sync table sets a Gate to a value. -/
def State.setters (s : State) (g : Nat) (v : Bool) : List Nat :=
  let has := fun (c : Cert) => c.syncs.any fun y => y.isSet && y.gate == g && y.value == v
  (s.pendingJobs.filter fun j => has j.cert).map Job.node ++
  (s.weir.intake.filter fun i => match s.readCert i.desc.certVa with
    | some c => has c
    | none => false).map fun i => i.slot * 8 + i.queue

/-- The edges of the wait-for graph (R454). -/
def State.waitEdges (s : State) : List (Nat × Nat) :=
  let hs := s.holders
  let be := s.pendingJobs.filter fun j => !j.guar
  (hs.flatMap fun h => (s.setters h.2.2.1 h.2.2.2).map fun q => (h.1.node, q)) ++
  (hs.flatMap fun h => (be.filter fun j => j.fountain == h.2.1 && s.nextOk j 1).map fun j => (j.node, h.1.node)) ++
  (match s.skim.run with
   | some r => match s.pending? r.job with
     | some k => (be.filter fun j => s.nextOk j 2).map fun j => (j.node, k.node)
     | none => []
   | none => [])

/-- The nodes that a set of nodes reaches, by at most n edges. -/
def reachN (es : List (Nat × Nat)) : Nat → List Nat → List Nat
  | 0, l => l
  | n + 1, l => reachN es n (l ++ (es.filter fun e => l.contains e.1).map Prod.snd).eraseDups

/-- A node lies on a cycle. -/
def onCycle (es : List (Nat × Nat)) (n : Nat) : Bool :=
  (reachN es es.length ((es.filter fun e => e.1 == n).map Prod.snd)).contains n

/-- DEADLOCK_WALK (R454, R455): at a whole microsecond, the holder of a cycle that was accepted last ends. -/
def State.deadlockWalk (s : State) : State :=
  if s.gts % 1000 ≠ 0 then s else
  let es := s.waitEdges
  match ((s.holders.map Prod.fst).filter fun j => onCycle es j.node).foldl (fun b j => match b with
      | none => some j
      | some k => if k.id < j.id then some j else some k) none with
  | none => s
  | some j => (s.bumpSat Reg.weirDeadlocks F.weirDeadlocks_COUNT).endWith j.id St.failedDeadlock

/-! DRAM maintenance windows (R427 to R429). -/

/-- MAINT_WINDOW_REQUEST (R427). -/
def State.maintRequest (s : State) : State := { s with weir := { s.weir with maintPending := true } }

/-- Every Fountain's entries leave room for a window (R428). -/
def State.maintFits (s : State) : Bool :=
  [0, 1, 2, 3].all fun f => testPasses { s.testCtx f with maint := 40000, plain := true } (s.entriesOn f)

/-- MAINT_WINDOW_TEST (R428). -/
def State.maintTest (s : State) : State :=
  let s := s.checkEntries
  if s.weir.maintPending && s.weir.maintStart.isNone && s.maintFits then
    ({ s with weir := { s.weir with maintPending := false, maintStart := some s.gts } } : State).bumpSat
      Reg.weirMaint F.weirMaint_COUNT
  else s

/-! Paging (R307 to R315, R73). -/

/-- PAGE_FILL_DONE (R314, R315): the page is RESIDENT, or POISON too. -/
def State.fillDone (s : State) (n : Nat) : State :=
  let p := s.page n
  if p.st != Pg.filling then s else
  match p.va with
  | none => s.setPage n { p with st := Pg.resident }
  | some v =>
    match s.xlateFor p.who false (v * 0x10000) with
    | (some pa, s) =>
      let (bad, s) := s.copyIn n pa
      (s.setPage n { p with st := Pg.resident, poison := bad }).releasePages
    | (none, s) =>
      let s := s.setPage n { st := Pg.free, seq := s.freeSeq + 1 }
      let s := { s with freeSeq := s.freeSeq + 1 }
      match s.pending? p.by_ with
      | some j => s.dispatchFault j Pf.xlate
      | none => s.xlateFault (0x100 + p.dma % 32)

/-- PAGE_WRITEBACK_DONE (R313): the page is in DRAM and clean; it is freed where no job holds it, and a job whose outputs
are then all in DRAM ends with DONE. -/
def State.writebackDone (s : State) (n : Nat) : State :=
  let p := s.page n
  if p.st != Pg.writeback then s else
  let done := (s.pendingJobs.filter fun j => j.doneAt.isSome && j.outputPage p).map Job.id
  let s := match p.va with
    | none => s
    | some v =>
      match s.xlateFor (s.backWho p) true (v * 0x10000) with
      | (some pa, s) => s.copyOut n pa
      | (none, s) => s.xlateFault (0x100 + p.dma % 32)
  let s := s.setPage n { p with st := Pg.resident, dirty := false }
  let s := s.releasePage n
  done.foldl (fun s id => match s.pending? id with
    | some j => if s.dirtyOutputs j = 0 then s.endDone id else s
    | none => s) s

/-- WRITEBACK_DONE (R73): the last dirty page of an ended job is in DRAM; the event is raised, the reservation and a guaranteed
job's pages freed. -/
def State.jobWritten (s : State) (id : Nat) : State :=
  match s.job? id with
  | none => s
  | some j =>
    if j.ended.isNone || s.dirtyOutputs j != 0 then s else
    let s := s.raise { ring := .ctx j.slot, gts := s.gts, source := 0, type := Ev.writebackDone,
                       detail := min j.wbPages 768, cookie := j.cookie, ctxId := j.ctxId }
    ({ s with weir := { s.weir with jobs := s.weir.jobs.filter fun k => k.id != id } } : State).releasePages

/-! Meanings. -/

def execAdmissionTest (s : State) := onFabric s fun s => s.admissionTest.settle
def execCancelWrite (page : Nat) (v : W32) (s : State) :=
  onFabric s (guarded (!s.legacy && s.pageOpen (page / 8) (page % 8)) fun s => (s.cancel (page / 8) (page % 8) v).settle)
def execLayerCommit (f : Nat) (s : State) :=
  onFabric s (guarded (decide (f < 4)) fun s => (s.layerCommit f).settle)
def execTileCommit (f : Nat) (s : State) := onFabric s (guarded (decide (f < 4)) fun s => (s.tileCommit f).settle)
def execDeadlineMiss (job : Nat) (s : State) := onFabric s fun s => (s.deadlineMiss job).settle
def execStopTimeReached (job : Nat) (s : State) := onFabric s fun s => (s.stopTime job).settle
def execFaultCharged (e core det unit index : Nat) (input : Bool) (s : State) :=
  onFabric s (guarded (decide (e < 5) && decide (1 ≤ det) && decide (det ≤ 0x11)) fun s =>
    (s.faultCharged e core det unit index input).settle)
def execReplayRestart (e : Nat) (s : State) :=
  onFabric s (guarded (decide (e < 5) && !s.integ.protective) fun s => s.replayRestart e)
def execBudgetExhausted (f : Nat) (s : State) := onFabric s (guarded (decide (f < 4)) fun s => (s.budgetOut f).settle)
def execSkimmerBudgetExhausted (s : State) := onFabric s fun s => s.skimBudgetOut.settle
def execPhaseTargetCheck (s : State) := onFabric s fun s => s.phaseCheck.settle
def execWaitfTimeout (f : Nat) (s : State) := onFabric s (guarded (decide (f < 4)) fun s => (s.waitfTimeout f).settle)
def execBeWaitfPreempt (f : Nat) (s : State) := onFabric s (guarded (decide (f < 4)) fun s => (s.waitfPreempt f).settle)
def execDeadlockWalk (s : State) := onFabric s fun s => s.deadlockWalk.settle
def execMaintWindowRequest (s : State) := onFabric s State.maintRequest
def execMaintWindowTest (s : State) := onFabric s State.maintTest
def execPageFillStart (job dma : Nat) (s : State) :=
  onFabric s (guarded (decide (dma < 32)) fun s => (s.grantAll.fillStart job dma).noteReady)
def execPageFillDone (pg : Nat) (s : State) := onFabric s (guarded s.dramServes fun s => (s.fillDone pg).settle)
def execPageWritebackDone (pg : Nat) (s : State) := onFabric s (guarded s.dramServes fun s => (s.writebackDone pg).settle)
def execWritebackDone (job : Nat) (s : State) := onFabric s fun s => (s.jobWritten job).settle

end Sys2Proof.Machine
end

