-- ==== Sys2Proof/Machine/Regs.lean ====
section
/-! DEFINITION. Sys2Proof/Machine/Regs.lean: what a write of a register does by the access codes of its fields (spec/17 R806,
R812 to R814, R821), and the access errors that the CHIP block records (R801, R804, R808). -/
namespace Sys2Proof.Machine

/-- KINDs of CHIP_ERR. -/
def ChipErr.unassigned : Nat := 1
def ChipErr.size : Nat := 2
def ChipErr.rwlChanged : Nat := 3

/-- An access error is counted, and recorded if it is the first since VALID was cleared (CHIP_ERR, CHIP_ERR_SRC). -/
def State.chipErr (s : State) (kind off tag : Nat) : State :=
  let s := s.bumpSat Reg.chipErrSrc F.chipErrSrc_COUNT
  if s.rf Reg.chipErr F.chipErr_VALID = 1 then s else
  let s := ((s.wf Reg.chipErr F.chipErr_VALID 1).wf Reg.chipErr F.chipErr_KIND kind).wf Reg.chipErr F.chipErr_OFFSET off
  s.wf Reg.chipErrSrc F.chipErrSrc_END_TAG tag

/-- The value in force of a register after a write: RW and RWL fields take the written bits, and a 1 clears a W1C bit
(R812, R813). -/
def RegRow.written (r : RegRow) (old v : W32) : W32 :=
  let plain := r.rw ||| r.rwl
  (old &&& ~~~(plain ||| r.w1c)) ||| (v &&& plain) ||| (old &&& r.w1c &&& ~~~v)

/-- A register of a row is written by a requester (R812 to R814, R821): its WS fields are staged together, a changed RWL
field is recorded, and a parity failure of the register is forgotten (R660). -/
def State.writeRow (s : State) (r : RegRow) (tag off : Nat) (v : W32) : State :=
  let old := s.rd off
  let s := if (old ^^^ v) &&& r.rwl = 0 then s else s.chipErr ChipErr.rwlChanged off tag
  let s := s.wr off (r.written old v)
  let s := if r.ws = 0 then s else s.stage off (some (v &&& r.ws))
  { s with integ := { s.integ with parBad := s.integ.parBad.filter fun o => o != off } }

/-- A register is written by its access codes; an offset that no chapter assigns ignores the write (R806). -/
def State.writeReg (s : State) (tag off : Nat) (v : W32) : State :=
  match RegRow.of? off with
  | some r => (s.touch (off / 0x100000)).writeRow r tag off v
  | none => s

end Sys2Proof.Machine
end

