-- ==== Sys2Proof/Machine/Claims.lean ====
section
/-! DEFINITION. Sys2Proof/Machine/Claims.lean: run-time claims of comparators and strobe groups (spec/02 R117, R134 to
R140). -/
namespace Sys2Proof.Machine

/-- The comparators that the image in force binds, as class and number: those of CLOCKS strobe entries and of frame-sync
entries (R117). TRIGGER 0x01 is TIME, 0x02 is PHASE. -/
def State.imageComps (s : State) : List (Nat × Nat) :=
  let ofTrigger := fun (t c : Nat) => if t = 1 then [(Cls.timeComp, c)] else if t = 2 then [(Cls.phaseComp, c)] else []
  (strobeEntries (s.sec Tag.clocks)).flatMap (fun e => ofTrigger e.2.1 e.2.2.1) ++
  (List.range 16).flatMap fun o => match s.fsyncBind o with
    | some (t, c) => ofTrigger t c
    | none => []

/-- The image in force holds a unit (R134): a strobe group whose entry has TRIGGER 0x03 is open to run-time claim. -/
def State.imageHolds (s : State) (cls u : Nat) : Bool :=
  if cls = Cls.strobeGroup then match s.strobeOf u with
    | some e => e.2.1 != 3
    | none => false
  else s.imageComps.contains (cls, u)

/-- A unit of a class that run-time claims may name exists. -/
def claimUnit (cls u : Nat) : Bool :=
  if cls = Cls.strobeGroup then decide (1 ≤ u) && decide (u ≤ 15)
  else (cls == Cls.timeComp || cls == Cls.phaseComp) && decide (u ≤ 63)

/-- The holder of a unit as PARTERRE_CLAIM_RESULT reports it. -/
def State.holderOf (s : State) (cls u : Nat) : Nat :=
  if !claimUnit cls u then 0 else if s.imageHolds cls u then 0xFFFF else s.claimOf cls u

/-- A comparator disarms (R555, R557). -/
def State.disarm (s : State) (cls n : Nat) : State :=
  if cls = Cls.timeComp then
    { s with tcmp := Table.put {} s.tcmp n { Table.get {} s.tcmp n with armed := false, fresh := false } }
  else { s with pcmp := Table.put {} s.pcmp n { Table.get {} s.pcmp n with armed := false, fresh := false } }

/-- A run-time claim ends: a strobe group loses its trigger in the same cycle (R139), and a comparator disarms (R557). -/
def State.dropClaim (s : State) (cls u : Nat) : State :=
  let s := s.setClaim cls u 0
  if cls = Cls.strobeGroup then s.wr (Reg.parterreStrobeCfg u) (RegRow.resetOf (Reg.parterreStrobeCfg u))
  else if cls = Cls.timeComp ∨ cls = Cls.phaseComp then s.disarm cls u else s

/-- Every run-time claim of a claimant ends (R135). -/
def State.dropClaims (s : State) (o : Nat) : State :=
  (s.claims.filter fun e => e.2 == o).foldl (fun s e => s.dropClaim (e.1 / 1024) (e.1 % 1024)) s

/-- The result of a request, and the state that it leaves (R134 to R137; PARTERRE_CLAIM_RESULT): 0 GRANTED or RELEASED,
1 HELD, 2 BUSY, 3 INVALID. -/
def State.claimRun (s : State) (op cls u o : Nat) : Nat × State :=
  let st := s.rf Reg.parterreStatus F.parterreStatus_STATE
  if st = 1 ∨ st = 2 then (2, s)
  else if !claimUnit cls u then (3, s)
  else if op = 1 then
    if cls = Cls.strobeGroup ∧ s.strobeOf u = none then (3, s)
    else if s.imageHolds cls u || s.claimOf cls u != 0 then (1, s)
    else (0, s.setClaim cls u o)
  else if op = 2 then
    if s.imageHolds cls u || s.claimOf cls u != o || o == 0 then (3, s) else (0, s.dropClaim cls u)
  else (3, s)

/-- PARTERRE_CLAIM_REQ is written (R136 to R138): PARTERRE_CLAIM_RESULT holds the result, with the request echoed. -/
def State.claimReq (s : State) (v : W32) : State :=
  let cls := v.fld F.parterreClaimReq_RES_CLASS
  let u := v.fld F.parterreClaimReq_RES_NUMBER
  let r := s.claimRun (v.fld F.parterreClaimReq_OP) cls u (v.fld F.parterreClaimReq_CLAIMANT)
  let s := r.2
  let s := s.wf Reg.parterreClaimResult F.parterreClaimResult_RESULT r.1
  let s := s.wf Reg.parterreClaimResult F.parterreClaimResult_RES_CLASS cls
  let s := s.wf Reg.parterreClaimResult F.parterreClaimResult_RES_NUMBER u
  s.wf Reg.parterreClaimResult F.parterreClaimResult_HOLDER (s.holderOf cls u)

/-- PARTERRE_STROBE_CFG of a group is written (R139, R140): by the group's holder, naming only a comparator that the same
claimant holds. -/
def State.strobeCfg (s : State) (tag g : Nat) (v : W32) : State :=
  let o := v.fld F.parterreStrobeCfg_CLAIMANT
  let t := v.fld F.parterreStrobeCfg_TRIGGER
  let c := v.fld F.parterreStrobeCfg_COMPARATOR
  let open_ := match s.strobeOf g with
    | some e => e.2.1 == 3
    | none => false
  let holds := fun cls => s.claimOf cls c == o
  if !open_ || o == 0 || s.claimOf Cls.strobeGroup g != o then s
  else if (t == 1 && !(claimUnit Cls.timeComp c && holds Cls.timeComp)) ||
      (t == 2 && !(claimUnit Cls.phaseComp c && holds Cls.phaseComp)) then s
  else s.writeReg tag (Reg.parterreStrobeCfg g) v

/-- CLAIM writes PARTERRE_CLAIM_REQ with any OP but release. -/
def execClaim (v : W32) (s : State) :=
  onFabric s (guarded (v.fld F.parterreClaimReq_OP != 2) fun s => s.claimReq v)
def execRelease (v : W32) (s : State) :=
  onFabric s (guarded (v.fld F.parterreClaimReq_OP == 2) fun s => s.claimReq v)
def execStrobeCfgWrite (tag g : Nat) (v : W32) (s : State) :=
  onFabric s (guarded (decide (1 ≤ g) && decide (g ≤ 15)) fun s => s.strobeCfg tag g v)

end Sys2Proof.Machine
end

