-- ==== Sys2Proof/Machine/Streams.lean ====
section
/-! DEFINITION. Sys2Proof/Machine/Streams.lean: the streams' entries, states, frames and records (spec/11 R568 to R571, R579
to R587, R596). -/
namespace Sys2Proof.Machine

/-- A stream. -/
def State.stream (s : State) (n : Nat) : StreamS := Table.get {} s.streams n
/-- The state with a stream set. -/
def State.setStream (s : State) (n : Nat) (x : StreamS) : State := { s with streams := Table.put {} s.streams n x }
/-- An image pipe. -/
def State.pipe (s : State) (p : Nat) : PipeS := Table.get {} s.pipes p
/-- The state with an image pipe set. -/
def State.setPipe (s : State) (p : Nat) (x : PipeS) : State := { s with pipes := Table.put {} s.pipes p x }

/-- From the start of a reload check that names a section until it applies or fails, starts of the section's blocks wait
(R131). -/
def State.startHeld (s : State) (tag : Nat) : Bool :=
  let st := s.rf Reg.parterreStatus F.parterreStatus_STATE
  (st == 1 || st == 2) && s.checker.inForce && s.checker.tags.contains tag

/-! Stream states (CSI_VC_STATUS.STATE). -/
def Sst.off : Nat := 0
def Sst.waitFs : Nat := 1
def Sst.receiving : Nat := 2
def Sst.stopped : Nat := 3
def Sst.linkDown : Nat := 4

/-- The state of a sensor stream. -/
def State.streamSt (s : State) (n : Nat) : Nat := s.rf (Reg.csiVcStatus (n / 4) (n % 4)) F.csiVcStatus_STATE
/-- The state with a sensor stream's state set. -/
def State.setStreamSt (s : State) (n v : Nat) : State := s.wf (Reg.csiVcStatus (n / 4) (n % 4)) F.csiVcStatus_STATE v
/-- A sensor stream is enabled. -/
def State.streamOn (s : State) (n : Nat) : Bool := s.rf (Reg.csiVcCtrl (n / 4) (n % 4)) F.csiVcCtrl_ENABLE == 1
/-- A port is enabled. -/
def State.portOn (s : State) (p : Nat) : Bool := s.rf (Reg.csiPortCfg p) F.csiPortCfg_ENABLE == 1

/-! Stream entries (R570). -/

def Ent.pipe (e : List Byte) : Bool := (u8 e 0).testBit 0
def Ent.dt (e : List Byte) : Nat := u8 e 1
def Ent.ringLog2 (e : List Byte) : Nat := u8 e 2
def Ent.vector (e : List Byte) : Nat := u8 e 3
def Ent.width (e : List Byte) : Nat := u16 e 4
def Ent.height (e : List Byte) : Nat := u16 e 6
def Ent.rawVa (e : List Byte) : Nat := u64 e 8
def Ent.outVa (e : List Byte) : Nat := u64 e 0x10
def Ent.recVa (e : List Byte) : Nat := u64 e 0x18
def Ent.recLog2 (e : List Byte) : Nat := u8 e 0x20
def Ent.floor (e : List Byte) : Nat := u16 e 0x24
def Ent.ceil (e : List Byte) : Nat := u16 e 0x26
def Ent.timeoutUs (e : List Byte) : Nat := u32 e 0x28

/-- Data types of R568. -/
def Dt.yuv : Nat := 0x1E
def Dt.rgb : Nat := 0x24

/-- Bits of a sample, or of a component, of a data type. -/
def dtBits (dt : Nat) : Nat := if dt = 0x2B then 10 else if dt = 0x2C then 12 else if dt = 0x2D then 14 else if dt = 0x2E then 16 else 8

/-- Samples of a pixel: the components of YUV422 and RGB888 are samples of their own (R575). -/
def dtComps (dt : Nat) : Nat := if dt = Dt.yuv then 2 else if dt = Dt.rgb then 3 else 1

/-- The data type is a RAW one. -/
def dtRaw (dt : Nat) : Bool := dt != Dt.yuv && dt != Dt.rgb

/-- Samples of a line of an entry. -/
def Ent.samples (e : List Byte) : Nat := Ent.width e * dtComps (Ent.dt e)

/-- The pitch of a raw ring slot's lines, and its size, a slot beginning at a 64 KiB boundary (R570). -/
def Ent.rawPitch (e : List Byte) : Nat := ceilDiv (ceilDiv (Ent.samples e * dtBits (Ent.dt e)) 8) 64 * 64
def Ent.rawSlot (e : List Byte) : Nat := ceilDiv (Ent.rawPitch e * Ent.height e) 0x10000 * 0x10000

/-- The stream is the in-line camera of a pipe (R93, R94). -/
def State.inlinePipe (s : State) (n : Nat) : Option Nat :=
  [0, 1, 2, 3].find? fun p => s.pipeMode p == 1 && 4 * s.pipePort p + s.pipeVc p == n

/-- The pipe that owns a sensor stream. -/
def pipeOf (n : Nat) : Nat := n / 16

/-- The requester of a sensor stream's traffic: free, or charged to the pipe's INLINE_SLOTS (R317, R353, R590). -/
def State.pipeWho (s : State) (n : Nat) : Who :=
  match s.inlinePipe n with
  | some p => { tag := 0x200 + p, holder := some (2 ^ 40 + p) }
  | none => { tag := 0x200 + pipeOf n }

/-- The address of a stream's entry. -/
def State.entVa (s : State) (n : Nat) : Nat :=
  s.rf Reg.csiStreamTableLo F.csiStreamTableLo_VA * 0x1000 + s.rf Reg.csiStreamTableHi F.csiStreamTableHi_VA * 2 ^ 32 + 64 * n

/-- A stream's entry is read (R571); a translation fault is reported. -/
def State.readEnt (s : State) (who : Who) (n : Nat) : Option (List Byte) × State :=
  match s.vread who (s.entVa n) 64 with
  | (some (b, _), s) => (some b, s)
  | (none, s) => (none, s.xlateFault who.tag)

/-! Marks (R582, R623). -/
def Mk.crc : Nat := 0
def Mk.eccUncorr : Nat := 1
def Mk.shortLine : Nat := 2
def Mk.longLine : Nat := 3
def Mk.missing : Nat := 4
def Mk.odd : Nat := 5
def Mk.spilled : Nat := 6
def Mk.stopped : Nat := 7
def Mk.dropped : Nat := 8
def Mk.overrun : Nat := 9
def Mk.linkDown : Nat := 10
def Mk.timeout : Nat := 11
def Mk.dtOther : Nat := 12
def Mk.aborted : Nat := 13
def Mk.piped : Nat := 14
def Mk.bitstream : Nat := 15
def Mk.refLost : Nat := 16
def Mk.size : Nat := 17

/-- A frame with a mark set. -/
def FrameS.mark (f : FrameS) (b : Nat) : FrameS := { f with marks := f.marks ||| 2 ^ b }

/-! Slots (R584 to R586). -/

/-- RELEASED of a stream as it stood at the start of the cycle (R586). -/
def State.released (s : State) (n : Nat) : Nat :=
  let x := s.stream n
  if x.relAt = some s.gts then x.relOld
  else if n < 64 then s.rf (Reg.csiVcRel (n / 4) (n % 4)) F.csiVcRel_RELEASED else x.rel

/-- The final-output slot of a frame of a stream is free (R585). -/
def State.slotFree (s : State) (n frame log2 : Nat) : Bool :=
  decide ((frame % 65536 + 65536 - s.released n) % 65536 < 2 ^ log2)

/-- The stream keeps its RELEASED of the cycle's start. -/
def State.keepRel (s : State) (n : Nat) : State := s.setStream n { s.stream n with relOld := s.released n, relAt := some s.gts }

/-! Frames and their records (R579 to R583). -/

/-- The rows that a frame still has in a Jet's ring take its marks (R354). -/
def State.markRows (s : State) (f : FrameS) : State :=
  match s.inlinePipe f.stream with
  | some p =>
    if (s.pipe p).ring.any fun r => r.frame == f.frame then
      s.setPipe p { s.pipe p with ring := (s.pipe p).ring.map fun r => if r.frame = f.frame then { r with marks := f.marks } else r }
    else s
  | none => s

/-- A frame's record is due: its output is in memory, or it was discarded. -/
def State.recordDue (s : State) (f : FrameS) : State :=
  let s := s.markRows f
  let x := s.stream f.stream
  s.setStream f.stream { x with ready := x.ready ++ [{ f with doneGts := s.gts, rows := [], lastS := [], lastL := [] }] }

/-- The Jet of a pipe abandons a frame. -/
def State.jetAbandon (s : State) (n frame : Nat) : State :=
  match s.inlinePipe n with
  | some p => let x := s.pipe p
    if x.jet.any fun j => j.frame == frame then s.setPipe p { x with jet := none } else s
  | none => s

/-- A frame is discarded: its record shows no slot, and its Jet abandons it (R579, R583). -/
def State.discard (s : State) (f : FrameS) : State := (s.jetAbandon f.stream f.frame).recordDue { f with slot := 0xFF }

/-- The open frame of a stream is discarded with a mark. -/
def State.discardOpen (s : State) (n mark : Nat) : State :=
  match (s.stream n).cur with
  | none => s
  | some f => (s.setStream n { s.stream n with cur := none }).discard (f.mark mark)

/-- A sensor stream enters STOPPED and raises cause bit 12 (R579). -/
def State.stopStream (s : State) (n : Nat) : State := (s.setStreamSt n Sst.stopped).cause 12

/-- MODE of the POLICY of R96: SPILL_LAST 0, SPILL_FILL 1, STOP 2. -/
def State.stops (s : State) (n : Nat) : Bool := (s.policy n).1 == 2

/-- The 64 bytes of a frame record (R581, R622). -/
def FrameS.record (f : FrameS) (n : Nat) : List Byte :=
  leBytes f.fsGts 8 ++ leBytes f.doneGts 8 ++ leBytes f.frame 4 ++ leBytes f.csiFn 2 ++ leBytes f.stream 2 ++
  leBytes f.lines 2 ++ leBytes f.slot 1 ++ leBytes 0 1 ++ leBytes f.marks 4 ++ leBytes f.spilled 4 ++
  leBytes f.crcLines 2 ++ leBytes f.ecc 2 ++ leBytes 0 20 ++ leBytes n 4

/-- FRAME_RECORD: the oldest record that is due is written and the stream's VECTOR signalled (R581, R583). -/
def State.frameRecord (s : State) (n : Nat) : State :=
  let x := s.stream n
  match x.ready with
  | [] => s
  | f :: l =>
    let who : Who := if n < 64 then s.pipeWho n else { tag := 0x306 }
    let s := s.setStream n { x with ready := l, recs := x.recs + 1 }
    let w := s.vwrite who (Ent.recVa f.ent + 64 * (x.recs % 2 ^ Ent.recLog2 f.ent)) (f.record (x.recs + 1))
    if w.1 then w.2.signal (Ent.vector f.ent) else w.2.xlateFault who.tag

/-! ENABLE (R571; CSI_VC_CTRL, CSI_VC_REL). -/

/-- An ENABLE of a stream applies: it reads its entry, starts its counts and waits for a frame start. -/
def State.streamEnable (s : State) (n : Nat) : State :=
  let (e, s) := s.readEnt (s.pipeWho n) n
  let s := s.wf (Reg.csiVcRel (n / 4) (n % 4)) F.csiVcRel_RELEASED 0
  let x := s.stream n
  (s.setStream n { ent := e.getD [], since := s.gts, ready := x.ready }).setStreamSt n Sst.waitFs

/-- A stream is disabled: an open frame is discarded, marked ABORTED. -/
def State.streamDisable (s : State) (n : Nat) : State := (s.discardOpen n Mk.aborted).setStreamSt n Sst.off

/-- Code of CSI_PORT_STATUS.LINK: 0 DOWN, 1 STOP state, 2 ACTIVE. -/
def State.setLink (s : State) (p v : Nat) : State := s.wf (Reg.csiPortStatus p) F.csiPortStatus_LINK v

/-- What the application of a register of the CSI block brings about. -/
def State.csiApplied (s : State) (off : Nat) (old : W32) : State :=
  match (List.range 64).find? fun n => off == Reg.csiVcCtrl (n / 4) (n % 4) with
  | some n =>
    let was := old.fld F.csiVcCtrl_ENABLE
    if s.streamOn n && was == 0 then s.streamEnable n
    else if !s.streamOn n && was == 1 then s.streamDisable n else s
  | none => match (List.range 16).find? fun p => off == Reg.csiPortCfg p with
    | some p => if s.portOn p then s else (s.setLink p 0).wf (Reg.csiPortStatus p) F.csiPortStatus_DESKEWED 0
    | none => s

/-- What the application of a register of a pipe brings about: JET_FRAME counts from the Jet's ENABLE (JET_FRAME). -/
def State.pipeApplied (s : State) (off : Nat) (old : W32) : State :=
  match [0, 1, 2, 3].find? fun p => off == Reg.jetCtrl p with
  | some p => if old.fld F.jetCtrl_ENABLE = 0 ∧ s.rf off F.jetCtrl_ENABLE = 1 then s.wn (Reg.jetFrame p) 0 else s
  | none => s

def execFrameRecord (stream : Nat) (s : State) :=
  onFabric s (guarded (decide (stream < 128) && s.dramServes) fun s => s.frameRecord stream)

end Sys2Proof.Machine
end

