-- ==== Sys2Proof/Machine/Strobe.lean ====
section
/-! DEFINITION. Sys2Proof/Machine/Strobe.lean: the firing of a strobe group and the rules that refuse a staged value (spec/17
R814 to R820; spec/08 R457; spec/09 R467; spec/10 R548, R566, R567; spec/13 R658; spec/16 R777 to R783, R794). -/
namespace Sys2Proof.Machine

/-- The block of a register. -/
def unitOf (off : Nat) : Nat := off / 0x100000

/-- The WS bits of the register at an offset. -/
def wsMask (off : Nat) : W32 := ((RegRow.of? off).map RegRow.ws).getD 0

/-- The value that a register would have with its staged value applied. -/
def State.result (s : State) (off : Nat) : W32 :=
  match s.stagedAt off with
  | some v => (s.rd off &&& ~~~wsMask off) ||| (v &&& wsMask off)
  | none => s.rd off

/-- The registers of a strobe group that hold a staged value. -/
def State.stagedIn (s : State) (g : Nat) : List Nat :=
  (s.staged.map Prod.fst).filter fun off => s.groupOf (unitOf off) == g

/-! Phase inputs (R548, R566, R567). -/

/-- The input whose register lies at an offset of the PHASEIO block. -/
def phaseOf (off : Nat) : Option Nat :=
  (List.range 9).find? fun n =>
    off == Reg.phaseCfg n || off == Reg.phaseVmax n || (isSsi n && off == Reg.phaseSsi n)

/-- The bounds of R548 hold for the values of an input's registers. -/
def phaseBounds (n : Nat) (cfg vmax ssi : W32) : Bool :=
  let v := vmax.fld F.phaseVmax_VMAX
  let w := 2 ^ cfg.fld F.phaseCfg_VWIN
  let bits := ssi.fld F.phaseSsi_BITS + 1
  let div := ssi.fld F.phaseSsi_CLKDIV
  let per := ssi.fld F.phaseSsi_PERIOD_US
  let frame := (bits + ssi.fld F.phaseSsi_ERRBIT) * 20 * div
  decide (v ≤ 100000000) && decide (cfg.fld F.phaseCfg_VWIN ≤ 10) &&
  (if isSsi n then
    decide (8 ≤ bits) && decide (bits ≤ 32) && decide (25 ≤ div) && decide (div ≤ 500) &&
    decide (frame + 40000 ≤ 1000 * per) && decide (v * per < 2 ^ (bits - 2) * 1000000) && decide (2 * per ≤ w)
  else decide (v * (cfg.fld F.phaseCfg_FILT + 2) ≤ 100000000)) &&
  (decide (4 ≤ n) || cfg.fld F.phaseCfg_QMODE != 3)

/-- The staged values of an input are refused. -/
def State.phaseRefused (s : State) (n : Nat) : Bool :=
  let cfg := s.result (Reg.phaseCfg n)
  let vmax := s.result (Reg.phaseVmax n)
  let ssi := s.result (Reg.phaseSsi n)
  !phaseBounds n cfg vmax ssi ||
  (((s.stagedAt (Reg.phaseCfg n)).isSome || (s.stagedAt (Reg.phaseVmax n)).isSome) && !(s.phaseJobs n).isEmpty) ||
  (s.imageLocked && (decide (s.vmax n < vmax.fld F.phaseVmax_VMAX) || cfg != s.rd (Reg.phaseCfg n) ||
    (isSsi n && ssi != s.rd (Reg.phaseSsi n))))

/-! Pin groups (R777 to R783). -/

/-- Function codes of R778. -/
def Fn.park : Nat := 0x00
def Fn.gpio : Nat := 0x01
def Fn.i2c : Nat := 0x02
def Fn.spi : Nat := 0x03
def Fn.uart : Nat := 0x04
def Fn.can : Nat := 0x05
def Fn.fsync : Nat := 0x06
def Fn.quad : Nat := 0x07
def Fn.ssi : Nat := 0x08
def Fn.line : Nat := 0x09
def Fn.safe : Nat := 0x0A
def Fn.tamper : Nat := 0x0B

/-- The functions that a group permits (R777). -/
def pinFunctions (g : Nat) : List Nat :=
  if g ≤ 3 then [Fn.park, Fn.gpio, Fn.i2c]
  else if g ≤ 7 then [Fn.park, Fn.gpio, Fn.spi]
  else if g ≤ 9 then [Fn.park, Fn.gpio, Fn.uart]
  else if g = 10 then [Fn.park, Fn.gpio, Fn.can]
  else if g = 11 then [Fn.park, Fn.gpio]
  else if g ≤ 15 then [Fn.park, Fn.gpio, Fn.fsync]
  else if g ≤ 19 then [Fn.park, Fn.quad]
  else if g = 20 then [Fn.park, Fn.ssi]
  else if g = 21 then [Fn.park, Fn.line]
  else if g ≤ 23 then [Fn.park, Fn.safe]
  else [Fn.tamper]

/-- The function of a group in force. -/
def State.pinFn (s : State) (g : Nat) : Nat := s.rf (Reg.pmxCfg g) F.pmxCfg_FUNCTION

/-- The function is served by controllers whose registers the spec does not give (R780). -/
def pinCtrl (fn : Nat) : Bool := fn == Fn.i2c || fn == Fn.spi || fn == Fn.uart || fn == Fn.can

/-- A function of a group is disabled (R780), as far as the device's own registers say: a function served by controllers is
judged by PMX_SWITCH_APPLY. A function that the group does not permit is never disabled (DEDUCED, log entry 30). -/
def State.pinDisabled (s : State) (g fn : Nat) : Bool :=
  (pinFunctions g).contains fn &&
  (if fn = Fn.gpio then
    let off := if g < 8 then Reg.gpioOeLo else Reg.gpioOeHi
    bitsOf (s.rn off) (4 * (g % 8) + 3) (4 * (g % 8)) == 0
  else if fn = Fn.fsync then
    [0, 1, 2, 3].all fun i => s.rf (Reg.fsyncCfg (4 * (g - 12) + i)) F.fsyncCfg_ENABLE == 0
  else if fn = Fn.quad then !s.phaseOn (g - 16)
  else if fn = Fn.ssi then !s.phaseOn 4 && !s.phaseOn 5
  else if fn = Fn.line then !s.phaseOn 6 && !s.phaseOn 7 && !s.phaseOn 8
  else if fn = Fn.safe then !(s.pair (2 * (g - 22))).run && !(s.pair (2 * (g - 22) + 1)).run
  else fn != Fn.tamper)

/-- The PINS section in force names a group in an entry with LOCKED set. -/
def State.pinLocked (s : State) (g : Nat) : Bool :=
  let pl := s.sec Tag.pins
  (List.range (u16 pl 0)).any fun i => u16 pl (4 + 8 * i) == g && (u8 pl (8 + 8 * i)).testBit 0

/-- A check or an application is going on (R137). -/
def State.checking (s : State) : Bool :=
  let st := s.rf Reg.parterreStatus F.parterreStatus_STATE
  st == 1 || st == 2

/-- The PMX_STATUS bits of the rules that a staged value of a group breaks at its strobe (R781 to R783). -/
def State.pinVerdict (s : State) (g : Nat) (v : W32) : Nat :=
  let fn := v.fld F.pmxCfg_FUNCTION
  let old := s.pinFn g
  let fixed := fun f => f == Fn.quad || f == Fn.ssi || f == Fn.line || f == Fn.safe || f == Fn.tamper
  (if s.pinDisabled g old && s.pinDisabled g fn then 0 else 1) +
  (if s.imageLocked && (fixed old || fixed fn || s.pinLocked g) then 2 else 0) +
  (if s.checking && s.checker.inForce && s.checker.tags.contains Tag.pins then 4 else 0)

/-- The pin group whose PMX_CFG lies at an offset. -/
def pinOf (off : Nat) : Option Nat := (List.range 25).find? fun g => off == Reg.pmxCfg g

/-- A pin group. -/
def State.pinGroup (s : State) (g : Nat) : PinGroup := Table.get {} s.pins g
/-- The state with a pin group set. -/
def State.setPinGroup (s : State) (g : Nat) (x : PinGroup) : State := { s with pins := Table.put {} s.pins g x }

/-! What refuses a staged value, and what applying one does. -/

/-- The Fountain whose WEIR_BE_MAX lies at an offset. -/
def beMaxOf (off : Nat) : Option Nat := [0, 1, 2, 3].find? fun f => off == Reg.weirBeMax f

/-- The Weir refuses a staged value (R457, R467, and the HANDLE rule of spec/09). -/
def State.weirRefused (s : State) (off : Nat) : Bool :=
  (match beMaxOf off with
   | some f => s.guarOn f
   | none => false) ||
  (off == Reg.weirSkimMax && !s.guarJobs.isEmpty) ||
  ((off == Reg.weirPtRootLo || off == Reg.weirPtRootHi) && s.anyResident) ||
  ((off == Reg.weirHandleBaseLo || off == Reg.weirHandleBaseHi || off == Reg.weirHandleCount) && s.queuedCount != 0)

/-- INDEX of a register parity occurrence (R633, R642): the core of a core's register, otherwise the register's offset in its
block over 4, of which 8 bits fit. -/
def parIndex (off : Nat) : Nat := if unitOf off = 8 then off / 0x10000 % 16 else off / 4 % 256

/-- A staged value whose parity has failed does not apply; the occurrence is recorded (R658). -/
def State.stagedParity (s : State) (off : Nat) : State :=
  let s := { s with integ := { s.integ with stagedBad := s.integ.stagedBad.filter fun o => o != off } }
  s.occur ⟨3, Kind.occurrence, unitOf off, parIndex off, false⟩

/-- The phase inputs as their balls stand, which a reset does not change. -/
def Phase.balls (p : Phase) : Phase :=
  { a := p.a, b := p.b, z := p.z, level := p.level, fa := p.fa, fb := p.fb, fz := p.fz, fl := p.fl, sampled := p.sampled,
    zSampled := p.zSampled }

/-- What the application of a register's staged value brings about: a phase input that is enabled starts at position 0
(R540), a frame-sync output that is disabled is inactive (R560), a new root leaves no translation of the old one, and a
stream, a port or a Jet starts or stops (R571). -/
def State.applied (s : State) (off : Nat) (old : W32) : State :=
  if off == Reg.weirPtRootLo || off == Reg.weirPtRootHi then { s with weir := { s.weir with cache := [] } }
  else match phaseOf off with
    | some n =>
      if off == Reg.phaseCfg n && s.phaseOn n && old.fld F.phaseCfg_ENABLE == 0 then
        let p := s.phase n
        s.setPhase n { p.balls with hist := [(0, s.gts)], lastGood := s.gts, sampleGts := s.gts }
      else s
    | none => match (List.range 16).find? fun o => off == Reg.fsyncCfg o with
      | some o =>
        if s.rf off F.fsyncCfg_ENABLE = 0 then { s with fsyncs := Table.put {} s.fsyncs o {} } else s
      | none => (s.csiApplied off old).pipeApplied off old

/-- The staged value of a register leaves its stage. -/
def State.unstage (s : State) (off : Nat) : State := s.stage off none

/-- The staged value of a register applies. -/
def State.applyReg (s : State) (off : Nat) : State :=
  let old := s.rd off
  ((s.wr off (s.result off)).unstage off).applied off old

/-- The outcome of one staged register at a strobe, judged on the state before it (R815, R817). -/
def State.strobeReg (s0 : State) (s : State) (off : Nat) : State :=
  if s0.integ.stagedBad.contains off then (s.stagedParity off).unstage off
  else if s0.weirRefused off then (s.wf Reg.weirStatus F.weirStatus_CFG_REFUSED 1).unstage off
  else if off == Reg.pcieCfg && s0.pcieUp then s.unstage off
  else match pinOf off with
    | some g => (s.setPinGroup g { s.pinGroup g with due := some (s0.result off, s0.pinVerdict g (s0.result off)) }).unstage off
    | none => match phaseOf off with
      | some n =>
        if s0.phaseRefused n then (s.wf (Reg.phaseStatus n) F.phaseStatus_CFG_REFUSED 1).unstage off else s.applyReg off
      | none => s.applyReg off

/-- A pending TAI operation that waits for the CLEPSYDRA block's strobe is ready (R533). -/
def State.taiStrobe (s : State) (g : Nat) : State :=
  match s.taiOp with
  | some op => if s.groupOf 3 = g ∧ op.onStrobe then { s with taiOp := some { op with ready := true } } else s
  | none => s

/-- A strobe group fires (R815): the firing is counted, and every staged value of its blocks applies or is refused. -/
def State.fire (s : State) (g : Nat) : State :=
  let s := s.bump (Reg.chipStrobeCount g) F.chipStrobeCount_FIRES
  let s0 := s
  ((s.stagedIn g).foldl (State.strobeReg s0) s).taiStrobe g

/-- A group's trigger is WRITE (R818). -/
def State.writeTrigger (s : State) (g : Nat) : Bool :=
  match s.strobeOf g with
  | some e => e.2.1 == 0 || (e.2.1 == 3 && s.rf (Reg.parterreStrobeCfg g) F.parterreStrobeCfg_TRIGGER == 3)
  | none => false

/-- CHIP_STROBE_FIRE is written (R818). -/
def State.strobeFire (s : State) (v : W32) : State :=
  ((List.range 16).filter fun g => 1 ≤ g && v.toNat.testBit g).foldl (fun s g =>
    if s.writeTrigger g then s.fire g
    else s.wr Reg.chipStrobeIgn (s.rd Reg.chipStrobeIgn ||| BitVec.ofNat 32 (2 ^ g))) s

/-- CHIP_STROBE_DROP is written (R819). -/
def State.strobeDrop (s : State) (v : W32) : State :=
  ((List.range 16).filter fun g => 1 ≤ g && v.toNat.testBit g).foldl (fun s g =>
    (s.stagedIn g).foldl (fun s off =>
      { s.unstage off with integ := { s.integ with stagedBad := s.integ.stagedBad.filter fun o => o != off } }) s) s

/-- The strobe groups that a comparator's match fires (R104, R117, R139, R140). `cls`: the comparator's class. -/
def State.groupsOn (s : State) (cls n : Nat) : List Nat :=
  let t := if cls = Cls.timeComp then 1 else 2
  ((List.range 16).filter fun g => match s.strobeOf g with
    | some e =>
      (e.2.1 == t && e.2.2.1 == n) ||
      (e.2.1 == 3 && s.rf (Reg.parterreStrobeCfg g) F.parterreStrobeCfg_TRIGGER == t &&
        s.rf (Reg.parterreStrobeCfg g) F.parterreStrobeCfg_COMPARATOR == n &&
        s.claimOf cls n == s.claimOf Cls.strobeGroup g && s.claimOf cls n != 0)
    | none => false)

/-! Pin switches (R781 to R785). -/

/-- PMX_SWITCH_APPLY: the value that a strobe has taken applies, or is discarded. `ctrlOff`: every controller that the group
serves is disabled. -/
def State.pinApply (s : State) (g : Nat) (ctrlOff : Bool) : State :=
  match (s.pinGroup g).due with
  | none => s
  | some (v, verdict) =>
    let busyCtrl := (pinCtrl (s.pinFn g) || pinCtrl (v.fld F.pmxCfg_FUNCTION)) && !ctrlOff
    let verdict := if busyCtrl then verdict / 2 * 2 + 1 else verdict
    if verdict = 0 then (s.wr (Reg.pmxCfg g) v).setPinGroup g { switchAt := some s.gts }
    else
      let s := s.setPinGroup g { s.pinGroup g with due := none }
      (s.wr Reg.pmxStatus (s.rd Reg.pmxStatus ||| BitVec.ofNat 32 verdict)).wf Reg.pmxStatus F.pmxStatus_LAST_GROUP g

/-- PMX_SWITCH_DONE: 40 ns after the first I/O clock edge, the new function takes the balls (R784). -/
def State.pinDone (s : State) (g : Nat) : State :=
  match (s.pinGroup g).switchAt with
  | some t => if (t + 9) / 10 * 10 + 40 ≤ s.gts then s.setPinGroup g { s.pinGroup g with switchAt := none } else s
  | none => s

/-- The balls of a group carry a function: it is in force, and no switch goes on (R785). -/
def State.pinCarries (s : State) (g fn : Nat) : Bool := s.pinFn g == fn && (s.pinGroup g).switchAt.isNone

/-! Meanings. -/

def execChipStrobeFire (v : W32) (s : State) := onFabric s fun s => s.strobeFire v
def execChipStrobeDrop (v : W32) (s : State) := onFabric s fun s => s.strobeDrop v
def execPmxSwitchApply (g : Nat) (ctrlOff : Bool) (s : State) :=
  onFabric s (guarded (decide (g < 25)) fun s => s.pinApply g ctrlOff)
def execPmxSwitchDone (g : Nat) (s : State) := onFabric s (guarded (decide (g < 25)) fun s => s.pinDone g)

end Sys2Proof.Machine
end

