-- ==== Sys2Proof/Machine/Throttle.lean ====
section
/-! DEFINITION. Sys2Proof/Machine/Throttle.lean: the effective power cap, the throttle reasons and their durations (spec/00 R6;
spec/15 R749 to R752). -/
namespace Sys2Proof.Machine

/-- A CLOCKS section is in force. -/
def State.clocksOn (s : State) : Bool := !(s.sec Tag.clocks).isEmpty

/-- The effective cap in W (R749). -/
def State.effectiveCap (s : State) : Nat := if s.pwr.limited then min s.pwr.capSet s.pwr.capLimit else s.pwr.capSet

/-- The junction temperature in 0.25 °C: the highest of the 24 sensors (R754). -/
def junction (l : List Int) : Int := l.tail.foldl max (l.headD 0)

/-- 115 °C in 0.25 °C (R755). -/
def tripTemp : Int := 460

/-- Some sensor reads 115 °C or more now. -/
def State.hot (s : State) : Bool := s.pwr.sensors.any fun t => decide (tripTemp ≤ t)

/-- The sequencer serves no request (R664, R744). -/
def State.seqFrozen (s : State) : Bool := s.weir.clocksBad || s.pwr.avsFault

/-- A throttle reason of R751 holds. -/
def State.throttles (s : State) (r : Nat) : Bool :=
  match r with
  | 0 => s.pwr.capThrottle && decide (s.pwr.ceiling < s.pwr.op)
  | 1 => s.pwr.limited && decide (s.pwr.capLimit < s.pwr.capSet)
  | 2 => s.pwr.warned
  | 3 => s.hot
  | 4 => s.pwr.ceiling != 0
  | 5 => s.pwr.heldReason
  | 6 => !s.fwUp 4 || s.seqFrozen
  | _ => s.pwr.slewing

/-- POWER_STATUS.THR_ACTIVE. -/
def State.thrActive (s : State) : Nat := ((List.range 8).map fun r => if s.throttles r then 2 ^ r else 0).sum

/-- POWER_THR_DUR counts at each GTS that is a multiple of 1,000,000 (R752). -/
def State.thrCount (s : State) : State :=
  if s.gts % 1000000 = 0 then
    (List.range 8).foldl (fun t r => if s.throttles r then t.bumpSat (Reg.powerThrDur r) F.whole else t) s
  else s

end Sys2Proof.Machine
end

