-- ==== Sys2Proof/Machine/Clepsydra.lean ====
section
/-! DEFINITION. Sys2Proof/Machine/Clepsydra.lean: the tick of the fabric clock, TAI and its mailbox, snapshots, IEEE 1588
stamps, comparators and frame-sync outputs (spec/10 R521, R527 to R539, R552 to R560; spec/17 R824). -/
namespace Sys2Proof.Machine

/-! The fabric clock and TAI (R521, R531 to R536). -/

/-- Nanoseconds of a second. -/
def second : Nat := 1000000000

/-- TAI as the next tick alone makes it: seconds, nanoseconds and fraction (R531). -/
def State.taiNext (s : State) : Nat × Nat × Nat :=
  let sum := ((s.taiFrac : Int) + 2 ^ 32 + s.taiRate).toNat
  let ns := s.taiNs + sum / 2 ^ 32
  if second ≤ ns then ((s.taiSec + 1) % 2 ^ 48, ns - second, sum % 2 ^ 32) else (s.taiSec, ns, sum % 2 ^ 32)

/-- The next tick rolls TAI over. -/
def State.rollsOver (s : State) : Bool := decide (second ≤ s.taiNs + ((s.taiFrac : Int) + 2 ^ 32 + s.taiRate).toNat / 2 ^ 32)

/-- TAI in nanoseconds. -/
def State.taiAll (s : State) : Nat := s.taiSec * second + s.taiNs

/-- An operation does not apply (R536). -/
def State.taiErr (s : State) : State := s.wf Reg.taiWrCtrl F.taiWrCtrl_ERR 1

/-- The first boundary, no earlier than a TAI in ns, of a gate cycle with a base and a length; none where there is no cycle. -/
def gateBoundary (base cycle tai : Nat) : Option Nat :=
  if cycle = 0 then none else some (base + ceilDiv (tai - base) cycle * cycle)

/-- Every port cuts its gate cycle and starts its next at the first cycle boundary of the new TAI (R539). -/
def State.cutGates (s : State) : State :=
  { s with eth := [0, 1, 2, 3, 4, 5].foldl (fun t n =>
      Table.put {} t n { Table.get {} t n with
        qbvCut := some (s.taiSec, s.taiNs),
        qbvNext := gateBoundary (Config.gateBase n) (Config.gateCycle n) s.taiAll }) s.eth }

/-- How far a port's gate cycle has run, in ns: none where it has no list, and from a cut until the boundary that starts the next
(R539). -/
def State.gatePhase (s : State) (n : Nat) : Option Nat :=
  let c := Config.gateCycle n
  if c = 0 || s.taiAll < Config.gateBase n || (Table.get {} s.eth n).qbvNext.any (fun t => decide (s.taiAll < t)) then none
  else some ((s.taiAll - Config.gateBase n) % c)

/-- The pending operation applies at a tick that has already advanced TAI (R532, R534, R536). -/
def State.taiApply (s : State) (op : TaiOp) : State :=
  let s := { s with taiOp := none }
  if op.op = 1 then
    if second ≤ op.ns then s.taiErr
    else { s with taiSec := op.sec, taiNs := op.ns, taiFrac := 0, taiValid := true }.cutGates
  else
    let adj := sext 32 op.adj
    if op.op = 2 then
      let t : Int := (s.taiAll : Int) + adj
      if t < 0 then s.taiErr
      else { s with taiSec := t.toNat / second % 2 ^ 48, taiNs := t.toNat % second }.cutGates
    else if adj < -4294967 ∨ 4294967 < adj then s.taiErr
    else { s with taiRate := adj }

/-- A Fountain counts the Cascade cycles of one fabric cycle (R242, R429): 12 / D of them at operating point D. -/
def State.ftnTick (s : State) (f : Nat) : State :=
  let x := s.ftn f
  let d := opDiv s.pwr.op
  if x.run.isNone || !x.started || x.stopped then s else
  let n := (x.frac + 12) / d
  let holds := match x.waitf with
    | some (g, v, _) => s.gateFlag g != v
    | none => false
  if holds then (s.setFtn f { x with frac := (x.frac + 12) % d }).wn (Reg.ftnWait f) (s.rn (Reg.ftnWait f) + n)
  else if s.weir.maintStart.isSome then s
  else (s.setFtn f { x with frac := (x.frac + 12) % d }).wn (Reg.ftnCycles f) (s.rn (Reg.ftnCycles f) + n)

/-- The Skimmer counts a fabric cycle of its layer (R401, R429). -/
def State.skimTick (s : State) : State :=
  if s.skim.run.isSome && !s.skim.stopped && s.weir.maintStart.isNone then
    s.wn Reg.skimCycles (s.rn Reg.skimCycles + 1) else s

/-- What a fabric cycle's end decides: the cancels of the cycle (R489). -/
def State.cycleEnd (s : State) : State :=
  if s.weir.jobs.any fun j => j.cancelAt.isSome then s.cancelDue.settle else s

/-- One fabric clock cycle: the cycle that ends is decided, the GTS counts, TAI advances, an operation that is ready applies, and the engines' cycle
counts and the throttle durations advance (R521, R531, R533, R752). -/
def State.tick (s : State) : State :=
  let s := s.cycleEnd
  let t := s.taiNext
  let s := { s with gts := s.gts + 1, taiSec := t.1, taiNs := t.2.1, taiFrac := t.2.2 }
  let s := match s.taiOp with
    | some op => if op.ready then s.taiApply op else s
    | none => s
  ([0, 1, 2, 3].foldl State.ftnTick s).skimTick.thrCount

/-- The pending operation is ready to apply at the next tick. -/
def State.taiReady (s : State) : Bool :=
  match s.taiOp with
  | some op => op.ready
  | none => false

/-- TAI_WR_CTRL is written (R532, R533): the operands become the pending operation, or CANCEL discards it. -/
def State.taiWrite (s : State) (tag : Nat) (v : W32) : State :=
  let s := s.writeReg tag Reg.taiWrCtrl v
  let op := v.fld F.taiWrCtrl_OP
  if op = 0 then { s with taiOp := none } else
  let s := if s.taiOp.isSome then s.wf Reg.taiWrCtrl F.taiWrCtrl_REPLACED 1 else s
  let strobe := v.fld F.taiWrCtrl_WHEN == 1
  let x : TaiOp := { op := op, sec := s.rn Reg.taiWrSLo + s.rf Reg.taiWrSHi F.taiWrSHi_SECONDS * 2 ^ 32, ns := s.rf Reg.taiWrNs F.taiWrNs_NS,
                     adj := s.rn Reg.taiWrAdj, onStrobe := strobe, ready := !strobe }
  { s with taiOp := some x }

/-! Snapshots (R527 to R529). -/

/-- CLK_SNAP_CTRL of a mailbox is written: a request clears VALID, and its capture is pending. -/
def State.snapRequest (s : State) (tag k : Nat) (v : W32) : State :=
  let s := s.writeReg tag (Reg.clkSnapCtrl k) v
  if v.fld F.clkSnapCtrl_REQ = 0 then s else
  { s.wf (Reg.clkSnapCtrl k) F.clkSnapCtrl_VALID 0 with snapPending := (s.snapPending.erase k) ++ [k] }

/-- The Clepsydra captures every time value and position into a mailbox in one cycle (R527, R535). -/
def State.snapCapture (s : State) (k : Nat) : State :=
  if !s.snapPending.contains k then s else
  let s := { s with snapPending := s.snapPending.erase k }
  let s := (s.wn (Reg.snapGtsLo k) s.gts).wn (Reg.snapGtsHi k) (s.gts / 2 ^ 32)
  let s := ((s.wn (Reg.snapTaiNs k) s.taiNs).wn (Reg.snapTaiSLo k) s.taiSec).wn (Reg.snapTaiSHi k) (s.taiSec / 2 ^ 32)
  let s := (List.range 9).foldl (fun s n =>
    let p := (s.phase n).pos
    (s.wn (Reg.snapPosLo k n) p).wn (Reg.snapPosHi k n) (p / 2 ^ 32)) s
  (s.wf (Reg.clkSnapCtrl k) F.clkSnapCtrl_TAI_VALID (b2n s.taiValid)).wf (Reg.clkSnapCtrl k) F.clkSnapCtrl_VALID 1

/-! IEEE 1588 stamps (R537, R538, R824). -/

/-- An Ethernet port. -/
def State.port (s : State) (n : Nat) : EthPort := Table.get {} s.eth n
/-- The state with an Ethernet port set. -/
def State.setPort (s : State) (n : Nat) (p : EthPort) : State := { s with eth := Table.put {} s.eth n p }

/-- An event message crosses a port's reference plane: messageType 0 Sync, 1 Delay_Req, 2 Pdelay_Req, 3 Pdelay_Resp.
One-step operation, of a Sync and not over IPv6, writes the stamp into originTimestamp and clears the UDP checksum (R538). -/
def State.stamp (s : State) (n : Nat) (egress : Bool) (send : PtpSend) (msgType domain seqId : Nat) : State :=
  let x : Stamp := { sec := s.taiSec, ns := s.taiNs, seqId := seqId, domain := domain, msgType := msgType }
  let p := s.port n
  if !egress then s.setPort n { p with ingress := some x } else
  let p := if send.oneStep && msgType == 0 && send.transport != 2 then
    { p with originTs := some x, csumCleared := send.transport == 1 } else p
  if p.queue.length < 64 then s.setPort n { p with queue := p.queue ++ [x] }
  else (s.setPort n p).wf (Reg.ethTsqCtrl n) F.ethTsqCtrl_OVERFLOW 1

/-- ETH_TSQ_CTRL of a port is written: POP moves the oldest egress stamp into the mailbox (R824). -/
def State.tsqWrite (s : State) (tag n : Nat) (v : W32) : State :=
  let s := s.writeReg tag (Reg.ethTsqCtrl n) v
  if v.fld F.ethTsqCtrl_POP = 0 then s else
  let s := s.wf (Reg.ethTsqCtrl n) F.ethTsqCtrl_VALID 0
  match (s.port n).queue with
  | [] => s
  | x :: q =>
    let s := s.setPort n { s.port n with queue := q }
    let s := ((s.wn (Reg.ethTsqNs n) x.ns).wn (Reg.ethTsqSLo n) x.sec).wn (Reg.ethTsqSHi n) (x.sec / 2 ^ 32)
    let s := s.wn (Reg.ethTsqId n) (x.seqId % 2 ^ 16 * 2 ^ 16 + x.domain % 256 * 256 + x.msgType % 16)
    s.wf (Reg.ethTsqCtrl n) F.ethTsqCtrl_VALID 1

/-! Frame-sync outputs (R559, R560). -/

/-- A frame-sync output. -/
def State.fsync (s : State) (o : Nat) : Fsync := Table.get {} s.fsyncs o
/-- The state with a frame-sync output set. -/
def State.setFsync (s : State) (o : Nat) (x : Fsync) : State := { s with fsyncs := Table.put {} s.fsyncs o x }

/-- The GTS at which a pulse that asserted at a GTS ends: after WIDTH × 10 ns; 0 is taken as 1. -/
def State.pulseEnd (s : State) (o a : Nat) : Nat := a + 10 * max 1 (s.rf (Reg.fsyncCfg o) F.fsyncCfg_WIDTH)

/-- An output is asserted (R559). -/
def State.fsyncOn (s : State) (o : Nat) : Bool := (s.fsync o).asserted.any fun a => decide (s.gts < s.pulseEnd o a)

/-- The level of an output: POL selects the active one, and an output with ENABLE 0 holds the other (R559, R560). -/
def State.fsyncLevel (s : State) (o : Nat) : Bool :=
  (s.rf (Reg.fsyncCfg o) F.fsyncCfg_POL == 1) != (s.fsyncOn o && s.rf (Reg.fsyncCfg o) F.fsyncCfg_ENABLE == 1)

/-- A comparator's match reaches a frame-sync output (R560). -/
def State.fsyncMatch (s : State) (o : Nat) : State :=
  let x := s.fsync o
  if s.rf (Reg.fsyncCfg o) F.fsyncCfg_ENABLE = 0 then s
  else if x.matched.isSome || s.fsyncOn o then s.bumpSat (Reg.fsyncStatus o) F.fsyncStatus_OVERLAP
  else s.setFsync o { matched := some s.gts }

/-- A frame-sync output asserts at an I/O clock edge at least 10 ns after its match (R559). -/
def State.fsyncAssert (s : State) (o : Nat) : State :=
  match (s.fsync o).matched with
  | some m =>
    if m + 10 ≤ s.gts ∧ s.gts % 10 = 0 then (s.setFsync o { matched := none, asserted := some s.gts }).bump (Reg.fsyncStatus o)
      F.fsyncStatus_PULSES
    else s
  | none => s

/-- A frame-sync pulse ends. -/
def State.fsyncEnd (s : State) (o : Nat) : State :=
  match (s.fsync o).asserted with
  | some a =>
    if s.pulseEnd o a ≤ s.gts then s.setFsync o { s.fsync o with asserted := none }
    else s
  | none => s

/-! Comparators (R552 to R558). -/

/-- A time comparator. -/
def State.tc (s : State) (n : Nat) : Cmp := Table.get {} s.tcmp n
/-- The state with a time comparator set. -/
def State.setTc (s : State) (n : Nat) (x : Cmp) : State := { s with tcmp := Table.put {} s.tcmp n x }
/-- A phase comparator. -/
def State.pc (s : State) (n : Nat) : Cmp := Table.get {} s.pcmp n
/-- The state with a phase comparator set. -/
def State.setPc (s : State) (n : Nat) (x : Cmp) : State := { s with pcmp := Table.put {} s.pcmp n x }

/-- The time that a comparator's base counts. -/
def State.baseTime (s : State) (base : Nat) : Nat := if base = 0 then s.gts else s.taiAll

/-- A time comparator's condition holds (R552). -/
def State.timeMet (s : State) (x : Cmp) : Bool := (x.base == 0 || s.taiValid) && decide (x.target ≤ s.baseTime x.base)

/-- A phase comparator's condition holds (R553): DIR 1 UP, 2 DOWN. -/
def State.phaseMet (s : State) (x : Cmp) : Bool :=
  let d := sdiff48 (s.phase x.input).pos x.target
  if x.dir = 1 then decide (0 ≤ d) else decide (d ≤ 0)

/-- The outputs that a match fires, once (R554, R558). -/
def State.fireMatch (s : State) (cls n : Nat) : State :=
  let t := if cls = Cls.timeComp then 1 else 2
  let s := ((List.range 16).filter fun o => s.fsyncBind o == some (t, n)).foldl State.fsyncMatch s
  (s.groupsOn cls n).foldl State.fire s

/-- A status register counts additions beyond the first; it stops at 0x3FFF. -/
def State.addMissed (s : State) (off n : Nat) : State :=
  s.wf off F.tcmpStatus_MISSED (min (s.rf off F.tcmpStatus_MISSED + n) 0x3FFF)

/-- The status of a comparator at a match (R556, R558). -/
def State.noteMatch (s : State) (status gtsReg : Nat) (late : Bool) : State :=
  let s := (s.bump status F.tcmpStatus_MATCHES).wn gtsReg s.gts
  if late then s.wf status F.tcmpStatus_LATE 1 else s

/-- A comparator armed with its condition met matches in the next cycle, no earlier (R556). -/
def Cmp.early (x : Cmp) (gts : Nat) : Bool := x.fresh && x.armedAt == gts

/-- TCMP_MATCH (R552, R554, R558). -/
def State.tcmpMatch (s : State) (n : Nat) : State :=
  let x := s.tc n
  if !x.armed || !s.timeMet x || x.early s.gts then s else
  let s := s.noteMatch (Reg.tcmpStatus n) (Reg.tcmpMatchGts n) x.fresh
  let s := if x.period = 0 then s.setTc n { x with armed := false, fresh := false } else
    let k := (s.baseTime x.base - x.target) / x.period + 1
    (s.setTc n { x with fresh := false, target := x.target + k * x.period }).addMissed (Reg.tcmpStatus n) (k - 1)
  s.fireMatch Cls.timeComp n

/-- PCMP_MATCH (R553, R554, R558). -/
def State.pcmpMatch (s : State) (n : Nat) : State :=
  let x := s.pc n
  if !x.armed || !s.phaseMet x || x.early s.gts then s else
  let s := s.noteMatch (Reg.pcmpStatus n) (Reg.pcmpMatchGts n) x.fresh
  let pitch := sext 32 x.period
  let s := if x.period = 0 then s.setPc n { x with armed := false, fresh := false } else
    let k := (sdiff48 (s.phase x.input).pos x.target).natAbs / pitch.natAbs + 1
    (s.setPc n { x with fresh := false, target := wrapN 48 ((x.target : Int) + (k : Int) * pitch) }).addMissed
      (Reg.pcmpStatus n) (k - 1)
  s.fireMatch Cls.phaseComp n

/-- The claimant of a CTRL write is the comparator's holder (R555). -/
def State.holds (s : State) (cls n claimant : Nat) : Bool := s.holderOf cls n == claimant && claimant != 0

/-- TCMP_CTRL is written (R552, R555); an old match of the cycle fires first (R556). -/
def State.tcmpCtrl (s : State) (n : Nat) (v : W32) : State :=
  let t0 := s.rn (Reg.tcmpT0 n)
  let base := v.fld F.tcmpCtrl_BASE
  if !s.holds Cls.timeComp n (v.fld F.tcmpCtrl_CLAIMANT) then s
  else if v.fld F.tcmpCtrl_ARM = 1 ∧ base = 1 ∧ second ≤ t0 then s
  else
    let s := s.tcmpMatch n
    if v.fld F.tcmpCtrl_ARM = 0 then s.disarm Cls.timeComp n else
    let t1 := s.rn (Reg.tcmpT1 n)
    let target := if base = 0 then t0 + t1 * 2 ^ 32
      else (t1 + s.rf (Reg.tcmpT2 n) F.tcmpT2_VALUE * 2 ^ 32) * second + t0
    let x : Cmp := { armed := true, armedAt := s.gts, base := base, target := target, period := s.rn (Reg.tcmpPeriod n) }
    (s.setTc n { x with fresh := s.timeMet x }).wf (Reg.tcmpStatus n) F.tcmpStatus_MISSED 0

/-- PCMP_CTRL is written (R555); an old match of the cycle fires first (R556). -/
def State.pcmpCtrl (s : State) (n : Nat) (v : W32) : State :=
  let dir := v.fld F.pcmpCtrl_DIR
  let input := v.fld F.pcmpCtrl_INPUT
  let pitch := sext 32 (s.rn (Reg.pcmpPitch n))
  if !s.holds Cls.phaseComp n (v.fld F.pcmpCtrl_CLAIMANT) then s
  else if v.fld F.pcmpCtrl_ARM = 1 ∧ (dir = 0 ∨ dir = 3 ∨ 8 < input ∨ (dir = 1 ∧ pitch < 0) ∨ (dir = 2 ∧ 0 < pitch)) then s
  else
    let s := s.pcmpMatch n
    if v.fld F.pcmpCtrl_ARM = 0 then s.disarm Cls.phaseComp n else
    let target := s.rn (Reg.pcmpT0 n) + s.rf (Reg.pcmpT1 n) F.pcmpT1_VALUE * 2 ^ 32
    let x : Cmp := { armed := true, armedAt := s.gts, dir := dir, input := input, target := target, period := s.rn (Reg.pcmpPitch n) }
    (s.setPc n { x with fresh := s.phaseMet x }).wf (Reg.pcmpStatus n) F.pcmpStatus_MISSED 0

/-! Meanings. -/

def execSnapshotRequest (tag k : Nat) (v : W32) (s : State) :=
  onFabric s (guarded (decide (k < 4)) fun s => s.snapRequest tag k v)
def execSnapshotCapture (k : Nat) (s : State) := onFabric s (guarded (decide (k < 4)) fun s => s.snapCapture k)
def execTaiCancel (tag : Nat) (v : W32) (s : State) :=
  onFabric s (guarded (v.fld F.taiWrCtrl_OP == 0) fun s => s.taiWrite tag v)
def execTaiSet (tag : Nat) (v : W32) (s : State) :=
  onFabric s (guarded (v.fld F.taiWrCtrl_OP == 1) fun s => s.taiWrite tag v)
def execTaiAdd (tag : Nat) (v : W32) (s : State) :=
  onFabric s (guarded (v.fld F.taiWrCtrl_OP == 2) fun s => s.taiWrite tag v)
def execTaiRate (tag : Nat) (v : W32) (s : State) :=
  onFabric s (guarded (v.fld F.taiWrCtrl_OP == 3) fun s => s.taiWrite tag v)
/-- The applying tick (R533): a fabric cycle in which the pending operation applies. -/
def execTaiOpApply (s : State) := onFabric s (guarded s.taiReady State.tick)
/-- The tick of a roll-over (R531). -/
def execTaiRollover (s : State) := onFabric s (guarded s.rollsOver State.tick)
def execPtpStamp (port : Nat) (egress : Bool) (send : PtpSend) (msgType domain seqId : Nat) (s : State) :=
  onFabric s (guarded (decide (port < 6) && decide (msgType < 4)) fun s =>
    s.stamp port egress send msgType domain seqId)
def execEthTsqPop (tag port : Nat) (v : W32) (s : State) :=
  onFabric s (guarded (decide (port < 6)) fun s => s.tsqWrite tag port v)
def execFsyncAssert (n : Nat) (s : State) := onFabric s (guarded (decide (n < 16)) fun s => s.fsyncAssert n)
def execFsyncDeassert (n : Nat) (s : State) := onFabric s (guarded (decide (n < 16)) fun s => s.fsyncEnd n)
def execTcmpCtrlWrite (n : Nat) (v : W32) (s : State) := onFabric s (guarded (decide (n < 64)) fun s => s.tcmpCtrl n v)
def execPcmpCtrlWrite (n : Nat) (v : W32) (s : State) := onFabric s (guarded (decide (n < 64)) fun s => s.pcmpCtrl n v)
def execTcmpMatch (n : Nat) (s : State) := onFabric s (guarded (decide (n < 64)) fun s => s.tcmpMatch n)
def execPcmpMatch (n : Nat) (s : State) := onFabric s (guarded (decide (n < 64)) fun s => s.pcmpMatch n)

end Sys2Proof.Machine
end

