-- ==== Sys2Proof/Machine/Power.lean ====
section
/-! DEFINITION. Sys2Proof/Machine/Power.lean: the references of the root PLL, the power sequencer, the power cap, and thermal
control (spec/15; spec/00 R6; spec/08 R427 to R429). -/
namespace Sys2Proof.Machine

/-! The references (R725 to R732). -/

/-- A window of R725 is judged: its deviation from nominal in ppm against a band and an agreement in ppm. -/
def Judge.window (j : Judge) (gts : Nat) (band agree : Nat) (dev : Int) : Judge :=
  if band < dev.natAbs then {} else
  let counts := (dev :: j.counts).take 3
  if counts.any fun a => counts.any fun b => decide (agree < (a - b).natAbs) then { j with counts := [] }
  else if counts.length = 3 ∧ !j.good then { counts := counts, good := true, since := gts }
  else { j with counts := counts }

/-- The reference in use is lost (R729, R732): the root PLL enters holdover. -/
def State.holdover (s : State) : State := { s with clk := { s.clk with src := .holdover } }

/-- The judging of REF_CLK has a result; a loss while it is in use leaves holdover. -/
def State.setRefClk (s : State) (j : Judge) : State :=
  let lost := s.clk.refClk.good && !j.good && s.clk.src == .refClk
  let s := { s with clk := { s.clk with refClk := j } }
  if lost then s.holdover else s

/-- The judging of the recovered reference has a result. -/
def State.setRecov (s : State) (j : Judge) : State :=
  let lost := s.clk.recov.good && !j.good && s.clk.src == .recovered
  let s := { s with clk := { s.clk with recov := j } }
  if lost then s.holdover else s

/-- REF_JUDGE_WINDOW (R725, R728): a window of a candidate ends. The deviation is the sender's, since the spec gives the
always-on oscillator no frequency (log entry 34). -/
def State.judgeWindow (s : State) (recovered : Bool) (dev : Int) : State :=
  if recovered then
    if s.clk.locked && !s.clk.gated && s.refSrcCfg == 1 then s.setRecov (s.clk.recov.window s.gts 100 10 dev) else s
  else if s.clk.src == .recovered then s.setRefClk (s.clk.refClk.window s.gts 100 10 dev)
  else s.setRefClk (s.clk.refClk.window s.gts 200000 10000 dev)

/-- A transfer between references (R730, R732). -/
def State.transferTo (s : State) (r : RefSrc) : State :=
  let s := { s with clk := { s.clk with src := r, transfers := (s.clk.transfers + 1) % 65536,
                                        recovWanted := s.clk.recovWanted && r != RefSrc.recovered } }
  s.warn 7 0x15 0

/-- REF_TRANSFER: the first transfer to the recovered reference (R728), and the way out of holdover (R732). A root that runs
from a reference that a reload no longer names goes back to REF_CLK (DEDUCED, log entry 35). -/
def State.refTransfer (s : State) : State :=
  match s.clk.src with
  | .holdover =>
    if s.clk.refClk.good then s.transferTo .refClk
    else if s.clk.recov.good && s.refSrcCfg == 1 then s.transferTo .recovered else s
  | .refClk => if s.clk.recovWanted && s.clk.recov.good && s.refSrcCfg == 1 then s.transferTo .recovered else s
  | .recovered => if s.refSrcCfg != 1 && s.clk.refClk.good then s.transferTo .refClk else s
  | .judging => s

/-- REF_REVERT (R731). -/
def State.refRevert (s : State) : State :=
  if s.clk.src == .refClk && s.rf Reg.clkRefCfg F.clkRefCfg_REVERT == 1 && s.refSrcCfg == 1 && s.clk.recov.good &&
    decide (s.clk.recov.since + 10 * second ≤ s.gts) then s.transferTo .recovered else s

/-! The power sequencer (R737 to R748). -/

/-- The voltage set point of an operating point in mV (R737). -/
def opVolt (op : Nat) : Nat :=
  match op with
  | 0 => 850
  | 1 => 780
  | 2 => 730
  | 3 => 670
  | 4 => 630
  | _ => 600

/-- A request of the sequencer; a newer one replaces it (R740). -/
def State.opRequest (s : State) (k : Nat) : State := { s with pwr := { s.pwr with pending := some k } }

/-- A request of FWP4: one for the floor or a faster point ends reason 5, and one that reaches the ceiling ends reason 0
(R751). -/
def State.fwp4Request (s : State) (k : Nat) : State :=
  let p := s.pwr
  { s with pwr := { p with pending := some k, heldReason := p.heldReason && decide (s.floorOp < k),
                           capThrottle := p.capThrottle && decide (p.ceiling < k) } }

/-- FLOOR_LOCK is set. -/
def State.floorLock (s : State) : Bool := s.rf Reg.powerCtrl F.powerCtrl_FLOOR_LOCK == 1

/-- The floor refuses a point (R746). -/
def State.floorRefuses (s : State) (k : Nat) : Bool :=
  s.clocksOn && decide (s.floorOp < k) && (s.floorLock || !s.guarJobs.isEmpty)

/-- The divider of a point takes effect (R723). -/
def State.setOp (s : State) (k : Nat) : State :=
  ({ s with pwr := { s.pwr with op := k } } : State).wf Reg.clkDiv F.clkDiv_CASCADE (opDiv k)

/-- A Voltage write for a point begins (R741, R742). -/
def State.sendFrame (s : State) (k : Nat) : State :=
  { s with pwr := { s.pwr with frame := some { op := k, start := s.gts }, target := k, cmdGts := s.gts, reached := 0 } }

/-- OP_REQUEST_SERVE (R741, R746, R755). -/
def State.opServe (s : State) : State :=
  match s.pwr.pending with
  | none => s
  | some k =>
    if s.pwr.frame.isSome || s.seqFrozen then s else
    let s := { s with pwr := { s.pwr with pending := none } }
    if s.hot && decide (k < max s.pwr.op s.floorOp) then s
    else if s.floorRefuses k then
      ({ s with pwr := { s.pwr with heldReason := true } } : State).wf Reg.powerStatus F.powerStatus_FLOOR_HELD 1
    else
      let s := { s with pwr := { s.pwr with heldReason := false } }
      let s := if s.pwr.op < k then s.setOp k else s
      s.sendFrame k

/-- The rail sets out for the commanded set point: the window widens to it (R745). -/
def PowerS.slewTo (p : PowerS) : PowerS :=
  { p with spLow := min p.spLow (opVolt p.target), spHigh := max p.spHigh (opVolt p.target) }

/-- The commanded set point is reached: the window narrows to it (R745). -/
def PowerS.settled (p : PowerS) : PowerS := { p with spLow := opVolt p.target, spHigh := opVolt p.target }

/-- AVS_FRAME_DONE (R738, R744, R745): a frame ends 1,280 ns after it began. -/
def State.frameDone (s : State) (ok : Bool) : State :=
  match s.pwr.frame with
  | none => s
  | some f =>
    if s.gts < f.start + 1280 then s
    else if ok then { s with pwr := { s.pwr with frame := none, slewing := true }.slewTo }
    else if !f.retry then { s with pwr := { s.pwr with frame := some { f with retry := true, start := s.gts } } }
    else { s with pwr := { s.pwr with frame := none, avsFault := true } }

/-- VOLTAGE_REACHED (R741, R742): a sample of the Cascade rail in mV. At the fifth in a row at v(target) − 10 mV or more the
slew ends, and a faster target's divider applies. -/
def State.voltSample (s : State) (mv : Nat) : State :=
  let p := s.pwr
  if s.gts % 1000 != 0 || p.frame.isSome || !p.slewing || p.sampleAt == some s.gts || s.seqFrozen then s else
  let next := p.sampleAt.any fun t => t + 1000 == s.gts
  let n := if mv + 10 < opVolt p.target then 0 else if next then p.reached + 1 else 1
  if n < 5 then { s with pwr := { p with reached := n, sampleAt := some s.gts } } else
  let s := { s with pwr := { p with reached := 0, sampleAt := some s.gts, slewing := false }.settled }
  if p.target < p.op then s.setOp p.target else s

/-- AVS_TIMEOUT (R743). -/
def State.avsTimeout (s : State) : State :=
  let p := s.pwr
  if p.slewing && p.frame.isNone && !s.seqFrozen && decide (p.cmdGts + 200000 ≤ s.gts) then
    ((s.sendFrame p.op).wf Reg.powerStatus F.powerStatus_AVS_TIMEOUT 1).warn 8 0x16 0
  else s

/-- FLOOR_LOCK is written (R747). -/
def State.floorLockWrite (s : State) (tag : Nat) (v : W32) : State :=
  let s := s.writeReg tag Reg.powerCtrl v
  if s.floorLock && s.clocksOn && decide (s.floorOp < s.pwr.op) then s.opRequest s.floorOp else s

/-- A request of the operating point by a register write: only FWP4's, of a point of the OP table (R740). -/
def State.opReqWrite (s : State) (tag : Nat) (v : W32) : State :=
  let k := v.fld F.powerOpReq_OP
  if tag == 0x604 && decide (k ≤ 5) then s.fwp4Request k else s

/-- What the application of a CLOCKS section brings to the clocks and the power control (R724, R728, R748, R749, R664). -/
def State.clocksApplied (s : State) : State :=
  let pl := s.sec Tag.clocks
  let s := ((s.wf Reg.clkDiv F.clkDiv_PIPE (u8 pl 4)).wf Reg.clkDiv F.clkDiv_CODEC (u8 pl 5)).wf Reg.clkDiv
    F.clkDiv_HOST (u8 pl 6)
  let s := { s with weir := { s.weir with clocksBad := false },
                    clk := { s.clk with recovWanted := s.refSrcCfg == 1,
                                        recov := if s.refSrcCfg == 1 then s.clk.recov else {} },
                    pwr := { s.pwr with capSet := s.powerCapW } }
  s.opRequest s.bootOp

/-! Maintenance windows (R427 to R429, R760, R761). -/

/-- The DDR PHY temperature: the higher of its two sensors, which are sensors 16 and 17 (R719, R754; log entry 36). -/
def phyTemp (l : List Int) : Int := max (l.getD 16 0) (l.getD 17 0)

/-- FWP4 asks for a window; while it is down, its request waits (R427, R761). -/
def State.askWindow (s : State) : State :=
  if s.fwUp 4 then s.maintRequest else { s with pwr := { s.pwr with retrainAt := some s.gts } }

/-- FWP4 requests a window when the DDR PHY temperature has moved 20 °C from its value at the last complete training (R760). -/
def State.checkPhy (s : State) : State :=
  let t := sext 16 (s.rf Reg.powerDdrTrain F.powerDdrTrain_TRAIN_TEMP)
  if s.ready && s.fwUp 4 && s.weir.maintStart.isNone && s.pwr.sensors.length == 24 &&
    decide (80 ≤ (phyTemp s.pwr.sensors - t).natAbs) then s.maintRequest else s

/-- The DDR PHY temperature is recorded as that of a complete training. -/
def State.trained (s : State) : State :=
  s.wf Reg.powerDdrTrain F.powerDdrTrain_TRAIN_TEMP (wrapN 16 (phyTemp s.pwr.sensors))

/-- MAINT_WINDOW_END (R429, R760, R761): `failCh`: the channels that fail their eye check. A window in which one fails is no
complete training (DEDUCED, log entry 37). -/
def State.maintEnd (s : State) (failCh : Nat) : State :=
  match s.weir.maintStart with
  | none => s
  | some t =>
    if s.gts < t + 40000 then s else
    let s := { s with weir := { s.weir with maintStart := none } }
    let s := s.wf Reg.powerDdrTrain F.powerDdrTrain_FAIL_CH failCh
    if failCh % 256 = 0 then s.trained
    else ({ s with pwr := { s.pwr with retrainAt := some (s.gts + 1000000) } } : State).checkPhy

/-- DDR_EYE_FAIL_RETRY: the window that FWP4 has yet to request is due. -/
def State.retrainDue (s : State) : State :=
  match s.pwr.retrainAt with
  | some t => if s.fwUp 4 && decide (t ≤ s.gts) then
      ({ s with pwr := { s.pwr with retrainAt := none } } : State).maintRequest else s
  | none => s

/-! The power cap (R749, R750, R6). -/

/-- The mean of the estimates over 10 ms, in 0.01 W. -/
def State.powerMean (s : State) : Nat := s.pwr.est.sum / max 1 s.pwr.est.length

/-- POWER_ESTIMATE: FWP4's estimate in 0.01 W. -/
def State.powerEstimate (s : State) (e : Nat) : State :=
  let p := s.pwr
  if !s.fwUp 4 || p.estAt.any (fun t => decide (s.gts < t + 100000)) then s else
  let s := { s with pwr := { p with est := (e :: p.est).take 100, estAt := some s.gts } }
  let m := s.powerMean
  let s := (s.wf Reg.powerEst F.powerEst_NOW e).wf Reg.powerEst F.powerEst_MEAN m
  let since := if m + 300 ≤ 100 * s.effectiveCap then some (p.underSince.getD s.gts) else none
  { s with pwr := { s.pwr with underSince := since } }

/-- POWER_CAP_CHECK: FWP4's comparison every 1 ms (R750). -/
def State.capCheck (s : State) : State :=
  let p := s.pwr
  if !s.fwUp 4 || p.checkAt.any (fun t => decide (s.gts < t + 1000000)) || p.est.isEmpty then s else
  let s := { s with pwr := { p with checkAt := some s.gts } }
  if 100 * s.effectiveCap * p.est.length < p.est.sum then
    if p.op < 5 then
      let s := s.fwp4Request (p.op + 1)
      { s with pwr := { s.pwr with capThrottle := true } }
    else s
  else if p.underSince.any (fun t => decide (t + 100000000 ≤ s.gts)) && decide (p.ceiling < p.op) && !p.warned && !s.hot
    then s.fwp4Request (p.op - 1)
  else s

/-- CAP_LIMIT_STEP (R6): a whole second below +98 °C. -/
def State.capLimitStep (s : State) : State :=
  match s.pwr.belowSince with
  | some t =>
    if s.pwr.limited && decide (t + second ≤ s.gts) then
      let n := s.pwr.capLimit + 1
      { s with pwr := { s.pwr with capLimit := n, limited := decide (n < 45), belowSince := some (t + second) } }
    else s
  | none => s

/-- The cap limit of R6 as a reading of the junction sets it, in 0.25 °C. While the fabric clock does not run the GTS stands, so
a time below +98 °C that begins then counts from the first reading after it (log entry 139). -/
def State.capLimitSee (s : State) (j : Int) : State :=
  if !s.boot.board.gradeE then s else
  let p := s.pwr
  let p := if 420 < j then { p with limited := true, capLimit := 30 } else p
  let since := if 392 ≤ j then none else if s.up then some (p.belowSince.getD s.gts) else p.belowSince
  { s with pwr := { p with belowSince := since } }

/-! Thermal control (R754 to R756, R831). -/

/-- Two consecutive readings of some sensor are at or above a temperature. -/
def State.twice (s : State) (t : Int) : Bool :=
  (s.pwr.sensors.zip s.pwr.prev).any fun x => decide (t ≤ x.1) && decide (t ≤ x.2)

/-- The warning temperature in 0.25 °C (R630). -/
def State.warnTemp (s : State) : Int := (s.rn (Reg.detThresh 9) % 65536 : Nat)

/-- The warning of detector 0x09 (R831): once for each crossing. -/
def State.thermalWarning (s : State) (inj : Bool) : State :=
  if s.pwr.warned then
    if (s.pwr.sensors.all fun t => decide (t + 20 ≤ s.warnTemp)) then { s with pwr := { s.pwr with warned := false } } else s
  else if s.twice s.warnTemp then
    ({ s with pwr := { s.pwr with warned := true, lastStep := s.gts } } : State).occur ⟨9, Kind.warning, 0x16, 0, inj⟩
  else s

/-- The thermal trip (R755). -/
def State.thermalTrip (s : State) (inj : Bool) : State :=
  if s.pwr.trip then { s with pwr := { s.pwr with trip := s.hot } }
  else if s.twice tripTemp then
    let s := { s with pwr := { s.pwr with trip := true } }
    let s := (s.detCount ⟨9, Kind.occurrence, 0x16, 0, inj⟩).cause 1
    let s := s.raiseDev 1 Ev.thermalTrip (wrapN 32 (junction s.pwr.sensors))
    if s.weir.clocksBad then s else s.opRequest (max s.pwr.op s.floorOp)
  else s

/-- FWP4's step under THERMAL (R752). -/
def State.thermalStep (s : State) : State :=
  if s.pwr.warned && s.fwUp 4 && decide (s.pwr.lastStep + 10000000 ≤ s.gts) then
    let s := { s with pwr := { s.pwr with lastStep := s.gts } }
    if s.pwr.op < 5 then s.fwp4Request (s.pwr.op + 1) else s
  else s

/-- The shutdown of R756: every clock but the always-on oscillator is gated, every pair is at stop, and the link is down,
until POWER_ON. -/
def State.thermalShutdown (s : State) : State :=
  if s.twice 500 then
    { s with clk := { s.clk with shutdown := true, locked := false },
             pairs := s.pairs.map fun e => (e.1, { e.2 with run := false }), pcieUp := false }
  else s

/-- POWER_TEMP shows a reading. -/
def State.showTemp (s : State) (j : Int) : State :=
  let s := s.wf Reg.powerTemp F.powerTemp_JUNCTION (wrapN 16 j)
  if s.pwr.peakSet && decide (j ≤ sext 16 (s.rf Reg.powerTemp F.powerTemp_PEAK)) then s
  else ({ s with pwr := { s.pwr with peakSet := true } } : State).wf Reg.powerTemp F.powerTemp_PEAK (wrapN 16 j)

/-- The forced reading of INTEGRITY site 5 (R642, R830): it replaces the reading of every sensor. -/
def State.forceTemp (s : State) (l : List Int) : Bool × List Int × State :=
  let t := s.rf (injBase 0x17 0 + 4) F.inj_TARGET
  let r := s.inject 0x17 0 5 t
  if r.1.isSome then (true, List.replicate 24 (sext 16 t), r.2) else (false, l, r.2)

/-- THERMAL_READING: every 10 µs, the 24 sensors are read, in the order of R754: the cores, the DDR PHY, the rest. -/
def State.thermalReading (s : State) (l : List Int) : State :=
  if l.length != 24 || s.clk.shutdown || s.clk.standby ||
    (s.up && s.pwr.readAt.any fun t => decide (s.gts < t + 10000)) then s else
  let (inj, l, s) := if s.up then s.forceTemp l else (false, l, s)
  let s := { s with pwr := { s.pwr with prev := s.pwr.sensors, sensors := l, readAt := some s.gts } }
  let s := s.capLimitSee (junction l)
  if !s.up then s.thermalShutdown else
  let s := s.showTemp (junction l)
  (((s.thermalWarning inj).thermalTrip inj).checkPhy.thermalStep).thermalShutdown

/-! Requests (R753). -/

/-- Result FLOOR_HELD of POWER_SET_CEIL. -/
def Rs.floorHeld : Nat := 0x40

/-- POWER_SET_CAP. -/
def State.powerSetCap (r : FwReq) (s : State) : FwResult :=
  if r.a0 < 15 ∨ 45 < r.a0 then (some (Rs.badArg, none), s)
  else (some (Rs.ok, none), { s with pwr := { s.pwr with capSet := r.a0 } })

/-- POWER_SET_CEIL. -/
def State.powerSetCeil (r : FwReq) (s : State) : FwResult :=
  if 5 < r.a0 then (some (Rs.badArg, none), s) else
  let held := s.floorLock && s.clocksOn && decide (s.floorOp < r.a0)
  let c := if held then s.floorOp else r.a0
  let s := { s with pwr := { s.pwr with ceiling := c } }
  (some (if held then Rs.floorHeld else Rs.ok, none), if s.pwr.op < c then s.fwp4Request c else s)

/-- POWER_GET. -/
def State.powerGet (s : State) : Nat :=
  s.pwr.op + s.effectiveCap * 2 ^ 8 + s.powerMean % 65536 * 2 ^ 16 + wrapN 16 (junction s.pwr.sensors) * 2 ^ 32

/-- POWER_SET_FLOOR_LOCK. -/
def State.powerFloorLock (r : FwReq) (s : State) : FwResult :=
  if 1 < r.a0 then (some (Rs.badArg, none), s)
  else (some (Rs.ok, none), s.floorLockWrite 0x604 ((s.rd Reg.powerCtrl).setFld F.powerCtrl_FLOOR_LOCK r.a0))

/-! Meanings. -/

/-- A judging window ends: the judging runs in the always-on domain, also while the fabric clock does not run (R725, R733). -/
def execRefJudgeWindow (recovered : Bool) (dev : Int) (s : State) :=
  always s (guarded (!s.clk.shutdown && !s.clk.standby) fun s => s.judgeWindow recovered dev)
def execRecoveredRefLoss (s : State) := onFabric s fun s => s.setRecov {}
def execRefTransfer (s : State) := onFabric s State.refTransfer
def execRefRevert (s : State) := onFabric s State.refRevert
def execPowerOpReqWrite (tag : Nat) (v : W32) (s : State) := onFabric s fun s => s.opReqWrite tag v
def execOpRequestServe (s : State) := onFabric s State.opServe
def execAvsFrameDone (ok : Bool) (s : State) := onFabric s fun s => s.frameDone ok
def execVoltageReached (mv : Nat) (s : State) := onFabric s fun s => s.voltSample mv
def execAvsTimeout (s : State) := onFabric s State.avsTimeout
def execFloorLockWrite (tag : Nat) (v : W32) (s : State) := onFabric s fun s => s.floorLockWrite tag v
def execPowerEstimate (estimate : Nat) (s : State) := onFabric s fun s => s.powerEstimate estimate
def execPowerCapCheck (s : State) := onFabric s State.capCheck
def execCapLimitStep (s : State) := onFabric s State.capLimitStep
/-- The warning and the trip need the fabric's reports; the shutdown acts without it (R756). -/
def execThermalReading (readings : List Int) (s : State) := always s fun s => s.thermalReading readings
def execMaintWindowEnd (failCh : Nat) (s : State) := onFabric s fun s => (s.maintEnd failCh).settle
def execDdrEyeFailRetry (s : State) := onFabric s State.retrainDue
def execPowerSetCap (s : State) := onFabric s fun s => s.fwServe 0x40 State.powerSetCap
def execPowerSetCeil (s : State) := onFabric s fun s => s.fwServe 0x41 State.powerSetCeil
def execPowerGet (s : State) := onFabric s fun s => s.fwServe 0x42 fun _ s => (some (Rs.ok, some s.powerGet), s)
def execPowerSetFloorLock (s : State) := onFabric s fun s => s.fwServe 0x43 State.powerFloorLock
def execDdrRetrain (s : State) := onFabric s fun s => s.fwServe 0x44 fun _ s => (some (Rs.ok, none), s.maintRequest)

end Sys2Proof.Machine
end

