-- ==== Sys2Proof/Machine/Flash.lean ====
section
/-! DEFINITION. Sys2Proof/Machine/Flash.lean: the boot flash: slot records (spec/14 R682, R683), the VERSION record, the checks of
a stage-1 image (R686, R688), and the components of its payload (R690, R691). -/
namespace Sys2Proof.Machine

/-- The big-endian value of a list of bytes, as a digest or an ECDSA value is stored (R78, R688). -/
def beNat : List Byte → Nat := fun l => l.foldl (fun n b => n * 256 + b.toNat) 0

/-- The n bytes of a value, big-endian. -/
def beBytes (v n : Nat) : List Byte := (leBytes v n).reverse

/-- The SHA-384 digest of a list of bytes as a number. -/
def sha384 (l : List Byte) : Nat := (Config.sha384 l).toNat

/-- n bytes of the boot flash. -/
def State.flashRd (s : State) (a n : Nat) : List Byte := Mem.rdBytes s.boot.flash a n

/-- The boot flash with bytes programmed. -/
def State.flashWr (s : State) (a : Nat) (b : List Byte) : State :=
  { s with boot := { s.boot with flash := Mem.wrBytes s.boot.flash a b } }

/-! Slot records (R683). -/

/-- One bit of the CRC-32 of IEEE 802.3, least significant bit first (the polynomial is the standard's, log entry 7). -/
def crcBit (c : Nat) : Nat := if c % 2 = 1 then (c / 2) ^^^ 0xEDB88320 else c / 2

/-- The CRC-32 of IEEE 802.3 over a list of bytes (R683). -/
def crc32 (l : List Byte) : Nat :=
  (l.foldl (fun c b => (List.range 8).foldl (fun c _ => crcBit c) (c ^^^ b.toNat)) 0xFFFFFFFF) ^^^ 0xFFFFFFFF

/-- A slot record: SEQ, ACTIVE, REQUEST, TRIAL and TRIAL_S. -/
structure SlotRec where
  seq : Nat := 0
  active : Nat := 0
  request : Nat := 0
  trial : Nat := 0
  trialS : Nat := 0
deriving DecidableEq, Repr

/-- The address of a copy of the slot record. -/
def slotCopy (i : Nat) : Nat := 0x1000 * i

/-- The 64 bytes of a slot record. -/
def SlotRec.bytes (r : SlotRec) : List Byte :=
  let b := leBytes 0x4C544342 4 ++ leBytes r.seq 4 ++ leBytes r.active 1 ++ leBytes r.request 1 ++ leBytes r.trial 1 ++
    leBytes 0 1 ++ leBytes r.trialS 2 ++ leBytes 0 46
  b ++ leBytes (crc32 b) 4

/-- The record of a copy, if its MAGIC and CRC are correct. -/
def SlotRec.parse (b : List Byte) : Option SlotRec :=
  if u32 b 0 = 0x4C544342 ∧ u32 b 0x3C = crc32 (b.take 0x3C) then
    some ⟨u32 b 4, u8 b 8, u8 b 9, u8 b 0xA, u16 b 0xC⟩
  else none

/-- The winning record and the copy that holds it: the larger SEQ as a signed difference, copy 0 where they are equal. -/
def slotWinner (a b : Option SlotRec) : Option (SlotRec × Nat) :=
  match a, b with
  | some x, some y =>
    if sext 32 (y.seq + 2 ^ 32 - x.seq % 2 ^ 32) ≤ 0 then some (x, 0) else some (y, 1)
  | some x, none => some (x, 0)
  | none, some y => some (y, 1)
  | none, none => none

/-- The winning record of the flash. -/
def State.slotWin (s : State) : Option (SlotRec × Nat) :=
  slotWinner (SlotRec.parse (s.flashRd (slotCopy 0) 64)) (SlotRec.parse (s.flashRd (slotCopy 1) 64))

/-- The record the loader goes by; with no valid copy, slot A with no request and no trial. -/
def State.slotRec (s : State) : SlotRec :=
  match s.slotWin with
  | some (r, _) => r
  | none => {}

/-- A new record is written to the copy that does not hold the winning record, with SEQ one larger. -/
def State.writeSlotRec (s : State) (f : SlotRec → SlotRec) : State :=
  let copy := match s.slotWin with
    | some (_, i) => 1 - i
    | none => 0
  let r := f s.slotRec
  s.flashWr (slotCopy copy) ({ r with seq := (s.slotRec.seq + 1) % 2 ^ 32 } : SlotRec).bytes

/-- The trial watchdog's period of a record, in s. -/
def SlotRec.period (r : SlotRec) : Nat := if 5 ≤ r.trialS ∧ r.trialS ≤ 600 then r.trialS else 60

/-- The address of a slot's stage-1 image and of its payload (R682). -/
def stage1Base (slot : Nat) : Nat := if slot = 0 then 0x10000 else 0x90000
def payloadBase (slot : Nat) : Nat := if slot = 0 then 0x100000 else 0x1900000
/-- The largest stage-1 image. -/
def stage1Max : Nat := 458752
/-- The size of a payload region. -/
def payloadSize : Nat := 0x1800000

/-! The key engine (R704). -/

/-- The key engine is locked. -/
def State.keyLocked (s : State) : Bool := s.rf Reg.bootStatus F.bootStatus_KEY_LOCKED == 1

/-- A decryption by the key engine, which has no key while it is locked. -/
def State.decrypt (s : State) (iv aad tag ct : List Byte) : Option (List Byte) :=
  if s.keyLocked then none else Config.gcmDecrypt iv aad tag ct

/-! The VERSION record. -/

/-- MIN_VERSION of the VERSION record, or none where its HMAC fails. -/
def State.versionRec (s : State) : Option Nat :=
  let b := s.flashRd 0x80000 64
  if u32 b 0 = 0x4E535256 ∧ !s.keyLocked ∧ (b.drop 0x10).take 48 = Config.keyMac (b.take 0x10) then some (u32 b 4) else none

/-- MIN_VERSION in force: 0 where the record is lost. -/
def State.minVersion (s : State) : Nat := s.versionRec.getD 0

/-- The key engine writes the VERSION record, which ends VERSION_LOST; a locked engine writes nothing. -/
def State.writeVersion (s : State) (v : Nat) : State :=
  if s.keyLocked then s else
  let seq := fieldAt (s.flashRd 0x80000 64) 8 4
  let b := leBytes 0x4E535256 4 ++ leBytes v 4 ++ leBytes (seq + 1) 4 ++ leBytes 0 4
  ((s.flashWr 0x80000 (b ++ (Config.keyMac b).take 48)).wn Reg.bootMinVersion v).wf Reg.bootStatus F.bootStatus_VERSION_LOST 0

/-- MIN_VERSION and the epoch fuses are raised to a version and an epoch; neither falls (R702, R703). -/
def State.raiseFloor (s : State) (version epoch : Nat) : State :=
  let s := if s.minVersion < version then s.writeVersion version else s
  { s with boot := { s.boot with board := { s.boot.board with epoch := max s.boot.board.epoch epoch } } }

/-! Stage-1 images (R686, R688). -/

/-- Where an image is read from: n bytes at an offset. -/
abbrev Img := Nat → Nat → List Byte

def S1.length (i : Img) : Nat := leNat (i 8 4)
def S1.flags (i : Img) : Nat := leNat (i 6 2)
def S1.encrypted (i : Img) : Bool := (S1.flags i).testBit 0
def S1.version (i : Img) : Nat := leNat (i 0xC 4)
def S1.epoch (i : Img) : Nat := leNat (i 0x10 1)
def S1.signKey (i : Img) : List Byte := i 0x20 96
def S1.parterreKey (i : Img) : List Byte := i 0x80 96
def S1.hash (i : Img) : List Byte := i 0x100 48
/-- The bytes after the header, as stored. -/
def S1.body (i : Img) : List Byte := i 0x200 (S1.length i - 0x200)

/-- Check FORMAT. -/
def S1.formatOk (i : Img) : Bool :=
  leNat (i 0 4) == 0x31475453 && leNat (i 4 2) == 0x100 && decide (S1.length i ≤ stage1Max) && S1.length i % 16 == 0 &&
  (i 0x11 3 ++ i 0x1E 2 ++ i 0xEC 4 ++ i 0x190 112).all (· == 0#8)

/-- Check KEY. -/
def State.s1KeyOk (s : State) (i : Img) : Bool :=
  match s.boot.board.rootKeyHash with
  | some h => sha384 (S1.signKey i) == h
  | none => s.rf Reg.chipMode F.chipMode_TEST_EN == 1

/-- Check HASH. -/
def S1.hashOk (i : Img) : Bool := sha384 (i 0 0x100 ++ S1.body i) == beNat (S1.hash i)

/-- The body of an image in the clear, if check DECRYPT passes. -/
def State.s1Plain (s : State) (i : Img) : Option (List Byte) :=
  if S1.encrypted i then s.decrypt (i 0xE0 12) (i 0 0xE0) (i 0xF0 16) (S1.body i) else some (S1.body i)

/-- The checks of R686 in table order: the code of the first that fails, 0 if none does. -/
def State.s1Check (s : State) (i : Img) : Nat :=
  if !S1.formatOk i then 1
  else if !s.s1KeyOk i then 2
  else if !S1.hashOk i then 3
  else if !Config.ecdsaVerify (S1.signKey i) (beNat (S1.hash i)) (i 0x130 96) then 4
  else if !S1.encrypted i && s.boot.board.encRequired then 5
  else if S1.version i < s.minVersion || S1.epoch i < s.boot.board.epoch then 6
  else if (s.s1Plain i).isNone then 7
  else 0

/-- The component table of an image in the clear (R690). -/
def State.s1Comps (s : State) (i : Img) : List (List Byte) :=
  let body := (s.s1Plain i).getD []
  let off := leNat (i 0x18 4)
  (List.range (leNat (i 0x1C 2))).map fun k => (((i 0 0x200) ++ body).drop (off + 96 * k)).take 96

/-- A stage-1 image in a slot of the flash. -/
def State.slotImg (s : State) (slot : Nat) : Img := fun off n => s.flashRd (stage1Base slot + off) n

/-! Boot SRAM. -/

/-- The memory code of boot SRAM (R643). -/
def Mc.bootSram : Nat := 0x0C

/-- The image in boot SRAM. -/
def State.sramImg (s : State) : Img := fun off n => Mem.rdBytes s.boot.sram off n

/-- The loader copies a slot's image into boot SRAM (R684). -/
def State.loadSlot (s : State) (slot : Nat) : State :=
  let b := s.flashRd (stage1Base slot) (min stage1Max (S1.length (s.slotImg slot)))
  let s := s.writeEcc Mc.bootSram 0 0 b.length
  { s with boot := { s.boot with sram := Mem.wrBytes s.boot.sram 0 b } }

/-- The ROM reads the image in boot SRAM: an uncorrectable word of it makes the check of its digest fail. -/
def State.sramCheck (s : State) : Nat × State :=
  let (bad, s) := s.readEcc Mc.bootSram 0 0 (min stage1Max (S1.length s.sramImg))
  let c := s.s1Check s.sramImg
  (if bad && (c == 0 || 3 < c) then 3 else c, s)

/-! Components (R690, R691). -/

def Comp.type (e : List Byte) : Nat := u8 e 0
def Comp.encrypted (e : List Byte) : Bool := (u8 e 1).testBit 0
def Comp.offset (e : List Byte) : Nat := u32 e 4
def Comp.length (e : List Byte) : Nat := u32 e 8
def Comp.hash (e : List Byte) : List Byte := (e.drop 0x28).take 48

/-- The entry keeps the layout of R690. -/
def Comp.ok (e : List Byte) : Bool :=
  let t := Comp.type e
  e.length == 96 && ((1 ≤ t && t ≤ 4) || (0x10 ≤ t && t ≤ 0x12)) && u8 e 1 < 2 && u16 e 2 == 0 && Comp.offset e % 0x1000 == 0 &&
  decide (Comp.length e ≤ if t ≤ 0x10 then 262144 else 1048576) &&
  decide (Comp.offset e + Comp.length e ≤ payloadSize) && u64 e 0x58 == 0

/-- A component as stored in a slot's payload. -/
def State.compStored (s : State) (slot : Nat) (e : List Byte) : List Byte :=
  s.flashRd (payloadBase slot + Comp.offset e) (Comp.length e)

/-- A component's HASH is right. -/
def State.compHashOk (s : State) (slot : Nat) (e : List Byte) : Bool :=
  Comp.ok e && sha384 (s.compStored slot e) == beNat (Comp.hash e)

/-- A component in the clear, or none where it fails. -/
def State.compLoad (s : State) (slot : Nat) (e : List Byte) : Option (List Byte) :=
  if !s.compHashOk slot e then none
  else if Comp.encrypted e then s.decrypt ((e.drop 0xC).take 12) [] ((e.drop 0x18).take 16) (s.compStored slot e)
  else some (s.compStored slot e)

/-- The component of a type that the running image's table names, in the clear. -/
def State.component (s : State) (t : Nat) : Option (List Byte) :=
  match s.boot.comps.find? fun e => Comp.type e == t with
  | some e => s.compLoad (s.rf Reg.bootStatus F.bootStatus_SLOT) e
  | none => none

end Sys2Proof.Machine
end

