-- ==== Sys2Proof/Machine/Image.lean ====
section
/-! DEFINITION. Sys2Proof/Machine/Image.lean: the Parterre image (spec/02 R77 to R111): its layout, and those checks of R114 that
judge the image alone or merged with the sections in force (R114 to R120). -/
namespace Sys2Proof.Machine

/-! The header and the frames (R77 to R84). -/

def Pi.magic (b : List Byte) : Nat := u32 b 0
def Pi.version (b : List Byte) : Nat := u16 b 4
def Pi.flags (b : List Byte) : Nat := u16 b 6
def Pi.signed (b : List Byte) : Bool := (Pi.flags b).testBit 0
def Pi.reload (b : List Byte) : Bool := (Pi.flags b).testBit 1
def Pi.lockAtApply (b : List Byte) : Bool := (Pi.flags b).testBit 2
def Pi.total (b : List Byte) : Nat := u32 b 8
def Pi.count (b : List Byte) : Nat := u16 b 0xC
def Pi.imageId (b : List Byte) : Nat := u32 b 0x10
def Pi.baseId (b : List Byte) : Nat := u32 b 0x14
def Pi.hash (b : List Byte) : List Byte := (b.drop 0x20).take 48
def Pi.signature (b : List Byte) : List Byte := (b.drop 0x50).take 96

/-- The longest image. -/
def Pi.maxLength : Nat := 262144

/-- A section frame of an image (R82): where it stands, TAG, SECTION_VERSION, SECTION_FLAGS and BODY_LENGTH. -/
structure Sect where
  at_ : Nat
  tag : Nat
  version : Nat
  flags : Nat
  len : Nat
deriving DecidableEq, Repr

/-- Where a section's body begins, and where the section ends without and with its padding. -/
def Sect.body (f : Sect) : Nat := f.at_ + 8
def Sect.stop (f : Sect) : Nat := f.at_ + 8 + f.len
def Sect.next (f : Sect) : Nat := (f.stop + 7) / 8 * 8

/-- The frame at an offset. -/
def Sect.read (b : List Byte) (a : Nat) : Sect := ⟨a, u16 b a, u8 b (a + 2), u8 b (a + 3), u32 b (a + 4)⟩

/-- The walk of R114: the frames before the stopping point, the frame that runs past TOTAL_LENGTH if one does, and where the walk
stopped. A frame whose head lies beyond the checker's copy (R826) was not read and is not judged (DEDUCED, log entry 80). -/
def Pi.walk (b : List Byte) (stop : Nat) : Nat → Nat → List Sect × Option Sect × Nat
  | 0, a => ([], none, a)
  | n + 1, a =>
    if stop ≤ a then ([], none, a) else
    let f := Sect.read b a
    if stop < a + 8 then ([], some f, a)
    else if b.length < a + 8 then ([], none, a)
    else if stop < f.next then ([], some f, a) else
    let r := Pi.walk b stop n f.next
    (f :: r.1, r.2)

/-- The frames of an image's copy. -/
def Pi.frames (b : List Byte) : List Sect × Option Sect × Nat := Pi.walk b (Pi.total b) (Pi.count b) 0xB0

/-- A twin section (R83). -/
def twinTag (tag : Nat) : Bool := tag == Tag.clocks || tag == Tag.safety

/-- The payload of a section (R84). -/
def Sect.payload (b : List Byte) (f : Sect) : List Byte :=
  (b.drop f.body).take (if twinTag f.tag then f.len / 2 else f.len)

/-! What a failed check reports (R116, R119). -/

/-- Codes of R114. -/
def Ck.badMagic : Nat := 0x01
def Ck.badVersion : Nat := 0x02
def Ck.badLength : Nat := 0x03
def Ck.badFlags : Nat := 0x04
def Ck.hashMismatch : Nat := 0x05
def Ck.sigRequired : Nat := 0x06
def Ck.sigInvalid : Nat := 0x07
def Ck.badFrame : Nat := 0x08
def Ck.badTag : Nat := 0x09
def Ck.badTwin : Nat := 0x0A
def Ck.fieldRange : Nat := 0x0B
def Ck.consistency : Nat := 0x0C
def Ck.claimConflict : Nat := 0x0D
def Ck.width : Nat := 0x0E
def Ck.baseMismatch : Nat := 0x0F
def Ck.notIdle : Nat := 0x10
def Ck.locked : Nat := 0x11

/-- A conflict (R119): class, unit, units in conflict, and the claimants A and B as TAG and ENTRY. -/
structure Conflict where
  cls : Nat
  unit : Nat
  count : Nat
  a : Nat × Nat
  b : Nat × Nat
deriving DecidableEq, Repr

/-- A failed check: its code, the section at fault, the offset, and the conflict of CLAIM_CONFLICT. -/
structure CkFail where
  code : Nat
  tag : Nat
  off : Nat
  conflict : Option Conflict := none
deriving DecidableEq, Repr

/-- The first failure of a list of checks in order. -/
def firstFail : List (Option CkFail) → Option CkFail
  | [] => none
  | none :: l => firstFail l
  | some f :: _ => some f

/-- A check that fails at an offset of a section unless a condition holds. -/
def must (ok : Bool) (code tag off : Nat) : Option CkFail := if ok then none else some ⟨code, tag, off, none⟩

/-! Checks 0x01 to 0x0A. -/

/-- Checks 0x01 to 0x04. -/
def Pi.checkHead (b : List Byte) : Option CkFail :=
  let fs := (Pi.frames b).1
  let total := Pi.total b
  firstFail ([
    must (Pi.magic b == 0x50415254) Ck.badMagic 0 0,
    must (Pi.version b == 0x0100) Ck.badVersion 0 4] ++
    fs.map (fun f => must (f.version == 1) Ck.badVersion f.tag (f.at_ + 2)) ++ [
    must (decide (184 ≤ total) && decide (total ≤ Pi.maxLength) && total % 8 == 0) Ck.badLength 0 8,
    must (Pi.flags b / 8 == 0) Ck.badFlags 0 6,
    must (u16 b 0xE == 0) Ck.badFlags 0 0xE,
    must (u64 b 0x18 == 0) Ck.badFlags 0 0x18,
    must (Pi.signed b || (Pi.signature b).all (· == 0#8)) Ck.badFlags 0 0x50] ++
    fs.map fun f => must (f.flags / 2 == 0) Ck.badFlags f.tag (f.at_ + 3))

/-- Checks 0x05 to 0x07 (R79 to R81). -/
def Pi.checkSig (b key : List Byte) (required : Bool) : Option CkFail :=
  firstFail [
    must (sha384 (b.take 0x20 ++ b.drop 0xB0) == beNat (Pi.hash b)) Ck.hashMismatch 0 0x20,
    must (Pi.signed b || !required) Ck.sigRequired 0 6,
    must (!Pi.signed b || Config.ecdsaVerify key (beNat (Pi.hash b)) (Pi.signature b)) Ck.sigInvalid 0 0x50]

/-- The first byte of a section's padding that is not 0. -/
def Sect.badPad (b : List Byte) (f : Sect) : Option Nat :=
  ((List.range (f.next - f.stop)).find? fun i => u8 b (f.stop + i) != 0).map (f.stop + ·)

/-- Check 0x08, in the order of the walk (DEDUCED, log entry 60). Where the sections do not end at TOTAL_LENGTH, or their number
differs, the field reported is SECTION_COUNT (DEDUCED, log entry 119). -/
def Pi.checkFrame (b : List Byte) : Option CkFail :=
  let w := Pi.frames b
  firstFail (w.1.map (fun f => match f.badPad b with
    | some o => some ⟨Ck.badFrame, f.tag, o, none⟩
    | none => none) ++ [
    match w.2.1 with
      | some f => some ⟨Ck.badFrame, f.tag, f.at_ + 4, none⟩
      | none => none,
    must (w.1.length == Pi.count b && w.2.2 == Pi.total b) Ck.badFrame 0 0xC])

/-- Tags in ascending order, each known (R83): the first frame that breaks it. -/
def badTag : Nat → List Sect → Option CkFail
  | _, [] => none
  | p, f :: l => if p < f.tag ∧ f.tag ≤ 9 then badTag f.tag l else some ⟨Ck.badTag, f.tag, f.at_, none⟩

/-- Check 0x09. -/
def Pi.checkTags (b : List Byte) : Option CkFail :=
  let fs := (Pi.frames b).1
  firstFail (badTag 0 fs :: (List.range 8).map fun i =>
    must (Pi.reload b || fs.any fun f => f.tag == i + 1) Ck.badTag (i + 1) 0xC)

/-- The first complement byte of a twin section that is wrong. -/
def Sect.badTwin (b : List Byte) (f : Sect) : Option Nat :=
  let p := f.len / 2
  ((List.range p).find? fun i => u8 b (f.body + i) + u8 b (f.body + p + i) != 255).map (f.body + p + ·)

/-- Check 0x0A of a section. -/
def Sect.checkTwin (b : List Byte) (f : Sect) : Option CkFail :=
  firstFail [
    must (f.flags % 2 == b2n (twinTag f.tag)) Ck.badTwin f.tag (f.at_ + 3),
    must (!twinTag f.tag || f.len % 2 == 0) Ck.badTwin f.tag (f.at_ + 4),
    if twinTag f.tag then (match f.badTwin b with
      | some o => some ⟨Ck.badTwin, f.tag, o, none⟩
      | none => none) else none]

/-! Check 0x0B: the fields of each section in ascending offset, each with whether it is in range (R85 to R111). -/

/-- n bytes from an offset are 0. -/
def resv (pl : List Byte) (off n : Nat) : Nat × Bool := (off, fieldAt pl off n == 0)

/-- A value lies in a range. -/
def within (lo hi v : Nat) : Bool := decide (lo ≤ v) && decide (v ≤ hi)

/-- FOUNTAINS (R86). -/
def rangeFountains (pl : List Byte) : List (Nat × Bool) :=
  let n := u8 pl 0
  [(0, within 1 4 n), resv pl 1 3] ++
  (List.range 4).map (fun f => (4 + f, if f < n then within 1 16 (u8 pl (4 + f)) else u8 pl (4 + f) == 0)) ++
  (List.range 4).map (fun f => (8 + f, if f < n then within 56 64 (u8 pl (8 + f)) else u8 pl (8 + f) == 0)) ++ [resv pl 0xC 4]

/-- CISTERN (R89, R91). -/
def rangeCistern (pl : List Byte) (n : Nat) : List (Nat × Bool) :=
  [(0, within 1 5 (u8 pl 0)), resv pl 1 3] ++ (List.range n).flatMap fun i =>
    let o := 4 + 8 * i
    let e := poolEntry pl i
    [(o, within 1 5 e.1), resv pl (o + 1) 1, (o + 2, decide (e.2.1 ≤ 767)),
     (o + 4, decide (1 ≤ e.2.2) && decide (e.2.1 + e.2.2 ≤ 768) && (e.1 != Pool.dictionary || decide (e.2.2 ≤ 64)) &&
       (e.1 != Pool.hostWindow || decide (e.2.2 ≤ 1024))), resv pl (o + 6) 2]

/-- A pipe entry of STREAMS (R93). -/
def rangePipe (pl : List Byte) (p : Nat) : List (Nat × Bool) :=
  let o := 16 * p
  let inl := u8 pl o == 1
  let jet := u8 pl (o + 3) == 1
  let first := u16 pl (o + 4)
  let n := u16 pl (o + 6)
  [(o, decide (u8 pl o ≤ 1)), (o + 1, if inl then decide (u8 pl (o + 1) ≤ 15) else u8 pl (o + 1) == 0),
   (o + 2, if inl then decide (u8 pl (o + 2) ≤ 3) else u8 pl (o + 2) == 0),
   (o + 3, decide (u8 pl (o + 3) ≤ 1) && (inl || u8 pl (o + 3) == 0)),
   (o + 4, if jet then decide (first ≤ 767) else first == 0),
   (o + 6, if jet then decide (1 ≤ n) && decide (first + n ≤ 768) else n == 0), resv pl (o + 8) 8]

/-- STREAMS (R92 to R96). -/
def rangeStreams (pl : List Byte) : List (Nat × Bool) :=
  let n := u8 pl 0x40
  (List.range 4).flatMap (rangePipe pl) ++ [(0x40, decide (n ≤ 16)), resv pl 0x41 3] ++
  (List.range 16).flatMap (fun i =>
    let o := 0x44 + 4 * i
    if i < n then [(o, decide (u8 pl o ≤ 15)), (o + 1, within 1 2 (u8 pl (o + 1))), (o + 2, decide (u8 pl (o + 2) ≤ 63)),
      resv pl (o + 3) 1]
    else [resv pl o 1, resv pl (o + 1) 1, resv pl (o + 2) 1, resv pl (o + 3) 1]) ++
  (List.range 129).map fun i => (0x84 + 2 * i, decide (u8 pl (0x84 + 2 * i) ≤ 2))

/-- Entry i of a PINS body (R97): GROUP, FUNCTION, PARK, PIN_FLAGS. -/
def pinEntry (pl : List Byte) (i : Nat) : Nat × Nat × Nat × Nat :=
  (u16 pl (4 + 8 * i), u8 pl (6 + 8 * i), u8 pl (7 + 8 * i), u8 pl (8 + 8 * i))
/-- The entries of a PINS body. -/
def pinEntries (pl : List Byte) : List (Nat × Nat × Nat × Nat) := (List.range (u16 pl 0)).map (pinEntry pl)

/-- PINS (R97, R779). -/
def rangePins (pl : List Byte) (n : Nat) : List (Nat × Bool) :=
  [(0, decide (u16 pl 0 ≤ 256)), resv pl 2 2] ++ (List.range n).flatMap fun i =>
    let o := 4 + 8 * i
    let e := pinEntry pl i
    [(o, decide (e.1 ≤ 24)), (o + 2, (pinFunctions e.1).contains e.2.1),
     (o + 3, decide (e.2.2.1 ≤ 4) && (e.2.1 != Fn.safe || e.2.2.1 == 1) && (e.2.1 != Fn.i2c || e.2.2.1 == 0 || e.2.2.1 == 4) &&
       (e.2.1 != Fn.tamper || e.2.2.1 == 0)), (o + 4, decide (e.2.2.2 ≤ 1)), resv pl (o + 5) 3]

/-- CLOCKS (R100, R101). -/
def rangeClocks (pl : List Byte) (n : Nat) : List (Nat × Bool) :=
  let d := u8 pl 4
  let c := u8 pl 5
  let h := u8 pl 6
  [(0, decide (u8 pl 0 ≤ 1)), (1, decide (u8 pl 1 ≤ 5)), (2, decide (u8 pl 2 ≤ u8 pl 1)), (3, within 15 45 (u8 pl 3)),
   (4, d == 16 || d == 20 || d == 24), (5, c == 20 || c == 24), (6, h == 6 || h == 8 || h == 12),
   (7, decide (u8 pl 7 ≤ 15))] ++ (List.range n).flatMap fun i =>
    let o := 8 + 8 * i
    let e := strobeEntry pl i
    [(o, within 1 15 e.1), (o + 1, decide (e.2.1 ≤ 3)),
     (o + 2, if e.2.1 = 1 ∨ e.2.1 = 2 then decide (e.2.2.1 ≤ 63) else e.2.2.1 == 0xFF), resv pl (o + 3) 1,
     (o + 4, e.2.2.2 % 4 == 0 && decide (e.2.2.2 < 2 ^ 28))]

/-- The causes of R106. -/
def causeSet : Nat := 0x1FF3FFF

/-- SAFETY (R105, R106). -/
def rangeSafety (pl : List Byte) : List (Nat × Bool) :=
  (List.range 4).flatMap fun k =>
    let o := 16 * k
    [(o, decide (u8 pl o ≤ 1)), (o + 1, decide (u8 pl (o + 1) ≤ 1)), resv pl (o + 2) 2,
     (o + 4, u64 pl (o + 4) ||| causeSet == causeSet), resv pl (o + 0xC) 4]

/-- THRESHOLD of a detector lies in the range of R630 or R385. A bit that R630 does not list for the detector must be 0
(DEDUCED, log entry 120). -/
def threshOk (d t : Nat) : Bool :=
  if d = 1 ∨ d = 2 ∨ d = 5 ∨ d = 6 then within 1 65535 t
  else if d = 7 then within 10 1000 t
  else if d = 8 then within 10 200 (t % 65536) && within 10 200 (t / 65536)
  else if d = 9 then within 0x140 0x1C0 t
  else if d = 0xA then bitsOf t 30 24 == 0 && (t % 2 ^ 24 == 0 || within 100 10000000 (t % 2 ^ 24))
  else if d = 0xC then within 1000 1000000 t
  else if d = 0x11 then bitsOf t 31 28 == 0 && decide (bitsOf t 19 16 ≤ 8)
  else t == 0

/-- ENABLE of a detector cannot be cleared (R109). -/
def alwaysOn (d : Nat) : Bool := d == 4 || d == 9 || d == 0xB || d == 0xD || d == 0xE || d == 0x10

/-- Entry i of a DETECTORS body (R108): DET_ID, DET_FLAGS, THRESHOLD. -/
def detEntry (pl : List Byte) (i : Nat) : Nat × Nat × Nat := (u8 pl (4 + 8 * i), u8 pl (5 + 8 * i), u32 pl (8 + 8 * i))
/-- The entries of a DETECTORS body. -/
def detEntries (pl : List Byte) : List (Nat × Nat × Nat) := (List.range (u16 pl 0)).map (detEntry pl)

/-- DETECTORS (R108, R109, R630). -/
def rangeDetectors (pl : List Byte) (n : Nat) : List (Nat × Bool) :=
  [(0, decide (u16 pl 0 ≤ 64)), resv pl 2 2] ++ (List.range n).flatMap fun i =>
    let o := 4 + 8 * i
    let e := detEntry pl i
    [(o, within 1 0x11 e.1), (o + 1, decide (e.2.1 ≤ 3) && (e.2.1.testBit 0 || !alwaysOn e.1)), resv pl (o + 2) 2,
     (o + 4, threshOk e.1 e.2.2)]

/-- WEIR (R110). -/
def rangeWeir (pl : List Byte) : List (Nat × Bool) :=
  [(0, within 1000 1000000 (u32 pl 0)), (4, within 10 90 (u8 pl 4)), (5, decide (u8 pl 5 ≤ 4)), resv pl 6 2] ++
  (List.range 4).map (fun p => (8 + p, decide (u8 pl (8 + p) ≤ 212))) ++
  [(0xC, within 1 212 (u16 pl 0xC)), resv pl 0xE 2, resv pl 0x12 6]

/-- LEGACY (R111). -/
def rangeLegacy (pl : List Byte) : List (Nat × Bool) :=
  [(6, within 6 12 (u8 pl 6)), (7, within 15 45 (u8 pl 7)), resv pl 8 8]

/-- The length of a payload: its head, and the entries that its count asks for where the count is in range; and the fields. -/
def sectionShape (tag : Nat) (pl : List Byte) : Nat × Option Nat × List (Nat × Bool) :=
  match tag with
  | 1 => (16, some 16, rangeFountains pl)
  | 2 => let n := u8 pl 0; let ok := within 1 5 n; (4, if ok then some (4 + 8 * n) else none, rangeCistern pl (if ok then n else 0))
  | 3 => (390, some 390, rangeStreams pl)
  | 4 => let n := u16 pl 0; let ok := decide (n ≤ 256)
         (4, if ok then some (4 + 8 * n) else none, rangePins pl (if ok then n else 0))
  | 5 => let n := u8 pl 7; let ok := decide (n ≤ 15)
         (8, if ok then some (8 + 8 * n) else none, rangeClocks pl (if ok then n else 0))
  | 6 => (64, some 64, rangeSafety pl)
  | 7 => let n := u16 pl 0; let ok := decide (n ≤ 64)
         (4, if ok then some (4 + 8 * n) else none, rangeDetectors pl (if ok then n else 0))
  | 8 => (24, some 24, rangeWeir pl)
  | _ => (16, some 16, rangeLegacy pl)

/-- Check 0x0B of a section. -/
def Sect.checkRange (b : List Byte) (f : Sect) : Option CkFail :=
  let pl := f.payload b
  let sh := sectionShape f.tag pl
  firstFail (must (decide (sh.1 ≤ pl.length) && (sh.2.1.getD pl.length == pl.length)) Ck.fieldRange f.tag (f.at_ + 4) ::
    sh.2.2.map fun x => must x.2 Ck.fieldRange f.tag (f.body + x.1))

/-- Checks 0x01 to 0x0B of an image. -/
def Pi.checkImage (b key : List Byte) (required : Bool) : Option CkFail :=
  let fs := (Pi.frames b).1
  firstFail ([Pi.checkHead b, Pi.checkSig b key required, Pi.checkFrame b, Pi.checkTags b] ++ fs.map (Sect.checkTwin b) ++
    [must (Pi.imageId b != 0) Ck.fieldRange 0 0x10] ++ fs.map (Sect.checkRange b))

/-! Check 0x0C: the rules that join fields, over the merged image (R115, R116). -/

/-- The sections of an image under check, merged with those in force: the payload of each tag, and where its body stands in the
image, none for a section in force (R115, R128). -/
structure Merged where
  pl : Nat → List Byte
  base : Nat → Option Nat

/-- The failure at the first of the fields of the image that take part in a rule: for a full image the field that the rule
judges, for a reload the reloaded field at the lowest offset (R116). A rule that no reloaded field takes part in any more is
reported at the image's SECTION_COUNT (DEDUCED, log entry 61). -/
def Merged.fault (m : Merged) (reload : Bool) (code : Nat) (fields : List (Nat × Nat)) : CkFail :=
  let own := fields.filterMap fun f => (m.base f.1).map fun o => (f.1, o + f.2)
  let pick := if reload then own.foldl (fun (r : Option (Nat × Nat)) x => match r with
      | none => some x
      | some y => if x.2 < y.2 then some x else some y) none
    else own.head?
  match pick with
  | some x => ⟨code, x.1, x.2, none⟩
  | none => ⟨code, (fields.headD (0, 0)).1, 0xC, none⟩

/-- A rule: what holds, and the fields that take part. -/
def Merged.rule (m : Merged) (reload ok : Bool) (fields : List (Nat × Nat)) : Option CkFail :=
  if ok then none else some (m.fault reload Ck.consistency fields)

/-- The index of an entry with that of every earlier entry: i and the entries before it. -/
def withEarlier {α : Type} : List α → List (List α × α)
  | l => (List.range l.length).filterMap fun i => (l[i]?).map fun x => (l.take i, x)

/-- The function of a PINS entry must have LOCKED set (R98). -/
def pinMustLock (fn : Nat) : Bool := fn == Fn.safe || fn == Fn.tamper || fn == Fn.quad || fn == Fn.ssi || fn == Fn.line

/-- Check 0x0C, in the order of R115. R116 names no field for some of the rules: the model reports POOL_COUNT for a required pool
that is missing (DEDUCED, log entry 121), INLINE_SLOTS[0] for a sum above the share (DEDUCED, log entry 122), and ENTRY_COUNT of
PINS for a reload of PINS that holds no entry for a frame-sync OUTPUT in force (DEDUCED, log entry 123). -/
def Merged.consistency (m : Merged) (reload : Bool) : Option CkFail :=
  let fo := m.pl Tag.fountains
  let ci := m.pl Tag.cistern
  let st := m.pl Tag.streams
  let pi := m.pl Tag.pins
  let cl := m.pl Tag.clocks
  let de := m.pl Tag.detectors
  let we := m.pl Tag.weir
  let pools := poolEntries ci
  let r := m.rule reload
  firstFail (
    (List.range 4).map (fun f => r (decide (((List.range (f + 1)).map fun i => u8 fo (4 + i)).sum ≤ 16 ∨ u8 fo 0 ≤ f)) [(1, 4 + f)]) ++
    (withEarlier (pools.zipIdx)).map (fun x => r (!x.1.any fun y => y.1.1 == x.2.1.1) [(2, 4 + 8 * x.2.2)]) ++
    [r ((pools.any fun e => e.1 == Pool.weight) && pools.any fun e => e.1 == Pool.feature) [(2, 0)]] ++
    (List.range 4).map (fun p => r (u8 st (16 * p) != 1 || u8 st (16 * p + 1) / 4 == p) [(3, 16 * p + 1)]) ++
    (List.range (u8 st 0x40)).map (fun i =>
      let g := 12 + u8 st (0x44 + 4 * i) / 4
      let mine := (pinEntries pi).zipIdx.filter fun e => e.1.1 == g
      r (mine.any fun e => e.1.2.1 == Fn.fsync)
        ((3, 0x44 + 4 * i) :: (if mine.isEmpty then [(4, 0)] else mine.map fun e => (4, 6 + 8 * e.2)))) ++
    (withEarlier ((strobeEntries cl).zipIdx)).map (fun x =>
      r (x.1.all fun y => y.1.2.2.2 &&& x.2.1.2.2.2 == 0) [(5, 12 + 8 * x.2.2)]) ++
    (List.range 4).map (fun p => r (u8 st (16 * p) != 0 || u8 we (8 + p) == 0) [(8, 8 + p), (3, 16 * p)]) ++
    [r (decide (((List.range 4).map fun p => u8 we (8 + p)).sum ≤ u8 we 4 * 212 / 100)) [(8, 8)]] ++
    (withEarlier ((detEntries de).zipIdx)).map (fun x => r (!x.1.any fun y => y.1.1 == x.2.1.1) [(7, 4 + 8 * x.2.2)]) ++
    [r (decide (u16 we 0x10 ≤ ((pools.filter fun e => e.1 == Pool.weight || e.1 == Pool.feature).map fun e => e.2.2).sum))
      ((8, 0x10) :: (pools.zipIdx.filter fun e => e.1.1 == Pool.weight || e.1.1 == Pool.feature).map fun e => (2, 8 + 8 * e.2))] ++
    (pinEntries pi).zipIdx.map fun e => r (!pinMustLock e.1.2.1 || e.1.2.2.2.testBit 0) [(4, 8 + 8 * e.2)])

/-! Check 0x0D: claims and conflicts (R117 to R120). -/

/-- A claim: class, first unit and count of units, the claimant's section and entry, and where the field that claims stands in
the payload. -/
structure Claim where
  cls : Nat
  lo : Nat
  n : Nat
  tag : Nat
  entry : Nat
  rel : Nat
deriving DecidableEq, Repr

/-- The comparator claims of a trigger (R117). -/
def compClaim (trigger comp tag entry rel : Nat) : List Claim :=
  if trigger = 1 then [⟨Cls.timeComp, comp, 1, tag, entry, rel⟩]
  else if trigger = 2 then [⟨Cls.phaseComp, comp, 1, tag, entry, rel⟩] else []

/-- The claims of a merged image, in image order. -/
def Merged.claims (m : Merged) : List Claim :=
  let st := m.pl Tag.streams
  (poolEntries (m.pl Tag.cistern)).zipIdx.map (fun e => ⟨Cls.cisternPage, e.1.2.1, e.1.2.2, 2, e.2, 6 + 8 * e.2⟩) ++
  (List.range 4).flatMap (fun p =>
    if u8 st (16 * p + 3) = 1 then [⟨Cls.cisternPage, u16 st (16 * p + 4), u16 st (16 * p + 6), 3, p, 16 * p + 4⟩] else []) ++
  (List.range (u8 st 0x40)).flatMap (fun i =>
    let o := 0x44 + 4 * i
    ⟨Cls.fsyncOutput, u8 st o, 1, 3, 4 + i, o⟩ :: compClaim (u8 st (o + 1)) (u8 st (o + 2)) 3 (4 + i) (o + 2)) ++
  (pinEntries (m.pl Tag.pins)).zipIdx.map (fun e => ⟨Cls.pinGroup, e.1.1, 1, 4, e.2, 4 + 8 * e.2⟩) ++
  (strobeEntries (m.pl Tag.clocks)).zipIdx.flatMap fun e =>
    ⟨Cls.strobeGroup, e.1.1, 1, 5, e.2, 8 + 8 * e.2⟩ :: compClaim e.1.2.1 e.1.2.2.1 5 e.2 (10 + 8 * e.2)

/-- The units of a class. -/
def unitsOf (cls : Nat) : Nat := if cls = Cls.cisternPage then 768 else 64

/-- A conflict over a unit: claimants A and B as TAG, ENTRY, and what B's, or A's, field is. Where two sections and a run-time
holder claim one unit, A is the earlier section and B the holder (DEDUCED, log entry 124). -/
def claimPair (holder : Nat) (l : List Claim) : Option (Claim × Nat × Nat × Claim) :=
  match l with
  | [] => none
  | a :: r => if holder ≠ 0 then some (a, 0, holder, a) else match r with
    | b :: _ => some (a, b.tag, b.entry, b)
    | [] => none

/-- Check 0x0D. `holder`: the run-time holder of a class and unit, 0 for none (R120). -/
def Merged.conflict (m : Merged) (holder : Nat → Nat → Nat) : Option CkFail :=
  let cs := m.claims
  let open_ := fun u => (strobeEntries (m.pl Tag.clocks)).any fun e => e.1 == u && e.2.1 == 3
  let bad := [1, 2, 3, 4, 5, 6].flatMap fun cls =>
    let mine := cs.filter fun c => c.cls == cls
    (List.range (unitsOf cls)).filterMap fun u =>
      let h := if cls = Cls.strobeGroup ∧ open_ u then 0 else holder cls u
      (claimPair h (mine.filter fun c => decide (c.lo ≤ u) && decide (u < c.lo + c.n))).map fun x => (cls, u, x)
  match bad with
  | [] => none
  | (cls, u, a, bt, be, f) :: _ =>
    let g := if (m.base f.tag).isSome then f else a
    some ⟨Ck.claimConflict, g.tag, ((m.base g.tag).map (· + g.rel)).getD 0xC,
      some ⟨cls, u, min bad.length 8191, (a.tag, a.entry), (bt, be)⟩⟩

end Sys2Proof.Machine
end

