-- ==== Sys2Proof/Machine/BundleWord.lean ====
section
/-! DEFINITION. Sys2Proof/Machine/BundleWord.lean: the bits of a bundle (spec/04 R198 to R201, R208, R211, R216, R224, R230,
R237): its six slots, the number that a slot stands as, and the slot that a number spells. -/
namespace Sys2Proof.Machine

/-- The base bit and the width of a slot in its bundle (R198). -/
def slotBits : SlotPos → Nat × Nat
  | .scalar => (0, 32)
  | .vector => (32, 48)
  | .matrix => (80, 48)
  | .load => (128, 48)
  | .store => (176, 48)
  | .sync => (224, 32)

/-- The six slots, in the order of their bits (R198). -/
def slotPositions : List SlotPos := [.scalar, .vector, .matrix, .load, .store, .sync]

/-- The fields of an MST or MPL below its opcode (R216). -/
def encodeMat (m : MSlot) : Nat :=
  m.g * 2 ^ 41 + m.mode * 2 ^ 38 + m.fmt * 2 ^ 34 + b2n m.asgn * 2 ^ 33 + m.amask * 2 ^ 29 + m.acc * 2 ^ 27 + m.pls * 2 ^ 24 +
  m.ar * 2 ^ 22 + m.wp * 2 ^ 20 + m.steps * 2 ^ 10 + m.batch * 2 ^ 6 + m.arot * 2 ^ 4

/-- The fields of a VLD or VST below its opcode (R224, R230). -/
def encodeVmem (v : VMem) : Nat :=
  v.g * 2 ^ 41 + v.v * 2 ^ 36 + v.addr * 2 ^ 23 + b2n v.lcen * 2 ^ 22 + v.lc * 2 ^ 19 + v.stride * 2 ^ 11

/-- The number that a slot stands as, in slot-local bits. -/
def encodeSlot : SlotOp → Nat
  | .nop _ => 0
  | .setc l i => 0x1 * 2 ^ 28 + l * 2 ^ 25 + i
  | .incc l i => 0x2 * 2 ^ 28 + l * 2 ^ 25 + i
  | .decc l i => 0x3 * 2 ^ 28 + l * 2 ^ 25 + i
  | .loop l t => 0x4 * 2 ^ 28 + l * 2 ^ 25 + t
  | .cmpset k a c r b i =>
    0x5 * 2 ^ 28 + k * 2 ^ 26 + a * 2 ^ 23 + c * 2 ^ 20 + b2n r * 2 ^ 19 + b * 2 ^ 16 + i
  | .pset k v => 0x6 * 2 ^ 28 + k * 2 ^ 26 + b2n v * 2 ^ 25
  | .jmp t => 0x7 * 2 ^ 28 + t
  | .vec op v =>
    op * 2 ^ 42 + v.g * 2 ^ 39 + v.ty * 2 ^ 36 + v.vd * 2 ^ 31 + v.va * 2 ^ 26 + v.vb * 2 ^ 21 + v.vc * 2 ^ 16 +
    b2n v.sat * 2 ^ 15 + b2n v.immb * 2 ^ 14 + v.imm
  | .mst m => 0x1 * 2 ^ 44 + encodeMat m
  | .mpl m => 0x2 * 2 ^ 44 + encodeMat m
  | .rstart r =>
    0x1 * 2 ^ 44 + r.g * 2 ^ 41 + r.r * 2 ^ 39 + r.prog * 2 ^ 35 + r.possh * 2 ^ 31 + r.base * 2 ^ 10 + b2n r.lcen * 2 ^ 9 +
    r.lc * 2 ^ 6 + r.lcsh * 2 ^ 2
  | .rstop g r => 0x2 * 2 ^ 44 + g * 2 ^ 41 + r * 2 ^ 39
  | .vld v => 0x3 * 2 ^ 44 + encodeVmem v
  | .wset g w b st bs => 0x4 * 2 ^ 44 + g * 2 ^ 41 + w * 2 ^ 39 + b * 2 ^ 25 + st * 2 ^ 17 + bs * 2 ^ 3
  | .ppset g a => 0x5 * 2 ^ 44 + g * 2 ^ 41 + a * 2 ^ 28
  | .dsel g d sr => 0x1 * 2 ^ 44 + g * 2 ^ 41 + d * 2 ^ 38 + sr * 2 ^ 37
  | .drn g m p d sr => 0x2 * 2 ^ 44 + g * 2 ^ 41 + m * 2 ^ 37 + p * 2 ^ 34 + d * 2 ^ 31 + sr * 2 ^ 30
  | .vst v => 0x3 * 2 ^ 44 + encodeVmem v
  | .sstart r =>
    0x4 * 2 ^ 44 + r.g * 2 ^ 41 + r.r * 2 ^ 40 + r.prog * 2 ^ 36 + r.possh * 2 ^ 32 + r.base * 2 ^ 11 + b2n r.lcen * 2 ^ 10 +
    r.lc * 2 ^ 7 + r.lcsh * 2 ^ 3
  | .sstop g r => 0x5 * 2 ^ 44 + g * 2 ^ 41 + r * 2 ^ 40
  | .bar g swp => 0x1 * 2 ^ 28 + g * 2 ^ 25 + b2n swp * 2 ^ 24
  | .setf g n v => 0x2 * 2 ^ 28 + g * 2 ^ 25 + n * 2 ^ 19 + b2n v * 2 ^ 18
  | .waitf g n v => 0x3 * 2 ^ 28 + g * 2 ^ 25 + n * 2 ^ 19 + b2n v * 2 ^ 18
  | .evt g c => 0x4 * 2 ^ 28 + g * 2 ^ 25 + c
  | .crd g c sl d => 0x5 * 2 ^ 28 + g * 2 ^ 25 + c * 2 ^ 23 + sl * 2 ^ 20 + d * 2 ^ 10
  | .commit g tile => 0x6 * 2 ^ 28 + g * 2 ^ 25 + b2n tile * 2 ^ 24

/-- What the opcode and the fields of a scalar slot name (R208). -/
def readScalar (w : Nat) : Option SlotOp :=
  let l := bitsOf w 27 25
  let i := bitsOf w 15 0
  match bitsOf w 31 28 with
  | 0x0 => some (.nop .scalar)
  | 0x1 => some (.setc l i)
  | 0x2 => some (.incc l i)
  | 0x3 => some (.decc l i)
  | 0x4 => some (.loop l (bitsOf w 11 0))
  | 0x5 => some (.cmpset (bitsOf w 27 26) (bitsOf w 25 23) (bitsOf w 22 20) (w.testBit 19) (bitsOf w 18 16) i)
  | 0x6 => some (.pset (bitsOf w 27 26) (w.testBit 25))
  | 0x7 => some (.jmp (bitsOf w 11 0))
  | _ => none

/-- What the opcode and the fields of a vector slot name (R211, R213). -/
def readVector (w : Nat) : Option SlotOp :=
  let op := bitsOf w 47 42
  if op = 0 then some (.nop .vector)
  else if 0x1C < op then none
  else some (.vec op
    { g := bitsOf w 41 39, ty := bitsOf w 38 36, vd := bitsOf w 35 31, va := bitsOf w 30 26, vb := bitsOf w 25 21,
      vc := bitsOf w 20 16, sat := w.testBit 15, immb := w.testBit 14, imm := bitsOf w 13 0 })

/-- The fields of a matrix slot (R216). -/
def readMat (w : Nat) : MSlot :=
  { g := bitsOf w 43 41, mode := bitsOf w 40 38, fmt := bitsOf w 37 34, asgn := w.testBit 33, amask := bitsOf w 32 29,
    acc := bitsOf w 28 27, pls := bitsOf w 26 24, ar := bitsOf w 23 22, wp := bitsOf w 21 20, steps := bitsOf w 19 10,
    batch := bitsOf w 9 6, arot := bitsOf w 5 4 }

/-- What the opcode and the fields of a matrix slot name (R216). -/
def readMatrix (w : Nat) : Option SlotOp :=
  match bitsOf w 47 44 with
  | 0x0 => some (.nop .matrix)
  | 0x1 => some (.mst (readMat w))
  | 0x2 => some (.mpl (readMat w))
  | _ => none

/-- The fields of a VLD or VST (R224, R230). -/
def readVmem (w : Nat) : VMem :=
  { g := bitsOf w 43 41, v := bitsOf w 40 36, addr := bitsOf w 35 23, lcen := w.testBit 22, lc := bitsOf w 21 19,
    stride := bitsOf w 18 11 }

/-- What the opcode and the fields of a load slot name (R224). -/
def readLoad (w : Nat) : Option SlotOp :=
  let g := bitsOf w 43 41
  match bitsOf w 47 44 with
  | 0x0 => some (.nop .load)
  | 0x1 => some (.rstart
      { g := g, r := bitsOf w 40 39, prog := bitsOf w 38 35, possh := bitsOf w 34 31, base := bitsOf w 30 10,
        lcen := w.testBit 9, lc := bitsOf w 8 6, lcsh := bitsOf w 5 2 })
  | 0x2 => some (.rstop g (bitsOf w 40 39))
  | 0x3 => some (.vld (readVmem w))
  | 0x4 => some (.wset g (bitsOf w 40 39) (bitsOf w 38 25) (bitsOf w 24 17) (bitsOf w 16 3))
  | 0x5 => some (.ppset g (bitsOf w 40 28))
  | _ => none

/-- What the opcode and the fields of a store slot name (R230). -/
def readStore (w : Nat) : Option SlotOp :=
  let g := bitsOf w 43 41
  match bitsOf w 47 44 with
  | 0x0 => some (.nop .store)
  | 0x1 => some (.dsel g (bitsOf w 40 38) (bitsOf w 37 37))
  | 0x2 => some (.drn g (bitsOf w 40 37) (bitsOf w 36 34) (bitsOf w 33 31) (bitsOf w 30 30))
  | 0x3 => some (.vst (readVmem w))
  | 0x4 => some (.sstart
      { g := g, r := bitsOf w 40 40, prog := bitsOf w 39 36, possh := bitsOf w 35 32, base := bitsOf w 31 11,
        lcen := w.testBit 10, lc := bitsOf w 9 7, lcsh := bitsOf w 6 3 })
  | 0x5 => some (.sstop g (bitsOf w 40 40))
  | _ => none

/-- What the opcode and the fields of a sync slot name (R237). -/
def readSync (w : Nat) : Option SlotOp :=
  let g := bitsOf w 27 25
  match bitsOf w 31 28 with
  | 0x0 => some (.nop .sync)
  | 0x1 => some (.bar g (w.testBit 24))
  | 0x2 => some (.setf g (bitsOf w 24 19) (w.testBit 18))
  | 0x3 => some (.waitf g (bitsOf w 24 19) (w.testBit 18))
  | 0x4 => some (.evt g (bitsOf w 19 0))
  | 0x5 => some (.crd g (bitsOf w 24 23) (bitsOf w 22 20) (bitsOf w 19 10))
  | 0x6 => some (.commit g (w.testBit 24))
  | _ => none

/-- The slot that a number spells at a position: none for an illegal opcode, or where a bit that the slot's table does not list
is 1 (R200, R208, R216, R224, R230, R237, R252). -/
def decodeSlot (p : SlotPos) (w : Nat) : Option SlotOp :=
  let o := match p with
    | .scalar => readScalar w
    | .vector => readVector w
    | .matrix => readMatrix w
    | .load => readLoad w
    | .store => readStore w
    | .sync => readSync w
  o.filter fun o => encodeSlot o == w

/-- The number of a slot of a bundle of 32 bytes: byte k holds bundle bits 8k + 7 to 8k (R198, R199). -/
def slotWord (b : List Byte) (p : SlotPos) : Nat := leNat b / 2 ^ (slotBits p).1 % 2 ^ (slotBits p).2

/-- The six slots of a bundle, in the order of their bits; none where one of them is illegal by itself (R198, R252). -/
def decodeBundle (b : List Byte) : Option (List SlotOp) := slotPositions.mapM fun p => decodeSlot p (slotWord b p)

/-- The 32 bytes of a bundle of slots; a position that the list leaves out is NOP (R198 to R200). -/
def encodeBundle (l : List SlotOp) : List Byte :=
  leBytes ((l.map fun o => encodeSlot o * 2 ^ (slotBits o.pos).1).sum) 32

/-- The slot is NOP. -/
def slotNop : SlotOp → Bool
  | .nop _ => true
  | _ => false

end Sys2Proof.Machine
end

