-- ==== Sys2Proof/Machine/Flags.lean ====
section
/-! DEFINITION. Sys2Proof/Machine/Flags.lean: the arithmetic that sets the SAT bits of the accumulators (spec/03 R163 to
R172), and the lanes of the vector unit with their saturating forms (spec/03 R173 to R179, spec/04 R211 to R215). -/
namespace Sys2Proof.Machine

/-! Accumulator elements. An element is its 32-bit value, with its SAT bit as bit 32. -/

/-- The value of an element, without its SAT bit. -/
def accVal (e : Nat) : Nat := e % 2 ^ 32
/-- The SAT bit of an element. -/
def accSat (e : Nat) : Bool := e.testBit 32
/-- An element from a 32-bit value and a SAT bit. -/
def mkAcc (v : Nat) (sat : Bool) : Nat := v % 2 ^ 32 + b2n sat * 2 ^ 32

/-- A term is added to an integer element with saturation (R163, R164). -/
def accAddInt (e : Nat) (d : Int) : Nat :=
  let v := sext 32 e + d
  mkAcc (wrapN 32 (satS 32 v)) (accSat e || satS 32 v != v)

/-- A product is added to a float element with one rounding; ±∞ and NaN set SAT (R165 to R168). -/
def accAddFloat (e : Nat) (p : FNum) : Nat :=
  let v := toF32 (FNum.add (f32 (accVal e)) p)
  mkAcc v (accSat e || decide (0x7F800000 ≤ v % 2 ^ 31))

/-- How many bits of a byte are 1. -/
def pop8 (n : Nat) : Nat := ((List.range 8).filter fun i => n.testBit i).length

/-- What a step of a distance or comparison mode adds to an element (R171); MAXP and MINP add nothing. x and y are one-byte
codes. -/
def modeTerm (mode : Nat) (asgn : Bool) (x y : Nat) : Int :=
  let a := codeInt asgn x
  let b := codeInt asgn y
  match mode with
  | 1 => (a - b).natAbs
  | 2 => (a - b) * (a - b)
  | 3 => pop8 ((x ^^^ y) % 256)
  | _ => if b < a then 1 else 0

/-- combine of R145 for the distance and comparison modes (R171, R172). -/
def accMode (mode : Nat) (asgn : Bool) (e x y : Nat) : Nat :=
  let t := codeInt asgn x + codeInt asgn y
  match mode with
  | 4 => mkAcc (wrapN 32 (max (sext 32 e) t)) (accSat e)
  | 5 => mkAcc (wrapN 32 (min (sext 32 e) t)) (accSat e)
  | _ => accAddInt e (modeTerm mode asgn x y)

/-- The two products of an I4 step (R149, R151, R163): x0 and x1 are the activation codes of the two columns, y the byte of
the weight row. -/
def i4Term (asgn : Bool) (x0 x1 y : Nat) : Int :=
  codeInt asgn x0 * sext 4 y + codeInt asgn x1 * sext 4 (y / 16)

/-- The product of a float or microscaling step (R165, R167, R170). sx and sy are the E8M0 scale fields. -/
def floatTerm (fmt x y sx sy : Nat) : FNum :=
  let p := FNum.mul (actValue fmt x) (weightValue fmt y)
  if !fmtMx fmt then p
  else if sx = 255 ∨ sy = 255 then .nan else p.scale ((sx : Int) + (sy : Int) - 254)

/-- ARITH_RESIDUE checks a step of a mode and format on an element: every mode but MAXP and MINP, while the element's SAT
bit is clear (R180, and the coverage table of R182). -/
def residueCovers (mode : Nat) (e : Nat) : Bool := mode != 4 && mode != 5 && !accSat e

/-- The residue of an element's value modulo 7 (R180): its 32 bits are a two's-complement number. -/
def residueOf (e : Nat) : Nat := (sext 32 e % 7).toNat

/-- The new value of an element agrees with its old residue r and the residue of a step's contribution d (R180). -/
def residueAgrees (r : Nat) (d : Int) (e : Nat) : Bool := residueOf e == (r + (d % 7).toNat) % 7

/-- The value that a preload source without memory writes (R156). -/
def preloadConst (pls : Nat) (float : Bool) : Nat :=
  match pls with
  | 3 => if float then 0xFF800000 else 0x80000000
  | 4 => if float then 0x7F800000 else 0x7FFFFFFF
  | _ => 0

/-! Vector lanes. -/

/-- TYPE codes of R211. -/
def vInt (ty : Nat) : Bool := ty ≤ 1
/-- Bits of a lane of a type. -/
def vBits (ty : Nat) : Nat := if ty = 0 ∨ ty = 2 then 32 else 16
/-- Lanes of a type (R212). -/
def vLanes (ty : Nat) : Nat := if ty = 0 ∨ ty = 2 then 64 else 128
/-- The float format of a type. -/
def vFmt (ty : Nat) : FFmt := if ty = 2 then FFmt.fp32 else if ty = 3 then FFmt.fp16 else FFmt.bf16

/-- A lane of a register in the view of a type (R173); the register is its 64 words of 32 bits. -/
def vLane (ty : Nat) (reg : List Nat) (k : Nat) : Nat :=
  if vBits ty = 32 then reg.getD k 0 else reg.getD (k / 2) 0 / 2 ^ (16 * (k % 2)) % 2 ^ 16

/-- The 64 words of a register from its lanes in the view of a type. -/
def vWords (ty : Nat) (lanes : List Nat) : List Nat :=
  if vBits ty = 32 then lanes else (List.range 64).map fun k => lanes.getD (2 * k) 0 + 2 ^ 16 * lanes.getD (2 * k + 1) 0

/-- An integer result in a lane: wrapped, or saturated (R177). -/
def vWrap (w : Nat) (sat : Bool) (v : Int) : Nat := wrapN w (if sat then satS w v else v)

/-- The smaller or larger of two float lanes; the spec states none where a NaN takes part, or for zeros of both signs. -/
def vPick (f : FFmt) (least : Bool) (a b : Nat) : Option Nat :=
  let x := f.value a
  let y := f.value b
  if x.isNan || y.isNan || (FNum.eq x y && a != b) then none
  else some (if FNum.lt x y == least then a else b)

/-- All ones, or 0. -/
def vMask (w : Nat) (c : Bool) : Nat := if c then 2 ^ w - 1 else 0

/-- The conversion of a lane (R213); one to an integer type saturates (spec/07, Tensor statistics). -/
def vConvert (src dst a : Nat) : Nat :=
  let w := vBits dst
  if vInt src then
    let v := sext (vBits src) a
    if vInt dst then wrapN w (satS w v) else (vFmt dst).round (FNum.ofInt v)
  else
    let x := (vFmt src).value a
    if vInt dst then
      match x with
      | .nan => 0
      | .inf n => wrapN w (if n then -((2 : Int) ^ (w - 1)) else (2 : Int) ^ (w - 1) - 1)
      | .fin n m e => wrapN w (satS w (FNum.toInt n m e))
    else (vFmt dst).round x

/-- The lane-by-lane opcodes of R213; none where the spec states no result (log entry 6). -/
def vOp (op ty : Nat) (sat : Bool) (a b c : Nat) : Option Nat :=
  let w := vBits ty
  let f := vFmt ty
  let ia := sext w a
  let ib := sext w b
  let sh := b % w
  let fl := !vInt ty
  match op with
  | 0x01 => some (if fl then f.round (FNum.add (f.value a) (f.value b)) else vWrap w sat (ia + ib))
  | 0x02 => some (if fl then f.round (FNum.add (f.value a) (f.value b).neg) else vWrap w sat (ia - ib))
  | 0x03 => some (a &&& b)
  | 0x04 => some (a ||| b)
  | 0x05 => some (a ^^^ b)
  | 0x06 => some (a * 2 ^ sh % 2 ^ w)
  | 0x07 => some (a / 2 ^ sh)
  | 0x08 => some (wrapN w (ia / (2 : Int) ^ sh))
  | 0x09 => if fl then vPick f true a b else some (if ia ≤ ib then a else b)
  | 0x0A => if fl then vPick f false a b else some (if ib ≤ ia then a else b)
  | 0x0B => some (vMask w (if fl then FNum.eq (f.value a) (f.value b) else a == b))
  | 0x0C => some (vMask w (if fl then FNum.lt (f.value a) (f.value b) else decide (ia < ib)))
  | 0x0D => some (vMask w (if fl then FNum.lt (f.value a) (f.value b) || FNum.eq (f.value a) (f.value b)
      else decide (ia ≤ ib)))
  | 0x0E => some (if c = 0 then b else a)
  | 0x0F => some a
  | 0x10 => some (if fl then f.round (FNum.mul (f.value a) (f.value b)) else vWrap w sat (ia * ib))
  | 0x12 => some (wrapN w (rneDiv ia (2 ^ sh)))
  | 0x16 => some (f.round (FNum.add (FNum.mul (f.value a) (f.value b)) (f.value c)))
  | 0x17 => some (exp2F32 a)
  | 0x18 => recipF32 a
  | 0x19 => rsqrtF32 a
  | _ => none

/-- One level of the fixed tree of R214. -/
def sumPairs (f : FFmt) : List Nat → List Nat
  | a :: b :: l => f.round (FNum.add (f.value a) (f.value b)) :: sumPairs f l
  | l => l

/-- The tree of R214 over 2^n lanes. -/
def sumTree (f : FFmt) : Nat → List Nat → Nat
  | 0, l => l.headD 0
  | n + 1, l => sumTree f n (sumPairs f l)

/-- The reductions of R213 and R214 over every lane of a register. -/
def vReduce (op ty : Nat) (sat : Bool) (l : List Nat) : Option Nat :=
  let w := vBits ty
  let f := vFmt ty
  if op = 0x1A then
    some (if vInt ty then vWrap w sat (l.map (sext w)).sum else sumTree f 7 l)
  else
    l.tail.foldl (fun m x => match m with
      | none => none
      | some y => vOp (if op = 0x1B then 0x0A else 0x09) ty false x y 0) (some (l.headD 0))

/-- The latency of an opcode (R175, R213). -/
def vLatency (op ty : Nat) : Nat :=
  if 0x1A ≤ op then 8
  else if 0x17 ≤ op then 6
  else if op = 0x16 then 4
  else if op = 0x11 ∨ op = 0x12 ∨ op = 0x13 ∨ op = 0x14 then 3
  else if op = 0x0E ∨ op = 0x0F ∨ op = 0x15 then 2
  else if !vInt ty then 4
  else if op = 0x10 then 3 else 2

end Sys2Proof.Machine
end

