-- ==== Sys2Proof/Machine/Cores.lean ====
section
/-! DEFINITION. Sys2Proof/Machine/Cores.lean: a core's memories as a running layer reads and writes them (spec/03 R155,
R174; spec/05 R290 to R301, R326 to R328; spec/13 R643, R654), its Sluices, and what a fault there charges. -/
namespace Sys2Proof.Machine

/-- The Fountain runs its layer's bundles: it has one, not stopped, and its commit is not requested. -/
def State.ftnLive (s : State) (f : Nat) : Bool :=
  match (s.ftn f).run with
  | some r => r.stoppedAt.isNone && !(s.ftn f).stopped
  | none => false

/-- The job of the layer on a Fountain. -/
def State.ftnJob (s : State) (f : Nat) : Option Job :=
  match (s.ftn f).run with
  | some r => s.pending? r.job
  | none => none

/-- The layer's certificate entry. -/
def State.ftnEnt (s : State) (f : Nat) : CertLayer :=
  match (s.ftn f).run with
  | some r => r.ent
  | none => {}

/-- POS of a core within its Fountain (R196). -/
def State.posOf (s : State) (f c : Nat) : Nat := c - s.ftnFirst f

/-- CORE_INDEX of a core (R141). -/
def State.coreIndex (s : State) (c : Nat) : Nat :=
  match s.ftnOf c with
  | some f => 2 ^ 31 + s.ftnSize f * 2 ^ 24 + s.posOf f c * 2 ^ 16 + f * 2 ^ 8 + c
  | none => c

/-- Every byte of a word was written in one of a list of ranges of a memory. -/
def covered (l : List (Nat × Nat × Nat)) (code a n : Nat) : Bool :=
  (List.range n).all fun i => l.any fun r => r.1 == code && decide (r.2.1 ≤ a + i) && decide (a + i < r.2.1 + r.2.2)

/-- The uncorrectable words that n bytes of a memory touch: their addresses. -/
def State.badWords (s : State) (code inst a n : Nat) : List Nat :=
  (s.marksIn code inst a n).filterMap fun e => match e.2 with
    | .double _ | .poison _ => some (e.1 - markKey code inst 0)
    | _ => none

/-- A bad read of a core's Basin or Reservoir is a lost retained input: in a carry layer, of a word that the layer has not
written (R328, R643). -/
def State.lostLocal (s : State) (f c code a n : Nat) : Bool :=
  (s.ftnEnt f).carry && (s.badWords code c a n).any fun w => !covered (s.core c).wrote code w 8

/-- A byte of a core's Basin or Reservoir. -/
def Core.memOf (k : Core) (code : Nat) : Mem := if code = Mc.basin then k.basin else k.resv

/-- n bytes of a core's Basin or Reservoir: the bytes, whether the read is uncorrectable, whether a retained input is lost. -/
def State.localRd (s : State) (f c code a n : Nat) : List Byte × Bool × Bool × State :=
  let input := s.lostLocal f c code a n
  let (bad, s) := s.readEcc code c a n
  (Mem.rdBytes ((s.core c).memOf code) a n, bad, bad && input, s)

/-- A core's Basin or Reservoir with bytes written. -/
def State.localWr (s : State) (c code a : Nat) (bytes : List Byte) : State :=
  let s := s.writeEcc code c a bytes.length
  let k := s.core c
  let k := { k with wrote := (code, a, bytes.length) :: k.wrote }
  s.setCore c (if code = Mc.basin then { k with basin := Mem.wrBytes k.basin a bytes }
    else { k with resv := Mem.wrBytes k.resv a bytes })

/-- Bytes of the Basin and of the Reservoir (R290). -/
def basinBytes : Nat := 0x180000
def resvBytes : Nat := 0x100000

/-- A core meets a fault in the working state of the layer (R56); every core goes on with its bundle or step (R142), and the
faults of the cycle are charged after it. -/
def State.hit (s : State) (f c det : Nat) (input : Bool) : State :=
  s.setFtn f { s.ftn f with hits := (s.ftn f).hits ++ [(c, det, input)] }

/-- The faults that cores have met are charged (R56): CORE_STATUS.FAULT says so in each, and the layer is stopped once. Of several
in one cycle, one that loses a retained input decides, or else that of the lowest core (log entry 135). -/
def State.chargeHits (s : State) (f : Nat) : State :=
  match (s.ftn f).hits with
  | [] => s
  | h :: l =>
    let s := s.setFtn f { s.ftn f with hits := [] }
    let s := (h :: l).foldl (fun s q => s.wf (Reg.coreStatus q.1) F.coreStatus_FAULT 1) s
    let q := ((h :: l).find? fun q => q.2.2).getD h
    s.coreFault q.1 q.2.1 q.2.2

/-! Vector registers (R173, R174). -/

/-- The 64 words of a vector register. -/
def Core.vregWords (k : Core) (v : Nat) : List Nat := (List.range 64).map fun i => Table.get 0 k.vreg (64 * v + i)

/-- A vector register read by the vector unit or a VST: its words, and whether one is uncorrectable. -/
def State.vregRd (s : State) (c v : Nat) : List Nat × Bool × State :=
  let (bad, s) := s.readEcc Mc.vreg c (256 * v) 256
  ((s.core c).vregWords v, bad, s)

/-- A vector register written whole. -/
def State.vregWr (s : State) (c v : Nat) (words : List Nat) : State :=
  let s := s.writeEcc Mc.vreg c (256 * v) 256
  let k := s.core c
  s.setCore c { k with vreg := ((List.range 64).zip words).foldl (fun t p => Table.put 0 t (64 * v + p.1) p.2) k.vreg }

/-! Sluices (R246, R285 to R288, R661). -/

/-- The count of a Sluice. -/
def State.sluice (s : State) (c n : Nat) : Nat := Table.get 0 (s.core c).sluice n

/-- The state with the count of a Sluice set. -/
def State.setSluice (s : State) (c n v : Nat) : State :=
  s.setCore c { s.core c with sluice := Table.put 0 (s.core c).sluice n v }

/-- A give or take changes the count of a Sluice; its credit path is a twin word (R661, R830). -/
def State.credit (s : State) (f c n v : Nat) : State :=
  let s := s.setSluice c n v
  match s.inject 8 c 6 n with
  | (none, s) => s
  | (some _, s) => (s.occur ⟨4, Kind.occurrence, 8, c, true⟩).hit f c 4 false

/-! Rills. -/

/-- A Rill of a core: load Rills 0 to 3, store Rills 4 and 5. -/
def State.rill (s : State) (c r : Nat) : Rill := Table.get {} (s.core c).rills r

/-- The state with a Rill set. -/
def State.setRill (s : State) (c r : Nat) (q : Rill) : State :=
  s.setCore c { s.core c with rills := Table.put {} (s.core c).rills r q }

/-- RILL_STATUS codes. -/
def Rl.stopped : Nat := 0
def Rl.running : Nat := 1
def Rl.done : Nat := 2
def Rl.hold : Nat := 3

/-- The Rill has work left. -/
def Rill.busy (q : Rill) : Bool := q.st == Rl.running || q.st == Rl.hold

/-- The Rill is stopped: what it has not delivered is gone. -/
def Rill.stop (q : Rill) : Rill :=
  { q with st := Rl.stopped, trn := [], outq := [], part := [], cur := [], off := 0, pk := 0, stopReq := false }

/-- The element in work of a Rill is partly moved. -/
def Rill.mid (q : Rill) (p : RProg) : Bool := if p.kind = 2 then q.off != 0 else !q.cur.isEmpty && q.cur.length != p.elem

/-- The Rill after the end of its element. -/
def Rill.endElem (q : Rill) : Rill :=
  let q := { q with idx := q.idx + 1, cur := [], off := 0, pk := 0 }
  if q.stopReq then q.stop else q

/-- The operand queue of a load Rill, its full entries in order. -/
def State.opq (s : State) (c r : Nat) : List (List Byte) := Table.get [] (s.core c).queues r

/-- The state with an operand queue set. -/
def State.setOpq (s : State) (c r : Nat) (l : List (List Byte)) : State :=
  s.setCore c { s.core c with queues := Table.put [] (s.core c).queues r l }

/-- The program of a Rill. -/
def State.rillProgOf (s : State) (f c r : Nat) : Option RProg := rillProg (s.ftn f).rillSet (s.rill c r).prog

/-- Rills of a core below r that hold for a drop of a Sluice: they are served first (R287). -/
def State.rillsAhead (s : State) (f c r sl : Nat) : Nat :=
  ((List.range (min r 6)).filter fun i => (s.rill c i).st == Rl.hold && match s.rillProgOf f c i with
    | some p => slOf p.pre == some sl
    | none => false).length

/-- Whole drops of a Rill that have landed and are not given are given to its POST Sluice (R285); false where a count would
pass 4,095, and nothing is given (R278). n: how many at most. -/
def State.giveDrops (s : State) (f c r n : Nat) (p : RProg) : Bool × State :=
  let q := s.rill c r
  let m := min n (q.lin / 512 - q.given)
  match slOf p.post with
  | none => (true, s)
  | some sl =>
    if m = 0 then (true, s) else
    if 4095 < s.sluice c sl + m then (false, s) else
    (true, (s.setRill c r { q with given := q.given + m }).credit f c sl (s.sluice c sl + m))

/-! The accumulator tiles (R155 to R157). -/

/-- The key of an element: array, row, physical column. -/
def accKey (a i col : Nat) : Nat := a * 2048 + i * 64 + col

/-- The reads of elements of a tile under their code: array a, its physical columns cols. -/
def State.accRead (s : State) (c a : Nat) (cols : List Nat) : Bool × State :=
  ((s.marksIn Mc.acc c (a * 8192) 8192).filter fun e =>
    cols.contains ((e.1 - markKey Mc.acc c 0) / 4 % 64)).foldl (State.readMark Mc.acc c) (false, s)

/-- The writes of elements of a tile: what they do to stored errors, and the injections they meet. -/
def State.accWritten (s : State) (c a : Nat) (cols : List Nat) : State :=
  let s := ((s.marksIn Mc.acc c (a * 8192) 8192).filter fun e =>
    cols.contains ((e.1 - markKey Mc.acc c 0) / 4 % 64)).foldl (fun s e => s.setMark e.1 .clean) s
  if s.siteArmed Mc.acc c then
    ((List.range 32).flatMap fun i => cols.map fun col => a * 8192 + i * 256 + col * 4).foldl
      (State.injectWord Mc.acc c) s
  else s

/-- The physical columns of an array that a program width uses (R145, R187). -/
def State.usedCols (s : State) (c a pw : Nat) : List Nat := (s.goodCols c a).take pw

/-- ARITH_RESIDUE fails for an element (R182): RESIDUE_LOG, RESIDUE_COUNT, the detector, and the fault. -/
def State.residueFail (s : State) (f c a i col fmt mode : Nat) (inj : Bool) : State :=
  ((s.residueNote c a i col fmt mode).occur ⟨0xB, Kind.occurrence, 8, c, inj⟩).hit f c 0xB false

/-- The injection point of a core's residue site is armed. -/
def State.residueArmed (s : State) (c : Nat) : Bool :=
  s.rf (injBase 8 c + 8) F.inj_ARM == 1 && s.rf (injBase 8 c + 4) F.inj_SITE == 5

/-- The residue check of an element (R180 to R182, R830): its row and column, and whether value and residue agree. -/
def State.residueCheck (f c a fmt mode : Nat) (s : State) (q : Nat × Nat × Bool) : State :=
  match s.inject 8 c 5 (a * 8192 + q.1 * 256 + q.2.1) with
  | (none, s) => if q.2.2 then s else s.residueFail f c a q.1 q.2.1 fmt mode false
  | (some _, s) => s.residueFail f c a q.1 q.2.1 fmt mode true

/-- The residue checks of a tile's elements. -/
def State.residueChecks (s : State) (f c a fmt mode : Nat) (l : List (Nat × Nat × Bool)) : State :=
  if !s.residueArmed c && l.all (fun q => q.2.2) then s else l.foldl (State.residueCheck f c a fmt mode) s

/-- The elements of a tile in the columns in use: row, physical column, and the column's place among them (R145, R187). -/
def tileElems (cols : List Nat) : List (Nat × Nat × Nat) :=
  (List.range 32).flatMap fun i => (cols.zipIdx).map fun q => (i, q.1, q.2)

/-- Bytes that the spec does not give, drawn one by one (log entry 6). -/
def State.drawBytes (s : State) (site : Nat) : Nat → List Byte × State
  | 0 => ([], s)
  | n + 1 =>
    let r := s.drawBytes site n
    let d := r.2.draw site
    (r.1 ++ [BitVec.ofNat 8 d.1], d.2)

end Sys2Proof.Machine
end

