-- ==== Sys2Proof/Machine/Bundle.lean ====
section
/-! DEFINITION. Sys2Proof/Machine/Bundle.lean: a bundle of a Fountain (spec/04 R197 to R254): its fetch, what makes it illegal,
what holds it, what program faults it raises, and its issue. Its slots are presented one by one; the last one issues it, and
every slot reads the state at the start of the issue (R203). -/
namespace Sys2Proof.Machine

/-! Legality (R201, R208, R211 to R216, R220, R224, R230, R233, R237, R252). -/

/-- The fields of a slot lie in their widths. -/
def slotFits : SlotOp → Bool
  | .nop _ => true
  | .setc l i | .incc l i | .decc l i => decide (l < 8) && decide (i < 2 ^ 16)
  | .loop l t => decide (l < 8) && decide (t < 4096)
  | .cmpset k a c _ b i =>
    decide (k < 4) && decide (a < 8) && decide (c < 8) && decide (b < 8) && decide (i < 2 ^ 16)
  | .pset k _ => decide (k < 4)
  | .jmp t => decide (t < 4096)
  | .vec op v =>
    decide (1 ≤ op) && decide (op < 64) && decide (v.g < 8) && decide (v.ty < 8) && decide (v.vd < 32) &&
    decide (v.va < 32) && decide (v.vb < 32) && decide (v.vc < 32) && decide (v.imm < 2 ^ 14)
  | .mst m | .mpl m =>
    decide (m.g < 8) && decide (m.mode < 8) && decide (m.fmt < 16) && decide (m.amask < 16) && decide (m.acc < 4) &&
    decide (m.pls < 8) && decide (m.ar < 4) && decide (m.wp < 4) && decide (m.steps < 1024) && decide (m.batch < 16) &&
    decide (m.arot < 4)
  | .rstart r =>
    decide (r.g < 8) && decide (r.r < 4) && decide (r.prog < 16) && decide (r.possh < 16) && decide (r.base < 2 ^ 21) &&
    decide (r.lc < 8) && decide (r.lcsh < 16)
  | .sstart r =>
    decide (r.g < 8) && decide (r.r < 2) && decide (r.prog < 16) && decide (r.possh < 16) && decide (r.base < 2 ^ 21) &&
    decide (r.lc < 8) && decide (r.lcsh < 16)
  | .rstop g r => decide (g < 8) && decide (r < 4)
  | .sstop g r => decide (g < 8) && decide (r < 2)
  | .vld v | .vst v =>
    decide (v.g < 8) && decide (v.v < 32) && decide (v.addr < 2 ^ 13) && decide (v.lc < 8) && decide (v.stride < 256)
  | .wset g w b st bs =>
    decide (g < 8) && decide (w < 4) && decide (b < 2 ^ 14) && decide (st < 256) && decide (bs < 2 ^ 14)
  | .ppset g a => decide (g < 8) && decide (a < 2 ^ 13)
  | .dsel g d sr => decide (g < 8) && decide (d < 8) && decide (sr < 2)
  | .drn g m p d sr => decide (g < 8) && decide (m < 16) && decide (p < 8) && decide (d < 8) && decide (sr < 2)
  | .bar g _ | .commit g _ => decide (g < 8)
  | .setf g n _ | .waitf g n _ => decide (g < 8) && decide (n < 64)
  | .evt g c => decide (g < 8) && decide (c < 2 ^ 20)
  | .crd g c sl d => decide (g < 8) && decide (c < 4) && decide (sl < 8) && decide (d < 1024)

/-- A guard field is legal (R201). -/
def guardOk (g : Nat) : Bool := g == 0 || decide (4 ≤ g)

/-- A mode and format pair is a row of R149 and R150. -/
def modeOk (mode fmt : Nat) : Bool := decide (mode ≤ 6) && decide (fmt ≤ 10) && (mode == 0 || fmt == 0)

/-- The types that an opcode of the vector slot takes (R213). -/
def vTypeOk (op ty : Nat) : Bool :=
  if (0x03 ≤ op ∧ op ≤ 0x08) ∨ op = 0x12 then vInt ty
  else if op = 0x15 then ty == 0
  else if op = 0x16 then decide (2 ≤ ty)
  else if op = 0x17 ∨ op = 0x18 ∨ op = 0x19 then ty == 2
  else decide (1 ≤ op) && decide (op ≤ 0x1C)

/-- A vector slot is legal (R211 to R215). A VB that an opcode does not use is not checked (DEDUCED, log entry 22). -/
def vecOk (op : Nat) (v : VSlot) : Bool :=
  decide (v.ty ≤ 4) && vTypeOk op v.ty && (v.vc == 0 || op == 0x0E || op == 0x16) &&
  (!v.sat || (vInt v.ty && (op == 0x01 || op == 0x02 || op == 0x10 || op == 0x1A))) &&
  (!v.immb || (v.vb == 0 && (vInt v.ty || op == 0x14 || op == 0x15))) &&
  (v.imm == 0 || v.immb || op == 0x14 || op == 0x15) && (op != 0x15 || decide (v.imm ≤ 9)) &&
  (op != 0x11 || (decide (v.vb % 8 ≤ 4) && v.vb % 8 != v.ty))

/-- A slot is legal. -/
def slotLegal (o : SlotOp) : Bool :=
  guardOk o.guardField && match o with
  | .cmpset _ _ c refsel b i => decide (c ≤ 5) && (if refsel then i == 0 else b == 0)
  | .vec op v => vecOk op v
  | .mst m => modeOk m.mode m.fmt && m.amask != 0 && decide (m.pls ≤ 4) && (!fmtMx m.fmt || (m.steps + 1) % 32 == 0)
  | .mpl m => modeOk m.mode m.fmt && m.amask != 0 && decide (m.pls ≤ 4) &&
      m == { g := m.g, mode := m.mode, fmt := m.fmt, amask := m.amask, pls := m.pls }
  | .rstart r | .sstart r => r.lcen || (r.lc == 0 && r.lcsh == 0)
  | .drn _ _ p _ _ => p != 5 && p != 6
  | .crd _ c _ _ => decide (c ≤ 2)
  | _ => true

/-- The slot is an MST or MPL. -/
def slotIsMat : SlotOp → Bool
  | .mst _ | .mpl _ => true
  | _ => false

/-- The slot is a DRN. -/
def slotIsDrn : SlotOp → Bool
  | .drn _ _ _ _ _ => true
  | _ => false

/-- A bundle is legal (R252). -/
def bundleOk (b : List SlotOp) : Bool := b.all slotLegal && !(b.any slotIsMat && b.any slotIsDrn)

/-! Comparators and guards (R201, R202, R207). -/

/-- A loop counter (R206). -/
def Fountain.lcVal (x : Fountain) (n : Nat) : Nat := Table.get 0 x.lc n

/-- The condition of a comparator (R208). -/
def CmpBind.holds (b : CmpBind) (x : Fountain) : Bool :=
  let a := x.lcVal b.lca
  let r := if b.refsel then x.lcVal b.lcb else b.imm
  match b.cond with
  | 0 => a == r
  | 1 => a != r
  | 2 => decide (a < r)
  | 3 => decide (a ≤ r)
  | 4 => decide (r < a)
  | _ => decide (r ≤ a)

/-- The predicates as they stand at an issue: a bound comparator drives its own (R207). -/
def Fountain.preds (x : Fountain) : Nat :=
  (List.range 4).foldl (fun n k =>
    let v := match Table.get none x.cmp k with
      | some b => b.holds x
      | none => x.pred.testBit k
    n + b2n v * 2 ^ k) 0

/-- The slot executes (R201). -/
def Fountain.runs (x : Fountain) (o : SlotOp) : Bool := o.guardField == 0 || x.preds.testBit (o.guardField - 4)

/-! Holds (R221, R222, R238 to R249). -/

/-- The matrix instruction has steps, or the beginning of its preload or drain, still to issue (R222, R233). -/
def MRun.issuing (r : MRun) : Bool := if r.drn || r.mpl then true else decide (r.b < r.m.batch) || decide (r.phase < 2)

/-- A core has no work in its drain chain, and its store Rills have written what they received (R238). -/
def Core.drained (k : Core) : Bool := k.raw.isEmpty && k.pool.isEmpty && k.out.isEmpty

/-- The matrix unit and the drain chains of a Fountain are idle; with `loads`, its load Rills too (R238, R249). -/
def State.quiet (s : State) (f : Nat) (loads : Bool) : Bool :=
  (s.ftn f).mats.isEmpty && (s.ftnCores f).all fun c =>
    (s.core c).drained && (!loads || [0, 1, 2, 3].all fun r => !(s.rill c r).busy)

/-- The segment that follows the active one in its layer, if there is one (R239, R264). -/
def State.nextSeg (s : State) (f : Nat) : Option (Nat × Nat × Nat) :=
  match (s.ftn f).active, s.ftnJob f with
  | some (job, layer, g), some j =>
    match s.firstSeg j layer with
    | some a => if g + 1 < a + (s.ftn f).segCount then some (job, layer, g + 1) else none
    | none => none
  | _, _ => none

/-- A slot that executes holds its bundle. -/
def State.slotHolds (s : State) (f : Nat) (o : SlotOp) : Bool :=
  match o with
  | .mst _ | .mpl _ | .drn _ _ _ _ _ => (s.ftn f).mats.any MRun.issuing
  | .bar _ swp => !s.quiet f true || (swp && !((s.ftn f).swapPending && (s.ftn f).pend == s.nextSeg f))
  | .waitf _ g v => s.gateFlag g != v
  | .crd _ 0 sl d => decide (0 < d) && (s.ftnCores f).any fun c => decide (s.sluice c sl < d + s.rillsAhead f c 6 sl)
  | .commit _ tile => !s.quiet f (!tile)
  | _ => false

/-! Program faults (R253, R278, R349). -/

/-- The byte address of a VLD or VST (R227). -/
def vmemAddr (v : VMem) (x : Fountain) : Int :=
  ((v.addr : Int) + if v.lcen then (x.lcVal v.lc : Int) * sext 8 v.stride else 0) * 256

/-- A 256-byte access at an address lies outside the Basin. -/
def outside (a : Int) : Bool := decide (a < 0) || decide ((basinBytes : Int) ≤ a)

/-- A 4-bit mask rotated left (R217). -/
def rot4 (m n : Nat) : Nat := (m * 2 ^ (n % 4) % 16) + m * 2 ^ (n % 4) / 16

/-- The arrays of a mask, in ascending order. -/
def arraysOf (m : Nat) : List Nat := [0, 1, 2, 3].filter fun a => m.testBit a

/-- A preload of an array reads at or above the end of the Basin (R229, R253). -/
def preloadOut (pp pls a : Nat) : Bool :=
  if pls = 1 then decide (basinBytes < pp + 256 * a + 256)
  else if pls = 2 then decide (basinBytes < pp + 8192 * a + 8192) else false

/-- The arrays that a matrix instruction names in some batch. -/
def mslotArrays (m : MSlot) : List Nat :=
  ((List.range (m.batch + 1)).flatMap fun b => arraysOf (rot4 m.amask (b * m.arot))).eraseDups

/-- The instruction drains (R216). -/
def mslotDrains (m : MSlot) : Bool := decide (2 ≤ m.acc)

/-- Descriptor d of the layer's drain set is absent or malformed (R349). -/
def Fountain.badDesc (x : Fountain) (d : Nat) : Bool :=
  let set := x.drainSet
  !(decide (1 ≤ dsetD set) && decide (dsetD set ≤ 8) && decide (dsetT set ≤ 4) && decide (dsetP set ≤ 2048) &&
    fieldAt set 4 4 == 0 && set.length == 8 + 64 * dsetD set + 512 * dsetT set + 8 * dsetP set &&
    match dsetDesc set d with
    | some e => e.ok set
    | none => false)

/-- A Rill start is well formed for a kind (R278). -/
def Fountain.badProg (x : Fountain) (i kind : Nat) : Bool :=
  match rillProg x.rillSet i with
  | some p => !(p.ok && p.kind == kind)
  | none => true

/-- The drops that a Rill still owes the POST Sluice of its last stream: they have landed and are not given (R285). -/
def State.owed (s : State) (f c r : Nat) : Option (Nat × Nat) :=
  match s.rillProgOf f c r with
  | none => none
  | some p => (slOf p.post).map fun sl => (sl, (s.rill c r).lin / 512 - (s.rill c r).given)

/-- The Rills that a bundle starts. -/
def startsOf (b : List SlotOp) : List Nat :=
  b.filterMap fun o => match o with
    | .rstart r => some r.r
    | .sstart r => some (4 + r.r)
    | _ => none

/-- The drops that the Rills which a bundle starts give a Sluice as they start, their last streams' own. -/
def State.startGives (s : State) (f : Nat) (b : List SlotOp) (c sl : Nat) : Nat :=
  ((startsOf b).map fun r => match s.owed f c r with
    | some (k, n) => if k = sl then n else 0
    | none => 0).sum

/-- A Rill that a bundle starts would give its Sluice more than it may hold (R278). -/
def State.owedOver (s : State) (f : Nat) (b : List SlotOp) (r : Nat) : Bool :=
  (s.ftnCores f).any fun c => match s.owed f c r with
    | some (k, n) => decide (0 < n) && decide (4095 < s.sluice c k + s.startGives f b c k)
    | none => false

/-- The program faults that a slot which executes raises as its bundle, with the slots b, would issue. -/
def State.slotFaults (s : State) (f : Nat) (b : List SlotOp) (o : SlotOp) : List Nat :=
  let x := s.ftn f
  let cores := s.ftnCores f
  let on := fun (c : Bool) (code : Nat) => if c then [code] else []
  match o with
  | .vld v | .vst v => on (outside (vmemAddr v x)) Pf.basinRange
  | .ppset _ a => on (decide (basinBytes ≤ a * 256)) Pf.basinRange
  | .mst m =>
    on ((m.acc == 1 || m.acc == 3) && (mslotArrays m).any (preloadOut x.pp m.pls)) Pf.basinRange ++
    on (mslotDrains m && x.badDesc x.dcd) Pf.drainFormat
  | .mpl m => on ((arraysOf m.amask).any (preloadOut x.pp m.pls)) Pf.basinRange
  | .drn _ m p d _ => on ((arraysOf m).any (preloadOut x.pp p)) Pf.basinRange ++ on (x.badDesc d) Pf.drainFormat
  | .dsel _ d _ => on (x.badDesc d) Pf.drainFormat
  | .crd _ 1 sl d => on (cores.any fun c => decide (4095 < s.sluice c sl + s.startGives f b c sl + d)) Pf.sluiceRange
  | .rstart r =>
    on (cores.any fun c => (s.rill c r.r).busy) Pf.rillBusy ++ on (x.badProg r.prog 1) Pf.rillFormat ++
    on (s.owedOver f b r.r) Pf.rillSluice
  | .sstart r =>
    on (cores.any fun c => (s.rill c (4 + r.r)).busy) Pf.rillBusy ++ on (x.badProg r.prog 2) Pf.rillFormat ++
    on (s.owedOver f b (4 + r.r)) Pf.rillSluice
  | .bar _ swp => on (swp && (s.nextSeg f).isNone) Pf.swapNone
  | .commit _ tile => on (tile && decide ((s.ftnEnt f).tiles ≤ x.tileNow + x.tileReqs)) Pf.tileRange
  | _ => []

/-! Issue. -/

/-- The scalar slot (R206 to R210): counters, comparators, predicates and the next address. -/
def Fountain.scalar (x : Fountain) (o : SlotOp) : Fountain :=
  let setLc := fun (n v : Nat) => { x with lc := Table.put 0 x.lc n (v % 65536) }
  match o with
  | .setc n i => setLc n i
  | .incc n i => setLc n (x.lcVal n + i)
  | .decc n i => setLc n (x.lcVal n + 65536 - i)
  | .loop n t =>
    if x.lcVal n = 0 then x
    else let y := setLc n (x.lcVal n - 1); if x.lcVal n = 1 then y else { y with pc := t }
  | .cmpset k a c r b i => { x with cmp := Table.put none x.cmp k (some ⟨a, c, r, b, i⟩) }
  | .pset k v => { x with cmp := Table.put none x.cmp k none,
                          pred := (x.pred % 2 ^ k) + b2n v * 2 ^ k + x.pred / 2 ^ (k + 1) * 2 ^ (k + 1) }
  | .jmp t => { x with pc := t }
  | _ => x

/-- A matrix instruction takes its place behind those before it; its pointer moves on at once (R217, R219, R222, R231). -/
def Fountain.matrix (x x0 : Fountain) (o : SlotOp) : Fountain :=
  match o with
  | .mst m =>
    let p : WPtr := Table.get {} x0.wp m.wp
    let w := wrapN 14 ((p.cur : Int) + (m.batch + 1 : Nat) * ((m.steps + 1 : Nat) * p.step + p.bstep))
    let run : MRun := { m := m, w := p.cur, step := p.step, bstep := p.bstep, phase := if m.acc = 1 then 0 else 1,
                        dcd := x0.dcd, sr := x0.sr, addr := x0.pc, bank := x0.bank, pp := x0.pp }
    { x with mats := x.mats ++ [run], wp := Table.put {} x.wp m.wp { p with cur := w } }
  | .mpl m =>
    let run : MRun := { m := m, mpl := true, addr := x0.pc, bank := x0.bank, pp := x0.pp }
    { x with mats := x.mats ++ [run] }
  | .drn _ a p d sr =>
    let run : MRun := { m := { amask := a, pls := p }, phase := 2, dcd := d, sr := sr, drn := true, addr := x0.pc,
                        bank := x0.bank, pp := x0.pp }
    { x with mats := x.mats ++ [run] }
  | .wset _ w b st bs => { x with wp := Table.put {} x.wp w { cur := b, step := sext 8 st, bstep := sext 14 bs } }
  | .ppset _ a => { x with pp := a * 256 }
  | .dsel _ d sr => { x with dcd := d, sr := sr, drainM := Table.put 0 x.drainM d 0 }
  | _ => x

/-- The sync slot's part in the Fountain: held effects and requests (R240, R244, R248, R249). -/
def Fountain.sync (x : Fountain) (o : SlotOp) : Fountain :=
  match o with
  | .setf _ g v => { x with held := x.held ++ [.setf g v], heldTotal := x.heldTotal + 1 }
  | .evt _ c => { x with held := x.held ++ [.evt c], heldTotal := x.heldTotal + 1 }
  | .commit _ true => { x with held := x.held ++ [.tile], tileReqs := x.tileReqs + 1 }
  | .commit _ false => { x with committing := true }
  | .waitf _ _ _ => { x with waitf := none }
  | .bar _ true => x.swap
  | _ => x

/-- The base of a Rill start on a core (R225). -/
def rslotBase (r : RSlot) (x : Fountain) (pos : Nat) : Nat :=
  (r.base + (if r.possh = 15 then 0 else pos * 2 ^ r.possh) + (if r.lcen then x.lcVal r.lc * 2 ^ r.lcsh else 0)) % 2 ^ 21

/-- A Rill of a core starts (R225, R235); drops of its last stream that have landed are given first. -/
def State.startRill (s : State) (f c r : Nat) (x : Fountain) (o : RSlot) : State :=
  let s := match s.rillProgOf f c r with
    | some p => (s.giveDrops f c r (2 ^ 32) p).2
    | none => s
  s.setRill c r { st := Rl.running, prog := o.prog, start := rslotBase o x (s.posOf f c), addr := x.pc, bank := x.bank }

/-- A Rill of a core stops at its next element boundary (R226, R279). -/
def State.stopRill (s : State) (f c r : Nat) : State :=
  let q := s.rill c r
  let mid := match s.rillProgOf f c r with
    | some p => q.mid p
    | none => false
  if !q.busy then s else s.setRill c r (if mid then { q with stopReq := true } else q.stop)

/-- A slot's part in one core, but for the vector registers. x: the Fountain at the start of the issue. -/
def State.coreSlot (f : Nat) (x : Fountain) (c : Nat) (s : State) (o : SlotOp) : State :=
  match o with
  | .rstart r => s.startRill f c r.r x r
  | .sstart r => s.startRill f c (4 + r.r) x r
  | .rstop _ r => s.stopRill f c r
  | .sstop _ r => s.stopRill f c (4 + r)
  | .crd _ 0 sl d => s.credit f c sl (s.sluice c sl - d)
  | .crd _ 1 sl d => s.credit f c sl (s.sluice c sl + d)
  | .crd _ _ sl d => s.setSluice c sl d
  | .vst v =>
    let (w, bad, s) := s.vregRd c v.v
    if bad then s.hit f c 1 false
    else s.localWr c Mc.basin (vmemAddr v x).toNat (w.flatMap fun n => leBytes n 4)
  | _ => s

/-- The lanes that a vector slot computes (R213 to R215), with free values where the spec states none. The registers are
given as their words. -/
def vecLanes (op : Nat) (v : VSlot) (idx : Nat) (lc : Nat → Nat) (a b c : List Nat) : List (Option Nat) :=
  let n := vLanes v.ty
  let w := vBits v.ty
  let imm := wrapN w (sext 14 v.imm)
  let la := (List.range n).map (vLane v.ty a)
  let lb := (List.range n).map fun k => if v.immb then imm else vLane v.ty b k
  if op = 0x11 then
    let d := v.vb % 8
    (List.range (vLanes d)).map fun k => if k < n then some (vConvert v.ty d (la.getD k 0)) else none
  else if op = 0x13 then (List.range n).map fun k => some (la.getD (lb.getD k 0 % n) 0)
  else if op = 0x14 then (List.range n).map fun _ => some (la.getD (sext 14 v.imm % (n : Int)).toNat 0)
  else if op = 0x15 then
    (List.range n).map fun k => some (if v.imm = 0 then idx else if v.imm = 1 then k else lc (v.imm - 2))
  else if 0x1A ≤ op then vReduce op v.ty v.sat la :: List.replicate (n - 1) (some 0)
  else (List.range n).map fun k => vOp op v.ty v.sat (la.getD k 0) (lb.getD k 0) (vLane v.ty c k)

/-- Lanes with a free value in each place where the spec states none (log entry 6). -/
def State.fillLanes (s : State) (w : Nat) : List (Option Nat) → List Nat × State
  | [] => ([], s)
  | some x :: l => let r := s.fillLanes w l; (x :: r.1, r.2)
  | none :: l =>
    let d := s.draw 6
    let r := d.2.fillLanes w l
    (d.1 % 2 ^ w :: r.1, r.2)

/-- The registers that a vector opcode reads. -/
def vecSources (op : Nat) (v : VSlot) : List Nat :=
  let two := (decide (op ≤ 0x0E) || op == 0x10 || op == 0x12 || op == 0x13 || op == 0x16) && !v.immb
  let three := op == 0x0E || op == 0x16
  (if op = 0x15 then [] else [v.va]) ++ (if two then [v.vb] else []) ++ (if three then [v.vc] else [])

/-- A core's vector unit computes (R213): the words to be written, if no source is uncorrectable. -/
def State.vecCompute (s : State) (f c op : Nat) (v : VSlot) (x : Fountain) : Option (List Nat) × State :=
  let r := (vecSources op v).eraseDups.foldl (fun (r : Bool × State) n =>
    let q := r.2.vregRd c n
    (r.1 || q.2.1, q.2.2)) (false, s)
  if r.1 then (none, r.2.hit f c 1 false) else
  let k := r.2.core c
  let ty := if op = 0x11 then v.vb % 8 else v.ty
  let l := vecLanes op v (r.2.coreIndex c) x.lcVal (k.vregWords v.va) (k.vregWords v.vb) (k.vregWords v.vc)
  let q := r.2.fillLanes (vBits ty) l
  (some (vWords ty q.1), q.2)

/-- A VLD reads the Basin (R227): the words to be written. -/
def State.vldRead (s : State) (f c : Nat) (v : VMem) (x : Fountain) : Option (List Nat) × State :=
  let (b, bad, input, s) := s.localRd f c Mc.basin (vmemAddr v x).toNat 256
  if bad then (none, s.hit f c 1 input) else (some ((List.range 64).map fun i => u32 b (4 * i)), s)

/-- The register and the words that the vector slot and the load slot of a bundle write on a core. -/
def State.coreLoads (s : State) (f c : Nat) (x : Fountain) (b : List SlotOp) :
    (Option (Nat × Nat × List Nat)) × (Option (Nat × List Nat)) × State :=
  b.foldl (fun r o => match o with
    | .vec op v => match r.2.2.vecCompute f c op v x with
      | (some w, s) => (some (vLatency op v.ty, v.vd, w), r.2.1, s)
      | (none, s) => (r.1, r.2.1, s)
    | .vld v => match r.2.2.vldRead f c v x with
      | (some w, s) => (r.1, some (v.v, w), s)
      | (none, s) => (r.1, r.2.1, s)
    | _ => r) (none, none, s)

/-- The vector registers are written: where a VLD (4 cycles) and a vector operation of one bundle write one register, the
write of the longer latency lands last; the spec gives no order for equal latencies (log entry 6). -/
def State.coreWrites (s : State) (c : Nat) (vec : Option (Nat × Nat × List Nat)) (ld : Option (Nat × List Nat)) : State :=
  match vec, ld with
  | some (lat, d, w), some (e, u) =>
    if d ≠ e then (s.vregWr c d w).vregWr c e u
    else if lat = 4 then
      let (v, s) := s.draw 5
      s.vregWr c d (if v % 2 = 0 then w else u)
    else s.vregWr c d (if lat < 4 then u else w)
  | some (_, d, w), none => s.vregWr c d w
  | none, some (e, u) => s.vregWr c e u
  | none, none => s

/-- A bundle on one core: what it reads, its slots in their order, and what it writes in the vector registers (R203, R236). -/
def State.coreIssue (f : Nat) (x : Fountain) (b : List SlotOp) (s : State) (c : Nat) : State :=
  let r := s.coreLoads f c x b
  (b.foldl (State.coreSlot f x c) r.2.2).coreWrites c r.1 r.2.1

/-- A bundle issues: the Fountain's own part, then each core's, every one of them; the faults that cores meet are charged after it
(R142, R203). `b`: the slots that execute. -/
def State.issue (s : State) (f : Nat) (b : List SlotOp) : State :=
  let x0 := { s.ftn f with pred := (s.ftn f).preds }
  let x := { x0 with pc := x0.pc + 1, lastPc := x0.pc, lastBank := x0.bank, started := true, ir := [], asm := [],
                     waitf := none }
  let x := b.foldl Fountain.scalar x
  let x := b.foldl (fun x o => x.matrix x0 o) x
  let x := b.foldl Fountain.sync x
  ((s.ftnCores f).foldl (State.coreIssue f x0 b) (s.setFtn f x)).chargeHits f

/-- The bundle issues more held effects than the layer's certificate states (R40). -/
def State.overHeld (s : State) (f : Nat) (b : List SlotOp) : Bool :=
  decide ((s.ftnEnt f).held < (s.ftn f).heldTotal + (b.filter fun o => match o with
    | .setf _ _ _ | .evt _ _ => true
    | _ => false).length)

/-- The bytes of a bank of a Fountain's instruction memory. -/
def Fountain.imem (x : Fountain) (bank : Nat) : Mem := if bank = 0 then x.imem0 else x.imem1

/-- The bundle at the program counter is fetched from the active bank (R197, R253, R255, R261), once for its issue: false where
the address lies outside the segment, or a word is uncorrectable. -/
def State.fetch (s : State) (f : Nat) : Bool × State :=
  let x := s.ftn f
  if x.ir != [] then (true, s)
  else if x.count ≤ x.pc then (false, s.progFault f Pf.fetchRange x.bank x.pc)
  else
    let (bad, s) := s.readEcc Mc.imem f (x.bank * 0x20000 + 32 * x.pc) 32
    if bad then (false, s.chargeFault f 1 false)
    else (true, s.setFtn f { s.ftn f with ir := Mem.rdBytes (x.imem x.bank) (32 * x.pc) 32 })

/-- A program fault of a bundle; where several codes apply the spec does not say which the register takes (log entry 6). -/
def State.faultOf (s : State) (f : Nat) (codes : List Nat) (bank addr : Nat) : State :=
  match codes with
  | [c] => s.progFault f c bank addr
  | _ => let (v, s) := s.draw 7; s.progFault f (codes.getD (v % codes.length) Pf.illegal) bank addr

/-- The flag evaluation of a WAITF that holds is a check of the Gate's flag path (R661, R830); a mismatch is a transient
fault. -/
def State.waitfCheck (s : State) (f g : Nat) : State :=
  match s.inject 2 0 4 g with
  | (none, s) => s
  | (some _, s) => (s.occur ⟨4, Kind.occurrence, 0x1B, g, true⟩).chargeFault f 4 false

/-- The bundle holds: a hold at WAITF is marked, with the time it began (R242, R416). -/
def State.holdBundle (s : State) (f : Nat) (b : List SlotOp) : State :=
  b.foldl (fun s o => match o with
    | .waitf _ g v =>
      if s.gateFlag g == v then s else
      let x := s.ftn f
      let t := match x.waitf with
        | some (_, _, t) => t
        | none => s.gts
      (s.setFtn f { x with waitf := some (g, v, t), started := true }).waitfCheck f g
    | _ => s) s

/-- The layer's cycle count has reached its budget: no bundle of it issues any more (R67). -/
def State.spent (s : State) (f : Nat) : Bool := decide (s.rn (Reg.ftnBudget f) ≤ s.rn (Reg.ftnCycles f))

/-- The job of the layer on a Fountain ends with CERT_OVERRUN (R16, R40, R67). -/
def State.overrun (s : State) (f : Nat) : State :=
  match (s.ftn f).run with
  | some r => s.endWith r.job St.certOverrun
  | none => s

/-- The whole bundle at the program counter, legal and all presented: it holds, faults, or issues (R197, R253, R254). -/
def State.bundle (s : State) (f : Nat) (all : List SlotOp) : State :=
  let x := s.ftn f
  let b := all.filter x.runs
  if (s.nextSeg f).isNone && b.any (fun o => match o with
      | .bar _ true => true
      | _ => false) && s.quiet f true then s.progFault f Pf.swapNone x.bank x.pc
  else if b.any (s.slotHolds f) then s.holdBundle f b
  else
    let codes := (b.flatMap (s.slotFaults f b)).eraseDups
    if !codes.isEmpty then s.faultOf f codes x.bank x.pc
    else if s.overHeld f b then s.overrun f
    else s.issue f b

/-- The slots of a bundle that are not NOP have all been presented. -/
def allPresented (all asm : List SlotOp) : Bool := all.all fun o => slotNop o || asm.contains o

/-- A slot of the fetched bundle is presented (log entry 23): one that is not the last waits for the rest; with the last, once every
slot that is not NOP has been presented, the bundle issues, or, where it holds, waits for its last slot again. A slot that the
bundle does not hold, or that has been presented, is not taken. -/
def State.present (s s0 : State) (f : Nat) (all : List SlotOp) (o : SlotOp) (last : Bool) : State :=
  let x := s.ftn f
  if !all.contains o || x.asm.contains o then s0
  else if !last then s.setFtn f { x with asm := x.asm ++ [o] }
  else if allPresented all (x.asm ++ [o]) then (s.bundle f all).settle
  else s0

/-- A slot of the next bundle of a Fountain (R197 to R199, R252): the bundle is fetched and split into its slots, and an illegal
one faults; otherwise the slot is presented. -/
def State.slot (s : State) (f : Nat) (o : SlotOp) (last : Bool) : State :=
  if !(decide (f < 4) && s.ftnLive f && !(s.ftn f).committing) then s
  else if s.spent f then (s.overrun f).settle
  else
    let r := s.fetch f
    if !r.1 then r.2.settle else
    let x := r.2.ftn f
    match (decodeBundle x.ir).filter bundleOk with
    | none => (r.2.progFault f Pf.illegal x.bank x.pc).settle
    | some all => r.2.present s f all o last

end Sys2Proof.Machine
end

