-- ==== Sys2Proof/Machine/Matrix.lean ====
section
/-! DEFINITION. Sys2Proof/Machine/Matrix.lean: the outer-product arrays at work (spec/03 R145 to R182; spec/04 R217 to R223;
spec/07 R366 to R369): steps, preloads, and the reading of tiles into the drain chain (spec/06 R336 to R347). -/
namespace Sys2Proof.Machine

/-- Bytes of a step's activations (R152). -/
def colBytes (fmt : Nat) : Nat := if fmt = 1 ∨ fmt = 6 ∨ fmt = 7 then 64 else 32

/-- A step of an MX block's first takes new scales (R169). -/
def MRun.newScales (r : MRun) : Bool := fmtMx r.m.fmt && r.s % 32 == 0

/-- The queue of the scale Rill (R366). -/
def scaleRill (ar : Nat) : Nat := ar ^^^ 1

/-- Every core's operands of a step are present (R221, R368). -/
def State.operandsReady (s : State) (f : Nat) (r : MRun) : Bool :=
  (s.ftnCores f).all fun c =>
    !(s.opq c r.m.ar).isEmpty && (!r.newScales || decide (9 ≤ (s.opq c (scaleRill r.m.ar)).length))

/-- What a step in an integer format adds to element i, j of a tile (R163, R171): xs and ys are the bytes of the column and of
the weight row. -/
def intTerm (m : MSlot) (xs ys : List Byte) (i j : Nat) : Int :=
  let n := fmtBytes m.fmt
  let x := fieldAt xs (n * i) n
  let y := fieldAt ys (n * j) n
  if m.mode ≠ 0 then modeTerm m.mode m.asgn x y
  else if m.fmt = 0 then codeInt m.asgn x * sext 8 y
  else i4Term m.asgn x (u8 xs (32 + i)) y

/-- The new value of an element of a tile (R145): sc is the 288 bytes of the block's scales, a the array. -/
def newAcc (m : MSlot) (xs ys sc : List Byte) (a i j e : Nat) : Nat :=
  let n := fmtBytes m.fmt
  let x := fieldAt xs (n * i) n
  let y := fieldAt ys (n * j) n
  if m.mode ≠ 0 then accMode m.mode m.asgn e x y
  else if m.fmt < 2 then accAddInt e (intTerm m xs ys i j)
  else accAddFloat e (floatTerm m.fmt x y (u8 sc i) (u8 sc (32 + 64 * a + j)))

/-- The record of the format and mode that last wrote a tile (R336). -/
def tileRec (mode fmt : Nat) : Nat := 16 * mode + fmt
/-- The tile holds floats. -/
def tileFloat (t : Nat) : Bool := t / 16 == 0 && fmtFloat (t % 16)

/-- Elements of a tile take new values, and each the residue of its value (R180, R181). -/
def Core.putElems (k : Core) (a rec : Nat) (l : List (Nat × Nat × Nat)) : Core :=
  { k with
    acc := l.foldl (fun t p => Table.put 0 t (accKey a p.1 p.2.1) p.2.2) k.acc
    res := l.foldl (fun t p => Table.put 0 t (accKey a p.1 p.2.1) (residueOf p.2.2)) k.res
    tile := Table.put 0 k.tile a rec }

/-- An element of a tile, and its residue. -/
def Core.elem (k : Core) (a i col : Nat) : Nat := Table.get 0 k.acc (accKey a i col)
def Core.residue (k : Core) (a i col : Nat) : Nat := Table.get 0 k.res (accKey a i col)

/-- The new values of a tile's elements in a step: row, physical column, value. -/
def Core.stepElems (k : Core) (m : MSlot) (xs ys sc : List Byte) (a : Nat) (cols : List Nat) : List (Nat × Nat × Nat) :=
  (tileElems cols).map fun p => (p.1, p.2.1, newAcc m xs ys sc a p.1 p.2.2 (k.elem a p.1 p.2.1))

/-- A tile after a step: every row, and the physical columns in use. -/
def Core.stepTile (k : Core) (m : MSlot) (xs ys sc : List Byte) (a : Nat) (cols : List Nat) : Core :=
  k.putElems a (tileRec m.mode m.fmt) (k.stepElems m xs ys sc a cols)

/-- The residue checks of a step (R180): of each element without its SAT bit, the new value against the old residue and that of
the contribution; for a float format the check covers the product of the significands alone, which holds by itself. An element that
saturates in the step is not checked, since its new value is no longer the sum (DEDUCED, log entry 136). -/
def Core.stepChecks (k : Core) (m : MSlot) (xs ys sc : List Byte) (a : Nat) (cols : List Nat) : List (Nat × Nat × Bool) :=
  (tileElems cols).filterMap fun p =>
    let old := k.elem a p.1 p.2.1
    if m.mode = 0 ∧ 2 ≤ m.fmt then (if residueCovers m.mode old then some (p.1, p.2.1, true) else none) else
    let new := newAcc m xs ys sc a p.1 p.2.2 old
    if residueCovers m.mode new then
      some (p.1, p.2.1, residueAgrees (k.residue a p.1 p.2.1) (intTerm m xs ys p.1 p.2.2) new)
    else none

/-- The weight row of an array, unit by unit of 64 bytes (R217, R218): its bytes, and what its reads find. -/
def State.weightRow (s : State) (f c : Nat) (u : Nat) : Nat → List Byte × Bool × Bool × State
  | 0 => ([], false, false, s)
  | n + 1 =>
    let r := s.weightRow f c u n
    let q := r.2.2.2.localRd f c Mc.resv ((u + n) % 16384 * 64) 64
    (r.1 ++ q.1, r.2.1 || q.2.1, r.2.2.1 || q.2.2.1, q.2.2.2)

/-- One array of a core takes a step (R145 to R148, R180 to R182). -/
def State.stepArray (f c : Nat) (r : MRun) (xs sc : List Byte) (s : State) (a : Nat) : State :=
  let wb := fmtWb r.m.fmt
  let (ys, bad, input, s) := s.weightRow f c (r.w + a * wb) wb
  if bad then s.hit f c 1 input else
  let cols := s.usedCols c a (s.rf (Reg.corePw c) F.corePw_PW)
  let (bad, s) := s.accRead c a cols
  if bad then s.hit f c 1 false else
  let s := s.residueChecks f c a r.m.fmt r.m.mode ((s.core c).stepChecks r.m xs ys sc a cols)
  (s.setCore c ((s.core c).stepTile r.m xs ys sc a cols)).accWritten c a cols

/-- One core takes a step: its column leaves the queue, and, at a new MX block, nine scale entries (R366). A column whose
entry has not the size of its format is a free value (R276, log entry 6). -/
def State.stepCore (f : Nat) (r : MRun) (s : State) (p : Nat × List Byte) : State :=
  let c := p.1
  let q := s.opq c r.m.ar
  let x := q.headD []
  let s := s.setOpq c r.m.ar q.tail
  let (xs, s) := if x.length = colBytes r.m.fmt then (x, s) else s.drawBytes 8 (colBytes r.m.fmt)
  (arraysOf (rot4 r.m.amask (r.b * r.m.arot))).foldl (State.stepArray f c r xs p.2) s

/-- The scales of a core's new MX block leave the scale Rill's queue. -/
def State.takeScales (r : MRun) (q : List (List Byte) × State) (c : Nat) : List (List Byte) × State :=
  let l := q.2.opq c (scaleRill r.m.ar)
  (q.1 ++ [(l.take 9).flatten], q.2.setOpq c (scaleRill r.m.ar) (l.drop 9))

/-- The instruction after the end of a batch (R217): the next batch, or none where it was the last. -/
def MRun.nextBatch (r : MRun) : Option MRun :=
  if r.b < r.m.batch then
    some { r with b := r.b + 1, s := 0, phase := if r.m.acc = 1 then 0 else 1, w := wrapN 14 ((r.w : Int) + r.bstep) }
  else none

/-- The instruction after a step. -/
def MRun.stepped (r : MRun) : Option MRun :=
  let r' := { r with s := r.s + 1, w := wrapN 14 ((r.w : Int) + r.step) }
  if r.s < r.m.steps then some r' else if mslotDrains r.m then some { r' with phase := 2 } else r'.nextBatch

/-- The first matrix instruction of a Fountain goes on, or has ended. -/
def State.setHead (s : State) (f : Nat) (r : Option MRun) : State :=
  let x := s.ftn f
  s.setFtn f { x with mats := r.toList ++ x.mats.tail }

/-- MATRIX_STEP (R145, R217, R221): the next step of the first matrix instruction, on every core. -/
def State.matrixStep (s : State) (f : Nat) : State :=
  match (s.ftn f).mats with
  | [] => s
  | r :: _ =>
    if !s.ftnLive f || r.drn || r.mpl || r.phase != 1 || !s.operandsReady f r then s else
    let (sc, s) := if r.newScales then (s.ftnCores f).foldl (State.takeScales r) ([], s) else (r.scale, s)
    let r := { r with scale := sc }
    let cs := s.ftnCores f
    let s := (cs.zip (if fmtMx r.m.fmt then sc else cs.map fun _ => [])).foldl (State.stepCore f r) s
    (s.setHead f r.stepped).chargeHits f

/-! Preloads (R156 to R159). -/

/-- The elements that a preload writes: BIAS and ROW from the bytes read. -/
def preloadVal (pls : Nat) (float : Bool) (b : List Byte) (i j : Nat) : Nat :=
  if pls = 1 then u32 b (4 * j) else if pls = 2 then u32 b (256 * i + 4 * j) else preloadConst pls float

/-- A preload of one array of a core (R156, R181, R229); rec is the record that the tile takes. -/
def State.preload (s : State) (f c a pp pls : Nat) (rec : Nat) : State :=
  let n := if pls = 1 then 256 else if pls = 2 then 8192 else 0
  let (b, bad, input, s) := s.localRd f c Mc.basin (pp + n * a) n
  if bad then s.hit f c 1 input else
  let cols := s.goodCols c a
  let l := (tileElems cols).map fun p => (p.1, p.2.1, preloadVal pls (tileFloat rec) b p.1 p.2.2)
  (s.setCore c ((s.core c).putElems a rec l)).accWritten c a cols

/-! Drains (R157, R181, R336 to R349). -/

/-- The record of a tile. -/
def State.tileOf (s : State) (c a : Nat) : Nat := Table.get 0 (s.core c).tile a

/-- The residual queue of a drain belongs to an MST that is still issuing steps (R340, R369). -/
def Fountain.resBusy (x : Fountain) (q : Nat) : Bool :=
  x.mats.any fun r => !r.drn && !r.mpl && r.issuing && (r.m.ar == q || (fmtMx r.m.fmt && scaleRill r.m.ar == q))

/-- A drain keeps R344: SB32 and ELEM_BYTES of the store Rill agree with ZCOMP. -/
def State.zcompOk (s : State) (f c sr : Nat) (d : DrainDesc) : Bool :=
  let p := if (s.rill c (4 + sr)).st = Rl.stopped then none else s.rillProgOf f c (4 + sr)
  match p with
  | some p => if d.zcomp then p.sb32 && p.elem == d.padSize (s.rf (Reg.corePw c) F.corePw_PW) else !p.sb32
  | none => !d.zcomp

/-- The faults of a drain that would begin (R336, R340, R344, R347). -/
def State.drainFaults (s : State) (f : Nat) (r : MRun) (arrs : List Nat) (d : DrainDesc) : List Nat :=
  let cs := s.ftnCores f
  (if cs.any fun c => decide (256 < (s.core c).raw.length + 32 * arrs.length) then [Pf.drainFull] else []) ++
  (if cs.any (fun c => arrs.any fun a => tileFloat (s.tileOf c a) != d.accFloat) ||
      (d.resid && (s.ftn f).resBusy d.resQ) || !(cs.all fun c => s.zcompOk f c r.sr d) then [Pf.drainFormat] else [])

/-- A row enters the raw buffer, a memory of code 0x08, whose peak DRAIN_PEAK holds (R345, R642). -/
def State.pushRow (c : Nat) (s : State) (w : RawRow) : State :=
  let (err, s) := s.inject 0x17 0 1 (8 * 256 + c)
  let s := s.setCore c { s.core c with raw := (s.core c).raw ++ [{ w with err := err }] }
  let n := (s.core c).raw.length
  if s.rf (Reg.drainPeak c) F.drainPeak_PEAK < n then s.wf (Reg.drainPeak c) F.drainPeak_PEAK n else s

/-- The residue checks of a drain (R181): each element's value against its stored residue. -/
def Core.drainChecks (k : Core) (a mode : Nat) (cols : List Nat) : List (Nat × Nat × Bool) :=
  ((tileElems cols).filter fun p => residueCovers mode (k.elem a p.1 p.2.1)).map fun p =>
    (p.1, p.2.1, residueOf (k.elem a p.1 p.2.1) == k.residue a p.1 p.2.1)

/-- One array of a core is drained (R157, R181). m: the number of the drain through its descriptor (R338). -/
def State.drainArray (f c m : Nat) (r : MRun) (s : State) (a : Nat) : State :=
  let cols := s.usedCols c a (s.rf (Reg.corePw c) F.corePw_PW)
  let t := s.tileOf c a
  let (bad, s) := s.accRead c a cols
  if bad then s.hit f c 1 false else
  let k := s.core c
  let s := if tileFloat t then s else s.residueChecks f c a (t % 16) (t / 16) (k.drainChecks a (t / 16) cols)
  ((List.range 32).map fun i => ({
    arr := a, row := i, m := m, dcd := r.dcd, sr := r.sr, float := tileFloat t,
    elems := cols.map fun col => let e := Table.get 0 k.acc (accKey a i col); (accVal e, accSat e) } : RawRow)).foldl
      (State.pushRow c) s

/-- The preload source of the operation that an instruction begins, if it has one (R216, R232). -/
def MRun.source (r : MRun) : Option Nat :=
  if r.drn then (if r.m.pls = 7 then none else some r.m.pls)
  else if r.mpl || r.phase = 0 || r.m.acc = 3 then some r.m.pls else none

/-- The preload or drain that an instruction begins, on one core: a drain first, then the preload combined with it (R157).
A DRN names no format, so its preload keeps each tile's own (DEDUCED, log entry 24). -/
def State.beginCore (f : Nat) (r : MRun) (arrs : List Nat) (m : Nat) (s : State) (c : Nat) : State :=
  let s := if r.phase = 2 then arrs.foldl (State.drainArray f c m r) s else s
  match r.source with
  | none => s
  | some pls => arrs.foldl (fun s a =>
      s.preload f c a r.pp pls (if r.drn then s.tileOf c a else tileRec r.m.mode r.m.fmt)) s

/-- The instruction after its preload or drain. -/
def MRun.begun (r : MRun) : Option MRun :=
  if r.drn || r.mpl then none else if r.phase = 0 then some { r with phase := 1 } else r.nextBatch

/-- PRELOAD_DRAIN_BEGIN (R158 to R161, R347, R349): the next preload or drain of the first matrix instruction. -/
def State.preloadDrain (s : State) (f : Nat) : State :=
  let x := s.ftn f
  match x.mats with
  | [] => s
  | r :: _ =>
    if !s.ftnLive f || (r.phase == 1 && !r.mpl && !r.drn) then s else
    let arrs := arraysOf (rot4 r.m.amask (r.b * r.m.arot))
    let codes := if r.phase = 2 then match dsetDesc x.drainSet r.dcd with
        | some d => s.drainFaults f r arrs d
        | none => [Pf.drainFormat]
      else []
    if !codes.isEmpty then s.faultOf f codes r.bank r.addr else
    let m := Table.get 0 x.drainM r.dcd
    let s := (s.ftnCores f).foldl (State.beginCore f r arrs m) s
    let s := s.setHead f r.begun
    let s := if r.phase = 2 then s.setFtn f { s.ftn f with drainM := Table.put 0 (s.ftn f).drainM r.dcd (m + 1) } else s
    s.chargeHits f

def execMatrixStep (f : Nat) (s : State) := onFabric s (guarded (decide (f < 4)) fun s => (s.matrixStep f).settle)
def execPreloadDrainBegin (f : Nat) (s : State) :=
  onFabric s (guarded (decide (f < 4)) fun s => (s.preloadDrain f).settle)

end Sys2Proof.Machine
end

