-- ==== Sys2Proof/Machine/Rills.lean ====
section
/-! DEFINITION. Sys2Proof/Machine/Rills.lean: Rills at work (spec/05 R266 to R289, R298 to R304, R322; spec/09 R462, R471;
spec/01 R44). -/
namespace Sys2Proof.Machine

/-! Reads and writes of a space (R269). -/

/-- The bytes of a space that an access names are all there, for a core of a Fountain (R278, R299): the local memories end,
the Cistern view has the page (writable, for a write), the object has the bytes. -/
def State.inSpace (s : State) (f : Nat) (obj : Option Handle) (sp : Nat) (wr : Bool) (a : Int) (n : Nat) : Bool :=
  if n = 0 then true else
  decide (0 ≤ a) &&
  let lo := a.toNat
  match sp with
  | 0 => decide (lo + n ≤ basinBytes)
  | 1 => decide (lo + n ≤ resvBytes)
  | 2 => (vpagesOf lo n).all fun p => (viewAddr (s.ftn f).view wr (p * 0x10000)).isSome
  | _ => match obj with
    | some h => decide (lo + n ≤ if h.twin then h.bytes / 2 else h.bytes)
    | none => false

/-- How a Rill's access ends, beside its bytes: a program fault, or an uncorrectable read with its detector and whether a
retained input is lost. -/
structure Got where
  bytes : List Byte := []
  fault : Option Nat := none
  bad : Option (Nat × Bool) := none
deriving DecidableEq, Repr

/-- Two accesses, one after the other. -/
def Got.seq (a b : Got) : Got := ⟨a.bytes ++ b.bytes, a.fault.or b.fault, a.bad.or b.bad⟩

/-- Who a Rill's DRAM transactions are tagged and charged to (R317, R432). -/
def State.rillWho (s : State) (f c r : Nat) : Who :=
  { tag := c * 8 + r, holder := match s.ftnJob f with
      | some j => if j.guar then some j.id else none
      | none => none }

/-- A bad read of the Cistern is a lost retained input: not of a weight page, nor of what the layer itself has written
(R315, R643). -/
def State.lostCistern (s : State) (f pa n : Nat) : Bool :=
  !(s.page (pa / 0x10000)).weight &&
  (s.badWords Mc.cistern 0 pa n).any fun w => !covered (s.ftn f).wrote Mc.cistern w 8

/-- A run of bytes of the Cistern view. -/
def State.viewRd (s : State) (f a n : Nat) : Got × State :=
  (piecesOf a n).foldl (fun (r : Got × State) pc =>
    match viewAddr (r.2.ftn f).view false pc.1 with
    | none => (r.1.seq { fault := some Pf.rillRange }, r.2)
    | some pa =>
      let input := r.2.lostCistern f pa pc.2
      let q := r.2.cisRd pa pc.2
      (r.1.seq { bytes := q.1, bad := if q.2.1 then some (1, input) else none }, q.2.2)) ({}, s)

/-- A run of bytes of device-virtual memory. -/
def State.vaRd (s : State) (f : Nat) (who : Who) (va n : Nat) : Got × State :=
  match s.vread who va n with
  | (none, s) => ({ fault := some Pf.xlate }, s)
  | (some (b, bad), s) => ({ bytes := b, bad := if bad then some (2, !covered (s.ftn f).wrote Mc.dram va n) else none }, s)

/-- A run of bytes of an object; a TWIN object is read twice and compared (R471). -/
def State.objRd (s : State) (f c : Nat) (who : Who) (h : Handle) (a n : Nat) : Got × State :=
  let (g, s) := s.vaRd f who (h.baseVa + a) n
  if !h.twin then (g, s) else
  let (k, s) := s.vaRd f who (h.baseVa + h.bytes / 2 + a) n
  let g' : Got := { g with fault := g.fault.or k.fault, bad := g.bad.or k.bad }
  if g'.fault.isSome || g'.bad.isSome then (g', s)
  else if g.bytes.zip k.bytes |>.all (fun p => p.1 == ~~~p.2) then (g, s)
  else ({ g with bad := some (4, !covered (s.ftn f).wrote Mc.dram (h.baseVa + a) n) },
    s.occur ⟨4, Kind.occurrence, 8, c, false⟩)

/-- A run of bytes of a space. -/
def State.spaceRd (s : State) (f c : Nat) (who : Who) (obj : Option Handle) (sp : Nat) (a : Int) (n : Nat) : Got × State :=
  if !s.inSpace f obj sp false a n then ({ fault := some Pf.rillRange }, s) else
  let lo := a.toNat
  match sp with
  | 2 => s.viewRd f lo n
  | 3 => match obj with
    | some h => s.objRd f c who h lo n
    | none => ({ fault := some Pf.rillRange }, s)
  | _ =>
    let (b, bad, input, s) := s.localRd f c (if sp = 0 then Mc.basin else Mc.resv) lo n
    ({ bytes := b, bad := if bad then some (1, input) else none }, s)

/-- Runs of bytes of a space, in order. -/
def State.runsRd (s : State) (f c : Nat) (who : Who) (obj : Option Handle) (sp : Nat) (l : List (Int × Nat)) : Got × State :=
  l.foldl (fun r p =>
    if r.1.fault.isSome then r else
    let q := r.2.spaceRd f c who obj sp p.1 p.2
    (r.1.seq q.1, q.2)) ({}, s)

/-- The Fountain's layer has written a range (R643). -/
def State.noteWrote (s : State) (f code a n : Nat) : State :=
  s.setFtn f { s.ftn f with wrote := (code, a, n) :: (s.ftn f).wrote, storeAt := some s.gts }

/-- A run of bytes is written in a space: false where a translation faults. -/
def State.spaceWr (s : State) (f c : Nat) (who : Who) (obj : Option Handle) (sp : Nat) (a : Int) (b : List Byte) :
    Bool × State :=
  let lo := a.toNat
  match sp with
  | 2 =>
    (true, ((piecesOf lo b.length).foldl (fun (r : List Byte × State) pc =>
      match viewAddr (r.2.ftn f).view true pc.1 with
      | none => (r.1.drop pc.2, r.2)
      | some pa => (r.1.drop pc.2,
          ((r.2.cisWr pa (r.1.take pc.2)).dirtyPages pa pc.2).noteWrote f Mc.cistern pa pc.2)) (b, s)).2)
  | 3 => match obj with
    | none => (true, s)
    | some h =>
      let va := h.baseVa + lo
      let r := s.vwrite who va b
      if !r.1 then r else
      let s := r.2.noteWrote f Mc.dram va b.length
      if h.twin then s.vwrite who (va + h.bytes / 2) (b.map fun x => ~~~x) else (true, s)
  | _ => (true, s.localWr c (if sp = 0 then Mc.basin else Mc.resv) lo b)

/-- Runs of bytes are written in a space, if every byte is there: a program fault, or the state. -/
def State.runsWr (s : State) (f c : Nat) (who : Who) (obj : Option Handle) (sp : Nat) (l : List (Int × Nat))
    (b : List Byte) : Option Nat × State :=
  if !l.all (fun p => s.inSpace f obj sp true p.1 p.2) then (some Pf.rillRange, s) else
  let r := l.foldl (fun (r : Bool × List Byte × State) p =>
    let q := r.2.2.spaceWr f c who obj sp p.1 (r.2.1.take p.2)
    (r.1 && q.1, r.2.1.drop p.2, q.2)) (true, b, s)
  (if r.1 then none else some Pf.xlate, r.2.2)

/-- An SB32 run of n blocks is read and unpacked (R302 to R304): only the bytes of the run are read. -/
def State.sb32Rd (s : State) (f c : Nat) (who : Who) (obj : Option Handle) (p : RProg) : Nat → Int → Got × State
  | 0, _ => ({}, s)
  | n + 1, a =>
    let (g, s) := s.runsRd f c who obj p.pspace (p.runs true a 4)
    if g.fault.isSome then (g, s) else
    let mask := u32 g.bytes 0
    let k := popCount 32 mask
    let (h, s) := s.runsRd f c who obj p.pspace (p.runs true (a + 4) k)
    let blk : Got := { h with bytes := sb32Fill mask 32 0 h.bytes, bad := g.bad.or h.bad }
    let (t, s) := State.sb32Rd s f c who obj p n (a + 4 + k)
    (blk.seq t, s)

/-! One element (R272). -/

/-- The object that a program's OBJ names (R268): an entry of the job's handle list. -/
def State.rillObj (s : State) (f : Nat) (p : RProg) : Option Handle :=
  if p.pspace ≠ 3 then none else match s.ftnJob f with
    | some j => j.handles[p.obj]?
    | none => none

/-- A fault or an error of a Rill's access stops the layer (R278, R462, R643). -/
def State.rillStop (s : State) (f c r : Nat) (g : Got) : State :=
  let q := s.rill c r
  match g.fault, g.bad with
  | some code, _ => s.progFault f code q.bank q.addr
  | none, some (det, input) => s.hit f c det input
  | none, none => s

/-- The bytes of an entry of a program's operand queue (R276). -/
def RProg.entry (p : RProg) : Nat := if p.qe64 then 64 else 32

/-- Bytes enter an operand queue (R276): full entries are available, the rest waits. -/
def pushQueue (n : Nat) : Nat → List (List Byte) → List Byte → List (List Byte) × List Byte
  | 0, q, b => (q, b)
  | k + 1, q, b => if b.length < n then (q, b) else pushQueue n k (q ++ [b.take n]) (b.drop n)

/-- The bytes that still fit an operand queue of 16 entries (R223, R282). -/
def State.queueRoom (s : State) (c r : Nat) (p : RProg) : Nat :=
  (16 - (s.opq c r).length) * p.entry - (s.rill c r).part.length

/-- Bytes of a load Rill go to its linear side (R272, R276): a fault, or the state. -/
def State.linWrite (s : State) (f c r : Nat) (p : RProg) (b : List Byte) : Option Nat × State :=
  let q := s.rill c r
  if p.lspace = Sp.queue then
    let e := pushQueue p.entry (b.length + 1) (s.opq c r) (q.part ++ b)
    (none, (s.setOpq c r e.1).setRill c r { q with part := e.2, lin := q.lin + b.length })
  else
    let w := s.runsWr f c { tag := 0 } none p.lspace (p.runs false ((p.lin + q.lin : Nat) : Int) b.length) b
    match w.1 with
    | some code => (some code, s)
    | none => (none, w.2.setRill c r { q with lin := q.lin + b.length })

/-- An element of a load Rill is fetched (R272, R274, R303). -/
def State.fetchElem (s : State) (f c r : Nat) (p : RProg) (q : Rill) : Got × State :=
  if p.padded (s.posOf f c) q.idx then ({ bytes := p.fillBytes }, s) else
  let a := p.addr q.start q.idx
  let who := s.rillWho f c r
  let obj := s.rillObj f p
  if p.sb32 then State.sb32Rd s f c who obj p (p.elem / 32) a
  else s.runsRd f c who obj p.pspace (p.runs true a p.elem)

/-- The drain chain's output for a store Rill: all of its rows, in order. -/
def Core.outFor (k : Core) (r : Nat) : List Byte := (k.out.filter fun o => o.sr == r).flatMap OutRow.bytes

/-- n bytes leave the output buffer for a store Rill; a row leaves it once all of it is taken. -/
def takeOut (r : Nat) : Nat → List OutRow → List OutRow
  | _, [] => []
  | n, o :: l =>
    if o.sr ≠ r then o :: takeOut r n l
    else if n = 0 then o :: l
    else if o.bytes.length ≤ n then takeOut r (n - o.bytes.length) l
    else { o with bytes := o.bytes.drop n } :: l

/-- A store Rill's element is there to be taken (R346); with SB32 a row of the chain is one packed run (R343). -/
def State.storeReady (s : State) (c r : Nat) (p : RProg) : Bool :=
  p.lspace != Sp.drain ||
  (if p.sb32 then (s.core c).out.any fun o => o.sr == r - 4
   else decide (p.elem - (s.rill c r).off ≤ ((s.core c).outFor (r - 4)).length))

/-- A store Rill takes the next n bytes of its element from its linear side: the bytes that its patterned side is to hold. -/
def State.takeBytes (s : State) (f c r : Nat) (p : RProg) (n : Nat) : Got × State :=
  let q := s.rill c r
  if p.lspace = Sp.drain then
    let k := s.core c
    let b := if p.sb32 then match k.out.find? fun o => o.sr == r - 4 with
        | some o => o.bytes
        | none => []
      else (k.outFor (r - 4)).take n
    ({ bytes := b }, s.setCore c { k with out := takeOut (r - 4) b.length k.out })
  else
    let (g, s) := s.runsRd f c { tag := 0 } none p.lspace (p.runs false ((p.lin + q.lin : Nat) : Int) n)
    ({ g with bytes := if p.sb32 then sb32Pack (n / 32) g.bytes else g.bytes }, s)

/-- The stores that a Rill makes now belong to a tile that had committed before a replay; they are not made (R44). -/
def State.suppressed (s : State) (f : Nat) (p : RProg) : Bool :=
  (p.pspace == Sp.cistern || p.pspace == Sp.dram) && match s.ftnJob f with
    | some j => (s.ftnEnt f).streaming &&
        decide ((s.ftnEnt f).firstTile + (s.ftn f).tileNow + (s.ftn f).tileReqs < j.tileDone)
    | none => false

/-! Drops and pieces of an element (R281, R282, R284). -/

/-- A Rill takes the PRE_SL drops that hold its next n linear bytes, as far as the count allows (R284, R287), with fuel for the
drops: true where it has them all; otherwise it holds. -/
def State.takeDrops (f c r : Nat) (p : RProg) (n : Nat) : Nat → State → Bool × State
  | 0, s => (true, s)
  | k + 1, s =>
    match slOf p.pre with
    | none => (true, s)
    | some sl =>
      let q := s.rill c r
      if (q.lin + n + 511) / 512 ≤ q.taken then (true, s.setRill c r { q with st := Rl.running })
      else if s.sluice c sl ≤ s.rillsAhead f c r sl then (false, s.setRill c r { q with st := Rl.hold })
      else State.takeDrops f c r p n k
        ((s.setRill c r { q with taken := q.taken + 1, st := Rl.running }).credit f c sl (s.sluice c sl - 1))

/-- The next piece of an element, of which `left` bytes are left, in a cycle that has moved `bytes` bytes: it ends with the cycle's
256 bytes (R281), with the drop that a PRE_SL take pays for (R284), and with the room of an operand queue (R282). -/
def State.piece (s : State) (c r : Nat) (p : RProg) (bytes left : Nat) : Nat :=
  let n := min left (256 - bytes)
  let n := if (slOf p.pre).isSome then min n (512 - (s.rill c r).lin % 512) else n
  if p.lspace = Sp.queue then min n (s.queueRoom c r p) else n

/-- An element of a load Rill is read, whole, before its first piece moves (R272; log entry 138): false where it faults. -/
def State.readElem (s : State) (f c r : Nat) (p : RProg) : Bool × State :=
  let q := s.rill c r
  if !q.cur.isEmpty then (true, s) else
  let (g, s) := s.fetchElem f c r p q
  if g.fault.isSome || g.bad.isSome then (false, s.rillStop f c r g)
  else (true, s.setRill c r { s.rill c r with cur := g.bytes })

/-- n bytes of a load Rill's element move to its linear side (R272): false where they fault. -/
def State.loadPiece (s : State) (f c r : Nat) (p : RProg) (n : Nat) : Bool × State :=
  let rest := (s.rill c r).cur.drop n
  match s.linWrite f c r p ((s.rill c r).cur.take n) with
  | (some code, s) => (false, s.rillStop f c r { fault := some code })
  | (none, s) =>
    let q := { s.rill c r with cur := rest }
    (true, s.setRill c r (if rest.isEmpty then q.endElem else q))

/-- An element of a load Rill enters the transposer (R275): false where its read faults. -/
def State.trnElem (s : State) (f c r : Nat) (p : RProg) : Bool × State :=
  let q := s.rill c r
  let (g, s) := s.fetchElem f c r p q
  if g.fault.isSome || g.bad.isSome then (false, s.rillStop f c r g) else
  let t := q.trn ++ [g.bytes]
  let q := if t.length < p.grp then { q with trn := t } else { q with trn := [], outq := q.outq ++ transpose p.unit t }
  (true, s.setRill c r q.endElem)

/-- n bytes of a store Rill's element are taken and stored, or discarded where the element is padded (R272): false where they
fault. An element that would leave its space faults before its first byte moves (R278). -/
def State.storePiece (s : State) (f c r : Nat) (p : RProg) (n : Nat) : Bool × State :=
  let q := s.rill c r
  let a := p.addr q.start q.idx
  let skip := p.padded (s.posOf f c) q.idx || s.suppressed f p
  let obj := s.rillObj f p
  if !skip && !p.sb32 && !(p.runs true a p.elem).all (fun x => s.inSpace f obj p.pspace true x.1 x.2) then
    (false, s.rillStop f c r { fault := some Pf.rillRange })
  else
    let (g, t) := s.takeBytes f c r p n
    if g.fault.isSome || g.bad.isSome then (false, t.rillStop f c r g) else
    let q' := { q with lin := q.lin + n, off := q.off + n, pk := q.pk + g.bytes.length }
    let q' := if q'.off < p.elem then q' else q'.endElem
    if skip then (true, t.setRill c r q') else
    let at' := a + ((if p.sb32 then q.pk else q.off : Nat) : Int)
    match t.runsWr f c (s.rillWho f c r) obj p.pspace (p.runs true at' g.bytes.length) g.bytes with
    | (some code, t) => (false, t.rillStop f c r { fault := some code })
    | (none, t) => (true, t.setRill c r q')

/-! Groups (R281). -/

/-- The words of a memory that runs of bytes touch, each with the memory's space code. -/
def wordsOf (sp : Nat) (l : List (Int × Nat)) : List (Nat × Nat) :=
  (l.flatMap fun p => if p.2 = 0 then [] else
    (List.range ((p.1.toNat + p.2 - 1) / 8 + 1 - p.1.toNat / 8)).map fun i => (sp, i + p.1.toNat / 8)).eraseDups

/-- A new word shares a bank with another word (R281, R290). -/
def bankClash (used new : List (Nat × Nat)) : Bool :=
  new.any fun w => used.any fun u => u.1 == w.1 && u.2 % 32 == w.2 % 32 && u.2 != w.2

/-- The Basin and Reservoir words that the next element of a Rill uses; a padded one uses none (R281). -/
def State.elemWords (s : State) (f c : Nat) (p : RProg) (q : Rill) : List (Nat × Nat) :=
  if p.padded (s.posOf f c) q.idx then [] else
  (if p.pspace ≤ 1 then wordsOf p.pspace (p.runs true (p.addr q.start q.idx) p.elem) else []) ++
  (if p.lspace ≤ 1 ∧ !p.trn then wordsOf p.lspace (p.runs false ((p.lin + q.lin : Nat) : Int) p.elem) else [])

/-- The destination of a Rill has room for its element, or its source has it (R282, R346). -/
def State.elemRoom (s : State) (c r : Nat) (p : RProg) (q : Rill) : Bool :=
  if p.kind = 2 then s.storeReady c r p
  else if p.trn then decide (q.outq.length ≤ p.elem / p.unit)
  else p.lspace != Sp.queue || decide (0 < s.queueRoom c r p)

/-- The next piece of a Rill's element moves: false where the Rill holds or faults. With SB32 a row of the drain chain is one
packed run, and moves whole (R343). -/
def State.movePiece (s : State) (f c r : Nat) (p : RProg) (bytes : Nat) : Bool × State :=
  let q := s.rill c r
  if p.trn then s.trnElem f c r p else
  let left := if p.kind = 2 then p.elem - q.off else if q.cur.isEmpty then p.elem else q.cur.length
  let n := if p.lspace = Sp.drain ∧ p.sb32 then p.elem else s.piece c r p bytes left
  let d := State.takeDrops f c r p n 8 s
  if !d.1 then d else
  if p.kind = 2 then d.2.storePiece f c r p n else
  let e := d.2.readElem f c r p
  if e.1 then e.2.loadPiece f c r p n else e

/-- The pieces of one group (R281), with fuel: `els` elements begun and `bytes` bytes moved so far, using the words `used`. A
group holds at most 8 elements and 256 bytes and ends before an element whose words clash; an element of more than 256 bytes is
alone in its groups. -/
def State.genElems (f c r : Nat) (p : RProg) : Nat → Nat → Nat → List (Nat × Nat) → State → State
  | 0, _, _, _, s => s
  | n + 1, els, bytes, used, s =>
    let q := s.rill c r
    if !q.busy || p.total ≤ q.idx || 256 ≤ bytes then s else
    let fresh := q.cur.isEmpty && q.off == 0
    let w := if fresh then s.elemWords f c p q else []
    if (fresh && 0 < bytes && (8 ≤ els || decide (256 < bytes + p.elem) || bankClash used w)) || !s.elemRoom c r p q then s else
    let lin := q.lin
    let m := s.movePiece f c r p bytes
    if !m.1 then m.2 else
    let moved := if p.trn then p.elem else (m.2.rill c r).lin - lin
    State.genElems f c r p n (if fresh then els + 1 else els) (bytes + moved) (used ++ w) m.2

/-- One output of the transposer moves to the linear side (R275, R283), in pieces where a PRE_SL drop or the queue's room ends
within it, with fuel: false where the Rill holds or faults. -/
def State.moveOutput (f c r : Nat) (p : RProg) : Nat → State → Bool × State
  | 0, s => (true, s)
  | k + 1, s =>
    match (s.rill c r).outq with
    | [] => (true, s)
    | b :: l =>
      let n := s.piece c r p 0 b.length
      if n = 0 then (true, s) else
      let d := State.takeDrops f c r p n 2 s
      if !d.1 then d else
      let q := { d.2.rill c r with outq := if n = b.length then l else b.drop n :: l }
      match (d.2.setRill c r q).linWrite f c r p (b.take n) with
      | (some code, s) => (false, s.rillStop f c r { fault := some code })
      | (none, s) => if n = b.length then (true, s) else State.moveOutput f c r p k s

/-- A Rill of a core that a Fountain runs, with its program. -/
def State.activeRill (s : State) (c r : Nat) : Option (Nat × RProg) :=
  match s.ftnOf c with
  | none => none
  | some f => if s.ftnLive f && decide (r < 6) then (s.rillProgOf f c r).map fun p => (f, p) else none

/-- RILL_GROUP (R272 to R284): one cycle of a Rill. A DRAM side is served by no one in a maintenance window (R429). -/
def State.rillGroup (s : State) (c r : Nat) : State :=
  match s.activeRill c r with
  | none => s
  | some (f, p) =>
    if !(s.rill c r).busy || (p.pspace == Sp.dram && !s.dramServes) then s else
    let m := State.moveOutput f c r p 3 s
    if !m.1 then m.2.chargeHits f else (State.genElems f c r p 16 0 0 [] m.2).chargeHits f

/-- DROP_LANDED (R285, R286): one landed drop is given; a count that would pass 4,095 is a program fault (R278). -/
def State.dropLanded (s : State) (c r : Nat) : State :=
  match s.activeRill c r with
  | none => s
  | some (f, p) =>
    let g := s.giveDrops f c r 1 p
    if g.1 then g.2.chargeHits f else s.rillStop f c r { fault := some Pf.rillSluice }

/-- The Rill has moved every element, and nothing of them is on the way. -/
def Rill.spent (q : Rill) (p : RProg) : Bool :=
  decide (p.total ≤ q.idx) && q.outq.isEmpty && q.trn.isEmpty && q.part.isEmpty && q.cur.isEmpty

/-- RILL_FINISHED (R285, R322): its loops are complete and every byte has landed; what is left to give is given. -/
def State.rillFinished (s : State) (c r : Nat) : State :=
  match s.activeRill c r with
  | none => s
  | some (f, p) =>
    if !(s.rill c r).busy || !(s.rill c r).spent p then s else
    let g := s.giveDrops f c r (2 ^ 32) p
    if !g.1 then s.rillStop f c r { fault := some Pf.rillSluice } else
    let q := g.2.rill c r
    let s := g.2.setRill c r { q with st := Rl.done, given := (q.lin + 511) / 512 }
    match slOf p.post with
    | none => s.chargeHits f
    | some sl =>
      if q.lin % 512 = 0 then s.chargeHits f
      else if 4095 < s.sluice c sl + 1 then s.rillStop f c r { fault := some Pf.rillSluice }
      else (s.credit f c sl (s.sluice c sl + 1)).chargeHits f

def execRillGroup (core rill : Nat) (s : State) :=
  onFabric s (guarded (decide (core < 16)) fun s => (s.rillGroup core rill).settle)
def execDropLanded (core rill : Nat) (s : State) :=
  onFabric s (guarded (decide (core < 16)) fun s => (s.dropLanded core rill).settle)
def execRillFinished (core rill : Nat) (s : State) :=
  onFabric s (guarded (decide (core < 16)) fun s => (s.rillFinished core rill).settle)

end Sys2Proof.Machine
end

