-- ==== Sys2Proof/Machine/Drain.lean ====
section
/-! DEFINITION. Sys2Proof/Machine/Drain.lean: the drain chain at work (spec/06 R337 to R346; spec/07 R375 to R380, R387). -/
namespace Sys2Proof.Machine

/-- Bytes of a residual row (R340). -/
def DrainDesc.resBytes (d : DrainDesc) : Nat := 64 * outBytes d.resFmt

/-- Whole entries of a queue that hold n bytes, if they are all there. -/
def entriesFor (n : Nat) : Nat → List (List Byte) → Option Nat
  | 0, _ => none
  | _, [] => if n = 0 then some 0 else none
  | k + 1, e :: l => if n = 0 then some 0 else (entriesFor (n - e.length) k l).map (· + 1)

/-- The entries of its residual queue that a row takes (R340, R346): none where they are not all there. -/
def State.residualOf (s : State) (c : Nat) (d : DrainDesc) : Option Nat :=
  if d.resid then entriesFor d.resBytes 17 (s.opq c d.resQ) else some 0

/-- The row of a tile completes a window of the pooling patch (R341). -/
def DrainDesc.completes (d : DrainDesc) (i : Nat) : Bool :=
  decide (i < d.patchH * d.patchW) && i / d.patchW % d.win == d.win - 1

/-- A row that leaves the chain at this row of the tile, if one does: without POOL every row does (R337, R341). -/
def DrainDesc.emits (d : DrainDesc) (i : Nat) : Bool :=
  !d.pools || (d.completes i && i % d.patchW % d.win == d.win - 1)

/-- The tile rows of the window that a row completes, in row-major order (R341). -/
def DrainDesc.window (d : DrainDesc) (i : Nat) : List Nat :=
  let y := i / d.patchW + 1 - d.win
  let x := i % d.patchW + 1 - d.win
  (List.range d.win).flatMap fun dy => (List.range d.win).map fun dx => (y + dy) * d.patchW + (x + dx)

/-- A row's elements with their SAT bits. -/
abbrev DRow := List (Int × Bool)

/-- A row of accumulator values through the stages before POOL (R337). res: the residual row's bytes. -/
def DrainDesc.stagesRow (d : DrainDesc) (set : List Byte) (e : Eff) (w : RawRow) (res : List Byte) : DRow :=
  let rb := outBytes d.resFmt
  (w.elems.zipIdx).map fun p =>
    let acc : Int := if d.accFloat then (p.1.1 : Int) else sext 32 p.1.1
    (d.element set e w.m w.arr p.2 (fieldAt res (rb * p.2) rb) acc, p.1.2)

/-- The pooled row of a window (R341, R342), with free values where the spec states none (log entry 6). -/
def State.poolRow (s : State) (d : DrainDesc) (rows : List DRow) : Nat → DRow × State
  | 0 => ([], s)
  | n + 1 =>
    let r := s.poolRow d rows n
    let els := rows.map fun w => w.getD n (0, false)
    let sat := els.any Prod.snd
    match d.poolOne (els.map Prod.fst) with
    | some y => (r.1 ++ [(y, sat)], r.2)
    | none => let v := r.2.draw 9; (r.1 ++ [(((v.1 % 2 ^ 32 : Nat) : Int), sat)], v.2)

/-- STATS observes the elements of a row (R343, R378); the injection of R642 makes one count as saturated. -/
def State.statRow (s : State) (f : Nat) (d : DrainDesc) (l : List Seen) : State :=
  if !d.stats then s else
  l.foldl (fun s x =>
    let q := s.inject 0x17 0 0xB (f * 16 + d.statSlot)
    let x := if q.1.isSome then { x with sat := true } else x
    let y := q.2.ftn f
    let t : Stat := Table.get {} y.stats d.statSlot
    q.2.setFtn f { y with stats := Table.put {} y.stats d.statSlot (t.see d.isF x) }) s

/-- A finished row goes to the output buffer (R342, R343, R345). -/
def State.outRow (s : State) (f c : Nat) (d : DrainDesc) (sr : Nat) (row : DRow) : State :=
  let l := row.map fun p => d.narrow p.1 p.2
  let s := s.statRow f d (l.map Prod.snd)
  let o : OutRow := { sr := sr, bytes := d.finish (l.map Prod.fst), size := d.rowSize row.length }
  s.setCore c { s.core c with out := (s.core c).out ++ [o] }

/-- The output buffer has room for a row (R345, R346). -/
def Core.outRoom (k : Core) (n : Nat) : Bool := decide ((k.out.map OutRow.size).sum + n ≤ 16384)

/-- A row of the raw buffer passes through the chain (R337 to R343). -/
def State.chainRow (s : State) (f c : Nat) (w : RawRow) (d : DrainDesc) (e : Eff) (res : List Byte) : State :=
  let row := d.stagesRow (s.ftn f).drainSet e w res
  if !d.pools then s.outRow f c d w.sr row else
  let k := s.core c
  let rows := k.pool ++ [row]
  let s := s.setCore c { k with pool := if w.row = 31 then [] else rows }
  if !d.emits w.row then s else
  let r := s.poolRow d ((d.window w.row).map fun i => rows.getD i []) row.length
  r.2.outRow f c d w.sr r.1

/-- An error in the raw buffer is found as a row is taken (R642, R643): whether it is uncorrectable. -/
def State.rawError (s : State) (c : Nat) (w : RawRow) : Bool × State :=
  match w.err with
  | none => (false, s)
  | some 1 => (false, s.occur ⟨1, Kind.corrected, 8, c, true⟩)
  | some _ => (true, s.occur ⟨1, Kind.uncorrectable, 8, c, true⟩)

/-- DRAIN_ROW (R337, R340, R346): the oldest row of a core's raw buffer, if its residual entries are there and its output
finds room. -/
def State.drainRow (s : State) (c : Nat) : State :=
  match s.ftnOf c, (s.core c).raw with
  | some f, w :: l =>
    match dsetDesc (s.ftn f).drainSet w.dcd, (s.ftn f).run with
    | some d, some run =>
      if !s.ftnLive f then s else
      if d.emits w.row && !(s.core c).outRoom (d.rowSize w.elems.length) then s else
      match s.residualOf c d with
      | none => s
      | some n =>
        let q := s.opq c d.resQ
        let s := if n = 0 then s else s.setOpq c d.resQ (q.drop n)
        let s := s.setCore c { s.core c with raw := l }
        let (bad, s) := s.rawError c w
        if bad then (s.hit f c 1 false).chargeHits f else
        let e := match s.pending? run.job with
          | some j => j.effOf run.layer w.dcd d
          | none => d.plainEff
        s.chainRow f c w d e (q.take n).flatten
    | _, _ => s
  | _, _ => s

def execDrainRow (core : Nat) (s : State) :=
  onFabric s (guarded (decide (core < 16)) fun s => (s.drainRow core).settle)

end Sys2Proof.Machine
end

