-- ==== Sys2Proof/Machine/CoreAdmin.lean ====
section
/-! DEFINITION. Sys2Proof/Machine/CoreAdmin.lean: self-tests of the cores (spec/03 R184 to R194), the driver's writes to the
instruction memory (spec/04 R255, R256, R262), the scrubbers (spec/13 R645, R656), the calendar frame (spec/08 R430 to
R433) and bus timeouts (spec/13 R669). -/
namespace Sys2Proof.Machine

/-! Self-tests. -/

/-- State codes of a core (R144). -/
def Cs.off : Nat := 0
def Cs.idle : Nat := 1
def Cs.run : Nat := 2
def Cs.stopped : Nat := 3
def Cs.testing : Nat := 4

/-- The core runs its self-test: that of the boot, until it ends, or a retest (R184, R191). -/
def Core.inTest (k : Core) : Bool := k.testing || !k.tested

/-- The state of a core (R144). A Fountain whose layer a breach or a cancellation has ended stays STOPPED until it starts a layer. -/
def State.coreState (s : State) (c : Nat) : Nat :=
  if (s.core c).inTest then Cs.testing else
  match s.ftnOf c with
  | none => Cs.off
  | some f => match (s.ftn f).run with
    | none => if (s.ftn f).stopped then Cs.stopped else Cs.idle
    | some r => if r.stoppedAt.isSome then Cs.stopped else Cs.run

/-- CORE_BIST_CTRL is written (R191): START starts a retest, or is refused. -/
def State.bistStart (s : State) (c : Nat) (v : W32) : State :=
  let s := s.wr (Reg.coreBistCtrl c) ((s.rd (Reg.coreBistCtrl c)) &&& 1#32 ||| (v &&& ~~~1#32))
  if v.toNat % 2 = 0 then s else
  let st := s.coreState c
  let free := match s.ftnOf c with
    | some f => !s.jobsFor f
    | none => true
  if st = Cs.off ∨ (st = Cs.idle ∧ free = true) then s.setCore c { s.core c with testing := true }
  else s.wf (Reg.coreStatus c) F.coreStatus_BIST_REFUSED 1

/-- The cells of a memory that a sender names, below its size. -/
def cellsBelow (n : Nat) (l : List (Nat × Byte)) : Mem :=
  (l.filter fun e => decide (e.1 < n)).foldl (fun m e => Mem.wr m e.1 e.2) []

/-- The numbers of a table that a sender names, below its size. -/
def wordsBelow (n w : Nat) (l : List (Nat × Nat)) : Table Nat :=
  (l.filter fun e => decide (e.1 < n)).foldl (fun t e => Table.put 0 t e.1 (e.2 % 2 ^ w)) []

/-- The four column maps of a core that a self-test ends with (R186, R194), and the arrays that gained bypassed columns: those
that neither the map nor the fuses `fuse` held. -/
def mergeCols (fuse : Nat → Nat) (old : Table Nat) (bad : List Nat) : Table Nat × Nat :=
  ([0, 1, 2, 3]).foldl (fun (r : Table Nat × Nat) a =>
    let o := Table.get 0 old a
    let b := bad.getD a 0 % 2 ^ 64
    (Table.put 0 r.1 a (o ||| b), if fuse a ||| o ||| b = fuse a ||| o then r.2 else r.2 + 2 ^ a)) (old, 0)

/-- BIST_DONE (R185 to R188, R193, R194): a self-test of a core ends; `bad`: the failing columns of each array; `fail`:
FAIL_UNIT; what it leaves in the core's memories is the sender's to say, since the spec gives none (log entry 25). -/
def State.bistDone (s : State) (c fail us : Nat) (bad : List Nat) (basin resv : List (Nat × Byte))
    (vreg acc : List (Nat × Nat)) : State :=
  let k := s.core c
  if !k.testing && k.tested then s else
  let (cols, new) := mergeCols (s.badcol c) k.badcol bad
  let elems := wordsBelow 8192 33 acc
  let s := s.setCore c { k with
    tested := true, testing := false, badcol := cols, unfit := decide (fail % 16 ≠ 0),
    basin := cellsBelow basinBytes basin, resv := cellsBelow resvBytes resv, vreg := wordsBelow 2048 32 vreg,
    acc := elems, res := elems.foldl (fun t e => Table.put 0 t e.1 (residueOf e.2)) [] }
  let s := (s.wf (Reg.coreStatus c) F.coreStatus_BIST_DONE 1).wf (Reg.coreStatus c) F.coreStatus_BIST_FAIL
    (b2n (decide (fail % 16 ≠ 0)))
  ((s.wf (Reg.coreBistResult c) F.coreBistResult_FAIL_UNIT fail).wf (Reg.coreBistResult c) F.coreBistResult_NEW_BAD
    new).wf (Reg.coreBistResult c) F.coreBistResult_DURATION_US us

/-! The instruction memory and the driver (R256, R262). -/

/-- State codes of a Fountain (FTN_STATUS). -/
def State.ftnState (s : State) (f : Nat) : Nat :=
  if s.ftnSize f = 0 then 0
  else if (s.ftnCores f).any fun c => (s.core c).inTest then 4
  else match (s.ftn f).run with
    | none => if (s.ftn f).stopped then 3 else 1
    | some r => if r.stoppedAt.isSome then 3 else 2

/-- FTN_CTRL is written: HOST_IMEM is set only while the Fountain is IDLE and no job for it is pending (R262). -/
def State.hostImem (s : State) (f : Nat) (v : W32) : State :=
  let old := s.rf (Reg.ftnCtrl f) F.ftnCtrl_HOST_IMEM
  let ok := s.ftnState f == 1 && !s.pendingJobs.any fun j => j.fountain == f
  let bit := if v.toNat % 2 = 0 then 0 else if ok then 1 else old
  s.wr (Reg.ftnCtrl f) (v.setFld F.ftnCtrl_HOST_IMEM bit)

/-- A word is written at an offset of the instruction memory windows (R255, R256, R262). -/
def State.imemWrite (s : State) (f off : Nat) (v : W32) : State :=
  if s.rf (Reg.ftnCtrl f) F.ftnCtrl_HOST_IMEM = 0 then s else
  let x := s.ftn f
  let bank := off / 0x20000
  if bank = x.bank then s.wf (Reg.ftnImemStatus f) F.ftnImemStatus_IMEM_BUSY 1 else
  let s := s.writeEcc Mc.imem f off 4
  let x := s.ftn f
  let b := leBytes v.toNat 4
  s.setFtn f (if bank = 0 then { x with imem0 := Mem.wrBytes x.imem0 off b }
    else { x with imem1 := Mem.wrBytes x.imem1 (off - 0x20000) b })

/-! Scrubbers (R645, R656). -/

/-- A scrubber reads the words of a line: a single-bit error is counted and written back, an uncorrectable word is recorded
as SCRUB_UE and left. -/
def State.scrubWord (code : Nat) (s : State) (e : Nat × Mark) : State :=
  let addr := e.1 - markKey code 0 0
  match e.2 with
  | .clean => s
  | .single inj =>
    ((s.occur ⟨Mc.det code, Kind.corrected, code, Mc.index code 0 addr, inj⟩).ceBump code 0).setMark e.1 .clean
  | .double inj | .poison inj =>
    let s := s.occur ⟨Mc.det code, Kind.scrubUe, code, Mc.index code 0 addr, inj⟩
    if code = Mc.dram then (s.logUe code (0x1000000000 + addr)).bumpSat Reg.ddrScrubStatus F.ddrScrubStatus_SCRUB_UE
    else s.ueNote code addr

/-- A scrubber reads a line of 64 bytes. -/
def State.scrubLine (s : State) (code addr : Nat) : State := (s.marksIn code 0 addr 64).foldl (State.scrubWord code) s

/-- The offset of line k of a DRAM channel (R316). -/
def channelLine (ch k : Nat) : Nat :=
  let hi := k / 16 % 8
  k / 128 * 2 ^ 16 + hi * 2 ^ 13 + k / 4 % 4 * 2 ^ 11 + (ch ^^^ hi) * 2 ^ 8 + k % 4 * 2 ^ 6

/-- Lines of a DRAM channel. -/
def State.channelLines (s : State) : Nat := s.rn Reg.ddrUsable * 0x10000 / 512

/-- One line of every channel is scrubbed (R656). -/
def State.dramScrub (s : State) : State :=
  if s.channelLines = 0 then s else
  let k := s.ddr.scrub % s.channelLines
  let s := (List.range 8).foldl (fun s ch => s.scrubLine Mc.dram (channelLine ch k)) s
  let s := if k + 1 = s.channelLines then s.bump Reg.ddrScrubStatus F.ddrScrubStatus_PASSES else s
  { s with ddr := { s.ddr with scrub := k + 1 } }

/-! The calendar (R430 to R433). -/

/-- The slots that streams and granted guaranteed jobs hold (R431). -/
def State.heldSlots (s : State) : Nat :=
  s.inlineTotal + ((s.weir.jobs.filter fun j => j.guar && j.granted).map fun j => j.cert.slots).sum

/-- The slots of a frame that are offered as free: those of the 212 that no reserved transaction used (R430, R433; DEDUCED,
log entry 26), and none while a maintenance window goes on (R429). -/
def State.freeOffered (s : State) : Nat := if s.weir.maintStart.isSome then 0 else 212 - ceilDiv s.ddr.reserved 16

/-- CALENDAR_FRAME: the top arbiter has granted the free slots of the frame that ends (R319 to R321); its counts are shown, and
each holder's count starts again (R432, DDR_FREE_SLOTS). -/
def State.calendarFrame (s : State) : State :=
  let r := s.ddr.frame (s.rf Reg.ddrTagSel F.ddrTagSel_END_TAG) (16 * s.freeOffered)
  let free := s.freeOffered
  let s := s.wf Reg.ddrFreeSlots F.ddrFreeSlots_RESERVED (min s.heldSlots 255)
  let s := s.wf Reg.ddrFreeSlots F.ddrFreeSlots_USED_FREE (ceilDiv r.1 16)
  let s := s.wf Reg.ddrFreeSlots F.ddrFreeSlots_FREE free
  { s with ddr := { r.2 with used := [], reserved := 0 } }.dramScrub

/-! Bus timeouts (R669). -/

/-- A running layer lists a page (R669). -/
def State.layerLists (s : State) (e n : Nat) : Bool :=
  match s.runOf e with
  | some r => match s.pending? r.job with
    | some j => (j.pagesOf r.layer).any fun p => s.pageFor j p == some n
    | none => false
  | none => false

/-- The requester of an unanswered transaction has its bus error (R669). `sub`: for a DMA port the page that its Rill fills
or writes back, for the stream port 0 the Spout, 1 the Skimmer, 2 the tokeniser. -/
def State.busTimeout (s : State) (port sub : Nat) : State :=
  let inj := s.inject 0x17 0 7 port
  let s := inj.2.occur ⟨0xC, Kind.occurrence, 0x17, port, inj.1.isSome⟩
  if port < 16 then s.coreFault port 0xC false
  else if port < 20 then [0, 1, 2, 3, 4].foldl (fun s e => if s.layerLists e sub then s.chargeFault e 0xC false else s) s
  else if port = 24 ∧ sub = 1 then s.chargeFault Eng.skim 0xC false
  else s

def execBistStart (core : Nat) (v : W32) (s : State) :=
  onFabric s (guarded (decide (core < 16)) fun s => (s.touch 8).bistStart core v)
def execBistDone (core fail us : Nat) (bad : List Nat) (basin resv : List (Nat × Byte)) (vreg acc : List (Nat × Nat))
    (s : State) := onFabric s (guarded (decide (core < 16)) fun s => s.bistDone core fail us bad basin resv vreg acc)
def execHostImemWrite (f : Nat) (v : W32) (s : State) :=
  onFabric s (guarded (decide (f < 4)) fun s => (s.touch (4 + f)).hostImem f v)
def execImemWrite (f off : Nat) (v : W32) (s : State) :=
  onFabric s (guarded (decide (f < 4) && decide (off < 0x40000) && off % 4 == 0) fun s => (s.touch (4 + f)).imemWrite f off v)
def execCisternScrub (line : Nat) (s : State) :=
  onFabric s (guarded (decide (line < 786432)) fun s => s.scrubLine Mc.cistern (64 * line))
def execBusTimeout (port sub : Nat) (s : State) :=
  onFabric s (guarded (decide (port < 28)) fun s => (s.busTimeout port sub).settle)
def execCalendarFrame (s : State) := onFabric s (guarded (s.gts % 1000 == 0) State.calendarFrame)

end Sys2Proof.Machine
end

