-- ==== Sys2Proof/Machine/Pixels.lean ====
section
/-! DEFINITION. Sys2Proof/Machine/Pixels.lean: the samples of a line, the Spillway (spec/11 R574 to R578), and the stages of an
image pipe (R589 to R595). The packing of samples is that of MIPI CSI-2, which the spec names and does not repeat (log
entry 31). Where the spec states no arithmetic for a stage, its result is a free sample (log entry 6). -/
namespace Sys2Proof.Machine

/-! Packing (R570). -/

/-- The sample of b bits at place i of a group's bytes: its high byte, and its low bits in the bytes behind the group's high
bytes. -/
def groupSample (b i : Nat) (g : List Byte) : Nat :=
  let n := if b = 12 then 2 else 4
  u8 g i * 2 ^ (b - 8) + fieldAt g n (g.length - n) / 2 ^ ((b - 8) * i) % 2 ^ (b - 8)

/-- Bytes and samples of a group of packed samples. -/
def groupSize (b : Nat) : Nat × Nat :=
  if b = 10 then (5, 4) else if b = 12 then (3, 2) else if b = 14 then (7, 4) else if b = 16 then (2, 1) else (1, 1)

/-- The samples of one group. -/
def groupSamples (b : Nat) (g : List Byte) : List Nat :=
  if b = 8 then [u8 g 0]
  else if b = 16 then [u8 g 0 * 256 + u8 g 1]
  else (List.range (groupSize b).2).map fun i => groupSample b i g

/-- The whole samples of a payload, with fuel for its groups. -/
def unpackN (b : Nat) : Nat → List Byte → List Nat
  | 0, _ => []
  | n + 1, l =>
    if l.length < (groupSize b).1 then [] else groupSamples b (l.take (groupSize b).1) ++ unpackN b n (l.drop (groupSize b).1)

/-- The whole samples of a payload. -/
def unpack (b : Nat) (l : List Byte) : List Nat := unpackN b l.length l

/-- The bytes of one group of samples. -/
def packGroup (b : Nat) (g : List Nat) : List Byte :=
  if b = 8 then leBytes (g.headD 0) 1
  else if b = 16 then leBytes (g.headD 0 / 256) 1 ++ leBytes (g.headD 0) 1
  else
    let k := (groupSize b).2
    let hi := (List.range k).flatMap fun i => leBytes (g.getD i 0 / 2 ^ (b - 8)) 1
    let lo := ((List.range k).map fun i => g.getD i 0 % 2 ^ (b - 8) * 2 ^ ((b - 8) * i)).sum
    hi ++ leBytes lo ((groupSize b).1 - k)

/-- The packed bytes of samples, with fuel for the groups. -/
def packN (b : Nat) : Nat → List Nat → List Byte
  | 0, _ => []
  | n + 1, l => if l = [] then [] else packGroup b (l.take (groupSize b).2) ++ packN b n (l.drop (groupSize b).2)

/-- The packed bytes of a line. -/
def pack (b : Nat) (l : List Nat) : List Byte := packN b l.length l

/-! The Spillway (R575 to R579). -/

/-- CFA period of a MOSAIC code (R591), if it is one. -/
def mosaicPeriod (m : Nat) : Option Nat :=
  if m = 4 ∨ m = 7 then some 4 else if m = 8 then some 1 else if m ≤ 9 then some 2 else none

/-- The phase of a sample, and the row phase of a line (R576): for YUV422 and RGB888 the component position. -/
def FrameS.phaseAt (f : FrameS) (y x : Nat) : Nat :=
  let dt := Ent.dt f.ent
  if dtRaw dt then y % f.period * 16 + x % f.period else x % (if dt = Dt.yuv then 4 else 3)
def FrameS.rowPhase (f : FrameS) (y : Nat) : Nat := if dtRaw (Ent.dt f.ent) then y % f.period else 0

/-- FILL, left-aligned to the sample width (R577). -/
def fillValue (b fill : Nat) : Nat := fill * 2 ^ (b - 8)

/-- A sample is odd (R575). -/
def oddSample (e : List Byte) (v : Nat) : Bool := decide (v < Ent.floor e) || decide (Ent.ceil e < v)

/-- The last good samples after the good samples of a line are seen, and the line with its corrupt samples replaced under a
MODE and FILL (R576, R577). -/
def FrameS.spillSamples (f : FrameS) (mode fill y : Nat) : Nat → List (Option Nat) → Table Nat → List Nat × Table Nat
  | _, [], t => ([], t)
  | x, o :: l, t =>
    let ph := f.phaseAt y x
    let last := Table.get 0 t ph
    let b := dtBits (Ent.dt f.ent)
    let v := match o with
      | some v => v
      | none => if mode = 0 ∧ last ≠ 0 then last - 1 else fillValue b fill
    let t := match o with
      | some v => Table.put 0 t ph (v + 1)
      | none => t
    let r := f.spillSamples mode fill y (x + 1) l t
    (v :: r.1, r.2)

/-- A line passes the Spillway: `whole` for a line that is corrupt or missing as a whole. Answers the line as it goes on and
the frame that has counted it. -/
def FrameS.spillLine (f : FrameS) (mode fill y : Nat) (whole : Bool) (l : List (Option Nat)) : List Nat × FrameS :=
  let n := Ent.samples f.ent
  let b := dtBits (Ent.dt f.ent)
  let bad := if whole then n else (l.filter Option.isNone).length
  let f := if bad = 0 then f else { f.mark Mk.spilled with spilled := f.spilled + bad }
  if whole then
    let last := Table.get [] f.lastL (f.rowPhase y)
    (if mode = 0 ∧ last ≠ [] then last else List.replicate n (fillValue b fill), f)
  else
    let r := f.spillSamples mode fill y 0 l f.lastS
    (r.1, { f with lastS := r.2, lastL := Table.put [] f.lastL (f.rowPhase y) r.1 })

/-! The tuning record (R592, R593). -/

def Tune.stage (t : List Byte) (i : Nat) : Bool := (u16 t 4).testBit i
def Tune.mosaic (t : List Byte) : Nat := u8 t 6
def Tune.outFmt (t : List Byte) : Nat := u8 t 7
def Tune.black (t : List Byte) (ph : Nat) : Nat := u16 t (8 + 2 * ph)
def Tune.dpcThresh (t : List Byte) : Nat := u16 t 0x28
def Tune.strength (t : List Byte) : Nat := u8 t 0x2A
def Tune.alpha (t : List Byte) : Nat := if u8 t 0x2B = 0 then 256 else u8 t 0x2B
def Tune.refVa (t : List Byte) : Nat := u64 t 0x30
def Tune.gain (t : List Byte) (c : Nat) : Nat := u16 t (0x38 + 2 * c)
def Tune.ccm (t : List Byte) (r c : Nat) : Int := sext 16 (u16 t (0x40 + 8 * r + 2 * c))
def Tune.tone (t : List Byte) (c k : Nat) : Nat := u16 t (0x60 + 130 * c + 2 * k)
def Tune.statsVa (t : List Byte) : Nat := u64 t 0x1E8

/-- n bytes of a list from an offset are 0. -/
def zerosAt (b : List Byte) (off n : Nat) : Bool := ((b.drop off).take n).all (· == 0#8)

/-- A record's MAGIC is right and its reserved bytes are 0 (R593). -/
def Tune.ok (t : List Byte) : Bool :=
  t.length == 1024 && u32 t 0 == 0x454E5554 && zerosAt t 0x2C 4 && zerosAt t 0x58 8 && zerosAt t 0x1E6 2 &&
  zerosAt t 0x1F0 528 && u16 t 4 / 512 == 0

/-! The stages of R589. A picture is its lines of samples so far. `d`: the draw that its free samples belong to. -/

/-- A free 16-bit sample of a stage. -/
def freeAt (d stage y x c : Nat) : Nat := Config.freePixel d stage (y * 8192 + x) c % 65536

/-- a / b if b divides a and the quotient fits 16 bits: the spec states no rounding for the stage. -/
def exact16 (a b : Nat) : Option Nat := if b ≠ 0 ∧ a % b = 0 ∧ a / b < 65536 then some (a / b) else none

/-- Stages 1 and 2: left alignment, and BLC, whose scaling the spec does not round. -/
def blc (t : List Byte) (d b per y x v : Nat) : Nat :=
  let v := v * 2 ^ (16 - b) % 65536
  if !Tune.stage t 0 then v else
  let k := Tune.black t (y % per * per + x % per)
  (exact16 ((v - k) * 65535) (65535 - k)).getD (freeAt d 2 y x 0)

/-- Sample (y, x) of a picture after stages 1 and 2. -/
def blcAt (t : List Byte) (d b per : Nat) (rows : List (List Nat)) (y x : Nat) : Nat :=
  blc t d b per y x ((rows.getD y []).getD x 0)

/-- A list in ascending order with a number put in its place. -/
def putSorted (n : Nat) : List Nat → List Nat
  | [] => [n]
  | m :: l => if n ≤ m then n :: m :: l else m :: putSorted n l

/-- Stage 3: a defective sample takes the median of its eight same-phase neighbours. A neighbour outside the picture, and a
median between two unequal middle neighbours, the spec does not state. -/
def dpc (t : List Byte) (d b per w h : Nat) (rows : List (List Nat)) (y x : Nat) : Nat :=
  let v := blcAt t d b per rows y x
  if !Tune.stage t 1 then v
  else if y < per ∨ x < per ∨ h ≤ y + per ∨ w ≤ x + per then freeAt d 3 y x 0
  else
    let ns := ([(0, 0), (0, 1), (0, 2), (1, 0), (1, 2), (2, 0), (2, 1), (2, 2)] : List (Nat × Nat)).map fun p =>
      blcAt t d b per rows (y + p.1 * per - per) (x + p.2 * per - per)
    let l := ns.foldl (fun l n => putSorted n l) []
    if l.getD 7 0 + Tune.dpcThresh t < v ∨ v + Tune.dpcThresh t < l.headD 0 then
      if l.getD 3 0 = l.getD 4 0 then l.getD 3 0 else freeAt d 3 y x 0
    else v

/-- Stage 4: SNR with a STRENGTH of 0 passes its input; its filter the spec does not state. -/
def snr (t : List Byte) (d b per w h : Nat) (rows : List (List Nat)) (y x : Nat) : Nat :=
  if !Tune.stage t 2 || Tune.strength t == 0 then dpc t d b per w h rows y x else freeAt d 4 y x 0

/-- Stage 5: TNR blends a sample with its reference byte (R589, R590). -/
def tnr (t : List Byte) (v ref : Nat) : Nat :=
  if Tune.stage t 3 then (rneDiv ((Tune.alpha t * v + (256 - Tune.alpha t) * (ref * 256) : Nat) : Int) 256).toNat % 65536 else v

/-- Stage 6: the four channels of a pixel. A mosaic of one channel has it at every pixel; the reconstruction of the others the
spec does not state. -/
def demosaic (t : List Byte) (d y x v : Nat) : List Nat :=
  if Tune.mosaic t = 8 then [v, v, v, 0] else [0, 1, 2, 3].map (freeAt d 6 y x)

/-- Stage 7: WB, whose product the spec does not round. -/
def wb (t : List Byte) (d y x : Nat) (p : List Nat) : List Nat :=
  if !Tune.stage t 5 then p else
  p.zipIdx.map fun e =>
    let g := Tune.gain t (if Tune.mosaic t = 8 then 0 else e.2)
    (exact16 (e.1 * g) 4096).getD (freeAt d 7 y x e.2)

/-- Stage 8: R, G and B of the matrix, and the fourth channel (R589, R593). -/
def ccm (t : List Byte) (p : List Nat) : List Nat :=
  if !Tune.stage t 6 then p else
  let row := fun r =>
    let v := rneDiv (((List.range 4).map fun c => Tune.ccm t r c * ((p.getD c 0 : Nat) : Int)).sum) 4096
    (max 0 (min v 65535)).toNat
  [row 0, row 1, row 2, p.getD 3 0]

/-- Stage 9: Tone through 65 points, between which the spec does not round. -/
def tone (t : List Byte) (d y x : Nat) (p : List Nat) : List Nat :=
  if !Tune.stage t 7 then p else
  (List.range 4).map fun c =>
    let v := p.getD c 0
    if c = 3 then v else
    let k := v / 1024
    let a := Tune.tone t c k
    let z := Tune.tone t c (k + 1)
    let span := if k = 63 then 1023 else 1024
    (exact16 (a * (span - v % 1024) + z * (v % 1024)) span).getD (freeAt d 9 y x c)

/-- An 8-bit component: the high byte of a 16-bit value, rounded (R595). -/
def comp8 (v : Nat) : Nat := min 255 (rneDiv ((v : Nat) : Int) 256).toNat

/-- The luma of R595, in 8 bits. -/
def luma8 (p : List Nat) : Nat :=
  min 255 (rneDiv ((299 * p.getD 0 0 + 587 * p.getD 1 0 + 114 * p.getD 2 0 : Nat) : Int) 256000).toNat

/-- Bytes of an output line of an OUT_FMT, before its pitch; NV12 counts its luma line (R595). -/
def outLine (fmt w : Nat) : Nat := if fmt = 1 then 3 * w else if fmt = 2 then 4 * w else if fmt = 5 then 2 * w else w

/-- Stage 10: the bytes of a pixel. The spec states no arithmetic for the planes of NV12. -/
def formatPx (t : List Byte) (d y x : Nat) (p : List Nat) : List Byte :=
  let mono := Tune.mosaic t = 8 ∨ Tune.mosaic t = 9
  let c := fun i => leBytes (comp8 (p.getD i 0)) 1
  match Tune.outFmt t with
  | 1 => if mono then c 0 ++ c 0 ++ c 0 else c 0 ++ c 1 ++ c 2
  | 2 => c 0 ++ c 1 ++ c 2 ++ c 3
  | 3 => if mono then c 0 else leBytes (luma8 p) 1
  | 5 => c 0 ++ (if Tune.mosaic t = 9 then c 1 else leBytes (freeAt d 10 y x 1) 1)
  | _ => leBytes (freeAt d 10 y x 0) 1

/-- The reference bytes of a line of raw pixels, as TNR finds them. -/
abbrev RefLine := List Byte

/-- Output line y of a picture: the bytes of the line, and the new reference bytes of stage 5. -/
def pipeLine (e t : List Byte) (d per : Nat) (rows : List (List Nat)) (ref : RefLine) (y : Nat) : List Byte × RefLine :=
  let b := dtBits (Ent.dt e)
  let w := Ent.width e
  let h := Ent.height e
  if dtRaw (Ent.dt e) then
    let vs := (List.range w).map fun x => tnr t (snr t d b per w h rows y x) (u8 ref x)
    ((vs.zipIdx).flatMap fun p => formatPx t d y p.2 (tone t d y p.2 (ccm t (wb t d y p.2 (demosaic t d y p.2 p.1)))),
     vs.map fun v => BitVec.ofNat 8 (v / 256))
  else
    ((List.range w).flatMap fun x =>
      formatPx t d y x (tone t d y x (ccm t (wb t d y x ([0, 1, 2, 3].map (freeAt d 6 y x))))), [])

/-- The pitch of an output line, and the bytes of a slot, which begins at a 64 KiB boundary (R595). -/
def outPitch (e t : List Byte) : Nat := ceilDiv (outLine (Tune.outFmt t) (Ent.width e)) 64 * 64
def outSlot (e t : List Byte) : Nat :=
  let n := outPitch e t * Ent.height e
  ceilDiv (if Tune.outFmt t = 4 then n + n / 2 else n) 0x10000 * 0x10000

end Sys2Proof.Machine
end

