-- ==== Sys2Proof/Machine/Codec.lean ====
section
/-! DEFINITION. Sys2Proof/Machine/Codec.lean: the codec sessions (spec/12). What a bitstream decodes to, and the bytes of a coded
picture, are given by the standards that R618 and R619 name: the sender says the shape of a decoded picture and its
corrupt samples, its sample values are free, and the bytes of a coded picture are the sender's (log entry 40). -/
namespace Sys2Proof.Machine

/-! Session records (R615). -/

def Ses.kind (b : List Byte) : Nat := u8 b 0
def Ses.codec (b : List Byte) : Nat := u8 b 1
def Ses.live (b : List Byte) : Bool := (u8 b 2).testBit 0
def Ses.rc (b : List Byte) : Nat := u8 b 3
def Ses.num (b : List Byte) : Nat := u8 b 4
def Ses.inLog2 (b : List Byte) : Nat := u8 b 5
def Ses.qp (b : List Byte) : Nat := u8 b 6
def Ses.inVa (b : List Byte) : Nat := u64 b 8
def Ses.width (b : List Byte) : Nat := u16 b 0x10
def Ses.height (b : List Byte) : Nat := u16 b 0x12
def Ses.rate (b : List Byte) : Nat := u32 b 0x14
def Ses.kbps (b : List Byte) : Nat := u32 b 0x18
def Ses.idr (b : List Byte) : Nat := u16 b 0x1C
def Ses.workVa (b : List Byte) : Nat := u64 b 0x20
def Ses.workBytes (b : List Byte) : Nat := u32 b 0x28
def Ses.outLog2 (b : List Byte) : Nat := u8 b 0x2C
def Ses.outVa (b : List Byte) : Nat := u64 b 0x30

/-- The rules of R615 that a record of either kind keeps. -/
def Ses.common (b : List Byte) : Bool :=
  decide (4 ≤ Ses.inLog2 b) && decide (Ses.inLog2 b ≤ 10) && u8 b 7 == 0 && Ses.inVa b % 0x1000 == 0 &&
  decide (1 ≤ Ses.rate b) && u16 b 0x1E == 0 && Ses.workVa b % 0x10000 == 0 && zerosAt b 0x2D 3 && u64 b 0x38 == 0

/-- A decode record keeps R615. -/
def Ses.decOk (b : List Byte) : Bool :=
  Ses.common b && decide (1 ≤ Ses.codec b) && decide (Ses.codec b ≤ 4) && decide (u8 b 2 < 2) && Ses.rc b == 0 &&
  decide (Ses.num b < 64) && Ses.qp b == 0 && Ses.width b == 0 && Ses.height b == 0 && Ses.idr b == 0 && Ses.outLog2 b == 0 &&
  Ses.outVa b == 0

/-- An encode record keeps R615; the encoders make H.264 and H.265 only (R619). -/
def Ses.encOk (b : List Byte) : Bool :=
  Ses.common b && (Ses.codec b == 1 || Ses.codec b == 2) && u8 b 2 == 0 && decide (Ses.rc b ≤ 2) &&
  decide (Ses.num b < 32) && decide (Ses.qp b ≤ 51) && decide (64 ≤ Ses.width b) && decide (Ses.width b ≤ 4096) &&
  Ses.width b % 2 == 0 && decide (64 ≤ Ses.height b) && decide (Ses.height b ≤ 2304) && Ses.height b % 2 == 0 &&
  decide (100 ≤ Ses.kbps b) && decide (Ses.kbps b ≤ 60000) && decide (1 ≤ Ses.idr b) && decide (16 ≤ Ses.outLog2 b) &&
  decide (Ses.outLog2 b ≤ 26) && Ses.outVa b % 0x1000 == 0

/-- DT of a decoded stream (R621). -/
def Dt.nv12 : Nat := 0x80
def Dt.p010 : Nat := 0x81

/-- A decode session's stream entry keeps R621: P010 only where the format has 10-bit streams (R618). -/
def decEntOk (codec : Nat) (e : List Byte) : Bool :=
  (Ent.dt e == Dt.nv12 || (Ent.dt e == Dt.p010 && (codec == 2 || codec == 3))) && !Ent.pipe e && Ent.floor e == 0 &&
  Ent.ceil e == 0 && Ent.timeoutUs e == 0

/-! Sessions (R616, R617). -/

/-- A decode session. -/
def State.dec (s : State) (n : Nat) : DecS := Table.get {} s.decs n
/-- The state with a decode session set. -/
def State.setDec (s : State) (n : Nat) (x : DecS) : State := { s with decs := Table.put {} s.decs n x }
/-- An encode session. -/
def State.enc (s : State) (n : Nat) : EncS := Table.get {} s.encs n
/-- The state with an encode session set. -/
def State.setEnc (s : State) (n : Nat) (x : EncS) : State := { s with encs := Table.put {} s.encs n x }

/-- STATE of a decode session: 0 CLOSED, 1 RUNNING, 2 STOPPED, 3 WAIT_RAP. -/
def State.decState (s : State) (n : Nat) : Nat := s.rf (Reg.codecDecStatus n) F.codecDecStatus_STATE
/-- The state with STATE of a decode session set. -/
def State.setDecState (s : State) (n v : Nat) : State := s.wf (Reg.codecDecStatus n) F.codecDecStatus_STATE v

/-- The luma samples per second that an engine sustains (R614). -/
def State.codecRate (s : State) : Nat := if s.rf Reg.clkDiv F.clkDiv_CODEC = 24 then 416666666 else 500000000

/-- The records of the open decode sessions on an engine. -/
def State.decOn (s : State) (e : Nat) : List (List Byte) :=
  (s.decs.filter fun x => x.2.opened && x.2.engine == e).map fun x => x.2.ses
/-- The records of the open encode sessions on an engine. -/
def State.encOn (s : State) (e : Nat) : List (List Byte) :=
  (s.encs.filter fun x => x.2.opened && x.2.engine == e).map fun x => x.2.ses

/-- The engine of a list with the smallest sum of RATE, ties to the lower number (R617). -/
def leastEngine (sum : Nat → Nat) : List Nat → Nat
  | [] => 0
  | [e] => e
  | e :: f :: l => let m := leastEngine sum (f :: l); if sum m < sum e then m else e

/-- Results of R616. -/
def Cd.ok : Nat := 0x00
def Cd.capacity : Nat := 0x10
def Cd.badRecord : Nat := 0x11
def Cd.smallWork : Nat := 0x12
def Cd.inUse : Nat := 0x13
def Cd.notOpen : Nat := 0x14

/-- The requester FWP2. -/
def Who.fwp2 : Who := { tag := 0x602 }

/-- A decode session opens (R616, R617, R621). It decodes from its first access unit (DEDUCED, log entry 41). -/
def State.openDec (s : State) (b : List Byte) : FwResult :=
  let n := Ses.num b
  if !Ses.decOk b then (some (Cd.badRecord, none), s) else
  match s.readEnt Who.fwp2 (64 + n) with
  | (none, s) => (some (Cd.badRecord, none), s)
  | (some e, s) =>
    if !decEntOk (Ses.codec b) e then (some (Cd.badRecord, none), s)
    else if (s.dec n).opened then (some (Cd.inUse, none), s)
    else
      let lumas := Ent.width e * Ent.height e
      let p := if Ent.dt e = Dt.p010 then 3 * lumas else lumas * 3 / 2
      if Ses.workBytes b < 17 * p + 1048576 then (some (Cd.smallWork, none), s) else
      let sum := fun g => ((s.decOn g).map Ses.rate).sum
      let g := leastEngine sum [0, 1, 2, 3]
      if s.codecRate < sum g + Ses.rate b ∨ 120000 < ((s.decOn g).map Ses.kbps).sum + Ses.kbps b then
        (some (Cd.capacity, none), s)
      else
        let s := s.setDec n { opened := true, ses := b, engine := g, ent := e }
        let x := s.stream (64 + n)
        let s := s.setStream (64 + n) { ent := e, ready := x.ready }
        (some (Cd.ok, none), (s.setDecState n 1).wf (Reg.codecDecStatus n) F.codecDecStatus_ENGINE g)

/-- An encode session opens (R616, R617). -/
def State.openEnc (s : State) (b : List Byte) : FwResult :=
  let n := Ses.num b
  if !Ses.encOk b then (some (Cd.badRecord, none), s)
  else if (s.enc n).opened then (some (Cd.inUse, none), s)
  else if Ses.workBytes b < 3 * (Ses.width b * Ses.height b * 3 / 2) + 1048576 then (some (Cd.smallWork, none), s)
  else
    let sum := fun g => ((s.encOn g).map Ses.rate).sum
    let g := leastEngine sum [4, 5]
    if s.codecRate < sum g + Ses.rate b then (some (Cd.capacity, none), s) else
    let s := s.setEnc n { opened := true, ses := b, engine := g, qp := Ses.qp b }
    (some (Cd.ok, none), s)

/-- CODEC_OPEN: ARG0 is the session record's VA. -/
def State.codecOpen (r : FwReq) (s : State) : FwResult :=
  match s.vread Who.fwp2 r.a0 64 with
  | (none, s) => (some (Rs.badArg, none), s)
  | (some (b, _), s) =>
    if Ses.kind b = 1 then s.openDec b else if Ses.kind b = 2 then s.openEnc b else (some (Cd.badRecord, none), s)

/-! Descriptors (R620, R626, R628). -/

/-- Codec engine e as a requester (R317). -/
def Who.codec (e : Nat) : Who := { tag := 0x300 + e }

/-- The address of descriptor n of a decode session. -/
def DecS.descVa (x : DecS) (n : Nat) : Nat := Ses.inVa x.ses + 32 * (n % 2 ^ Ses.inLog2 x.ses)
/-- The address of descriptor n of an encode session. -/
def EncS.descVa (x : EncS) (n : Nat) : Nat := Ses.inVa x.ses + 64 * (n % 2 ^ Ses.inLog2 x.ses)

/-- Codes of R626 and of DONE in R628. -/
def Au.decoded : Nat := 0
def Au.error : Nat := 1
def Au.skipped : Nat := 2
def Au.unsupported : Nat := 3
def Au.aborted : Nat := 4
def Au.fault : Nat := 5

/-- A codec engine writes device-virtual memory; a translation fault is reported. -/
def State.codecWrite (s : State) (e va : Nat) (b : List Byte) : State :=
  let w := s.vwrite (Who.codec e) va b
  if w.1 then w.2 else w.2.xlateFault (0x300 + e)

/-- Engine 7 writes DONE of an access unit's descriptor, and an ERROR is counted. -/
def State.auDone (s : State) (n k result : Nat) : State :=
  let s := s.codecWrite 7 ((s.dec n).descVa k + 0x1C) (leBytes (2 ^ 31 + result * 2 ^ 24) 4)
  if result = Au.error then s.bumpSat (Reg.codecDecStatus n) F.codecDecStatus_ERRORS else s

/-- Engine 7 writes OUT_OFFSET, OUT_BYTES and DONE of a source descriptor. -/
def State.encDone (s : State) (n k result off len qp : Nat) (idr : Bool) : State :=
  let va := (s.enc n).descVa k
  let s := s.codecWrite 7 (va + 0x30) (leBytes off 4 ++ leBytes len 4)
  s.codecWrite 7 (va + 0x3C) (leBytes (2 ^ 31 + result * 2 ^ 24 + qp * 2 ^ 16 + b2n idr * 2 ^ 8) 4)

/-! Pictures (R621 to R625). -/

/-- Bits of an output sample of a stream entry. -/
def decBits (e : List Byte) : Nat := if Ent.dt e = Dt.p010 then 10 else 8

/-- The samples of a picture: luma rows, then chroma rows at half height with Cb and Cr side by side. -/
def picSamples (p : Picture) : Nat := p.w * p.h + p.w * (p.h / 2)

/-- A sample cannot be reconstructed. -/
def picCorrupt (p : Picture) (i : Nat) : Bool := p.spans.any fun x => decide (x.1 ≤ i) && decide (i < x.1 + x.2)

/-- The corrupt samples of a picture. -/
def picBad (p : Picture) : List Nat := (List.range (picSamples p)).filter (picCorrupt p)

/-- Some sample of a picture is corrupt. -/
def picAnyBad (p : Picture) : Bool := p.spans.any fun x => decide (0 < x.2) && decide (x.1 < picSamples p)

/-- LINES of a picture's record: the luma rows with no replaced sample (R622). -/
def picGoodRows (p : Picture) : Nat :=
  ((List.range p.h).filter fun y => !(p.spans.any fun x => decide (0 < x.2) && decide (x.1 < (y + 1) * p.w) &&
    decide (y * p.w < x.1 + x.2))).length

/-- The samples that a picture is output with (R625). -/
def DecPic.values (d : DecPic) (bits mode fill : Nat) (last : List Nat) : List Nat :=
  (List.range (picSamples d.pic)).map fun i =>
    if !picCorrupt d.pic i then Config.freePixel d.draw 30 i 0 % 2 ^ bits
    else if mode = 0 then last.getD i (fillValue bits fill) else fillValue bits fill

/-- The bytes of a row of samples: NV12 holds a byte each, P010 the ten bits at the top of two bytes (PRESUMED, log entry
42). -/
def decRow (bits : Nat) (l : List Nat) : List Byte :=
  l.flatMap fun v => if bits = 10 then leBytes (v * 64) 2 else leBytes v 1

/-- The pitch of a decoded slot's rows, and its size (DEDUCED from R570, log entry 42). -/
def decPitch (e : List Byte) : Nat := ceilDiv (Ent.width e * (if Ent.dt e = Dt.p010 then 2 else 1)) 64 * 64
def decSlot (e : List Byte) : Nat := ceilDiv (decPitch e * (Ent.height e + Ent.height e / 2)) 0x10000 * 0x10000

/-- The picture a frame record describes. -/
def DecPic.frame (d : DecPic) (n frame : Nat) (e : List Byte) : FrameS :=
  let f : FrameS := { stream := 64 + n, frame := frame, fsGts := d.fsGts, csiFn := d.auSeq % 65536, ent := e,
                      lines := picGoodRows d.pic }
  let f := if d.pic.bitErr then f.mark Mk.bitstream else f
  if d.pic.refLost then f.mark Mk.refLost else f

/-- Engine 6 writes a picture's record (R622, R583). -/
def State.decRecord (s : State) (f : FrameS) : State := (s.recordDue f).frameRecord f.stream

/-- A picture is discarded with a mark: its record shows no slot. -/
def State.decDiscard (s : State) (n : Nat) (d : DecPic) (mark : Nat) : State :=
  let x := s.stream (64 + n)
  let f := (d.frame n x.begun (s.dec n).ent).mark mark
  (s.setStream (64 + n) { x with begun := x.begun + 1 }).decRecord { f with slot := 0xFF }

/-- A picture is written to its slot, row by row. -/
def State.decStore (s : State) (e : List Byte) (slot bits : Nat) (v : List Nat) : State :=
  let base := Ent.rawVa e + decSlot e * slot
  let w := Ent.width e
  (List.range (Ent.height e + Ent.height e / 2)).foldl (fun s y =>
    s.codecWrite 6 (base + decPitch e * y) (decRow bits ((v.drop (y * w)).take w))) s

/-- The first picture ready for output is stored or discarded (R622 to R625). -/
def State.pictureOut (s : State) (n : Nat) : State :=
  let x := s.dec n
  match x.out with
  | [] => s
  | d :: l =>
    let e := x.ent
    let st := s.stream (64 + n)
    let free := s.slotFree (64 + n) st.begun (Ent.ringLog2 e)
    let pol := s.policy (64 + n)
    if d.stop then (s.setDec n { x with out := l }).decDiscard n d Mk.stopped
    else if d.pic.w != Ent.width e || d.pic.h != Ent.height e then (s.setDec n { x with out := l }).decDiscard n d Mk.size
    else if !free then (if Ses.live x.ses then (s.setDec n { x with out := l }).decDiscard n d Mk.dropped else s)
    else
      let v := d.values (decBits e) pol.1 pol.2 x.last
      let k := (picBad d.pic).length
      let slot := st.begun % 2 ^ Ent.ringLog2 e
      let s := (s.setDec n { x with out := l, last := v }).decStore e slot (decBits e) v
      let f := d.frame n st.begun e
      let f := if k = 0 then f else f.mark Mk.spilled
      let s := s.setStream (64 + n) { s.stream (64 + n) with begun := st.begun + 1 }
      s.decRecord { f with slot := slot, spilled := k }

/-! Decoding (R620, R625 to R627). -/

/-- A write of the codec memory and its read: an uncorrectable error leaves samples of the picture corrupt, which the spec does
not name (R642, R643). -/
def State.codecMemory (s : State) (e : Nat) (p : Picture) : Picture × State :=
  let i := s.inject 15 0 1 e
  match if i.1.isSome then i else i.2.inject 0x17 0 1 (Mc.codec * 256 + e) with
  | (none, s) => (p, s)
  | (some err, s) =>
    if err = 1 then (p, s.occur ⟨1, Kind.corrected, Mc.codec, e, true⟩) else
    let s := (s.occur ⟨1, Kind.uncorrectable, Mc.codec, e, true⟩).logUe Mc.codec 0
    let d := s.draw 21
    ({ p with spans := (d.1 % max 1 (picSamples p), 8) :: p.spans }, d.2)

/-- The descriptor of an access unit keeps R620. -/
def auOk (b : List Byte) : Bool :=
  decide (1 ≤ u32 b 8) && decide (u32 b 8 ≤ 16777216) && decide (u16 b 0x10 < 4) && zerosAt b 0x12 10

/-- The pictures that a decoder releases, in output order: those at the given places of what it holds, one after another. -/
def releasePics : List Nat → List DecPic → List DecPic × List DecPic
  | [], h => ([], h)
  | i :: l, h => match h[i]? with
    | some d => let r := releasePics l (h.eraseIdx i); (d :: r.1, r.2)
    | none => releasePics l h

/-- END_OF_STREAM in an access unit's flags: every picture that the decoder still holds is output (R620). -/
def State.auEos (s : State) (n : Nat) (b : List Byte) : State :=
  let x := s.dec n
  if (u16 b 0x10).testBit 0 then s.setDec n { x with out := x.out ++ x.held, held := [] } else s

/-- The size of a picture is one that the decoders support (R618). -/
def picSupported (p : Picture) : Bool :=
  decide (64 ≤ p.w) && decide (p.w ≤ 4096) && decide (64 ≤ p.h) && decide (p.h ≤ 2304)

/-- An access unit is decoded: its picture joins those that the decoder holds, and pictures become ready for output; at
END_OF_STREAM all of them do. -/
def State.auDecode (s : State) (n k : Nat) (b : List Byte) (pic : Option Picture) (order : List Nat) : State :=
  let x := s.dec n
  let r : List DecPic × Bool × State := match pic with
    | none => ([], false, s)
    | some p =>
      let q := s.codecMemory x.engine p
      let d := q.2.draw 20
      let stop := (s.policy (64 + n)).1 == 2 && picAnyBad q.1
      ([{ auSeq := u32 b 0xC, fsGts := s.gts, pic := q.1, stop := stop, draw := d.1 }], picAnyBad q.1, d.2)
  let s := r.2.2
  let out := releasePics order (x.held ++ r.1)
  let s := (s.setDec n { s.dec n with held := out.2, out := x.out ++ out.1 }).auEos n b
  let s := if r.1.any DecPic.stop then s.setDecState n 2 else s
  s.auDone n k (if r.2.1 then Au.error else Au.decoded)

/-- The codecs' domain is stopped (R668). -/
def State.codecOff (s : State) : Bool := s.integ.stopped.contains 6

/-- A picture that an uncorrectable DRAM read of its access unit hurts: samples at a free place are corrupt (R654). -/
def State.auHurt (s : State) (pic : Option Picture) : Option Picture × State :=
  match pic with
  | none => (none, s)
  | some p => let d := s.draw 21
    (some { p with spans := (d.1 % max 1 (picSamples p), 64) :: p.spans }, d.2)

/-- An access unit that engine 7 has taken from a well-formed descriptor: skipped, or read and decoded (R618, R625 to R627). -/
def State.auTaken (s : State) (n : Nat) (t : AuTaken) : State :=
  let x := s.dec n
  if s.decState n = 2 ∨ (s.decState n = 3 ∧ t.rap = false) then (s.auEos n t.desc).auDone n t.count Au.skipped
  else
    let s := if s.decState n = 3 then s.setDecState n 1 else s
    let r := s.vread (Who.codec x.engine) (u64 t.desc 0) (u32 t.desc 8)
    if t.unsupported || t.pic.any fun p => !picSupported p then (r.2.auEos n t.desc).auDone n t.count Au.unsupported
    else if (r.1.map Prod.snd).getD false then
      let h := r.2.auHurt t.pic
      h.2.auDecode n t.count t.desc h.1 t.order
    else r.2.auDecode n t.count t.desc t.pic t.order

/-- Engine 7 takes the next access unit of a session. `unsupported`: it uses something outside R618; `rap`: it is a random
access point; `pic`: the picture it carries; `order`: the pictures then ready for output. A session without LIVE decodes
nothing while a picture waits for its slot (R624). An access unit that a stopped session takes is kept for its cycle, since a
RESTART of that cycle comes before it (R627). -/
def State.accessUnit (s : State) (n : Nat) (unsupported rap : Bool) (pic : Option Picture) (order : List Nat) : State :=
  let x := s.dec n
  if !x.opened || s.codecOff || x.q.waiting == 0 || (!x.out.isEmpty && !Ses.live x.ses) then s else
  let k := x.q.head
  let s := s.setDec n { x with q := x.q.next }
  match s.vread (Who.codec 7) (x.descVa k) 32 with
  | (none, s) => (s.xlateFault 0x307).auDone n k Au.fault
  | (some (b, _), s) =>
    if !auOk b then s.auDone n k Au.fault
    else if !s.mapped false (u64 b 0) (u32 b 8) then (s.xlateFault (0x300 + x.engine)).auDone n k Au.fault
    else
      let t : AuTaken := { at_ := s.gts, count := k, desc := b, unsupported := unsupported, rap := rap, pic := pic, order := order }
      let y := s.dec n
      let s := if s.decState n = 2 then s.setDec n { y with late := y.late.filter (fun u => u.at_ == s.gts) ++ [t] } else s
      s.auTaken n t

/-- CODEC_DEC_CTRL is written: RESTART takes a stopped session to its next random access point, before the access units that
engine 7 has taken in the same cycle (R627). -/
def State.decRestart (s : State) (tag n : Nat) (v : W32) : State :=
  let s := s.writeReg tag (Reg.codecDecCtrl n) v
  if v.fld F.codecDecCtrl_RESTART = 1 ∧ s.decState n = 2 then
    let x := s.dec n
    (x.late.filter fun u => u.at_ == s.gts).foldl (fun s t => s.auTaken n t) ((s.setDec n { x with late := [] }).setDecState n 3)
  else s

/-! Encoding (R628, R629). -/

/-- A source descriptor keeps R628. -/
def srcOk (b : List Byte) : Bool :=
  u32 b 8 % 64 == 0 && decide (u16 b 0xC < 4) && u32 b 0x14 == 0 && u16 b 0x26 == 0 && u32 b 0x2C == 0 && u32 b 0x38 == 0

/-- A coded picture of len bytes fits the output ring: its offset, and the bytes that it takes with those skipped at the ring's
end (R629). -/
def EncS.place (x : EncS) (len : Nat) : Option (Nat × Nat) :=
  let size := 2 ^ Ses.outLog2 x.ses
  let pos := x.bytes.written % size
  let skip := if size < pos + len then size - pos else 0
  if x.bytes.written + skip + len - x.bytes.read ≤ size ∧ len ≤ size then some (if skip = 0 then pos else 0, skip + len)
  else none

/-- A picture is coded as IDR (R615, R628, R629): the first, one after FULL, one that FORCE_IDR asks for, or one after
IDR_INTERVAL pictures since the last (DEDUCED, log entry 43). -/
def EncS.idr (x : EncS) (b : List Byte) : Bool := x.idrNext || (u16 b 0xC).testBit 0 || decide (Ses.idr x.ses ≤ x.since)

/-- The average QP of a picture: QP for CQP, the rate control's otherwise, which stays at its last value while FWP2 is down. -/
def State.encQp (s : State) (x : EncS) (qp : Nat) : Nat :=
  if Ses.rc x.ses = 0 then Ses.qp x.ses else if s.fwUp 2 then qp % 52 else x.qp

/-- Emulation prevention of the standards' byte streams: a byte 03 after two zero bytes before a byte of at most 03. The number
counts the zero bytes just passed. -/
def emulate : Nat → List Byte → List Byte
  | _, [] => []
  | z, b :: l =>
    if z = 2 ∧ b.toNat ≤ 3 then 3#8 :: b :: emulate (if b = 0#8 then 1 else 0) l
    else b :: emulate (if b = 0#8 then z + 1 else 0) l

/-- The user-data-unregistered SEI message of a source descriptor (R628): the UUID of CODEC_SEI_UUID0 to 3 and 32 bytes of
payload, framed as H.264 or H.265 frames an SEI message (PRESUMED, log entry 145). -/
def State.encSei (s : State) (codec : Nat) (b : List Byte) : List Byte :=
  let uuid := (List.range 4).flatMap fun i => leBytes (s.rn (Reg.codecSeiUuid i)) 4
  let body := uuid ++ leBytes (u64 b 0x18) 8 ++ leBytes (u64 b 0x20) 8 ++ leBytes (u32 b 0x28) 4 ++ leBytes (u16 b 0xE) 2 ++
    leBytes (u32 b 0x10) 4 ++ leBytes 0 6
  leBytes 0x01000000 4 ++ (if codec = 1 then leBytes 0x06 1 else leBytes 0x014E 2) ++
    emulate 0 (leBytes 0x3005 2 ++ body ++ leBytes 0x80 1)

/-- An encode engine codes the next source frame of a session into its output ring, or reports FULL: the coded
bytes before the first slice, then the SEI message if the descriptor asks for one, then the slices. -/
def State.encode (s : State) (n : Nat) (pic : CodedPicture) (qp : Nat) : State :=
  let x := s.enc n
  if !x.opened || s.codecOff || x.q.waiting == 0 then s else
  let k := x.q.head
  let s := s.setEnc n { x with q := x.q.next }
  match s.vread (Who.codec 7) (x.descVa k) 64 with
  | (none, s) => (s.xlateFault 0x307).encDone n k Au.fault 0 0 0 false
  | (some (b, _), s) =>
    let n1 := u32 b 8 * Ses.height x.ses * 3 / 2
    if !srcOk b then s.encDone n k Au.fault 0 0 0 false else
    match s.vread (Who.codec x.engine) (u64 b 0) n1 with
    | (none, s) => (s.xlateFault (0x300 + x.engine)).encDone n k Au.fault 0 0 0 false
    | (some _, s) =>
      let q := s.encQp x qp
      let idr := x.idr b
      let bytes := pic.head ++ (if (u16 b 0xC).testBit 1 then s.encSei (Ses.codec x.ses) b else []) ++ pic.slices
      match x.place bytes.length with
      | none => (s.setEnc n { s.enc n with idrNext := true, qp := q }).encDone n k 1 0 0 q idr
      | some (off, adv) =>
        if !s.mapped true (Ses.outVa x.ses + off) bytes.length then
          (s.xlateFault (0x300 + x.engine)).encDone n k Au.fault 0 0 0 false else
        let s := s.codecWrite x.engine (Ses.outVa x.ses + off) bytes
        let y := s.enc n
        let s := s.setEnc n { y with idrNext := false, since := if idr then 0 else x.since + 1, qp := q,
                                     bytes := { y.bytes with written := y.bytes.written + adv } }
        s.encDone n k 0 off bytes.length q idr

/-! Closing (R629). -/

/-- Every descriptor of a decode session that is not done ends with ABORTED. -/
def State.abortDec (s : State) (n : Nat) : Nat → State
  | 0 => s
  | k + 1 =>
    let x := s.dec n
    if x.q.waiting = 0 then s else
    ((s.setDec n { x with q := x.q.next }).auDone n x.q.head Au.aborted).abortDec n k

/-- Every descriptor of an encode session that is not done ends with ABORTED. -/
def State.abortEnc (s : State) (n : Nat) : Nat → State
  | 0 => s
  | k + 1 =>
    let x := s.enc n
    if x.q.waiting = 0 then s else
    ((s.setEnc n { x with q := x.q.next }).encDone n x.q.head Au.aborted 0 0 0 false).abortEnc n k

/-- Every picture that a session holds is discarded with a mark. -/
def State.dropPics (s : State) (n mark : Nat) : State :=
  let x := s.dec n
  (x.out ++ x.held).foldl (fun s d => s.decDiscard n d mark) (s.setDec n { x with out := [], held := [] })

/-- CODEC_CLOSE. -/
def State.codecClose (r : FwReq) (s : State) : FwResult :=
  let n := r.a0 % 256
  if r.a0 / 256 = 1 ∧ n < 64 then
    if !(s.dec n).opened then (some (Cd.notOpen, none), s) else
    let s := (s.abortDec n 1024).dropPics n Mk.aborted
    (some (Cd.ok, none), (s.setDec n {}).setDecState n 0)
  else if r.a0 / 256 = 2 ∧ n < 32 then
    if !(s.enc n).opened then (some (Cd.notOpen, none), s) else
    (some (Cd.ok, none), (s.abortEnc n 1024).setEnc n {})
  else (some (Rs.badArg, none), s)

/-- The codecs' domain stops: the pictures in flight are discarded, marked DROPPED (R668). -/
def State.codecStop (s : State) : State := (List.range 64).foldl (fun s n => s.dropPics n Mk.dropped) s

/-! Tails and counts. -/

/-- CODEC_DEC_TAIL is written (R620, R482). -/
def State.decTail (s : State) (n : Nat) (v : W32) : State :=
  let x := s.dec n
  if !tailTwinOk v then s.tailTwin 0xF n
  else if x.opened then s.setDec n { x with q := x.q.write (Ses.inLog2 x.ses) v } else s

/-- CODEC_ENC_TAIL is written (R628, R482). -/
def State.encTail (s : State) (n : Nat) (v : W32) : State :=
  let x := s.enc n
  if !tailTwinOk v then s.tailTwin 0xF n
  else if x.opened then s.setEnc n { x with q := x.q.write (Ses.inLog2 x.ses) v } else s

/-- CODEC_ENC_READ is written (R629, R827). -/
def State.encRead (s : State) (n : Nat) (v : W32) : State :=
  let x := s.enc n
  s.setEnc n { x with bytes := consume x.bytes v }

def execCodecOpen (s : State) := onFabric s fun s => s.fwServe 0x20 State.codecOpen
def execCodecClose (s : State) := onFabric s fun s => s.fwServe 0x21 State.codecClose
def execCodecDecTailWrite (n : Nat) (v : W32) (s : State) := onFabric s (guarded (decide (n < 64)) fun s => (s.touch 15).decTail n v)
def execCodecDecRestart (tag n : Nat) (v : W32) (s : State) :=
  onFabric s (guarded (decide (n < 64)) fun s => s.decRestart tag n v)
def execCodecEncTailWrite (n : Nat) (v : W32) (s : State) := onFabric s (guarded (decide (n < 32)) fun s => (s.touch 15).encTail n v)
def execCodecEncReadWrite (n : Nat) (v : W32) (s : State) := onFabric s (guarded (decide (n < 32)) fun s => (s.touch 15).encRead n v)
def execAccessUnitDecode (n : Nat) (unsupported rap : Bool) (pic : Option Picture) (order : List Nat) (s : State) :=
  onFabric s (guarded (decide (n < 64) && s.dramServes) fun s => s.accessUnit n unsupported rap pic order)
def execDecodedPictureOutput (n : Nat) (s : State) :=
  onFabric s (guarded (decide (n < 64) && !s.codecOff && s.dramServes) fun s => s.pictureOut n)
def execPictureEncode (n : Nat) (pic : CodedPicture) (qp : Nat) (s : State) :=
  onFabric s (guarded (decide (n < 32) && s.dramServes) fun s => s.encode n pic qp)

end Sys2Proof.Machine
end

