-- ==== Sys2Proof/Machine/Firmware.lean ====
section
/-! DEFINITION. Sys2Proof/Machine/Firmware.lean: restarts of the firmware processors (spec/14 R712 to R717), what follows a
CONFIRM (R702), and the log ring (R710, R711). -/
namespace Sys2Proof.Machine

/-- Codes of FWP_RST_CAUSE. 0 stands for a restart that R668 asks for, whose code is a free value (log entry 6). -/
def RstCause.clock : Nat := 0
def RstCause.watchdog : Nat := 1
def RstCause.sramUe : Nat := 2
def RstCause.exception : Nat := 3
def RstCause.request : Nat := 4

/-- The state with STATE of a firmware processor set. -/
def State.setFw (s : State) (n st : Nat) : State := s.wf (Reg.fwpState n) F.fwpState_STATE st

/-- A processor needs a restart: it stops at once, and its restart begins when those before it have ended (R712, R715). -/
def State.fwNeed (s : State) (n cause : Nat) : State :=
  if n ≤ 4 ∧ s.fwUp n then
    let s := s.setFw n Fw.restarting
    { s with fwp := { s.fwp with waiting := s.fwp.waiting ++ [(n, cause)] } }
  else s

/-- The memory code of the firmware processors' SRAM (R643). -/
def Mc.fwSram : Nat := 0x0D

/-- A processor's SRAM returns an uncorrectable error: it is recorded, and the processor needs a restart (R634, R643, R712). The
word is a free value (log entry 6). -/
def State.fwSramUe (s : State) (n : Nat) (inj : Bool) : State :=
  if !s.fwUp n then s else
  let d := s.draw 27
  ((d.2.occur ⟨1, Kind.uncorrectable, Mc.fwSram, n, inj⟩).logUe Mc.fwSram (d.1 % 32768)).fwNeed n RstCause.sramUe

/-- DEBUG_GRANT of INT_STATUS is cleared (R705). -/
def State.revokeDebug (s : State) : State := s.wf Reg.intStatus F.intStatus_DEBUG_GRANT 0

/-- The steps of R702, once a CONFIRM is pending and FWP0 runs. -/
def State.confirmCommit (s : State) : State :=
  if s.boot.confirming && s.fwUp 0 then
    let s := s.writeSlotRec fun r => { r with active := s.rf Reg.bootStatus F.bootStatus_SLOT, trial := 0 }
    let s := s.raiseFloor (s.rn Reg.bootVersion) (S1.epoch s.sramImg)
    let s := { s with boot := { s.boot with confirming := false } }
    s.wf Reg.bootStatus F.bootStatus_CONFIRM 2
  else s

/-- A processor's component is loaded into its SRAM and checked, and the processor runs or fails (R642, R691, R713). VERSION is what the firmware
reports, a free value (log entry 6). -/
def State.fwLoad (s : State) (n : Nat) : State :=
  match s.component n with
  | none => s.setFw n Fw.failed
  | some _ =>
    let (v, s) := s.draw 23
    let s := (s.setFw n Fw.running).wf (Reg.fwpState n) F.fwpState_VERSION v
    match s.inject 0x17 0 1 (Mc.fwSram * 256 + n) with
    | (none, s) => s
    | (some e, s) => if e = 1 then s.occur ⟨1, Kind.corrected, Mc.fwSram, n, true⟩ else s.fwSramUe n true

/-- FWP0 starts again: the ROM checks boot SRAM against HASH, and loads the booted slot again where the check fails (R714). -/
def State.fw0Load (s : State) : State :=
  let (bad, s) := s.readEcc Mc.bootSram 0 0 (min stage1Max (S1.length s.sramImg))
  if !bad && S1.hashOk s.sramImg then s.setFw 0 Fw.running
  else
    let s := s.loadSlot (s.rf Reg.bootStatus F.bootStatus_SLOT)
    let (c, s) := s.sramCheck
    if c = 0 then s.setFw 0 Fw.running else (s.wf Reg.bootStatus F.bootStatus_FAIL c).setFw 0 Fw.failed

/-- The restarts of a processor within the last 10 s (R717). -/
def State.recentRestarts (s : State) (n : Nat) : List Nat :=
  (Table.get [] s.fwp.restarts n).filter fun t => decide (s.gts ≤ t + 10 * second)

/-- The restart of a processor (R713, R714, R716, R717). -/
def State.fwRestart (s : State) (n cause : Nat) : State :=
  let recent := s.recentRestarts n
  let s := { s with fwp := { s.fwp with restarts := Table.put [] s.fwp.restarts n (s.gts :: recent) } }
  let s := s.breakGates (Owner.fwp n)
  let s := if n = 0 then s.revokeDebug else s
  if 4 ≤ recent.length then ((s.setFw n Fw.failed).raiseDev (80 + n) Ev.fwRestart (2 ^ 31 + n)).fwSweep
  else
    let s := s.bumpSat (Reg.fwpRstCount n) F.fwpRstCount_COUNT
    let (c, s) := if cause = RstCause.clock then s.draw 25 else (cause, s)
    let s := s.wf (Reg.fwpRstCause n) F.fwpRstCause_CAUSE c
    let (pc, s) := s.draw 22
    let s := s.wn (Reg.fwpLastPc n) pc
    let s := s.raiseDev (80 + n) Ev.fwRestart n
    let s := if n = 0 then s.fw0Load.confirmCommit else s.fwLoad n
    s.fwSweep.fwPump

/-- FW_PROCESSOR_RESTART: an uncorrectable SRAM error or an exception asks for a restart (R712), and the restart that has waited
longest is performed if it is this processor's (R715). FWP0 loads the other processors, so their restarts wait for it. -/
def State.fwProcessorRestart (s : State) (n cause : Nat) : State :=
  let s := if 5 ≤ n then s else if cause = RstCause.sramUe then s.fwSramUe n false
    else if cause = RstCause.exception then s.fwNeed n cause else s
  match s.fwp.waiting with
  | [] => s
  | (m, c) :: rest =>
    if m = n ∧ (n = 0 ∨ s.fwUp 0) ∧ !s.integ.stopped.contains 7 then
      ({ s with fwp := { s.fwp with waiting := rest } } : State).fwRestart n c
    else s

/-- FW_RESTART (R693, R712). -/
def State.fwRestartReq (r : FwReq) (s : State) : FwResult :=
  if r.a0 ≤ 4 then (some (Rs.ok, none), s.fwNeed r.a0 RstCause.request) else (some (Rs.badArg, none), s)

/-! The log ring (R710, R711). -/

/-- LOG2 of the log ring. -/
def State.logLog2 (s : State) : Nat := s.rf Reg.fwpLogRingLo F.fwpLogRingLo_LOG2
/-- The log ring can be written: it is set, and DRAM is trained. -/
def State.logReady (s : State) : Bool := decide (6 ≤ s.logLog2) && decide (0 < s.rn Reg.ddrUsable)
/-- The address of the log ring. -/
def State.logVa (s : State) : Nat :=
  s.rf Reg.fwpLogRingLo F.fwpLogRingLo_VA * 0x1000 + s.rf Reg.fwpLogRingHi F.fwpLogRingHi_VA * 2 ^ 32

/-- A record of 28 bytes goes to the log ring with its SEQ. -/
def State.logPut (s : State) (proc : Nat) (b : List Byte) : State :=
  let n := s.rn Reg.fwpLogCount
  let w := s.vwrite { tag := 0x600 + proc } (s.logVa + 32 * (n % 2 ^ s.logLog2)) (b ++ leBytes (n + 1) 4)
  if w.1 then w.2.wn Reg.fwpLogCount (n + 1) else w.2.xlateFault (0x600 + proc)

/-- FW_LOG_WRITE: a processor logs a point. Records of the time before the ring is set are copied to it first. -/
def State.fwLog (s : State) (proc level point a0 a1 a2 : Nat) : State :=
  if !(decide (proc ≤ 4) && s.fwUp proc && decide (level ≤ 3)) then s else
  let s := if s.logReady then
      s.fwp.early.foldl (fun s b => s.logPut 0 b) { s with fwp := { s.fwp with early := [] } } else s
  let mask := s.rf Reg.fwpTraceMask F.fwpTraceMask_LEVEL
  if bitsOf mask (2 * proc + 1) (2 * proc) < level then s else
  let b := leBytes s.gts 8 ++ leBytes proc 1 ++ leBytes level 1 ++ leBytes 0 2 ++ leBytes point 4 ++ leBytes a0 4 ++
    leBytes a1 4 ++ leBytes a2 4
  if s.logReady then s.logPut proc b
  else { s with fwp := { s.fwp with early := (s.fwp.early ++ [b]).drop (s.fwp.early.length + 1 - 512) } }

def execFwProcessorRestart (n cause : Nat) (s : State) := onFabric s fun s => s.fwProcessorRestart n cause
def execFwRestart (s : State) := onFabric s fun s => s.fwServe 0x02 State.fwRestartReq
def execFwLogWrite (proc level point a0 a1 a2 : Nat) (s : State) := onFabric s fun s => s.fwLog proc level point a0 a1 a2

end Sys2Proof.Machine
end

