-- ==== Sys2Proof/Machine/Camera.lean ====
section
/-! DEFINITION. Sys2Proof/Machine/Camera.lean: the CSI-2 receivers (spec/11 R568 to R588, R596, R597) and the discovery of
cameras (R598; spec/14 R692, R693, R720). -/
namespace Sys2Proof.Machine

/-- Stream number of a port's virtual channel (R96). -/
def streamOf (port vc : Nat) : Nat := 4 * port + vc

/-- An occurrence of CSI_LINK on a port and virtual channel (R630). -/
def State.csiOccur (s : State) (kind port vc : Nat) (inj : Bool) : State := s.occur ⟨5, kind, 0x0E, streamOf port vc, inj⟩

/-- The open frame of a stream with a change. -/
def State.modOpen (s : State) (n : Nat) (g : FrameS → FrameS) : State :=
  let x := s.stream n
  match x.cur with
  | some f => s.setStream n { x with cur := some (g f) }
  | none => s

/-! Packet headers (R572, R573). A header's ECC: 0 clean, 1 corrected, 2 uncorrectable. -/

/-- A header is corrected, or its packet discarded: whether the packet is used. -/
def State.header (s : State) (port vc ecc : Nat) (inj : Bool) : Bool × State :=
  if ecc = 0 then (true, s)
  else if ecc = 1 then
    let s := s.bumpSat (Reg.csiVcErr port vc) F.csiVcErr_ECC_CORR
    let s := s.modOpen (streamOf port vc) fun f => { f with ecc := f.ecc + 1 }
    (true, s.csiOccur Kind.corrected port vc inj)
  else
    let s := s.bumpSat (Reg.csiPortErr port) F.csiPortErr_ECC_UNCORR
    let s := [0, 1, 2, 3].foldl (fun s v => s.modOpen (streamOf port v) fun f => f.mark Mk.eccUncorr) s
    (false, s.csiOccur Kind.uncorrectable port vc inj)

/-! Ends of frames (R575, R579, R583). -/

/-- A closed frame goes on: to its pipe's queue, to its record, or, in-line, to the pipe that still delivers its lines. -/
def State.closeFrame (s : State) (f : FrameS) : State :=
  let n := f.stream
  let s := s.setStream n { s.stream n with cur := none }
  let f := { f with feGts := s.gts, closed := true }
  match s.inlinePipe n with
  | some p =>
    if f.outY = Ent.height f.ent then s.recordDue f
    else s.setPipe p { s.pipe p with inl := (s.pipe p).inl ++ [f] }
  | none =>
    if Ent.pipe f.ent then
      let p := pipeOf n
      s.setPipe p { s.pipe p with queue := (s.pipe p).queue ++ [f] }
    else s.recordDue f

/-- The address of a line of a frame's raw slot. -/
def FrameS.rawLine (f : FrameS) (y : Nat) : Nat :=
  Ent.rawVa f.ent + Ent.rawSlot f.ent * (f.frame % 2 ^ Ent.ringLog2 f.ent) + Ent.rawPitch f.ent * y

/-- A line leaves the Spillway: to the raw ring, or to the in-line path. The frame's line count rises. -/
def State.passLine (s : State) (f : FrameS) (l : List Nat) : FrameS × State :=
  let n := f.stream
  if (s.inlinePipe n).isSome then ({ f with got := f.got + 1, rows := f.rows ++ [l] }, s)
  else
    let who := s.pipeWho n
    let w := s.vwrite who (f.rawLine f.got) (pack (dtBits (Ent.dt f.ent)) l)
    ({ f with got := f.got + 1 }, if w.1 then w.2 else w.2.xlateFault who.tag)

/-- The stop policy ends a stream's frame (R579). -/
def State.stopFrame (s : State) (f : FrameS) : State :=
  let s := s.setStream f.stream { s.stream f.stream with cur := none }
  (s.discard (f.mark Mk.stopped)).stopStream f.stream

/-- n missing lines of a frame are filled (R575, R576). -/
def State.fillLines (s : State) (f : FrameS) : Nat → FrameS × State
  | 0 => (f, s)
  | k + 1 =>
    let pol := s.policy f.stream
    let r := f.spillLine pol.1 pol.2 f.got true []
    let q := s.passLine r.2 r.1
    q.2.fillLines q.1 k

/-- The open frame of a stream ends at a frame end packet, or at a frame start that comes before one (R575). -/
def State.endFrame (s : State) (n : Nat) : State :=
  match (s.stream n).cur with
  | none => s
  | some f =>
    let h := Ent.height f.ent
    if h ≤ f.got then s.closeFrame f else
    let f := f.mark Mk.missing
    if s.stops n then s.stopFrame f else
    let r := s.fillLines f (h - f.got)
    r.2.closeFrame r.1

/-! Starts of frames (R580, R584 to R588, R592). -/

/-- PIPE_TUNE_SEL of a pipe as it stood at the start of the cycle (R594). -/
def State.tuneSel (s : State) (p : Nat) : Nat :=
  let x := s.pipe p
  if x.selAt = some s.gts then x.selOld else s.rf (Reg.pipeTuneSel p) F.pipeTuneSel_SEL

/-- The address of a stream's selected tuning record (R592). -/
def State.tuneVa (s : State) (n : Nat) : Nat :=
  let p := pipeOf n
  let base := s.rf (Reg.pipeTuneBaseLo p) F.pipeTuneBaseLo_VA * 0x10000 + s.rf (Reg.pipeTuneBaseHi p) F.pipeTuneBaseHi_VA * 2 ^ 32
  base + 2048 * (n % 16) + 1024 * b2n ((s.tuneSel p).testBit (n % 16))

/-- The selected tuning record is read; a translation fault is reported. -/
def State.readTune (s : State) (n : Nat) : Option (List Byte) × State :=
  let who := s.pipeWho n
  match s.vread who (s.tuneVa n) 1024 with
  | (some (b, _), s) => (some b, s)
  | (none, s) => (none, s.xlateFault who.tag)

/-- A CFA period: that of the selected record's MOSAIC; the spec states none for another code. -/
def State.cfaPeriod (s : State) (t : Option (List Byte)) : Nat × State :=
  match t with
  | some b => match mosaicPeriod (Tune.mosaic b) with
    | some p => (p, s)
    | none => let d := s.draw 13; (1 + d.1 % 4, d.2)
  | none => let d := s.draw 13; (1 + d.1 % 4, d.2)

/-- The registers of a pipe's Jet, as a frame start takes them (R356). -/
def State.jetSnap (s : State) (p : Nat) : Table W32 :=
  s.live.filter fun e => decide (Reg.jetCtrl p ≤ e.1) && decide (e.1 < Reg.jetTable p 128)

/-- A raw slot of a stream whose frames pass through its pipe holds a frame that the pipe has not read (R585). -/
def State.rawHeld (s : State) (n slot log2 : Nat) : Bool :=
  (s.pipe (pipeOf n)).queue.any fun f => f.stream == n && f.frame % 2 ^ log2 == slot

/-- The mark with which a frame is discarded at its start, if it is (R584, R588, R593). -/
def State.startMark (s : State) (n frame : Nat) (e : List Byte) (t : Option (List Byte)) : Option Nat :=
  let l := Ent.ringLog2 e
  match s.inlinePipe n with
  | some p =>
    if s.rf (Reg.pipeCtrl p) F.pipeCtrl_ENABLE = 0 then some Mk.overrun
    else if !(t.map Tune.ok).getD false then some Mk.dropped
    else if Ent.outVa e != 0 && !s.slotFree n frame l then some Mk.dropped else none
  | none =>
    if Ent.pipe e then (if s.rawHeld n (frame % 2 ^ l) l then some Mk.dropped else none)
    else if s.slotFree n frame l then none else some Mk.dropped

/-- A frame of a stream begins (R584, R586). -/
def State.beginFrame (s : State) (n fn : Nat) : State :=
  match s.readEnt (s.pipeWho n) n with
  | (none, s) => s
  | (some e, s) =>
    let (t, s) := if (s.inlinePipe n).isSome then s.readTune n else (s.vpeek (s.tuneVa n) 1024, s)
    let (per, s) := s.cfaPeriod t
    let x := s.stream n
    let jetOn := match s.inlinePipe n with
      | some p => s.jetEn p && s.rf (Reg.jetCtrl p) F.jetCtrl_ENABLE == 1 && !s.startHeld Tag.cistern && !s.startHeld Tag.streams
      | none => false
    let f : FrameS :=
      { stream := n, frame := x.begun, fsGts := s.gts, csiFn := fn % 65536, ent := e, tune := t.getD [], period := per,
        jetOn := jetOn, jetRegs := if jetOn then s.jetSnap ((s.inlinePipe n).getD 0) else [] }
    let s := (s.setStreamSt n Sst.receiving).wf (Reg.csiVcStatus (n / 4) (n % 4)) F.csiVcStatus_FRAMES x.begun
    let x := { x with ent := e, begun := x.begun + 1, since := s.gts, lateFs := none }
    match s.startMark n f.frame e t with
    | some m =>
      let s := s.setStream n x
      let s := if m = Mk.overrun then s.bumpSat (Reg.pipeStatus (pipeOf n)) F.pipeStatus_OVERRUN_COUNT else s
      s.discard (f.mark m)
    | none => s.setStream n { x with cur := some { f with slot := f.frame % 2 ^ Ent.ringLog2 e } }

/-- A frame start packet of an enabled stream (R575, R579, R580). -/
def State.frameStart (s : State) (n fn : Nat) : State :=
  let s := s.endFrame n
  let st := s.streamSt n
  if st = Sst.stopped then s.setStream n { s.stream n with lateFs := some (s.gts, fn) }
  else if st = Sst.waitFs ∨ st = Sst.receiving then s.beginFrame n fn else s

/-- CSI_FRAME_START. -/
def State.csiFrameStart (s : State) (port vc fn ecc : Nat) : State :=
  let h := s.header port vc ecc false
  if h.1 && h.2.streamOn (streamOf port vc) then h.2.frameStart (streamOf port vc) fn else h.2

/-- CSI_FRAME_END (R575). -/
def State.csiFrameEnd (s : State) (port vc ecc : Nat) : State :=
  let n := streamOf port vc
  let h := s.header port vc ecc false
  let s := h.2
  if !h.1 || !s.streamOn n || s.streamSt n != Sst.receiving then s else
  let s := s.endFrame n
  if s.streamSt n = Sst.receiving then s.setStreamSt n Sst.waitFs else s

/-! Lines (R569, R574 to R579). -/

/-- The samples of a line as the Spillway finds them: none for one that is missing or odd. -/
def lineSamples (e : List Byte) (data : List Byte) : List (Option Nat) :=
  let v := unpack (dtBits (Ent.dt e)) data
  (List.range (Ent.samples e)).map fun x => match v[x]? with
    | some a => if oddSample e a then none else some a
    | none => none

/-- The marks of a line with a good CRC (R575). -/
def FrameS.lineMarks (f : FrameS) (data : List Byte) : FrameS :=
  let n := Ent.samples f.ent
  let v := unpack (dtBits (Ent.dt f.ent)) data
  let f := if v.length < n then f.mark Mk.shortLine else if n < v.length then f.mark Mk.longLine else f
  if (v.take n).any (oddSample f.ent) then f.mark Mk.odd else f

/-- A line of an open frame, its CRC checked (R574, R575). -/
def State.frameLine (s : State) (f : FrameS) (crcOk : Bool) (data : List Byte) : State :=
  let n := f.stream
  let keep := fun (s : State) (f : FrameS) => s.setStream n { s.stream n with cur := some f }
  let f := if crcOk then f else { f.mark Mk.crc with crcLines := f.crcLines + 1 }
  if Ent.height f.ent ≤ f.got then keep s (f.mark Mk.longLine) else
  let f := if crcOk then { f.lineMarks data with lines := f.lines + 1 } else f
  let l := lineSamples f.ent data
  if s.stops n && (!crcOk || l.any Option.isNone) then s.stopFrame f else
  let pol := s.policy n
  let r := f.spillLine pol.1 pol.2 f.got (!crcOk) l
  let q := s.passLine r.2 r.1
  keep q.2 q.1

/-- CSI_LINE: a long packet (R569, R572 to R579). -/
def State.csiLine (s : State) (port vc : Nat) (vcx : Bool) (dt ecc : Nat) (crcOk : Bool) (data : List Byte) : State :=
  let n := streamOf port vc
  let i := s.inject 0xE 0 1 n
  let ecc := match i.1 with
    | some e => if e = 1 then 1 else 2
    | none => ecc
  let h := i.2.header port vc ecc i.1.isSome
  let s := h.2
  if !h.1 then s
  else if vcx || !s.streamOn n then s.bumpSat (Reg.csiPortErr port) F.csiPortErr_VC_OTHER
  else if dt ≠ Ent.dt (s.stream n).ent then
    (s.bumpSat (Reg.csiVcErr port vc) F.csiVcErr_DT_OTHER).modOpen n fun f => f.mark Mk.dtOther
  else
    let c := s.inject 0xE 0 2 n
    let ok := crcOk && c.1.isNone
    let s := if ok then c.2 else
      (c.2.bumpSat (Reg.csiVcErr port vc) F.csiVcErr_CRC_LINES).csiOccur Kind.uncorrectable port vc c.1.isSome
    match (s.stream n).cur with
    | some f => s.frameLine f ok data
    | none => s

/-! Control (R580, R585, R594). -/

/-- CSI_VC_CTRL is written: RESTART takes a stopped stream to WAIT_FS, and a frame start of the same cycle begins a frame
(R580). -/
def State.csiRestart (s : State) (tag port vc : Nat) (v : W32) : State :=
  let n := streamOf port vc
  let s := s.writeReg tag (Reg.csiVcCtrl port vc) v
  if v.fld F.csiVcCtrl_RESTART = 0 ∨ s.streamSt n ≠ Sst.stopped then s else
  let s := s.setStreamSt n Sst.waitFs
  let x := s.stream n
  let s := s.setStream n { x with since := s.gts, lateFs := none }
  match x.lateFs with
  | some (g, fn) => if g = s.gts then s.frameStart n fn else s
  | none => s

/-- The count of released frames of a stream is written (R585, R586). The spec gives the decoded streams no CSI_VC_REL
(DEDUCED, log entry 32). -/
def State.csiRel (s : State) (tag n : Nat) (v : W32) : State :=
  let s := s.keepRel n
  if n < 64 then s.writeReg tag (Reg.csiVcRel (n / 4) (n % 4)) v
  else s.setStream n { s.stream n with rel := v.toNat % 65536 }

/-- PIPE_TUNE_SEL is written (R594). -/
def State.tuneSelWrite (s : State) (tag p : Nat) (v : W32) : State :=
  (s.setPipe p { s.pipe p with selOld := s.tuneSel p, selAt := some s.gts }).writeReg tag (Reg.pipeTuneSel p) v

/-! Link loss (R596, R597). -/

/-- The state of FWP_CAM of a stream is set, with the millisecond of the change. -/
def State.setCam (s : State) (n st : Nat) : State :=
  if s.rf (Reg.fwpCam n) F.fwpCam_STATE = st then s else
  (s.wf (Reg.fwpCam n) F.fwpCam_STATE st).wf (Reg.fwpCam n) F.fwpCam_AT_MS (s.gts / 1000000)

/-- Codes of FWP_CAM.STATE. -/
def Cam.absent : Nat := 1
def Cam.configuring : Nat := 2
def Cam.streaming : Nat := 3
def Cam.unknownId : Nat := 4
def Cam.configFail : Nat := 5
def Cam.linkDown : Nat := 6
def Cam.notListed : Nat := 7

/-- A stream loses its link, or its frame starts: an open frame is discarded, and the stream enters LINK_DOWN, or STOPPED
under STOP (R596). -/
def State.streamLost (s : State) (n mark : Nat) : State :=
  let st := s.streamSt n
  if st ≠ Sst.waitFs ∧ st ≠ Sst.receiving then s else
  let s := s.discardOpen n mark
  if s.stops n then s.stopStream n else s.setStreamSt n Sst.linkDown

/-- LINK_DOWN: a port's PHY has seen no valid burst for 10 ms (R596). FWP1 shows it where it runs. -/
def State.linkDown (s : State) (p : Nat) : State :=
  let s := (s.setLink p 0).wf (Reg.csiPortStatus p) F.csiPortStatus_DESKEWED 0
  let s := [0, 1, 2, 3].foldl (fun s v => s.streamLost (streamOf p v) Mk.linkDown) s
  if !s.fwUp 1 then s else
  [0, 1, 2, 3].foldl (fun s v =>
    let n := streamOf p v
    if s.rf (Reg.fwpCam n) F.fwpCam_STATE = Cam.streaming then s.setCam n Cam.linkDown else s) s

/-- STREAM_TIMEOUT: TIMEOUT_US has passed without a frame start (R596). -/
def State.streamTimeout (s : State) (n : Nat) : State :=
  let x := s.stream n
  let t := Ent.timeoutUs x.ent
  if t = 0 ∨ s.gts < x.since + 1000 * t then s else s.streamLost n Mk.timeout

/-- LINK_UP: a port's PHY sees valid bursts (R597); `deskewed`: a deskew sequence has completed. -/
def State.linkUp (s : State) (p : Nat) (deskewed : Bool) : State :=
  if !s.portOn p then s else
  let s := (s.setLink p 2).wf (Reg.csiPortStatus p) F.csiPortStatus_DESKEWED (b2n deskewed)
  let s := [0, 1, 2, 3].foldl (fun s v =>
    let n := streamOf p v
    if s.streamSt n = Sst.linkDown then (s.setStreamSt n Sst.waitFs).setStream n { s.stream n with since := s.gts } else s) s
  if !s.fwUp 1 then s else
  [0, 1, 2, 3].foldl (fun s v =>
    let n := streamOf p v
    let c := s.rf (Reg.fwpCam n) F.fwpCam_STATE
    if c = Cam.configuring ∨ c = Cam.linkDown then s.setCam n Cam.streaming else s) s

/-! Discovery (R598, R692, R720). -/

/-- The camera table is well formed as far as R692 states its head. -/
def camTableOk (t : List Byte) : Bool :=
  u32 t 0 == 0x4D414343 && u16 t 4 == 0x0100 && decide (1 ≤ u16 t 6) && decide (u16 t 6 ≤ 64)

/-- Candidate sensor of a port's virtual channel. -/
def camCand (t : List Byte) (port vc : Nat) : Nat := u8 t (16 + 8 * port + vc)

/-- The µs that FWP1 charges a script record: 9 for each byte of address, register and data, or its wait (R692). -/
def recordUs (b : List Byte) : Nat :=
  if u8 b 0 = 1 then 9 * 4 else if u8 b 0 = 2 then 9 * 5 else if u8 b 0 = 3 then u32 b 4 else 0

/-- The µs that FWP1 charges the script of a sensor entry. -/
def scriptUs (t : List Byte) (i : Nat) : Nat :=
  let e := 144 + 32 * i
  let base := 144 + 32 * u16 t 6 + u32 t (e + 8)
  ((List.range (u32 t (e + 12))).map fun k => recordUs ((t.drop (base + 8 * k)).take 8)).sum

/-- FWP1 probes a port. `answers`: what each virtual channel's sensor does: 0 no answer, 1 it answers, matches its identity and
takes its script, 2 another identity, 3 its script fails. -/
def State.probe (s : State) (port : Nat) (answers : List Nat) : State :=
  let t := s.boot.camTable
  if !camTableOk t then s else
  let cands := [0, 1, 2, 3].filter fun v => camCand t port v != 0xFF
  let cost := (cands.map fun v => scriptUs t (camCand t port v)).sum
  let s := if s.rf (Reg.csiPortStatus port) F.csiPortStatus_LINK = 0 then s.setLink port 1 else s
  [0, 1, 2, 3].foldl (fun s v =>
    let n := streamOf port v
    let c := camCand t port v
    if 25000 < cost then s.setCam n Cam.configFail
    else if c = 0xFF then s.setCam n Cam.notListed
    else
      let a := answers.getD v 0
      if a = 0 then s.setCam n Cam.absent
      else if a = 1 then
        let s := s.wf (Reg.fwpCam n) F.fwpCam_SENSOR c
        s.setCam n (if s.rf (Reg.csiPortStatus port) F.csiPortStatus_LINK = 2 then Cam.streaming else Cam.configuring)
      else if a = 2 then s.setCam n Cam.unknownId
      else (s.wf (Reg.fwpCam n) F.fwpCam_SENSOR c).setCam n Cam.configFail) s

/-- A port has a channel that has not answered, or has lost its link (R598, R720). -/
def State.probeWanted (s : State) (port : Nat) : Bool :=
  [0, 1, 2, 3].any fun v =>
    let c := s.rf (Reg.fwpCam (streamOf port v)) F.fwpCam_STATE
    c == 0 || c == Cam.absent || c == Cam.linkDown

/-- The ns between FWP1's probes of a port: 100 ms while one of its streams is in LINK_DOWN or until 2,840 ms, and 1,000 ms
after that (R598, R720). The GTS of a POWER_ON boot counts from its start. -/
def State.probeEvery (s : State) (port : Nat) : Nat :=
  if [0, 1, 2, 3].any (fun v => s.rf (Reg.fwpCam (streamOf port v)) F.fwpCam_STATE == Cam.linkDown) || decide (s.gts < 2840000000)
  then 100000000 else 1000000000

/-- FWP1's next probe of a port is due: its first, or one that the port wants after its interval. -/
def State.probeDue (s : State) (port : Nat) : Bool :=
  let t := Table.get 0 s.boot.probed port
  s.probeWanted port && (t == 0 || decide (t - 1 + s.probeEvery port ≤ s.gts))

/-- CAM_PROBE_CYCLE: FWP1 probes a port, and notes when. -/
def State.probeCycle (s : State) (port : Nat) (answers : List Nat) : State :=
  ({ s with boot := { s.boot with probed := Table.put 0 s.boot.probed port (s.gts + 1) } } : State).probe port answers

/-- CAM_PROBE: a request to probe one port (R693). -/
def State.camProbe (answers : List Nat) (r : FwReq) (s : State) : FwResult :=
  if 16 ≤ r.a0 then (some (Rs.badArg, none), s) else (some (Rs.ok, none), s.probe r.a0 answers)

/-! Meanings. -/

def execCsiFrameStart (port vc fn ecc : Nat) (s : State) :=
  onFabric s (guarded (decide (port < 16) && decide (vc < 4) && s.portOn port) fun s => s.csiFrameStart port vc fn ecc)
def execCsiLine (port vc : Nat) (vcx : Bool) (dt ecc : Nat) (crcOk : Bool) (data : List Byte) (s : State) :=
  onFabric s (guarded (decide (port < 16) && decide (vc < 4) && s.portOn port) fun s =>
    s.csiLine port vc vcx dt ecc crcOk data)
def execCsiFrameEnd (port vc ecc : Nat) (s : State) :=
  onFabric s (guarded (decide (port < 16) && decide (vc < 4) && s.portOn port) fun s => s.csiFrameEnd port vc ecc)
def execCsiRestart (tag port vc : Nat) (v : W32) (s : State) :=
  onFabric s (guarded (decide (port < 16) && decide (vc < 4)) fun s => s.csiRestart tag port vc v)
def execCsiVcRelWrite (tag stream : Nat) (v : W32) (s : State) :=
  onFabric s (guarded (decide (stream < 128)) fun s => s.csiRel tag stream v)
def execPipeTuneSelWrite (tag p : Nat) (v : W32) (s : State) :=
  onFabric s (guarded (decide (p < 4)) fun s => s.tuneSelWrite tag p v)
def execLinkDown (port : Nat) (s : State) := onFabric s (guarded (decide (port < 16)) fun s => s.linkDown port)
def execStreamTimeout (stream : Nat) (s : State) :=
  onFabric s (guarded (decide (stream < 64)) fun s => s.streamTimeout stream)
def execLinkUp (port : Nat) (deskewed : Bool) (s : State) :=
  onFabric s (guarded (decide (port < 16)) fun s => s.linkUp port deskewed)
def execCamProbeCycle (port : Nat) (answers : List Nat) (s : State) :=
  onFabric s (guarded (decide (port < 16) && s.fwUp 1 && s.probeDue port) fun s => s.probeCycle port answers)
def execCamProbe (answers : List Nat) (s : State) := onFabric s fun s => s.fwServe 0x30 (State.camProbe answers)

end Sys2Proof.Machine
end

