-- ==== Sys2Proof/Machine/Pipes.lean ====
section
/-! DEFINITION. Sys2Proof/Machine/Pipes.lean: the image pipes at work (spec/11 R587 to R595) and their Jets (spec/06 R350 to
R356; spec/09 R472). -/
namespace Sys2Proof.Machine

/-! Jets. -/

/-- A register of a Jet as its frame took it. -/
def JetRun.rd (j : JetRun) (off : Nat) : W32 := Table.get (RegRow.resetOf off) j.regs off

def JetRun.kh (j : JetRun) (p : Nat) : Nat := (j.rd (Reg.jetCfg p)).fld F.jetCfg_KH
def JetRun.kw (j : JetRun) (p : Nat) : Nat := (j.rd (Reg.jetCfg p)).fld F.jetCfg_KW
def JetRun.stride (j : JetRun) (p : Nat) : Nat := 1 + (j.rd (Reg.jetCfg p)).fld F.jetCfg_STRIDE2
def JetRun.pad (j : JetRun) (p : Nat) : Nat := (j.rd (Reg.jetCfg p)).fld F.jetCfg_PAD
def JetRun.cin (j : JetRun) (p : Nat) : Nat := 3 + (j.rd (Reg.jetCfg p)).fld F.jetCfg_CIN4
def JetRun.sb32 (j : JetRun) (p : Nat) : Bool := (j.rd (Reg.jetCfg p)).fld F.jetCfg_SB32 == 1
def JetRun.outU8 (j : JetRun) (p : Nat) : Bool := (j.rd (Reg.jetCfg p)).fld F.jetCfg_OUT_U8 == 1
def JetRun.act (j : JetRun) (p : Nat) : Nat := (j.rd (Reg.jetCfg p)).fld F.jetCfg_ACT
def JetRun.inZp (j : JetRun) (p : Nat) : Nat := (j.rd (Reg.jetQuant p)).fld F.jetQuant_IN_ZP

/-- Output positions along an axis of n pixels with a window of k (R351). -/
def jetOut (n k pad stride : Nat) : Nat := if n + 2 * pad < k then 0 else (n + 2 * pad - k) / stride + 1

def JetRun.wOut (j : JetRun) (p : Nat) : Nat := jetOut j.w (j.kw p) (j.pad p) (j.stride p)
def JetRun.hOut (j : JetRun) (p : Nat) : Nat := jetOut j.h (j.kh p) (j.pad p) (j.stride p)

/-- JET_ROW_PITCH of a width (R351). -/
def jetPitch (wOut : Nat) (sb32 : Bool) : Nat := ceilDiv (wOut * (if sb32 then 72 else 64)) 512 * 512
def JetRun.pitch (j : JetRun) (p : Nat) : Nat := jetPitch (j.wOut p) (j.sb32 p)

/-- Byte b of a byte array held in registers from `off` on. -/
def JetRun.byte (j : JetRun) (off b : Nat) : Nat := (j.rd (off + 4 * (b / 4))).toNat / 256 ^ (b % 4) % 256

/-- The Jet's parameters and table in the form of a drain set (R332, R350). -/
def JetRun.dset (j : JetRun) (p : Nat) : List Byte :=
  leBytes 0 1 ++ leBytes 1 1 ++ leBytes 64 2 ++ leBytes 0 4 ++
  (List.range 128).flatMap (fun w => leBytes (j.rd (Reg.jetTable p w)).toNat 4) ++
  (List.range 128).flatMap fun w => leBytes (j.rd (Reg.jetParams p w)).toNat 4

/-- The Jet's drain as a descriptor: BIAS, REQUANT, ACT and narrowing to I8 or U8 (R350). -/
def JetRun.desc (j : JetRun) (p : Nat) : DrainDesc :=
  let q := j.rd (Reg.jetQuant p)
  let zp := q.fld F.jetQuant_ZP_OUT
  { stages := 3 + (if j.act p = 0 then 0 else 4), fmt := if j.outU8 p then 1 else 0, act := if j.act p = 2 then 1 else 0,
    shift := sext 8 (q.fld F.jetQuant_SHIFT), pWrap := 64, zp := if j.outU8 p then (zp : Int) else sext 8 zp,
    actBase := sext 32 (j.rd (Reg.jetActBase p)).toNat, actShift := q.fld F.jetQuant_ACT_SHIFT }

/-- The pixel code under a window place, or IN_ZP outside the picture (R350). -/
def JetRun.pixel (j : JetRun) (p : Nat) (iy ix : Int) (ci : Nat) : Nat :=
  if iy < 0 ∨ ix < 0 ∨ (j.h : Int) ≤ iy ∨ (j.w : Int) ≤ ix then j.inZp p
  else u8 (j.lines.getD iy.toNat []) (ix.toNat * j.cin p + ci)

/-- The sum of an output position and channel (R350). -/
def JetRun.sum (j : JetRun) (p ox co : Nat) : Int :=
  ((List.range (j.kh p)).map fun ky => ((List.range (j.kw p)).map fun kx => ((List.range (j.cin p)).map fun ci =>
    let iy : Int := ((j.oy * j.stride p + ky : Nat) : Int) - j.pad p
    let ix : Int := ((ox * j.stride p + kx : Nat) : Int) - j.pad p
    sext 8 (j.byte (Reg.jetWeights p 0) (((ky * 7 + kx) * 4 + ci) * 64 + co)) *
      ((j.pixel p iy ix ci : Int) - j.inZp p)).sum).sum).sum

/-- An output code of the Jet; ACT 0b11 is illegal, and its result a free value. `d`: the draw. -/
def JetRun.code (j : JetRun) (p d ox co : Nat) : Nat :=
  if j.act p = 3 then freeAt d 11 j.oy ox co % 256 else
  let k := j.desc p
  (k.narrow (k.element (j.dset p) { shift := k.shift, resShift := 0 } 0 0 co 0 (j.sum p ox co)) false).1 % 256

/-- Output row oy in pieces: offset and bytes (R351). With SB32 each position's run begins at its slot of worst-case size, and
the rest of the slot is not written (R303, R304). -/
def JetRun.row (j : JetRun) (p d : Nat) : List (Nat × List Byte) :=
  let pos := fun ox => (List.range 64).map fun co => BitVec.ofNat 8 (j.code p d ox co)
  if j.sb32 p then (List.range (j.wOut p)).map fun ox => (72 * ox, sb32Pack 2 (pos ox))
  else [(0, (List.range (j.wOut p)).flatMap pos)]

/-- Input lines that output row oy needs (R352). -/
def JetRun.needs (j : JetRun) (p : Nat) : Nat :=
  min (j.h - 1) (j.oy * j.stride p + j.kh p - 1 - j.pad p) + 1

/-- A frame of a Jet is lost to an overrun (R355). -/
def State.jetOverrun (s : State) (p frame : Nat) : State :=
  let s := s.bumpSat (Reg.jetStatus p) F.jetStatus_OVERRUN_COUNT
  let s := s.wf (Reg.jetStatus p) F.jetStatus_OVERRUN 1
  let x := s.pipe p
  let hit := fun (f : FrameS) => if f.frame = frame then f.mark Mk.overrun else f
  let s := s.setPipe p { x with inl := x.inl.map hit, jet := x.jet.filter fun j => j.frame != frame }
  let n := streamOf (s.pipePort p) (s.pipeVc p)
  s.setStream n { s.stream n with cur := (s.stream n).cur.map hit, ready := (s.stream n).ready.map hit }

/-- The offset in its ring at which the Jet writes its next output row: the rows of all frames follow one another and begin
again at the range's first page (R351, R355; log entry 141). -/
def State.jetRowAt (s : State) (p : Nat) (j : JetRun) : Option Nat :=
  let size := s.jetCount p * 0x10000
  let at_ := (s.pipe p).ringAt
  if size < j.pitch p then none else some (if at_ + j.pitch p ≤ size then at_ else 0)

/-- JET_ROW_COMPLETE: the next output row enters the ring, or finds no free row (R352, R355). -/
def State.jetRowComplete (s : State) (p : Nat) : State :=
  let x := s.pipe p
  match x.jet with
  | none => s
  | some j =>
    if j.hOut p ≤ j.oy ∨ j.lines.length < j.needs p then s else
    match s.jetRowAt p j with
    | none => s.jetOverrun p j.frame
    | some at_ =>
      let pitch := j.pitch p
      let a := s.jetFirst p * 0x10000 + at_
      if x.ring.any fun r => decide (a < r.addr + r.pitch) && decide (r.addr < a + pitch) then s.jetOverrun p j.frame else
      let (d, s) := if j.act p = 3 then s.draw 14 else (0, s)
      let s := (j.row p d).foldl (fun s w => s.cisWr (a + w.1) w.2) s
      let buf := j.frame % 2
      let base := (j.rd (Reg.jetDstLo p buf)).toNat + (j.rd (Reg.jetDstHi p buf)).toNat % 65536 * 2 ^ 32
      let last := decide (j.oy + 1 = j.hOut p)
      let r : JetRow := { addr := a, pitch := pitch, dst := base + j.oy * pitch, frame := j.frame, last := last,
                          marks := j.marks }
      s.setPipe p { s.pipe p with
        ring := x.ring ++ [r], ringAt := at_ + pitch, jet := if last then none else some { j with oy := j.oy + 1 } }

/-- Every page of a range has a locked translation (R472). -/
def State.lockedRange (s : State) (va n : Nat) : Bool :=
  (vpagesOf va n).all fun p => s.weir.locked.any fun e => e.2.1 == p

/-- Some of a frame's marks are CSI error marks. -/
def csiMarked (m : Nat) : Bool := m % 32 != 0 || m.testBit Mk.dtOther

/-- The marks of a row's frame as they stand: those of a frame that is still open, or the last it had (R354). -/
def State.jetMarks (s : State) (p : Nat) (r : JetRow) : Nat :=
  let open_ := (s.pipe p).inl ++ (s.stream (streamOf (s.pipePort p) (s.pipeVc p))).cur.toList
  ((open_.filter fun f => f.frame == r.frame).foldl (fun m f => m ||| f.marks) r.marks)

/-- JET_ROW_TRANSFER: the oldest row of the ring goes to its frame buffer (R353, R354); one without a locked translation, or
whose ring words are uncorrectable, is not made and loses its frame (R472). -/
def State.jetRowTransfer (s : State) (p : Nat) : State :=
  let x := s.pipe p
  match x.ring with
  | [] => s
  | r :: l =>
    let s := s.setPipe p { x with ring := l }
    let (b, bad, s) := s.cisRd r.addr r.pitch
    let lose := fun (s : State) =>
      (s.setPipe p { s.pipe p with ring := (s.pipe p).ring.filter fun q => q.frame != r.frame }).jetOverrun p r.frame
    if bad || !s.lockedRange r.dst r.pitch then lose s else
    let w := s.vwrite { tag := 0x200 + p, holder := some (2 ^ 40 + p) } r.dst b
    if !w.1 then lose (w.2.xlateFault (0x200 + p)) else
    if !r.last then w.2 else
    let s := w.2.wn (Reg.jetFrame p) (w.2.rn (Reg.jetFrame p) + 1)
    let m := s.jetMarks p r
    s.raiseDev (40 + p) Ev.jetFrame (r.frame % 2 * 2 ^ 31 + b2n (m.testBit Mk.overrun) * 2 ^ 30 + b2n (csiMarked m) * 2 ^ 29 +
      s.rn (Reg.jetFrame p) % 2 ^ 29)

/-! In-line lines (R587, R588). -/

/-- The in-line stream of a pipe. -/
def State.inlineStream (s : State) (p : Nat) : Nat := streamOf (s.pipePort p) (s.pipeVc p)

/-- The in-line frame whose lines a pipe delivers next. -/
def State.inlineFrame (s : State) (p : Nat) : Option FrameS :=
  match (s.pipe p).inl with
  | f :: _ => some f
  | [] => if s.pipeMode p = 1 then (s.stream (s.inlineStream p)).cur else none

/-- The state with that frame replaced, or gone. -/
def State.setInline (s : State) (p : Nat) (f : Option FrameS) : State :=
  match (s.pipe p).inl with
  | _ :: l => s.setPipe p { s.pipe p with inl := f.toList ++ l }
  | [] => let n := s.inlineStream p; s.setStream n { s.stream n with cur := f }

/-- A write of a pipe's line memory and its read: whether an uncorrectable error is found (R642, R643). -/
def State.lineMemory (s : State) (p : Nat) : Bool × State :=
  match s.inject 0x17 0 1 (9 * 256 + p) with
  | (none, s) => (false, s)
  | (some e, s) =>
    if e = 1 then (false, s.occur ⟨1, Kind.corrected, 9, p, true⟩)
    else (true, (s.occur ⟨1, Kind.uncorrectable, 9, p, true⟩).logUe 9 0)

/-- The Jet takes a formatted line (R350, R595). -/
def State.jetLine (s : State) (p : Nat) (f : FrameS) (b : List Byte) : FrameS × State :=
  if !f.jetOn then (f, s) else
  let fmt := Tune.outFmt f.tune
  let x := s.pipe p
  if f.outY = 0 then
    let j : JetRun := { frame := f.frame, regs := f.jetRegs, w := Ent.width f.ent, h := Ent.height f.ent, lines := [b],
                        marks := f.marks }
    if fmt = (if j.cin p = 3 then 1 else 2) then (f, s.setPipe p { x with jet := some j })
    else ({ f.mark Mk.overrun with jetOn := false }, s)
  else match x.jet with
    | some j => if j.frame = f.frame then
        (f, s.setPipe p { x with jet := some { j with lines := j.lines ++ [b], marks := f.marks } }) else (f, s)
    | none => (f, s)

/-- The base of a frame's output slot. -/
def FrameS.outBase (f : FrameS) : Nat := Ent.outVa f.ent + outSlot f.ent f.tune * (f.frame % 2 ^ Ent.ringLog2 f.ent)

/-- The reference bytes of a line, read where TNR is enabled (R590). -/
def State.readRef (s : State) (who : Who) (f : FrameS) (y : Nat) : RefLine × State :=
  if !Tune.stage f.tune 3 then ([], s) else
  match s.vread who (Tune.refVa f.tune + Ent.width f.ent * y) (Ent.width f.ent) with
  | (some (b, _), s) => (b, s)
  | (none, s) => let d := s.draw 15; ((List.range (Ent.width f.ent)).map fun x => BitVec.ofNat 8 (freeAt d.1 5 y x 0), d.2.xlateFault who.tag)

/-- The new reference bytes of a line are written. -/
def State.writeRef (s : State) (who : Who) (f : FrameS) (y : Nat) (b : RefLine) : State :=
  if !Tune.stage f.tune 3 then s else
  let w := s.vwrite who (Tune.refVa f.tune + Ent.width f.ent * y) b
  if w.1 then w.2 else w.2.xlateFault who.tag

/-- The free bytes of a second plane of NV12, and of the statistics, whose arithmetic the spec does not state. -/
def freeBytes (d n : Nat) : List Byte := (List.range n).map fun i => BitVec.ofNat 8 (Config.freePixel d 12 i 0)

/-- A write for a pipe; a translation fault is reported (R462). -/
def State.pipeWrite (s : State) (who : Who) (va : Nat) (b : List Byte) : State :=
  let w := s.vwrite who va b
  if w.1 then w.2 else w.2.xlateFault who.tag

/-- What follows a frame's last line: the chroma plane of NV12, and the statistics (R593, R595). -/
def State.frameTail (s : State) (who : Who) (f : FrameS) (stored : Bool) : State :=
  let d := s.draw 16
  let s := d.2
  let pitch := outPitch f.ent f.tune
  let h := Ent.height f.ent
  let s := if stored && Tune.outFmt f.tune == 4 then s.pipeWrite who (f.outBase + pitch * h) (freeBytes d.1 (pitch * h / 2)) else s
  if Tune.stage f.tune 8 then s.pipeWrite who (Tune.statsVa f.tune) (freeBytes d.1 5120) else s

/-- One output line of a frame: its bytes go to the output slot where there is one, and TNR's reference is renewed. -/
def State.pipeOut (s : State) (who : Who) (f : FrameS) (rows : List (List Nat)) (stored : Bool) (y : Nat) :
    List Byte × State :=
  let d := s.draw 17
  let r := d.2.readRef who f y
  let o := pipeLine f.ent f.tune d.1 f.period rows r.1 y
  let s := r.2.writeRef who f y o.2
  (o.1, if stored then s.pipeWrite who (f.outBase + outPitch f.ent f.tune * y) o.1 else s)

/-- PIPE_INLINE_LINE: the next output line of the in-line frame, once its input lines are there; `overflow`: the port's line
buffer has overflowed (R588). -/
def State.inlineLine (s : State) (p : Nat) (overflow : Bool) : State :=
  match s.inlineFrame p with
  | none => s
  | some f =>
    if overflow then
      ((s.setInline p none).bumpSat (Reg.pipeStatus p) F.pipeStatus_OVERRUN_COUNT).discard (f.mark Mk.overrun)
    else if f.rows.length ≤ min (Ent.height f.ent - 1) (f.outY + 6) ∨ Ent.height f.ent ≤ f.outY then s else
    let m := s.lineMemory p
    if m.1 then (m.2.setInline p none).discard (f.mark (if f.jetOn then Mk.overrun else Mk.dropped)) else
    let who := m.2.pipeWho f.stream
    let stored := Ent.outVa f.ent != 0
    let o := m.2.pipeOut who f f.rows stored f.outY
    let j := o.2.jetLine p f o.1
    let f := { j.1 with outY := f.outY + 1 }
    let s := j.2
    if f.outY < Ent.height f.ent then s.setInline p (some f) else
    let s := s.frameTail who f stored
    let f := f.mark Mk.piped
    if f.closed then (s.setInline p none).recordDue f else s.setInline p (some f)

/-! Memory-path frames (R585, R587, R592). -/

/-- a goes before b: the lower GTS of the frame end, then the lower stream number (R587). -/
def FrameS.earlier (a b : FrameS) : Bool :=
  decide (a.feGts < b.feGts) || (a.feGts == b.feGts && decide (a.stream < b.stream))

/-- The next memory-path frame of a queue. -/
def nextFrame : List FrameS → Option FrameS
  | [] => none
  | f :: l => match nextFrame l with
    | none => some f
    | some g => if g.earlier f then some g else some f

/-- The samples of a raw line as a pipe reads them back: none where a 64-byte piece of it is uncorrectable (R654). -/
def State.readRaw (s : State) (who : Who) (f : FrameS) (y : Nat) : List (Option Nat) × State :=
  let b := dtBits (Ent.dt f.ent)
  let r := (List.range (Ent.rawPitch f.ent / 64)).foldl (fun (r : List Byte × List Nat × State) k =>
    match r.2.2.vread who (f.rawLine y + 64 * k) 64 with
    | (some (l, bad), s) => (r.1 ++ l, (if bad then r.2.1 ++ [k] else r.2.1), s)
    | (none, s) => (r.1 ++ List.replicate 64 0#8, r.2.1 ++ [k], s)) ([], [], s)
  let vs := (unpack b r.1).take (Ent.samples f.ent)
  let hit := fun x =>
    let g := groupSize b
    let lo := x / g.2 * g.1
    r.2.1.any fun k => decide (lo < 64 * (k + 1)) && decide (64 * k < lo + g.1)
  ((List.range (Ent.samples f.ent)).map fun x => if hit x then none else vs[x]?, r.2.2)

/-- The lines of a frame's raw slot, corrupt samples replaced as the Spillway replaces them (R576, R654): whether the stop
policy ends the frame, the frame, and its lines. -/
def State.readFrame (s : State) (who : Who) : Nat → FrameS → Bool × FrameS × List (List Nat) × State
  | 0, f => (false, f, [], s)
  | n + 1, f =>
    let r := s.readFrame who n f
    if r.1 then r else
    let q := r.2.2.2.readRaw who f n
    if s.stops f.stream && q.1.any Option.isNone then (true, r.2.1, r.2.2.1, q.2) else
    let pol := s.policy f.stream
    let o := r.2.1.spillLine pol.1 pol.2 n false q.1
    (false, o.2, r.2.2.1 ++ [o.1], q.2)

/-- PIPE_MEMORY_FRAME: the next memory-path frame of a pipe, from its tuning record to its output (R587, R592, R593). -/
def State.memoryFrame (s : State) (p : Nat) : State :=
  match nextFrame (s.pipe p).queue with
  | none => s
  | some f =>
    let s := s.setPipe p { s.pipe p with queue := (s.pipe p).queue.erase f }
    let n := f.stream
    let who := s.pipeWho n
    let (t, s) := s.readTune n
    if !(t.map Tune.ok).getD false || !s.slotFree n f.frame (Ent.ringLog2 f.ent) then s.discard (f.mark Mk.dropped) else
    let (per, s) := s.cfaPeriod t
    let f := { f with tune := t.getD [], period := per, lastS := [], lastL := [] }
    let m := s.lineMemory p
    if m.1 then m.2.discard (f.mark Mk.dropped) else
    let r := m.2.readFrame who (Ent.height f.ent) f
    if r.1 then (r.2.2.2.discard (r.2.1.mark Mk.stopped)).stopStream n else
    let f := r.2.1.mark Mk.piped
    let s := (List.range (Ent.height f.ent)).foldl (fun s y => (s.pipeOut who f r.2.2.1 true y).2) r.2.2.2
    (s.frameTail who f true).recordDue f

/-- The pipes stop at once (R668): the frames in work are discarded, marked DROPPED, and the Jets abandon theirs. -/
def State.pipesStop (s : State) : State :=
  [0, 1, 2, 3].foldl (fun s p =>
    let s := match s.inlineFrame p with
      | some f => (s.setInline p none).discard (f.mark Mk.dropped)
      | none => s
    s.setPipe p { s.pipe p with jet := none }) s

/-- The clock of the image pipes runs (R668). -/
def State.pipesOn (s : State) : Bool := !s.integ.stopped.contains 5

/-! Meanings. -/

def execPipeMemoryFrame (p : Nat) (s : State) :=
  onFabric s (guarded (decide (p < 4) && s.pipesOn && s.dramServes && !s.startHeld Tag.streams &&
    s.rf (Reg.pipeCtrl p) F.pipeCtrl_ENABLE == 1) fun s => s.memoryFrame p)
def execPipeInlineLine (p : Nat) (overflow : Bool) (s : State) :=
  onFabric s (guarded (decide (p < 4) && s.pipesOn &&
    !(s.startHeld Tag.streams && (s.inlineFrame p).any fun f => f.outY == 0)) fun s => s.inlineLine p overflow)
def execJetRowComplete (p : Nat) (s : State) :=
  onFabric s (guarded (decide (p < 4) && s.pipesOn) fun s => s.jetRowComplete p)
def execJetRowTransfer (p : Nat) (s : State) :=
  onFabric s (guarded (decide (p < 4) && s.pipesOn && s.dramServes) fun s => s.jetRowTransfer p)

end Sys2Proof.Machine
end

