-- ==== Sys2Proof/Machine/Integrity.lean ====
section
/-! DEFINITION. Sys2Proof/Machine/Integrity.lean: injection points, register parity, the monitors and the protective stop, the
watchdogs, the safety pairs, tamper, twin mismatches and PCIe errors (spec/13; spec/14 R706 to R708; spec/15 R733). -/
namespace Sys2Proof.Machine

/-! Injection points (R635 to R637, R642). -/

/-- The blocks that host an injection point (R642). -/
def injBlock (block : Nat) : Bool :=
  block == 2 || (4 ≤ block && block ≤ 9) || block == 0xE || block == 0xF || block == 0x10 || block == 0x11 || block == 0x13 ||
  block == 0x17

/-- A block and an instance name an injection point. -/
def injPoint (block inst : Nat) : Bool := injBlock block && decide (inst < if block = 8 then 16 else 1)

/-- TEST_EN or DEBUG_GRANT allows injections (R636). -/
def State.injAllowed (s : State) : Bool :=
  s.rf Reg.chipMode F.chipMode_TEST_EN == 1 || s.rf Reg.intStatus F.intStatus_DEBUG_GRANT == 1

/-- An unlock, or a write that one would admit, is refused (R636). -/
def State.injRefuse (s : State) : State := s.wf Reg.intStatus F.intStatus_INJ_REFUSED 1

/-- INJ_UNLOCK is written (R635, R636): stage 1 after the first key, stage 2 once unlocked. -/
def State.injUnlock (s : State) (block inst : Nat) (v : W32) : State :=
  let j := s.inj block inst
  let s := s.touch block
  if j.stage = 2 then s
  else if v = 0x5EED#32 then s.setInj block inst { s.inj block inst with stage := 1 }
  else if v = 0xFA11#32 ∧ j.stage = 1 then
    if s.injAllowed then s.setInj block inst { s.inj block inst with stage := 2 } else s.injRefuse
  else s

/-- The point accepts writes: it is unlocked, and injections are still allowed. -/
def State.injOpen (s : State) (block inst : Nat) : Bool := (s.inj block inst).stage == 2 && s.injAllowed

/-- INJ_MODE is written (R635, R637, R638): 0 disarms a locked point too, and any write locks an unlocked one. -/
def State.injMode (s : State) (tag block inst : Nat) (v : W32) : State :=
  let j := s.inj block inst
  let o := s.injOpen block inst
  let refused := j.stage == 2 && !o && v != 0#32
  let s := (s.touch block).setInj block inst { (s.inj block inst) with stage := 0 }
  let s := if refused then s.injRefuse else s
  if !o && v != 0#32 then s else
  let s := s.writeReg tag (injBase block inst + 8) v
  let s := s.setInj block inst { s.inj block inst with count := 0 }
  if v.fld F.inj_ARM = 1 then s.wf (injBase block inst + 0xC) F.inj_MADE 0 else s

/-- DET and SITE form a row of R642 for a block. -/
def injRow (block det site : Nat) : Bool :=
  let rows : List (Nat × Nat) :=
    if block = 8 then [(1, 1), (2, 1), (3, 1), (4, 1), (5, 0x0B), (6, 4), (7, 3)]
    else if 4 ≤ block ∧ block ≤ 7 then [(1, 1)]
    else if block = 9 then [(1, 1), (2, 1)]
    else if block = 2 then [(1, 4), (2, 4), (3, 4), (4, 4)]
    else if block = 0xE then [(1, 5), (2, 5)]
    else if block = 0xF then [(1, 1)]
    else if block = 0x13 then [(1, 0xF)]
    else if block = 0x10 then [(1, 2), (2, 2)]
    else if block = 0x11 then [(1, 6), (2, 6)]
    else if block = 0x17 then
      [(1, 1), (2, 3), (3, 7), (4, 8), (5, 9), (6, 0xA), (7, 0xC), (8, 0xD), (9, 0xE), (0xA, 0x10), (0xB, 0x11), (0xC, 4)]
    else []
  rows.contains (site, det)

/-- The injection point whose INJ_SEL, INJ_MODE or INJ_COUNT lies at an offset. -/
def injAt (off : Nat) : Option (Nat × Nat) :=
  let block := off / 0x100000
  let inst := if block = 8 then off / 0x10000 % 16 else 0
  if injBlock block && decide (injBase block inst ≤ off) && decide (off < injBase block inst + 0x10) then some (block, inst)
  else none

/-- INJ_SEL or INJ_COUNT is written (R635, R636, R642). -/
def State.injConfig (s : State) (tag off : Nat) (v : W32) (block inst : Nat) : State :=
  if !s.injOpen block inst then (if (s.inj block inst).stage == 2 then (s.touch block).injRefuse else s.touch block)
  else if off = injBase block inst + 4 ∧ !injRow block (v.toNat / 2 ^ 24) (v.fld F.inj_SITE) then s.touch block
  else s.writeReg tag off v

/-! Register parity (R657 to R660). -/

/-- A configuration register: one with an RW, WS, TW or RWL field. -/
def isConfig (off : Nat) : Bool :=
  match RegRow.of? off with
  | some r => (r.rw ||| r.ws ||| r.tw ||| r.rwl) != 0#32
  | none => false

/-- A register's parity fails (R659, R660): it is reported once, and a fault is charged to the running layer that uses it. -/
def State.parityFail (s : State) (off : Nat) (inj : Bool) : State :=
  if !isConfig off || s.integ.parBad.contains off then s else
  let s := { s with integ := { s.integ with parBad := s.integ.parBad ++ [off] } }
  let u := unitOf off
  let s := s.occur ⟨3, Kind.occurrence, u, parIndex off, inj⟩
  let s := if s.detOn 3 then s.cause 10 else s
  if u = 8 then s.coreFault (off / 0x10000 % 16) 3 false
  else if 4 ≤ u ∧ u ≤ 7 then s.chargeFault (u - 4) 3 false
  else s

/-- The register that an armed parity site names, visited by the scan (R642, R830). -/
def State.paritySite (s : State) (block inst site : Nat) (regOf : Nat → Nat) : State :=
  let t := s.rf (injBase block inst + 4) F.inj_TARGET
  if !isConfig (regOf t) then s else
  match s.inject block inst site t with
  | (some _, s) => s.parityFail (regOf t) true
  | (none, s) => s

/-- PARITY_SCAN: one visit of every configuration register. `bad`: the registers whose parity is wrong; `staged`: those whose
staged value's parity is. -/
def State.parityScan (s : State) (bad staged : List Nat) : State :=
  let s := bad.foldl (fun s off => s.parityFail off false) s
  let s := s.paritySite 0x17 0 2 fun t => t / 256 % 256 * 0x100000 + t % 256 * 4
  let s := (List.range 16).foldl (fun s c => s.paritySite 8 c 7 fun t => 0x800000 + 0x10000 * c + t % 1024 * 4) s
  let held := staged.filter fun off => (s.stagedAt off).isSome && !s.integ.stagedBad.contains off
  { s with integ := { s.integ with stagedBad := s.integ.stagedBad ++ held } }

/-! Monitors and the protective stop (R665 to R668, R733). -/

/-- The rows marked Yes: clock domains, and rails. -/
def yesClocks : List Nat := [1, 2, 4, 8]
def yesRails : List Nat := [0, 1, 4]

/-- A finding of a row: clocks by their number, rails at 16 + number. -/
def State.rowOut (s : State) (n : Nat) : Bool :=
  if 16 ≤ n then s.integ.railOut.testBit (n - 16) else s.integ.clkOut.testBit n || s.integ.clkStopped.testBit n

/-- Every monitor of a Yes row reports in range. -/
def State.yesInRange (s : State) : Bool := (yesClocks ++ yesRails.map (· + 16)).all fun n => !s.rowOut n

/-- The protective stop begins (R666). -/
def State.protectiveStop (s : State) (det : Nat) : State :=
  let s := s.breachFloor
  let s := [0, 1, 2, 3, 4].foldl (fun s e => (s.chargeFault e det false).halt e) s
  { s with integ := { s.integ with protective := true } }

/-- A root-domain finding gates every clock and starts the judging of REF_CLK again (R733, R734). -/
def State.rootLoss (s : State) : State :=
  { s with clk := { s.clk with gated := true, locked := false, selfRefresh := true, src := .judging, refClk := {} } }

/-- The blocks of a No row stop at once (R668). -/
def State.rowStop (s : State) (n : Nat) : State :=
  let s := { s with integ := { s.integ with stopped := s.integ.stopped.erase n ++ [n] } }
  if n = 0 then s.setRefClk {}
  else if n = 5 then s.pipesStop
  else if n = 6 then s.codecStop
  else if n = 7 then [0, 1, 2, 3, 4].foldl (fun s p => s.fwNeed p RstCause.clock) s
  else s

/-- A bit of a number set or cleared. -/
def putBit (n i : Nat) (b : Bool) : Nat := if n.testBit i = b then n else if b then n + 2 ^ i else n - 2 ^ i

/-- The monitor's reading of a row is noted: a row that comes back into range is timed (R667, R668). -/
def State.noteRow (s : State) (rail : Bool) (n : Nat) (out stopped : Bool) : State :=
  let row := if rail then 16 + n else n
  let was := s.rowOut row
  let i := s.integ
  let s := { s with integ := if rail then { i with railOut := putBit i.railOut n out }
    else { i with clkOut := putBit i.clkOut n out, clkStopped := putBit i.clkStopped n stopped } }
  if was && !s.rowOut row then
    { s with integ := { s.integ with cleared := Table.put 0 s.integ.cleared row s.gts,
                                     yesOk := if s.yesInRange then s.gts else s.integ.yesOk } }
  else s

/-- The set point of a rail in mV, as its lowest and highest value: the Cascade's spans the slew in progress (R745, R768). -/
def State.setPoint (s : State) (n : Nat) : Nat × Nat :=
  match n with
  | 0 => (s.pwr.spLow, s.pwr.spHigh)
  | 1 => (750, 750)
  | 2 => (800, 800)
  | 4 => (500, 500)
  | _ => (1800, 1800)

/-- A rail in mV lies outside its window: the limits of detector 0x08 around the set point, the Cascade's under limit taken as
50 mV above that (R630, R745, R759). -/
def State.railOff (s : State) (n : Nat) (mv : Int) : Bool :=
  let t := s.rd (Reg.detThresh 8)
  let under := bitsOf t.toNat 15 0
  let under := if n = 0 then min under 50 else under
  decide (mv < (s.setPoint n).1 - under) || decide (((s.setPoint n).2 + bitsOf t.toNat 31 16 : Int) < mv)

/-- A clock's deviation in 0.01 % is beyond the limit of detector 0x07 (R630). -/
def State.clockOff (s : State) (dev : Int) : Bool := decide (bitsOf (s.rn (Reg.detThresh 7)) 15 0 < dev.natAbs)

/-- CLOCK_MON_FINDING: an evaluation of a monitored clock, whose reading is its deviation in 0.01 %, or of a
rail, whose reading is in mV. While the clocks are gated no monitor makes a finding. -/
def State.monitor (s : State) (rail : Bool) (n : Nat) (reading : Int) (stopped : Bool) : State :=
  let det := if rail then 8 else 7
  let checks := s.detOn det
  let (inj, s) := if checks then
      let r := s.inject 0x17 0 (if rail then 4 else 3) n
      (r.1.isSome, r.2)
    else (false, s)
  let out := checks && ((if rail then s.railOff n reading else s.clockOff reading) || inj)
  let stopped := stopped && !rail
  if s.clk.gated && (out || stopped) then s else
  let fresh := (out && !(if rail then s.integ.railOut else s.integ.clkOut).testBit n) ||
    (stopped && !s.integ.clkStopped.testBit n)
  let s := s.noteRow rail n out stopped
  if !fresh then s else
  let s := (s.occur ⟨det, Kind.occurrence, 0x17, n, inj⟩).cause (if rail then 4 else 3)
  if rail then (if yesRails.contains n then s.protectiveStop det else s.rowStop (16 + n))
  else if yesClocks.contains n then (s.protectiveStop det).rootLoss else s.rowStop n

/-- PROTECTIVE_STOP_END (R667). -/
def State.protectiveEnd (s : State) : State :=
  if s.integ.protective && s.yesInRange && decide (s.integ.yesOk + 100000 ≤ s.gts) then
    { s with integ := { s.integ with protective := false }, weir := { s.weir with floorBreach := false } }
  else s

/-- DOMAIN_RESUME (R668). -/
def State.domainResume (s : State) (n : Nat) : State :=
  if s.integ.stopped.contains n && !s.rowOut n && decide (Table.get 0 s.integ.cleared n + 100000 ≤ s.gts) then
    { s with integ := { s.integ with stopped := s.integ.stopped.erase n } }
  else s

/-! Watchdogs (R670). -/

/-- Cause bit 5 is raised; a kick must come before the bit can clear (R675). -/
def State.watchdogCause (s : State) : State :=
  ({ s with integ := { s.integ with swExpired := true } } : State).cause 5

/-- FW_WATCHDOG_EXPIRY: a µs of a firmware processor's watchdog count; `expired`: 50 ms have passed without service. -/
def State.fwWatchdog (s : State) (proc : Nat) (expired : Bool) : State :=
  if !s.fwUp proc || s.integ.stopped.contains 7 then s else
  let (inj, s) := s.inject 0x17 0 6 proc
  if !expired && inj.isNone then s else
  let s := s.occur ⟨0xA, Kind.occurrence, 0x19, proc, inj.isSome⟩
  let s := if s.detOn 0xA && (s.rd (Reg.detThresh 0xA)).toNat.testBit 31 then s.watchdogCause else s
  s.fwNeed proc RstCause.watchdog

/-- The software watchdog's period in µs, 0 while it is off. -/
def State.swPeriod (s : State) : Nat := if s.detOn 0xA then s.rn (Reg.detThresh 0xA) % 2 ^ 24 else 0

/-- SW_WATCHDOG_EXPIRY: a µs of the software watchdog's count. -/
def State.swWatchdog (s : State) : State :=
  if s.swPeriod = 0 then s else
  let (inj, s) := s.inject 0x17 0 6 5
  if decide (s.gts < s.integ.swKick + 1000 * s.swPeriod) && inj.isNone then s else
  let s := (s.occur ⟨0xA, Kind.occurrence, 0x14, 5, inj.isSome⟩).watchdogCause
  { s with integ := { s.integ with swKick := s.gts } }

/-- SAFE_KICK is written. -/
def State.safeKick (s : State) (v : W32) : State :=
  if v = 0x5A3CA5C3#32 then { s with integ := { s.integ with swKick := s.gts, swExpired := false } }
  else s.wf Reg.intStatus F.intStatus_TWIN_WRITE 1

/-! Safety pairs (R671 to R679). -/

/-- A sensor stream is STOPPED. -/
def State.anyStopped (s : State) : Bool := (List.range 64).any fun n => s.streamSt n == Sst.stopped

/-- The condition that lets a write clear a cause of a pair (R675). -/
def State.causeClears (s : State) (k c : Nat) : Bool :=
  if c = 1 then decide (junction s.pwr.sensors < 420)
  else if c = 2 then false
  else if c = 3 then (List.range 9).all fun n => !s.rowOut n
  else if c = 4 then (List.range 6).all fun n => !s.rowOut (16 + n)
  else if c = 5 then !s.integ.swExpired
  else if c = 6 then !s.integ.safetyBad
  else if c = 10 then s.integ.parBad.isEmpty
  else if c = 12 then !s.anyStopped
  else if c = 13 then !(s.rf Reg.safeSwStop F.safeSwStop_STOP).testBit k
  else if 16 ≤ c ∧ c ≤ 24 then s.rf (Reg.phaseStatus (c - 16)) F.phaseStatus_OVERSPEED == 0
  else true

/-- The bits of a write of SAFE_CAUSE that clear (R675, R677). -/
def State.clearable (s : State) (k : Nat) (v : W32) : Nat :=
  (((List.range 14) ++ (List.range 9).map (· + 16)).filter fun c =>
    v.toNat.testBit c && s.causeClears k c && Table.get none (s.pair k).occAt c != some s.gts).foldl (fun n c => n + 2 ^ c) 0

/-- The causes that SAFE_CAUSE may hold. -/
def causeBits : W32 := 0x1FF3FFF#32

/-- SAFE_CAUSE of a pair is written. -/
def State.causeClear (s : State) (tag k : Nat) (v : W32) : State :=
  s.writeReg tag (Reg.safeCause k) ((v &&& ~~~causeBits) ||| BitVec.ofNat 32 (s.clearable k v))

/-- PAIR_RETURN_TO_RUN: at a multiple of 1,000,000 of the GTS, the alive pattern of a pair begins (R107, R672, R676). In
BOOT_FAIL every pair is kept at stop (R687). -/
def State.pairReturn (s : State) (k : Nat) : State :=
  let p := s.pair k
  let first := p.applied && p.enable && p.fresh && !p.held && !p.run && !s.integ.safetyBad && s.rn (Reg.safeCause k) == 0
  if s.gts % 1000000 = 0 ∧ (s.qualified k ∨ first) ∧ s.rf Reg.bootStatus F.bootStatus_STATE ≠ 3 then s.setPair k { p with run := true, fresh := false } else s

/-- SAFE_SW_STOP is written (R679). -/
def State.swStop (s : State) (tag : Nat) (v : W32) : State :=
  let st := v.fld F.safeSwStop_STOP
  if v.fld F.safeSwStop_STOP_C + st != 15 then s.wf Reg.intStatus F.intStatus_TWIN_WRITE 1 else
  let s := s.writeReg tag Reg.safeSwStop v
  let s := (s.wf Reg.safeSwStop F.safeSwStop_STOP st).wf Reg.safeSwStop F.safeSwStop_STOP_C (15 - st)
  [0, 1, 2, 3].foldl (fun s k => if st.testBit k && (s.pair k).mask.testBit 13 then s.drivePair 13 k else s) s

/-! Tamper (R704, R706 to R709, R792). -/

/-- TAMPER_HOLD is entered: no firmware runs, and the ROM keeps the PCIe endpoint (R706, R709). -/
def State.tamperHold (s : State) : State :=
  let s := [0, 1, 2, 3, 4].foldl (fun s n => s.setFw n Fw.down) s
  ({ s with boot := { s.boot with hold := true }, pcieUp := true } : State).wf Reg.bootStatus F.bootStatus_STATE 4

/-- A natural tamper: the keys are zeroised and the engine locks; during start-up the boot stops (R706 to R708). -/
def State.tamperKeys (s : State) : State :=
  let s := (s.wf Reg.bootStatus F.bootStatus_TAMPER 1).wf Reg.bootStatus F.bootStatus_KEY_LOCKED 1
  if s.clk.standby then { s with boot := { s.boot with tamperWake := true } }
  else if s.boot.starting then s.tamperHold else s

/-- A tamper loop fires. -/
def State.tamperFire (s : State) (loop : Nat) (inj : Bool) : State :=
  let s := s.detCount ⟨0x10, Kind.occurrence, 0x17, loop, inj⟩
  let s := (s.raiseDev (4 + loop) Ev.tamper loop).cause 2
  if inj then s else s.tamperKeys

/-- A sample of a loop; `follows`: SNS follows DRV. Two failed samples in a row fire the loop. -/
def State.tamperLoop (s : State) (loop : Nat) (follows : Bool) : State :=
  let (inj, s) := if s.up then s.inject 0x17 0 0xA loop else (none, s)
  let all := if follows && inj.isNone then 0 else Table.get 0 s.integ.tamper loop + 1
  let nat := if follows then 0 else Table.get 0 s.integ.tamper (2 + loop) + 1
  let s := { s with integ := { s.integ with
    tamper := Table.put 0 (Table.put 0 s.integ.tamper loop (min all 3)) (2 + loop) (min nat 3) } }
  if nat = 2 then s.tamperFire loop false
  else if all = 2 then s.tamperFire loop true
  else s

/-! Twin words and PCIe errors (R661 to R664). -/

/-- The SAFETY section is in mismatch (R663): every pair goes to stop. -/
def State.safetyMismatch (s : State) (inj : Bool) : State :=
  if s.integ.safetyBad then s else
  let s := s.safetyTwin 0x14 0 inj
  let s := [0, 1, 2, 3].foldl (fun s k =>
    if (s.pair k).run then s.stopPair k 6 else s.setPair k { s.pair k with fresh := false }) s
  { s with integ := { s.integ with safetyBad := true } }

/-- A pair's command path is in mismatch (R661). -/
def State.pairMismatch (s : State) (k : Nat) (inj : Bool) : State :=
  let s := (s.occur ⟨4, Kind.occurrence, 0x14, k, inj⟩ true).drivePair 6 k
  [0, 1, 2, 3].foldl (fun s i => if i != k && (s.pair i).mask.testBit 6 then s.drivePair 6 i else s) s

/-- SAFETY_TWIN_MISMATCH: a check of a safety-class twin word; `bad`: its halves disagree. -/
def State.twinCheck (s : State) (t : TwinSite) (bad : Bool) : State :=
  match t with
  | .safetySection =>
    let (inj, s) := s.inject 0x17 0 0xC 1
    if bad || inj.isSome then s.safetyMismatch inj.isSome else s
  | .clocksSection =>
    let (inj, s) := s.inject 0x17 0 0xC 2
    if (bad || inj.isSome) && !s.weir.clocksBad then
      ({ s with weir := { s.weir with clocksBad := true } } : State).safetyTwin 0x16 0 inj.isSome
    else s
  | .pairCommand k =>
    if 4 ≤ k then s else
    let (inj, s) := s.inject 0x17 0 0xC (3 + k)
    if bad || inj.isSome then s.pairMismatch k inj.isSome else s
  | .deadlineEntry job =>
    if bad && (s.guarJobs.any fun j => j.id == job) then s.jobTwinFail job false else s.checkEntries

/-- PCIE_AER_ERROR: a TLP is received; `err`: 0 sound, 1 a correctable error, 2 an uncorrectable one. -/
def State.tlp (s : State) (err : Nat) : State :=
  let (c, s) := s.inject 0x11 0 1 0
  let (u, s) := s.inject 0x11 0 2 0
  let s := if err = 1 ∨ c.isSome then s.occur ⟨6, Kind.corrected, 0x11, 0, c.isSome⟩ else s
  if err = 2 ∨ u.isSome then s.occur ⟨6, Kind.uncorrectable, 0x11, 0, u.isSome⟩ else s

/-! Meanings. -/

def execInjUnlock (block inst : Nat) (v : W32) (s : State) :=
  onFabric s (guarded (injPoint block inst) fun s => s.injUnlock block inst v)
def execInjModeWrite (tag block inst : Nat) (v : W32) (s : State) :=
  onFabric s (guarded (injPoint block inst) fun s => s.injMode tag block inst v)
def execParityScan (bad staged : List Nat) (s : State) := onFabric s fun s => (s.parityScan bad staged).settle
/-- The monitors run in the always-on domain, from the lock of the root PLL on. -/
def execClockMonFinding (rail : Bool) (n : Nat) (reading : Int) (stopped : Bool) (s : State) :=
  always s (guarded ((s.up || s.clk.gated) && !s.clk.shutdown && !s.clk.standby && decide (n < if rail then 6 else 9)) fun s =>
    (s.monitor rail n reading stopped).settle)
def execProtectiveStopEnd (s : State) := onFabric s fun s => s.protectiveEnd.settle
def execDomainResume (rail : Bool) (n : Nat) (s : State) := onFabric s fun s => s.domainResume (if rail then 16 + n else n)
def execFwWatchdogExpiry (proc : Nat) (expired : Bool) (s : State) :=
  onFabric s (guarded (decide (proc < 5)) fun s => s.fwWatchdog proc expired)
def execSwWatchdogExpiry (s : State) := onFabric s State.swWatchdog
def execSafeKick (v : W32) (s : State) := onFabric s fun s => s.safeKick v
def execSafeCauseClear (tag k : Nat) (v : W32) (s : State) :=
  onFabric s (guarded (decide (k < 4)) fun s => s.causeClear tag k v)
def execPairReturnToRun (k : Nat) (s : State) := onFabric s (guarded (decide (k < 4)) fun s => s.pairReturn k)
def execSafeSwStopWrite (tag : Nat) (v : W32) (s : State) := onFabric s fun s => s.swStop tag v
/-- The loops are watched from the always-on domain, whether the rest of the device is powered or not. -/
def execTamperSample (follows0 follows1 : Bool) (s : State) := always s fun s => (s.tamperLoop 0 follows0).tamperLoop 1 follows1
def execSafetyTwinMismatch (t : TwinSite) (bad : Bool) (s : State) := onFabric s fun s => (s.twinCheck t bad).settle
def execPcieAerError (err : Nat) (s : State) := onFabric s fun s => s.tlp err

end Sys2Proof.Machine
end

