-- ==== Sys2Proof/Machine/Skimmer.lean ====
section
/-! DEFINITION. Sys2Proof/Machine/Skimmer.lean: the Skimmer (spec/06 R357 to R363, spec/08 R441 to R443). -/
namespace Sys2Proof.Machine

/-- A Skimmer command (R358). -/
structure SkimCmd where
  op : Nat
  sfmt : Nat
  flags : Nat
  n : Nat
  k : Nat
  maxOut : Nat
  iou : Nat
  thresh : Nat
  inA : Nat
  boxA : Nat
  classA : Nat
  outA : Nat
  countA : Nat
  resv : Nat
deriving DecidableEq, Repr

/-- A command from its 64 bytes. -/
def SkimCmd.parse (b : List Byte) : SkimCmd :=
  { op := u8 b 0, sfmt := u8 b 1, flags := u8 b 2, n := u32 b 4, k := u16 b 8, maxOut := u16 b 0xA, iou := u16 b 0xC,
    thresh := u32 b 0x10, inA := u32 b 0x14, boxA := u32 b 0x18, classA := u32 b 0x1C, outA := u32 b 0x20,
    countA := u32 b 0x24, resv := u8 b 3 + u16 b 0xE + fieldAt b 0x28 24 }

/-- Bytes of a score. -/
def SkimCmd.size (c : SkimCmd) : Nat := outBytes c.sfmt
def SkimCmd.topk (c : SkimCmd) : Bool := c.op == 1 || c.op == 3
def SkimCmd.nms (c : SkimCmd) : Bool := c.op == 2 || c.op == 3
def SkimCmd.classAware (c : SkimCmd) : Bool := c.flags.testBit 0
def SkimCmd.hasThresh (c : SkimCmd) : Bool := c.flags.testBit 1

/-- A command keeps R358. -/
def SkimCmd.ok (c : SkimCmd) : Bool :=
  (c.topk || c.nms) && (c.sfmt ≤ 2 || (6 ≤ c.sfmt && c.sfmt ≤ 8)) && c.flags / 4 == 0 && c.resv == 0 &&
  (if c.topk then decide (1 ≤ c.n) && decide (c.n ≤ 1048576) && decide (1 ≤ c.k) && decide (c.k ≤ 1024)
   else decide (1 ≤ c.n) && decide (c.n ≤ 4096) && c.k == 0) &&
  (if c.nms then decide (1 ≤ c.maxOut) && decide (c.maxOut ≤ 4096) else c.maxOut == 0 && c.boxA == 0) &&
  decide (c.thresh < 256 ^ c.size) && (c.classAware || c.classA == 0) &&
  [c.inA, c.boxA, c.classA, c.outA, c.countA].all (· % 8 == 0)

/-- The value of a score in SFMT. -/
def SkimCmd.value (c : SkimCmd) (code : Nat) : FNum :=
  if outFloat c.sfmt then (outFmt c.sfmt).value code else FNum.ofInt (outInt c.sfmt code)

/-- The SCORE field of a score (R360). -/
def SkimCmd.score32 (c : SkimCmd) (code : Nat) : Nat :=
  if outFloat c.sfmt then toF32 (c.value code) else wrapN 32 (outInt c.sfmt code)

/-- The value of a SCORE field. -/
def SkimCmd.value32 (c : SkimCmd) (v : Nat) : FNum :=
  if outFloat c.sfmt then f32 v else FNum.ofInt (sext 32 v)

/-- A score may be selected (R359). -/
def SkimCmd.selects (c : SkimCmd) (v : FNum) : Bool :=
  !v.isNan && !(c.hasThresh && FNum.lt v (c.value c.thresh))

/-- A candidate: its index, its value and its SCORE field. -/
structure Cand where
  idx : Nat
  val : FNum
  score : Nat
deriving DecidableEq, Repr

/-- A candidate placed in the order of R359: descending values, ascending indices among equals. -/
def placeCand (x : Cand) : List Cand → List Cand
  | [] => [x]
  | y :: l => if FNum.lt y.val x.val then x :: y :: l else y :: placeCand x l

/-- The best k candidates of a list of scores, in order (R359, R360). -/
def SkimCmd.best (c : SkimCmd) (scores : List Nat) : List Cand :=
  (scores.zipIdx).foldl (fun l p =>
    let v := c.value p.1
    if c.selects v then (placeCand ⟨p.2, v, c.score32 p.1⟩ l).take c.k else l) []

/-- A box: x0, y0, x1, y1 (R361). -/
structure Box where
  x0 : Int
  y0 : Int
  x1 : Int
  y1 : Int
deriving DecidableEq, Repr

/-- The area of a box (R361). -/
def Box.area (b : Box) : Int := max 0 (b.x1 - b.x0) * max 0 (b.y1 - b.y0)
/-- The overlap of two boxes. -/
def Box.inter (a b : Box) : Box := ⟨max a.x0 b.x0, max a.y0 b.y0, min a.x1 b.x1, min a.y1 b.y1⟩

/-- A kept box suppresses a candidate (R361). -/
def SkimCmd.suppresses (c : SkimCmd) (a b : Box) (ca cb : Nat) : Bool :=
  let i := (a.inter b).area
  let u := a.area + b.area - i
  (!c.classAware || ca == cb) && u != 0 && decide ((c.iou : Int) * u < i * 65536)

/-- The kept candidates with one more, unless one of them suppresses it (R361). -/
def SkimCmd.keep (c : SkimCmd) (kept : List (Cand × Box × Nat)) (x : Cand × Box × Nat) : List (Cand × Box × Nat) :=
  if kept.any fun y => c.suppresses y.2.1 x.2.1 y.2.2 x.2.2 then kept else kept ++ [x]

/-! Accesses of the Skimmer. -/

/-- What ends an access of the Skimmer. -/
inductive SkimEnd where
  | range
  | lost
deriving DecidableEq, Repr

/-- n bytes at a view address (R299, R300, R363); an address outside a valid page, or a page that the stream port does not
reach, is RANGE. -/
def State.skimRead (s : State) (a n : Nat) : Except SkimEnd (List Byte) × State :=
  (piecesOf a n).foldl (fun (r : Except SkimEnd (List Byte) × State) p =>
    match r.1, viewAddr r.2.skim.view false p.1 with
    | .error e, _ => (.error e, r.2)
    | .ok _, none => (.error .range, r.2)
    | .ok l, some pa =>
      if !r.2.portReaches Port.stream (pa / 0x10000) then (.error .range, r.2.cisRefuse Port.stream (pa / 0x10000)) else
      let q := r.2.cisRd pa p.2
      if q.2.1 then (.error .lost, q.2.2) else (.ok (l ++ q.1), q.2.2)) (.ok [], s)

/-- Bytes written at a view address. -/
def State.skimWrite (s : State) (a : Nat) (bytes : List Byte) : Except SkimEnd Unit × State :=
  let r := (piecesOf a bytes.length).foldl (fun (r : Except SkimEnd Unit × List Byte × State) p =>
    match r.1, viewAddr r.2.2.skim.view true p.1 with
    | .error e, _ => (.error e, r.2)
    | .ok _, none => (.error .range, r.2)
    | .ok _, some pa =>
      if !r.2.2.portReaches Port.stream (pa / 0x10000) then
        (.error .range, r.2.1, r.2.2.cisRefuse Port.stream (pa / 0x10000))
      else (.ok (), r.2.1.drop p.2, (r.2.2.cisWr pa (r.2.1.take p.2)).dirtyPages pa p.2)) (.ok (), bytes, s)
  (r.1, r.2.2)

/-- The scores of TOPK and TOPK_NMS. -/
def SkimCmd.scores (c : SkimCmd) (b : List Byte) : List Nat :=
  (List.range c.n).map fun i => fieldAt b (c.size * i) c.size

/-- The candidates of an NMS command: its N records. -/
def SkimCmd.records (c : SkimCmd) (b : List Byte) : List Cand :=
  (List.range c.n).map fun i => ⟨u32 b (8 * i), c.value32 (u32 b (8 * i + 4)), u32 b (8 * i + 4)⟩

/-- The candidates that are kept, each box and class read as its turn comes, until MAX_OUT are kept (R361). -/
def State.skimKeep (c : SkimCmd) (s : State) (l : List Cand) : Except SkimEnd (List (Cand × Box × Nat)) × State :=
  l.foldl (fun (r : Except SkimEnd (List (Cand × Box × Nat)) × State) x =>
    match r.1 with
    | .error e => (.error e, r.2)
    | .ok acc =>
      if c.maxOut ≤ acc.length then (.ok acc, r.2) else
      match r.2.skimRead (c.boxA + 8 * x.idx) 8 with
      | (.error e, s) => (.error e, s)
      | (.ok b, s) =>
        let box : Box := ⟨sext 16 (u16 b 0), sext 16 (u16 b 2), sext 16 (u16 b 4), sext 16 (u16 b 6)⟩
        if !c.classAware then (.ok (c.keep acc (x, box, 0)), s) else
        match s.skimRead (c.classA + 2 * x.idx) 2 with
        | (.error e, s) => (.error e, s)
        | (.ok k, s) => (.ok (c.keep acc (x, box, u16 k 0)), s)) (.ok [], s)

/-- The records of an output list. -/
def candBytes (l : List Cand) : List Byte := l.flatMap fun x => leBytes x.idx 4 ++ leBytes x.score 4

/-- A command's result: its output records (R359 to R361). -/
def State.skimResult (s : State) (c : SkimCmd) : Except SkimEnd (List Cand) × State :=
  match s.skimRead c.inA (if c.topk then c.n * c.size else 8 * c.n) with
  | (.error e, s) => (.error e, s)
  | (.ok b, s) =>
    let cands := if c.topk then c.best (c.scores b) else c.records b
    if !c.nms then (.ok cands, s) else
    match State.skimKeep c s cands with
    | (.error e, s) => (.error e, s)
    | (.ok l, s) => (.ok (l.map Prod.fst), s)

/-- A command runs to its end: its records and their count are written (R360, R361). -/
def State.skimRun (s : State) (c : SkimCmd) : Except SkimEnd Unit × State :=
  match s.skimResult c with
  | (.error e, s) => (.error e, s)
  | (.ok l, s) =>
    match s.skimWrite c.outA (candBytes l) with
    | (.error e, s) => (.error e, s)
    | (.ok _, s) => s.skimWrite c.countA (leBytes l.length 4)

/-! Dispatch and commit. -/

/-- The Skimmer layer that a Fountain's turn gives: guaranteed layers by deadline, then best-effort ones (R441). -/
def State.skimOf (s : State) (f : Nat) : Option Job :=
  match earliest (s.guarJobs.filter fun j => j.fountain == f && s.nextOk j 2) with
  | some j => some j
  | none => s.chooseBe Eng.skim ((s.beReady Eng.skim).filter fun j => j.fountain == f)

/-- The Skimmer layer taken next, in round-robin order of Fountain (R441). -/
def State.chooseSkim (s : State) : Option Job :=
  ((List.range 4).map fun i => (s.weir.skimTurn + i) % 4).findSome? s.skimOf

/-- The 64 bytes of a Skimmer layer's command: the two bundles of its segment (R399). -/
def State.skimBytes (s : State) (j : Job) (layer : Nat) : Option (List Byte) × State :=
  match (s.firstSeg j layer).bind (s.segment j) with
  | none => (none, s)
  | some (va, n) => match s.vread Who.walker va 64 with
    | (some (b, _), s) => (some (if n = 2 then b else []), s)
    | (none, s) => (none, s)

/-- A Skimmer layer starts (R357); a command that breaks R358 ends it (R363). -/
def State.startSkim (s : State) (j : Job) (e : CertLayer) : State :=
  match s.skimBytes j j.nextLayer with
  | (none, s) => s.dispatchFault j Pf.xlate
  | (some b, s) =>
    let run : LayerRun := { job := j.id, layer := j.nextLayer, ent := e, dispatchGts := s.gts }
    let s := { s with skim := { run := some run, cmd := b, view := s.viewMap j j.nextLayer, stopped := false },
                      weir := { s.weir with skimTurn := (j.fountain + 1) % 4 } }
    let s := (s.wn Reg.skimCycles 0).modJob j.id fun j => { j with started := true }
    let s := s.tookQueue Eng.skim j
    if (SkimCmd.parse b).ok && b.length == 64 then s else s.skimFault 1

/-- SKIMMER_DISPATCH (R441). -/
def State.skimDispatch (s : State) : State :=
  if s.skim.run.isSome then s else
  let s := s.checkEntries.grantAll.noteReady
  match s.chooseSkim with
  | none => s
  | some j =>
    if s.listsPoison j j.nextLayer then s.failJob j Br.inputLost 2 else
    match s.layerEnt j j.nextLayer with
    | none => s.dispatchFault j Pf.xlate
    | some e =>
      if !j.layerOk j.nextLayer e then s.endWith j.id St.certOverrun else
      match s.bindScale j with
      | (some code, s) => s.dispatchFault j code
      | (none, s) => match s.pending? j.id with
        | some j => s.startSkim j e
        | none => s

/-- The working store of the Skimmer holds the candidates of a command: whether a word of it is uncorrectable (R363). -/
def State.skimStore (s : State) (c : SkimCmd) : Bool × State :=
  let n := 8 * (if c.topk then c.k else c.n)
  (s.writeEcc Mc.skim 0 0 n).readEcc Mc.skim 0 0 n

/-- SKIMMER_COMMIT (R363): the command's outputs and count are acknowledged, and the layer commits. -/
def State.skimCommit (s : State) : State :=
  match s.skim.run with
  | none => s
  | some r =>
    match s.pending? r.job with
    | none => s
    | some j =>
      if r.stoppedAt.isSome then s else
      if s.overdue j then s.breach j.id Br.unexplained else
      let c := SkimCmd.parse s.skim.cmd
      let (bad, s) := s.skimStore c
      if bad then s.chargeFault Eng.skim 1 false else
      match s.skimRun c with
      | (.error .range, s) => s.skimFault 2
      | (.error .lost, s) => s.chargeFault Eng.skim 1 true
      | (.ok _, s) =>
        let s := (s.modJob j.id fun k => k.committed r.layer r.ent).chargeVt Eng.skim r
        let s := { s with skim := { s.skim with run := none, stopped := false } }
        s.releasePages.afterCommit j.id

def execSkimmerDispatch (s : State) := onFabric s (guarded (!s.integ.protective && s.dramServes) fun s => s.skimDispatch.settle)
def execSkimmerCommit (s : State) := onFabric s fun s => s.skimCommit.settle

end Sys2Proof.Machine
end

