-- ==== Sys2Proof/Machine/Spout.lean ====
section
/-! DEFINITION. Sys2Proof/Machine/Spout.lean: the Spout (spec/11 R599 to R606). -/
namespace Sys2Proof.Machine

/-- END_TAG of the Spout (R317). -/
def Who.spout : Who := { tag := 0x700 }

/-! Requests (R599). -/

/-- A Spout request's fields; `packed`: its input lies in an object that holds SB32 runs (R470). -/
structure SpoutReq where
  inFmt : Nat
  outFmt : Nat
  inW : Nat
  inH : Nat
  inVa : Nat
  pitch : Nat
  cx : Nat
  cy : Nat
  cw : Nat
  ch : Nat
  ow : Nat
  oh : Nat
  outVa : Nat
  resize : Nat
  conv : Nat
  layout : Nat
  norm : Nat
  budget : Nat
  done : Nat
  hostDone : Nat
  packed : Bool := false
deriving DecidableEq, Repr

/-- A request from its 64 bytes. -/
def SpoutReq.parse (b : List Byte) : SpoutReq :=
  { inFmt := u8 b 2, outFmt := u8 b 3, inW := u16 b 4, inH := u16 b 6, inVa := u64 b 8, pitch := u32 b 0x10,
    cx := u16 b 0x14, cy := u16 b 0x16, cw := u16 b 0x18, ch := u16 b 0x1A, ow := u16 b 0x1C, oh := u16 b 0x1E,
    outVa := u64 b 0x20, resize := u8 b 0x28, conv := u8 b 0x29, layout := u8 b 0x2A, norm := u8 b 0x2B,
    budget := u32 b 0x2C, done := u32 b 0x38, hostDone := u32 b 0x3C }

/-- Bytes of an input pixel's row, without the chroma plane of NV12. -/
def SpoutReq.inRow (r : SpoutReq) : Nat := if r.inFmt = 1 then 3 * r.inW else if r.inFmt = 2 then 4 * r.inW else r.inW

/-- Channels after CONV. -/
def SpoutReq.chans (r : SpoutReq) : Nat :=
  if r.conv = 1 ∨ r.conv = 2 then 3 else if r.conv = 4 then 1
  else if r.inFmt = 2 then 4 else if r.inFmt = 3 then 1 else 3

/-- Bytes of an output element. -/
def SpoutReq.elem (r : SpoutReq) : Nat := if r.outFmt = 6 ∨ r.outFmt = 7 then 2 else 1

/-- Output rows for the split (R603): rows of positions under S2D2. -/
def SpoutReq.rows (r : SpoutReq) : Nat := if r.layout = 3 then r.oh / 2 else r.oh

/-- Bytes of an output row for the split: a row of every channel plane for CHW. -/
def SpoutReq.rowBytes (r : SpoutReq) : Nat :=
  r.elem * (if r.layout = 2 then 4 * r.ow else if r.layout = 3 then r.ow / 2 * (4 * r.chans) else r.chans * r.ow)

/-- The two bounds on a resize ratio. -/
def ratioOk (c o : Nat) : Bool := decide (c ≤ 8 * o) && decide (o ≤ 8 * c)

/-- The request keeps R599 to R601. -/
def SpoutReq.ok (r : SpoutReq) : Bool :=
  decide (1 ≤ r.inFmt) && decide (r.inFmt ≤ 4) && (r.outFmt == 0 || r.outFmt == 1 || r.outFmt == 6 || r.outFmt == 7) &&
  decide (16 ≤ r.inW) && decide (r.inW ≤ 8192) && decide (16 ≤ r.inH) && decide (r.inH ≤ 8192) && r.pitch % 64 == 0 &&
  decide (1 ≤ r.cw) && decide (r.cw ≤ 4096) && decide (1 ≤ r.ch) && decide (r.ch ≤ 4096) &&
  decide (r.cx + r.cw ≤ r.inW) && decide (r.cy + r.ch ≤ r.inH) &&
  decide (1 ≤ r.ow) && decide (r.ow ≤ 4096) && decide (1 ≤ r.oh) && decide (r.oh ≤ 4096) &&
  ratioOk r.cw r.ow && ratioOk r.ch r.oh && r.outVa % 64 == 0 && decide (r.resize ≤ 2) && decide (r.conv ≤ 4) &&
  decide (r.layout ≤ 3) && decide (r.norm ≤ 15) && r.done == 0 && r.hostDone == 0 &&
  (r.resize != 2 || (r.cw % r.ow == 0 && r.ch % r.oh == 0)) &&
  (r.layout != 3 || (r.ow % 2 == 0 && r.oh % 2 == 0))

/-- Bytes of the input that the request may read. -/
def SpoutReq.inBytes (r : SpoutReq) : Nat := r.pitch * r.inH + (if r.inFmt = 4 then r.pitch * (r.inH / 2) else 0)

/-! The split (R602, R603). -/

/-- The estimate of k rows in ns. -/
def SpoutReq.est (r : SpoutReq) (k : Nat) : Nat := 1000 + k * ceilDiv r.rowBytes 16

/-- The backlog (R602). -/
def State.spoutBacklog (s : State) : Nat :=
  (s.spout.parts.map fun p => match p.start with
    | none => p.est
    | some t => p.est - (s.gts - t)).sum

/-- SPLIT_ROW (R603). -/
def SpoutReq.split (r : SpoutReq) (backlog : Nat) : Nat :=
  if r.budget = 0 then r.rows else
  let k := (r.budget - (backlog + 1000)) / ceilDiv r.rowBytes 16
  min (16 * (k / 16)) r.rows

/-! Rows (R600, R601). -/

/-- An input sample, and whether its line of memory can be read; a sample of an uncorrectable line is free. -/
def State.spoutByte (s : State) (d va : Nat) : Nat :=
  match s.xlate false va with
  | none => Config.freePixel d 20 va 0 % 256
  | some pa =>
    let off := pa - dramBase
    let hurt := (s.marksIn Mc.dram 0 off 1).any fun e => match e.2 with
      | .double _ | .poison _ => true
      | _ => false
    if hurt then Config.freePixel d 20 va 0 % 256 else (Mem.rd s.dram pa).toNat

/-- Raw byte k of the SB32 run at an address, with fuel for the blocks before its own (R302, R303). -/
def State.spoutRun (s : State) (d : Nat) : Nat → Nat → Nat → Nat
  | fuel, va, k =>
    let mask := leNat ((List.range 4).map fun i => BitVec.ofNat 8 (s.spoutByte d (va + i)))
    match fuel with
    | 0 =>
      if mask.testBit k then s.spoutByte d (va + 4 + ((List.range k).filter mask.testBit).length) else 0
    | n + 1 => s.spoutRun d n (va + 4 + ((List.range 32).filter mask.testBit).length) k

/-- The object of the handle table in which an address lies holds SB32 runs (R468 to R470). -/
def State.packedAt (s : State) (va : Nat) : Bool :=
  (List.range (s.rf Reg.weirHandleCount F.weirHandleCount_COUNT)).any fun n =>
    let h := s.readHandle n
    h.ok && h.attr.testBit 1 && decide (h.baseVa ≤ va) && decide (va < h.baseVa + h.bytes)

/-- Byte k of an input row: in an object that holds SB32 runs a row is one run at the row's address (log entry 140). -/
def State.spoutIn (s : State) (r : SpoutReq) (d y k : Nat) : Nat :=
  let va := r.inVa + r.pitch * y
  if r.packed then s.spoutRun d (k / 32) va (k % 32) else s.spoutByte d (va + k)

/-- Channel c of the input pixel (x, y) of the crop. The chroma of NV12 at a pixel, the spec does not state. -/
def State.spoutPx (s : State) (r : SpoutReq) (d c y x : Nat) : Nat :=
  let n := if r.inFmt = 1 then 3 else if r.inFmt = 2 then 4 else 1
  if c < n then s.spoutIn r d (r.cy + y) (n * (r.cx + x) + c)
  else Config.freePixel d 21 ((r.cy + y) * 8192 + r.cx + x) c % 256

/-- NEAREST: the source coordinate of an output coordinate. -/
def nearestAt (o crop out : Nat) : Nat := (2 * o + 1) * crop / (2 * out)

/-- BILINEAR: the left source coordinate and the right weight in units of 1/256. -/
def bilinearAt (o crop out : Nat) : Nat × Nat :=
  let num := min ((2 * o + 1) * crop - out) (2 * out * (crop - 1))
  let x := num / (2 * out)
  (x, (rneDiv ((256 * (num % (2 * out)) : Nat) : Int) (2 * out)).toNat)

/-- A channel of an output pixel before CONV; the mean of an area that is no whole number the spec does not round. -/
def State.spoutResize (s : State) (r : SpoutReq) (d c oy ox : Nat) : Nat :=
  if r.resize = 0 then s.spoutPx r d c (nearestAt oy r.ch r.oh) (nearestAt ox r.cw r.ow)
  else if r.resize = 1 then
    let y := bilinearAt oy r.ch r.oh
    let x := bilinearAt ox r.cw r.ow
    let y1 := min (y.1 + 1) (r.ch - 1)
    let x1 := min (x.1 + 1) (r.cw - 1)
    let v := s.spoutPx r d c y.1 x.1 * (256 - y.2) * (256 - x.2) + s.spoutPx r d c y.1 x1 * (256 - y.2) * x.2 +
      s.spoutPx r d c y1 x.1 * y.2 * (256 - x.2) + s.spoutPx r d c y1 x1 * y.2 * x.2
    (rneDiv ((v : Nat) : Int) 65536).toNat
  else
    let kx := r.cw / r.ow
    let ky := r.ch / r.oh
    let t := ((List.range ky).map fun dy => ((List.range kx).map fun dx =>
      s.spoutPx r d c (oy * ky + dy) (ox * kx + dx)).sum).sum
    if t % (kx * ky) = 0 then t / (kx * ky) else Config.freePixel d 22 (oy * 8192 + ox) c % 256

/-- A channel of an output pixel after CONV: the exchange of R and B is exact; the other conversions the spec names without
their arithmetic. -/
def State.spoutConv (s : State) (r : SpoutReq) (d c oy ox : Nat) : Nat :=
  if r.conv = 0 ∨ (r.conv = 3 ∧ (r.inFmt = 3 ∨ r.inFmt = 4)) then s.spoutResize r d c oy ox
  else if r.conv = 3 then s.spoutResize r d (if c = 0 then 2 else if c = 2 then 0 else c) oy ox
  else Config.freePixel d 23 (oy * 8192 + ox) c % 256

/-- An output element: normalised and put in OUT_FMT (R600). A NaN the spec gives no integer. -/
def State.spoutElem (s : State) (r : SpoutReq) (d c oy ox : Nat) : Nat :=
  let v := toF32 (FNum.ofInt (s.spoutConv r d c oy ox))
  let mean := s.rn (Reg.spoutMean r.norm c)
  let scale := s.rn (Reg.spoutScale r.norm c)
  let y := mulF32 (toF32 (FNum.add (f32 v) (f32 mean).neg)) scale
  if r.outFmt = 6 then (FFmt.bf16.narrow (f32 y)).1
  else if r.outFmt = 7 then (FFmt.fp16.narrow (f32 y)).1
  else
    let rg := outRange r.outFmt
    let zp := sext 16 (s.rf (Reg.spoutZp r.norm) F.spoutZp_ZP)
    match f32 y with
    | .nan => Config.freePixel d 24 (oy * 8192 + ox) c % 256
    | .inf n => wrapN 8 (if n then rg.1 else rg.2)
    | .fin n m e => wrapN 8 (max rg.1 (min rg.2 (FNum.toInt n m e + zp)))

/-- The bytes of an output element. -/
def State.spoutBytes (s : State) (r : SpoutReq) (d c oy ox : Nat) : List Byte := leBytes (s.spoutElem r d c oy ox) r.elem

/-- The pieces of a split row: address and bytes. -/
def State.spoutRow (s : State) (r : SpoutReq) (d y : Nat) : List (Nat × List Byte) :=
  let cs := List.range r.chans
  let xs := List.range r.ow
  if r.layout = 1 then
    cs.map fun c => (r.outVa + r.elem * ((c * r.oh + y) * r.ow), xs.flatMap fun x => s.spoutBytes r d c y x)
  else
    let at_ := r.outVa + y * r.rowBytes
    if r.layout = 3 then
      [(at_, (List.range (r.ow / 2)).flatMap fun x => (List.range 4).flatMap fun q =>
        cs.flatMap fun c => s.spoutBytes r d c (2 * y + q / 2) (2 * x + q % 2))]
    else
      let pad := if r.layout = 2 then List.replicate ((4 - r.chans) * r.elem) 0#8 else []
      [(at_, xs.flatMap fun x => cs.flatMap (fun c => s.spoutBytes r d c y x) ++ pad)]

/-! The rings (R599, R604, R605). -/

/-- LOG2 of the request ring and of the host ring, and their addresses. -/
def State.spoutLog2 (s : State) : Nat := s.rf Reg.spoutRingLo F.spoutRingLo_LOG2
def State.spoutVa (s : State) (n : Nat) : Nat :=
  s.rf Reg.spoutRingLo F.spoutRingLo_VA * 0x1000 + s.rf Reg.spoutRingHi F.spoutRingHi_VA * 2 ^ 32 + 64 * (n % 2 ^ s.spoutLog2)
def State.hostLog2 (s : State) : Nat := s.rf Reg.spoutHostRingLo F.spoutHostRingLo_LOG2
def State.hostVa (s : State) (n : Nat) : Nat :=
  s.rf Reg.spoutHostRingLo F.spoutHostRingLo_VA * 0x1000 + s.rf Reg.spoutHostRingHi F.spoutHostRingHi_VA * 2 ^ 32 +
    16 * (n % 2 ^ s.hostLog2)
/-- The free entries of the host ring. -/
def State.hostFree (s : State) : Nat := 2 ^ s.hostLog2 - (s.spout.written - s.spout.read)

/-- A write of the Spout; a translation fault is reported (R462). -/
def State.spoutWrite (s : State) (va : Nat) (b : List Byte) : State :=
  let w := s.vwrite Who.spout va b
  if w.1 then w.2 else w.2.xlateFault 0x700

/-- SPOUT_DONE is set in a request, with SPLIT_ROW and FAULT; HOST_DONE too where the device sets it (R604, R606). -/
def State.spoutEnd (s : State) (n k : Nat) (fault host : Bool) : State :=
  let s := s.spoutWrite (s.spoutVa n + 0x38) (leBytes (2 ^ 31 + b2n fault * 2 ^ 30 + k) 4)
  let s := if host then s.spoutWrite (s.spoutVa n + 0x3C) (leBytes (2 ^ 31) 4) else s
  s.signal (s.rf Reg.spoutCfg F.spoutCfg_VECTOR)

/-- A host entry is written (R605). -/
def State.hostEntry (s : State) (n first rows : Nat) : State :=
  let w := s.spout.written
  let s := s.spoutWrite (s.hostVa w) (leBytes n 2 ++ leBytes first 2 ++ leBytes rows 2 ++ leBytes 0 2 ++ leBytes (w + 1) 4 ++ leBytes 0 4)
  ({ s with spout := { s.spout with written := w + 1 } } : State).signal (s.rf Reg.spoutCfg F.spoutCfg_HOST_VECTOR)

/-- A part is finished: SPOUT_DONE, and the host entry of the rows that remain (R604). -/
def State.finishPart (s : State) (n k : Nat) (r : SpoutReq) : State :=
  let s := s.spoutEnd n k false (decide (k = r.rows))
  if k < r.rows then s.hostEntry n k (r.rows - k) else s

/-- Every address of a request's input and output translates. -/
def State.spoutMaps (s : State) (r : SpoutReq) : Bool :=
  s.mapped false r.inVa r.inBytes && s.mapped true r.outVa (r.rows * r.rowBytes)

/-- The walks of a request's input (R463). -/
def State.spoutWalk (s : State) (r : SpoutReq) : State :=
  (vpagesOf r.inVa r.inBytes).foldl (fun s p => s.xfill Who.spout (p * 0x10000)) s

/-- A request's addresses fault: the walks up to the fault are charged, and it is reported (R462, R463). -/
def State.spoutFault (s : State) (r : SpoutReq) : State :=
  (if !s.mapped false r.inVa r.inBytes then s.xfaulted Who.spout false r.inVa r.inBytes
   else (s.spoutWalk r).xfaulted Who.spout true r.outVa (r.rows * r.rowBytes)).xlateFault 0x700

/-- SPOUT_TAKE: the next request is taken and split (R603, R605, R606). -/
def State.spoutTake (s : State) : State :=
  if s.spout.req.waiting = 0 ∨ s.hostFree < 2 then s else
  let n := s.spout.req.head
  let s := { s with spout := { s.spout with req := s.spout.req.next } }
  match s.vread Who.spout (s.spoutVa n) 64 with
  | (none, s) => s.xlateFault 0x700
  | (some (b, _), s) =>
    let r := SpoutReq.parse b
    let ok := r.ok
    if !ok then s.spoutEnd n 0 true true
    else if !s.spoutMaps r then (s.spoutFault r).spoutEnd n 0 true true
    else
      let k := r.split s.spoutBacklog
      if k = 0 then s.finishPart n 0 r else
      let s := s.spoutWrite (s.spoutVa n + 0x38) (leBytes k 4)
      let p : SpoutPart := { count := n, req := b, k := k, est := r.est k,
                             start := if s.spout.parts = [] then some s.gts else none }
      { s with spout := { s.spout with parts := s.spout.parts ++ [p] } }

/-- SPOUT_DONE: the running part's rows are made, and the next part starts (R600 to R605). Addresses that no longer map end the
request as R606 does. -/
def State.spoutDone (s : State) : State :=
  match s.spout.parts with
  | [] => s
  | p :: l =>
    let r := SpoutReq.parse p.req
    if p.k < r.rows ∧ s.hostFree = 0 then s else
    let next := match l with
      | q :: m => { q with start := some s.gts } :: m
      | [] => []
    let s := { s with spout := { s.spout with parts := next } }
    if !s.spoutMaps r then (s.spoutFault r).spoutEnd p.count p.k true true else
    let d := (s.spoutWalk r).draw 18
    let s := d.2.charge Who.spout (linesOf r.inVa r.inBytes)
    let s0 := s
    let r := { r with packed := s.packedAt r.inVa }
    let s := (List.range p.k).foldl (fun s y => (s0.spoutRow r d.1 y).foldl (fun s w => s.spoutWrite w.1 w.2) s) s
    s.finishPart p.count p.k r

/-- SPOUT_TAIL is written (R482, R599). -/
def State.spoutTail (s : State) (v : W32) : State :=
  if tailTwinOk v then { s with spout := { s.spout with req := s.spout.req.write s.spoutLog2 v } } else s.tailTwin 9 0

/-- SPOUT_HOST_READ is written (R827). -/
def State.spoutHostRead (s : State) (v : W32) : State :=
  let t : RingSt := consume { written := s.spout.written, read := s.spout.read } v
  { s with spout := { s.spout with read := t.read } }

def execSpoutTailWrite (v : W32) (s : State) := onFabric s fun s => (s.touch 9).spoutTail v
def execSpoutTake (s : State) := onFabric s (guarded s.dramServes State.spoutTake)
def execSpoutDone (s : State) := onFabric s (guarded s.dramServes State.spoutDone)
def execSpoutHostReadWrite (v : W32) (s : State) := onFabric s fun s => (s.touch 9).spoutHostRead v

end Sys2Proof.Machine
end

