-- ==== Sys2Proof/Machine/Contexts.lean ====
section
/-! DEFINITION. Sys2Proof/Machine/Contexts.lean: loading, unloading and destroying contexts (spec/08 R449 to R451, spec/09
R475 to R479), invalidations of translations (R466), pinned objects (R472), and the tokeniser's doorbell (R512). -/
namespace Sys2Proof.Machine

/-! Context records (R475, R476). -/

/-- A queue entry of a context record, with the device's own counts (R476, R478): a tail that its head has not reached
stands in the latch. -/
def Queue.parse (b : List Byte) : Queue :=
  let h := u16 b 0x14
  let t := u16 b 0x16
  { (({ ringVa := u64 b 0, progressVa := u64 b 8, log2 := u8 b 0x10, enable := u8 b 0x11 == 1 } : Queue).setHead h).setTail t with
    doorbells := if h = t then [] else [t] }

/-- A queue entry keeps R476. -/
def queueRecOk (b : List Byte) : Bool :=
  u64 b 0 % 0x1000 == 0 && u64 b 8 % 512 == 0 && decide (4 ≤ u8 b 0x10) && decide (u8 b 0x10 ≤ 12) &&
  decide (u8 b 0x11 < 2) && u16 b 0x12 == 0 && u64 b 0x18 == 0

/-- The bytes of queue entry q of a record. -/
def queueRec (b : List Byte) (q : Nat) : List Byte := (b.drop (0x40 + 32 * q)).take 32

/-- An interrupt vector is 0 to 63, or 0xFF for none. -/
def vectorOk (v : Nat) : Bool := decide (v < 64) || v == 0xFF

/-- Every byte of a range of a list is 0. -/
def zeroAt (b : List Byte) (off n : Nat) : Bool := ((b.drop off).take n).all (· == 0#8)

/-- A context record keeps R475 and R476, but for its root. -/
def ctxRecOk (b : List Byte) : Bool :=
  u32 b 0 == 0x58544E43 && u16 b 4 == 0x0100 && decide (u16 b 6 < 4096) && decide (1 ≤ u8 b 0xA) &&
  decide (u8 b 0xA ≤ 8) && u8 b 0xB == 0 && decide (1 ≤ u16 b 0xC) && decide (u16 b 0xC ≤ 256) && u16 b 0xE == 0 &&
  decide (1 ≤ u32 b 0x10) && decide (u32 b 0x10 ≤ 65536) && u32 b 0x14 == 0 && u64 b 0x20 % 0x1000 == 0 &&
  u64 b 0x28 % 0x1000 == 0 && decide (6 ≤ u8 b 0x30) && decide (u8 b 0x30 ≤ 15) && decide (6 ≤ u8 b 0x31) &&
  decide (u8 b 0x31 ≤ 15) && vectorOk (u8 b 0x32) && vectorOk (u8 b 0x33) && decide (u16 b 0x34 ≤ 1000) &&
  zeroAt b 0x36 10 && zeroAt b 0x150 688 &&
  (List.range 8).all fun q => if q < u8 b 0xA then queueRecOk (queueRec b q) else zeroAt b (0x40 + 32 * q) 32

/-- The counts of a ring as a record holds them, each modulo 2^32 (R478, R827). -/
def RingSt.parse (written read : Nat) : RingSt :=
  { written := read + (written + 2 ^ 32 - read) % 2 ^ 32, read := read }

/-- The context that a record at an address describes (R475, R478). -/
def Ctx.parse (va : Nat) (b : List Byte) : Ctx :=
  { resident := true, ctxId := u16 b 6, share := u16 b 8, queueCount := u8 b 0xA, ptRoot := u64 b 0x18, guarMax := u16 b 0xC,
    beMax := u32 b 0x10, recVa := va, cplVa := u64 b 0x20, cplLog2 := u8 b 0x30, cplVector := u8 b 0x32,
    evtVa := u64 b 0x28, evtLog2 := u8 b 0x31, evtVector := u8 b 0x33, modUs := u16 b 0x34,
    cpl := RingSt.parse (u32 b 0x140) (u32 b 0x148), evt := RingSt.parse (u32 b 0x144) (u32 b 0x14C),
    queues := (List.range (u8 b 0xA)).foldl (fun t q => Table.put {} t q (Queue.parse (queueRec b q))) [] }

/-! Context requests (R477, R479). -/

/-- Results of R477. -/
def Cx.ok : Nat := 0x00
def Cx.noSlot : Nat := 0x01
def Cx.badRecord : Nat := 0x02
def Cx.badRoot : Nat := 0x03
def Cx.busy : Nat := 0x04
def Cx.notResident : Nat := 0x05
def Cx.duplicate : Nat := 0x06
def Cx.legacy : Nat := 0x07

/-- A context request has completed: its CONTEXT event is raised (R498). A slot that the request has none of is a free
value (log entry 6). -/
def State.ctxDone (s : State) (code res : Nat) (slot : Option Nat) (value : Option Nat) : FwResult :=
  let (n, s) := match slot with
    | some n => (n, s)
    | none => s.draw 12
  (some (res, value), s.raiseDev 83 Ev.context (code * 2 ^ 24 + res * 2 ^ 16 + n % 64))

/-- The lowest free resident slot. -/
def State.freeSlot (s : State) : Option Nat := (List.range 48).find? fun k => !(s.ctx k).resident

/-- CTX_LOAD (R475 to R478): the record is checked and loaded into the lowest free slot. -/
def State.ctxLoad (r : FwReq) (s : State) : FwResult :=
  if s.legacy then s.ctxDone 0x10 Cx.legacy none none else
  match s.vread Who.fwp3 r.a0 1024 with
  | (none, s) => (s.xlateFault 0x603).ctxDone 0x10 Rs.badArg none none
  | (some (b, _), s) =>
    if r.a0 % 1024 ≠ 0 ∨ !ctxRecOk b then s.ctxDone 0x10 Cx.badRecord none none
    else if u64 b 0x18 ≠ s.ptRoot then s.ctxDone 0x10 Cx.badRoot none none
    else if s.ctxs.any fun e => e.2.resident && e.2.ctxId == u16 b 6 then s.ctxDone 0x10 Cx.duplicate none none
    else match s.freeSlot with
      | none => s.ctxDone 0x10 Cx.noSlot none none
      | some k => (s.setCtx k (Ctx.parse r.a0 b)).ctxDone 0x10 Cx.ok (some k) (some k)

/-- A slot has a queued job or a record not yet written (R451). -/
def State.slotBusy (s : State) (k : Nat) : Bool :=
  !(s.ctx k).finals.isEmpty || (s.weir.intake.any fun (i : Intake) => i.slot == k) || (s.pendingJobs.any fun (j : Job) => j.slot == k)

/-- The device's fields of a slot, as they stand in its record (R475, R476): address and bytes. -/
def Ctx.fields (c : Ctx) : List (Nat × List Byte) :=
  (c.recVa + 0x140, leBytes c.cpl.written 4 ++ leBytes c.evt.written 4 ++ leBytes c.cpl.read 4 ++ leBytes c.evt.read 4) ::
  (List.range c.queueCount).map fun q =>
    let x := Table.get {} c.queues q
    (c.recVa + 0x54 + 32 * q, leBytes x.head 2 ++ leBytes x.tail 2)

/-- Events wait for the ring of a slot. -/
def State.ringWaits (s : State) (k : Nat) : Bool := s.events.any fun e => e.ring == .ctx k

/-- CTX_UNLOAD (R450, R451): the slot is stored back to its record and freed, or the unload is refused. It waits until the
Clepsydra has written the events of the context's ring (R525; log entry 133). -/
def State.ctxUnload (r : FwReq) (s : State) : FwResult :=
  let k := r.a0
  if s.legacy then s.ctxDone 0x11 Cx.legacy none none
  else if 48 ≤ k then s.ctxDone 0x11 Rs.badArg none none
  else if !(s.ctx k).resident then s.ctxDone 0x11 Cx.notResident (some k) none
  else if s.slotBusy k then s.ctxDone 0x11 Cx.busy (some k) none
  else if s.ringWaits k then (none, s)
  else
    if !s.mapped true (s.ctx k).recVa 1024 then (s.xlateFault 0x603).ctxDone 0x11 Rs.badArg (some k) none else
    let s := (s.ctx k).fields.foldl (fun s e => (s.vwrite Who.fwp3 e.1 e.2).2) s
    (s.setCtx k {}).ctxDone 0x11 Cx.ok (some k) none

/-- CTX_DESTROY closes a context: no further descriptor is taken, the jobs taken and not yet decided are marked for their
cancel, and every accepted or pending job is cancelled (R479). -/
def State.ctxClose (s : State) (k : Nat) : State :=
  let s := s.setCtx k { s.ctx k with closing := true }
  let s := { s with weir := { s.weir with intake := s.weir.intake.map fun (i : Intake) =>
    if i.slot = k then { i with cancelled := true } else i } }
  ((s.pendingJobs.filter fun j => j.slot == k).map Job.id).foldl State.markCancel s

/-- A context ends: its run-time claims and its Gates are given up, and its slot is free (R479). -/
def State.ctxEnd (s : State) (k : Nat) : State :=
  let o := Owner.context (s.ctx k).ctxId
  ((s.dropClaims o).breakGates o).setCtx k {}

/-- CTX_DESTROY (R479): it returns OK once the last final record of the context has been written, and the events of its ring
(log entry 133). -/
def State.ctxDestroy (r : FwReq) (s : State) : FwResult :=
  let k := r.a0
  if s.legacy then s.ctxDone 0x12 Cx.legacy none none
  else if 48 ≤ k then s.ctxDone 0x12 Rs.badArg none none
  else if !(s.ctx k).resident then s.ctxDone 0x12 Cx.notResident (some k) none
  else
    let s := (s.ctxClose k).settle
    if s.slotBusy k || s.ringWaits k then (none, s) else (s.ctxEnd k).ctxDone 0x12 Cx.ok (some k) none

/-! Invalidations (R466). -/

/-- The translations of an invalidation leave the shared cache; locked ones stay. -/
def State.invApply (s : State) : State :=
  let c := if s.weir.invAll then [] else match s.weir.invPending with
    | some (p, n) => Table.clear s.weir.cache p n
    | none => s.weir.cache
  { s with weir := { s.weir with cache := c, invAll := false, invPending := none } }

/-- WEIR_XLATE_INV is written: an invalidation starts; one still going on completes first. -/
def State.xlateInv (s : State) (tag : Nat) (v : W32) : State :=
  let s := (s.invApply.writeReg tag Reg.weirXlateInv v).wf Reg.weirXlateInv F.weirXlateInv_DONE 0
  let p := s.rn Reg.weirXlateVaLo / 0x10000 + s.rn Reg.weirXlateVaHi % 0x10000 * 0x10000
  { s with weir := { s.weir with invAll := v.fld F.weirXlateInv_ALL == 1, invPending := some (p, v.fld F.weirXlateInv_PAGES) } }

/-- An invalidation completes. -/
def State.xlateInvDone (s : State) : State :=
  if s.weir.invPending.isNone then s else s.invApply.wf Reg.weirXlateInv F.weirXlateInv_DONE 1

/-! Pinned objects (R472). -/

/-- Translations that the locked store holds. -/
def lockRoom : Nat := 4096

/-- The pages of an object. -/
def Handle.vpages (h : Handle) : List Nat := (List.range (ceilDiv h.bytes 0x10000)).map (· + h.baseVa / 0x10000)

/-- The translations of a list of pages by fresh walks; none where one faults. -/
def State.walkAll (s : State) : List Nat → Option (List (Nat × Nat))
  | [] => some []
  | p :: l => match s.walk p, s.walkAll l with
    | some e, some r => some ((p, e) :: r)
    | _, _ => none

/-- PIN: its result, 0 DONE, 2 FULL or 3 INVALID, and the state that it leaves. -/
def State.pin (s : State) (h : Nat) : Nat × State :=
  let x := s.readHandle h
  let others := s.weir.locked.filter fun e => e.1 != h
  if !x.ok || !x.pinned then (3, s)
  else if lockRoom < others.length + x.vpages.length then (2, s)
  else
    let s := s.charge Who.walker (3 * x.vpages.length)
    match s.walkAll x.vpages with
    | none => (3, s.xlateFault 0x610)
    | some l => (0, { s with weir := { s.weir with locked := others ++ l.map fun e => (h, e) } })

/-- UNPIN: its result, and the state without the object's locked translations. -/
def State.unpin (s : State) (h : Nat) : Nat × State :=
  let x := s.readHandle h
  let had := s.weir.locked.any fun e => e.1 == h
  (if had || (x.ok && x.pinned) then 0 else 3,
   { s with weir := { s.weir with locked := s.weir.locked.filter fun e => e.1 != h } })

/-- WEIR_PIN is written. -/
def State.pinWrite (s : State) (tag : Nat) (v : W32) : State :=
  let s := s.writeReg tag Reg.weirPin v
  let h := v.fld F.weirPin_HANDLE
  let r := if v.fld F.weirPin_OP = 1 then s.pin h else if v.fld F.weirPin_OP = 2 then s.unpin h
    else (s.rf Reg.weirPin F.weirPin_RESULT, s)
  r.2.wf Reg.weirPin F.weirPin_RESULT r.1

/-! The tokeniser's doorbell (R512). -/

/-- LOG2 of the tokeniser's ring. -/
def State.tokLog2 (s : State) : Nat := s.rf Reg.cisTokRingLo F.cisTokRingLo_LOG2

/-- TOK_TAIL is written. -/
def State.tokTail (s : State) (v : W32) : State :=
  if tailTwinOk v then { s with tok := s.tok.write s.tokLog2 v } else s.tailTwin 9 0

/-! Meanings. -/

def execCtxLoad (s : State) := onFabric s fun s => s.fwServe 0x10 State.ctxLoad
def execCtxUnload (s : State) := onFabric s fun s => s.fwServe 0x11 State.ctxUnload
def execCtxDestroy (s : State) := onFabric s fun s => s.fwServe 0x12 State.ctxDestroy
def execXlateInvalidate (tag : Nat) (v : W32) (s : State) := onFabric s fun s => s.xlateInv tag v
def execXlateInvalidateDone (s : State) := onFabric s State.xlateInvDone
/-- PIN writes WEIR_PIN with any OP but UNPIN. -/
def execPin (tag : Nat) (v : W32) (s : State) := onFabric s (guarded (v.fld F.weirPin_OP != 2) fun s => s.pinWrite tag v)
def execUnpin (tag : Nat) (v : W32) (s : State) := onFabric s (guarded (v.fld F.weirPin_OP == 2) fun s => s.pinWrite tag v)
def execTokTailWrite (v : W32) (s : State) := onFabric s fun s => s.tokTail v

end Sys2Proof.Machine
end

