-- ==== Sys2Proof/Machine/Tokeniser.lean ====
section
/-! DEFINITION. Sys2Proof/Machine/Tokeniser.lean: the tokeniser (spec/09 R511 to R513; spec/11 R607 to R612). -/
namespace Sys2Proof.Machine

/-- END_TAG of the tokeniser (R317). -/
def Who.tok : Who := { tag := 0x702 }

/-! Well-formed UTF-8 (RFC 3629). -/

/-- A byte lies in a range. -/
def inRange (lo hi : Nat) (b : Byte) : Bool := decide (lo ≤ b.toNat) && decide (b.toNat ≤ hi)

/-- The length of the well-formed sequence that a list begins with, or 0. -/
def utf8Len (l : List Byte) : Nat :=
  let t := inRange 0x80 0xBF
  match l with
  | [] => 0
  | a :: l =>
    if a.toNat ≤ 0x7F then 1
    else if inRange 0xC2 0xDF a then (match l with
      | b :: _ => if t b then 2 else 0
      | _ => 0)
    else if inRange 0xE0 0xEF a then (match l with
      | b :: c :: _ =>
        let ok := if a = 0xE0#8 then inRange 0xA0 0xBF b else if a = 0xED#8 then inRange 0x80 0x9F b else t b
        if ok && t c then 3 else 0
      | _ => 0)
    else if inRange 0xF0 0xF4 a then (match l with
      | b :: c :: d :: _ =>
        let ok := if a = 0xF0#8 then inRange 0x90 0xBF b else if a = 0xF4#8 then inRange 0x80 0x8F b else t b
        if ok && t c && t d then 4 else 0
      | _ => 0)
    else 0

/-- Each byte of an input with whether it is part of a well-formed sequence; `k`: bytes left of the sequence under way. -/
def utf8Mark : Nat → List Byte → List (Byte × Bool)
  | _, [] => []
  | 0, b :: l => let n := utf8Len (b :: l); (b, n != 0) :: utf8Mark (n - 1) l
  | k + 1, b :: l => (b, true) :: utf8Mark k l

/-! The dictionary (R607, R608). -/

/-- A dictionary in its pool: the pool's first byte, and the header's fields. -/
structure Dict where
  base : Nat
  nodes : Nat
  edges : Nat
  fallback : Nat
  nodeOff : Nat
  edgeOff : Nat
deriving DecidableEq, Repr

/-- The header, if it is well formed and its tables lie in the pool (R607, R609). -/
def State.dict (s : State) : Option Dict × State :=
  match s.pool Pool.dictionary with
  | none => (none, s)
  | some (pg, n) =>
    let (b, bad, s) := s.cisRd (pg * 0x10000) 32
    let d : Dict := { base := pg * 0x10000, nodes := u32 b 0xC, edges := u32 b 0x10, fallback := u32 b 0x14,
                      nodeOff := u32 b 0x18, edgeOff := u32 b 0x1C }
    let size := n * 0x10000
    let ok := !bad && u32 b 0 == 0x54434944 && u16 b 4 == 0x0100 && u16 b 6 == 0 && decide (256 ≤ u32 b 8) &&
      decide (u32 b 8 ≤ 131072) && decide (1 ≤ d.nodes) && d.edges + 1 == d.nodes && decide (d.fallback + 255 < u32 b 8) &&
      d.nodeOff % 8 == 0 && d.edgeOff % 4 == 0 && decide (d.nodeOff + 8 * d.nodes ≤ size) &&
      decide (d.edgeOff + 4 * d.edges ≤ size)
    (if ok then some d else none, s)

/-- What looking for an edge of a node meets: an index beyond its table or an uncorrectable word, edges out of order, no
edge, or the edge's node. -/
inductive EdgeHit where
  | bad
  | unsorted
  | none
  | to (n : Nat)
deriving DecidableEq, Repr

/-- The bytes of edges stand in strictly ascending order (R608). -/
def ascending : List Nat → Bool
  | a :: b :: l => decide (a < b) && ascending (b :: l)
  | _ => true

/-- The edge of a node for a byte (R608, R609). -/
def State.edge (s : State) (d : Dict) (node : Nat) (c : Byte) : EdgeHit × State :=
  let (b, bad, s) := s.cisRd (d.base + d.nodeOff + 8 * node) 8
  let n := bitsOf (u32 b 0) 26 18
  let first := u32 b 4
  if bad then (.bad, s) else if n = 0 then (.none, s)
  else if d.edges < first + n then (.bad, s)
  else
    let (e, bad, s) := s.cisRd (d.base + d.edgeOff + 4 * first) (4 * n)
    let es := (List.range n).map fun i => u32 e (4 * i)
    if bad then (.bad, s)
    else if !ascending (es.map (· % 256)) then (.unsorted, s)
    else match es.find? fun x => x % 256 == c.toNat with
      | some x => (if x / 256 < d.nodes then .to (x / 256) else .bad, s)
      | none => (.none, s)

/-- TOKEN of a node, if it has one, and whether the node can be read. -/
def State.nodeToken (s : State) (d : Dict) (node : Nat) : Option Nat × Bool × State :=
  let (b, bad, s) := s.cisRd (d.base + d.nodeOff + 8 * node) 8
  (if (u32 b 0).testBit 17 then some (bitsOf (u32 b 0) 16 0) else none, bad, s)

/-- What the walk of R611 finds: a fault, edges out of order, or the best token and its length. -/
inductive Walk where
  | bad
  | unsorted
  | best (token len : Nat)
deriving DecidableEq, Repr

/-- The walk from a node (R611): `n` bytes walked, the best so far; the first number counts the steps left of 64. -/
def State.tokWalk (d : Dict) : Nat → State → Nat → Nat → Nat → Nat → List (Byte × Bool) → Walk × State
  | 0, s, _, _, tok, len, _ => (.best tok len, s)
  | _ + 1, s, _, _, tok, len, [] => (.best tok len, s)
  | k + 1, s, node, n, tok, len, (c, ok) :: l =>
    if !ok then (.best tok len, s) else
    match s.edge d node c with
    | (.bad, s) => (.bad, s)
    | (.unsorted, s) => (.unsorted, s)
    | (.none, s) => (.best tok len, s)
    | (.to m, s) =>
      match s.nodeToken d m with
      | (_, true, s) => (.bad, s)
      | (some t, _, s) => State.tokWalk d k s m (n + 1) t (n + 1) l
      | (none, _, s) => State.tokWalk d k s m (n + 1) tok len l

/-- The result of a run: its result code, the tokens in order, and the invalid bytes handled. -/
structure TokRun where
  result : Nat
  tokens : List Nat
  spilled : Nat
deriving DecidableEq, Repr

/-- The procedure of R611, with fuel for the bytes. `out`: the tokens so far, latest first. -/
def State.tokRun (d : Dict) (mode fill outMax : Nat) : Nat → State → List (Byte × Bool) → List Nat → Nat → TokRun × State
  | 0, s, _, out, sp => (⟨0, out.reverse, sp⟩, s)
  | _ + 1, s, [], out, sp => (⟨0, out.reverse, sp⟩, s)
  | k + 1, s, (c, ok) :: l, out, sp =>
    if !ok then
      if mode = 2 then (⟨2, out.reverse, sp⟩, s)
      else if mode = 0 then State.tokRun d mode fill outMax k s l out (sp + 1)
      else if out.length = outMax then (⟨1, out.reverse, sp⟩, s)
      else State.tokRun d mode fill outMax k s l ((d.fallback + fill) :: out) (sp + 1)
    else
      match State.tokWalk d 64 s 0 0 0 0 ((c, ok) :: l) with
      | (.bad, s) => (⟨3, out.reverse, sp⟩, s)
      | (.unsorted, s) =>
        let v := s.draw 19
        if out.length = outMax then (⟨1, out.reverse, sp⟩, v.2)
        else State.tokRun d mode fill outMax k v.2 (l.drop (v.1 / 2 ^ 32 % 64)) (v.1 % 2 ^ 32 :: out) sp
      | (.best t n, s) =>
        if out.length = outMax then (⟨1, out.reverse, sp⟩, s)
        else if n = 0 then State.tokRun d mode fill outMax k s l ((d.fallback + c.toNat) :: out) sp
        else State.tokRun d mode fill outMax k s (l.drop (n - 1)) (t :: out) sp

/-! Requests (R511 to R513). -/

/-- The address of request n. -/
def State.tokVa (s : State) (n : Nat) : Nat :=
  s.rf Reg.cisTokRingLo F.cisTokRingLo_VA * 0x1000 + s.rf Reg.cisTokRingHi F.cisTokRingHi_VA * 2 ^ 32 + 64 * (n % 2 ^ s.tokLog2)

/-- A request is well formed (R511). -/
def tokReqOk (b : List Byte) : Bool :=
  u16 b 2 == 0 && decide (1 ≤ u32 b 4) && decide (u32 b 4 ≤ 65536) && u64 b 0x10 % 4 == 0 && decide (1 ≤ u32 b 0x18) &&
  decide (u32 b 0x18 ≤ 65536) && u32 b 0x1C == 0 && u64 b 0x28 % 4 == 0 && (b.drop 0x30).all (· == 0#8)

/-- A request has run: its result awaits TOKENS_DONE. -/
def State.tokEnds (s : State) (b : List Byte) (result count : Nat) : State :=
  { s with tokEnd := some { ctxId := u16 b 0, cookie := u64 b 0x20, countVa := u64 b 0x28, result := result, count := count } }

/-- The tokens of a run are written; a translation fault ends the request with result 3. -/
def State.tokStore (s : State) (b : List Byte) (r : TokRun) : State :=
  let w := s.vwrite Who.tok (u64 b 0x10) (r.tokens.flatMap fun t => leBytes t 4)
  if w.1 then w.2.tokEnds b r.result r.tokens.length else (w.2.xlateFault 0x702).tokEnds b 3 0

/-- TOKENISER_REQUEST: the next request in ring order (R511, R609 to R611). -/
def State.tokRequest (s : State) : State :=
  if s.tok.waiting = 0 ∨ s.tokEnd.isSome then s else
  let s := s.wf Reg.cisTokStatus F.cisTokStatus_STATE 1
  match s.vread Who.tok (s.tokVa s.tok.head) 64 with
  | (none, s) => (s.xlateFault 0x702).tokEnds [] 3 0
  | (some (b, bad), s) =>
    if bad || !tokReqOk b then s.tokEnds b 3 0 else
    match s.dict with
    | (none, s) => s.tokEnds b 3 0
    | (some d, s) =>
      match s.vread Who.tok (u64 b 8) (u32 b 4) with
      | (none, s) => (s.xlateFault 0x702).tokEnds b 3 0
      | (some (_, true), s) => s.tokEnds b 3 0
      | (some (inp, false), s) =>
        let pol := s.policy 128
        let r := State.tokRun d pol.1 pol.2 (u32 b 0x18) inp.length s (utf8Mark 0 inp) [] 0
        let s := r.2.wf Reg.cisTokStatus F.cisTokStatus_SPILLED
          (min 65535 (r.2.rf Reg.cisTokStatus F.cisTokStatus_SPILLED + r.1.spilled))
        s.tokStore b r.1

/-- The resident slot of a context. -/
def State.slotOf (s : State) (ctxId : Nat) : Option Nat :=
  (List.range 48).find? fun k => (s.ctx k).resident && (s.ctx k).ctxId == ctxId

/-- TOKENS_DONE: the count is written and the event raised (R513). -/
def State.tokensDone (s : State) : State :=
  match s.tokEnd with
  | none => s
  | some e =>
    let s := ({ s with tokEnd := none, tok := s.tok.next } : State).wf Reg.cisTokStatus F.cisTokStatus_STATE 0
    let w := s.vwrite Who.tok e.countVa (leBytes e.count 4)
    let s := if w.1 then w.2 else w.2.xlateFault 0x702
    let res := if w.1 then e.result else 3
    let detail := fun r => r * 2 ^ 29 + e.count % 2 ^ 17
    match s.slotOf e.ctxId with
    | some k => (s.wf Reg.cisTokStatus F.cisTokStatus_LAST_RESULT res).raiseCtx k 37 Ev.tokensDone (detail res) e.cookie
    | none =>
      (s.wf Reg.cisTokStatus F.cisTokStatus_LAST_RESULT 3).raise
        { ring := .dev, gts := s.gts, source := 37, type := Ev.tokensDone, detail := detail 3, cookie := e.cookie }

def execTokeniserRequest (s : State) := onFabric s (guarded s.dramServes State.tokRequest)
def execTokensDone (s : State) := onFabric s (guarded s.dramServes State.tokensDone)

end Sys2Proof.Machine
end

