-- ==== Sys2Proof/Machine/Views.lean ====
section
/-! DEFINITION. Sys2Proof/Machine/Views.lean: what a register reads. A register whose one home is the register file reads the
value in force there; one that only shows a part of the structured state is computed here, from the register tables of
spec/02 to spec/17. A write-only field reads 0 (R812). -/
namespace Sys2Proof.Machine

/-- The index of an offset in a row of registers of a stride, below a count. -/
def rowIdx (off base stride n : Nat) : Option Nat :=
  if base ≤ off ∧ (off - base) % stride = 0 ∧ (off - base) / stride < n then some ((off - base) / stride) else none

/-- A list of bits as a word, the first at bit 0. -/
def packBits (l : List Bool) : Nat := (l.zipIdx.map fun p => if p.1 then 2 ^ p.2 else 0).sum

/-- A register word with some of its fields shown from elsewhere. -/
def shown (w : W32) (l : List (Fld × Nat)) : W32 := l.foldl (fun w p => w.setFld p.1 p.2) w

/-- The register of the file at an offset, with fields shown from elsewhere. -/
def State.show (s : State) (off : Nat) (l : List (Fld × Nat)) : W32 := shown (s.rd off) l

/-! CHIP. -/

/-- Blocks of a group hold a staged value (CHIP_STROBE_PEND). -/
def State.strobePend (s : State) : Nat := packBits ((List.range 16).map fun g => !(s.stagedIn g).isEmpty)

/-- CHIP_STROBE_MAPm (R820). -/
def State.strobeMap (s : State) (m : Nat) : Nat :=
  ((List.range 8).map fun k => if 8 * m + k < 28 then s.groupOf (8 * m + k) * 16 ^ k else 0).sum

def State.viewChip (s : State) (off : Nat) : W32 :=
  if off = Reg.chipStrobePend then s.show off [(F.chipStrobePend_GROUPS, s.strobePend)]
  else match rowIdx off (Reg.chipStrobeMap 0) 4 4 with
    | some m => s.show off [(F.whole, s.strobeMap m)]
    | none => if off = Reg.chipGrade then s.show off [(F.chipGrade_GRADE, b2n s.boot.board.gradeE)] else s.rd off

/-! WEIR. -/

def State.viewWeir (s : State) (off : Nat) : W32 :=
  if off = Reg.weirStatus then s.show off [(F.weirStatus_RESIDENT, (s.ctxs.filter fun e => e.2.resident).length),
    (F.weirStatus_PENDING, s.guarJobs.length),
    (F.weirStatus_MAINT_PENDING, b2n (s.weir.maintPending || s.weir.maintStart.isSome)),
    (F.weirStatus_ADMIT_HELD, b2n s.weir.admitHeld)]
  else if off = Reg.weirQueued then s.show off [(F.weirQueued_COUNT, s.queuedCount)]
  else if off = Reg.weirSlots then s.show off [(F.weirSlots_INLINE, s.inlineTotal),
    (F.weirSlots_GUAR, s.heldSlots - s.inlineTotal), (F.weirSlots_CAP, s.slotCap)]
  else if off = Reg.weirPages then s.show off [(F.weirPages_BE, s.bePages), (F.weirPages_GUAR, s.guarPages)]
  else if off = Reg.weirMaint then s.show off [(F.weirMaint_PENDING, b2n s.weir.maintPending),
    (F.weirMaint_ACTIVE, b2n s.weir.maintStart.isSome)]
  else if off = Reg.weirVt then
    s.show off [(F.whole, s.vt (s.rf Reg.weirVtSel F.weirVtSel_SLOT) (s.rf Reg.weirVtSel F.weirVtSel_ENGINE))]
  else if off = Reg.weirDevringRead then s.show off [(F.whole, s.devRing.read)]
  else if off = Reg.weirDevringCount then s.show off [(F.whole, s.devRing.written)]
  else if off = Reg.weirDevringLost then s.show off [(F.whole, s.devRing.lost)]
  else s.rd off

/-! CLEPSYDRA. -/

def State.viewClepsydra (s : State) (off : Nat) : W32 :=
  if off = Reg.clkStatus then s.show off [(F.clkStatus_TAI_VALID, b2n s.taiValid)]
  else if off = Reg.taiWrCtrl then s.show off [(F.taiWrCtrl_PENDING, b2n s.taiOp.isSome)]
  else if off = Reg.taiRate then s.show off [(F.whole, wrapN 32 s.taiRate)]
  else match rowIdx off (Reg.tcmpStatus 0) 0x20 64 with
    | some n => s.show off [(F.tcmpStatus_ARMED, b2n (s.tc n).armed)]
    | none => match rowIdx off (Reg.pcmpStatus 0) 0x20 64 with
      | some n => s.show off [(F.pcmpStatus_ARMED, b2n (s.pc n).armed)]
      | none => s.rd off

/-! FOUNTAINs. -/

def State.viewFtn (s : State) (f off : Nat) : W32 :=
  let x := s.ftn f
  if off = Reg.ftnStatus f then s.show off [(F.ftnStatus_WIDTH, s.ftnWidth f), (F.ftnStatus_FSIZE, s.ftnSize f),
    (F.ftnStatus_SWAP_PENDING, b2n x.swapPending), (F.ftnStatus_ACTIVE_BANK, x.bank),
    (F.ftnStatus_WAITING, b2n x.waitf.isSome), (F.ftnStatus_STATE, s.ftnState f)]
  else if off = Reg.ftnPc f then s.show off [(F.ftnPc_BANK, x.lastBank), (F.ftnPc_ADDR, x.lastPc)]
  else if off = Reg.ftnHeld f then s.show off [(F.ftnHeld_COUNT, x.held.length)]
  else if off = Reg.ftnPred f then s.show off [(F.ftnPred_PRED, x.pred),
    (F.ftnPred_BOUND, packBits ((List.range 4).map fun k => (Table.get none x.cmp k).isSome))]
  else match rowIdx off (Reg.ftnLc f 0) 4 8 with
    | some n => s.show off [(F.ftnLc_VALUE, Table.get 0 x.lc n)]
    | none => match rowIdx (off / 16 * 16) (Reg.ftnStatMaxabs f 0) 16 16 with
      | some k =>
        let t := Table.get ({} : Stat) x.stats k
        if off % 16 = 0 then s.show off [(F.whole, t.maxabs)]
        else if off % 16 = 4 then s.show off [(F.whole, t.sat)]
        else if off % 16 = 8 then s.show off [(F.whole, t.elems)]
        else s.show off [(F.ftnStatInfo_NAN, b2n t.nan), (F.ftnStatInfo_FLOAT, b2n t.float)]
      | none => s.rd off

/-! CASCADE. -/

/-- The drain chain of a core waits for residual entries (R346). -/
def State.resWait (s : State) (c : Nat) : Bool :=
  match s.ftnOf c, (s.core c).raw with
  | some f, w :: _ => match dsetDesc (s.ftn f).drainSet w.dcd with
    | some d => (s.residualOf c d).isNone
    | none => false
  | _, _ => false

/-- The state codes of a core's Rills, two bits each from Rill lo on. -/
def Core.rillCodes (k : Core) (lo n : Nat) : Nat := ((List.range n).map fun i => (Table.get ({} : Rill) k.rills (lo + i)).st % 4 * 4 ^ i).sum

def State.viewCore (s : State) (c off : Nat) : W32 :=
  let k := s.core c
  if off = Reg.coreIndex c then
    match s.ftnOf c with
    | some f => s.show off [(F.coreIndex_VALID, 1), (F.coreIndex_FSIZE, s.ftnSize f), (F.coreIndex_POS, c - s.ftnFirst f),
        (F.coreIndex_FOUNTAIN, f), (F.coreIndex_CORE, c)]
    | none => s.show off [(F.coreIndex_CORE, c)]
  else if off = Reg.coreStatus c then s.show off [(F.coreStatus_WIDTH, s.coreWidth c), (F.coreStatus_STATE, s.coreState c)]
  else if off = Reg.coreWidth c then s.show off [(F.coreWidth_A0_WIDTH, s.arrayWidth c 0),
    (F.coreWidth_A1_WIDTH, s.arrayWidth c 1), (F.coreWidth_A2_WIDTH, s.arrayWidth c 2), (F.coreWidth_A3_WIDTH, s.arrayWidth c 3)]
  else if off = Reg.rillStatus c then s.show off [(F.rillStatus_STORE, k.rillCodes 4 2), (F.rillStatus_LOAD, k.rillCodes 0 4)]
  else if off = Reg.drainStatus c then s.show off [(F.drainStatus_RAW_ROWS, k.raw.length),
    (F.drainStatus_RES_WAIT, b2n (s.resWait c)), (F.drainStatus_OUT_BYTES, (k.out.map OutRow.size).sum)]
  else match rowIdx off (Reg.arrayBadcolLo c 0) 4 8 with
    | some i => s.show off [(F.whole, s.badcol c (i / 2) / 2 ^ (32 * (i % 2)))]
    | none => match rowIdx off (Reg.sluiceCount c 0) 4 8 with
      | some i => s.show off [(F.sluiceCount_COUNT, Table.get 0 k.sluice i)]
      | none => s.rd off

/-! CISTERN. -/

def State.viewCistern (s : State) (off : Nat) : W32 :=
  if off = Reg.cisStatus then s.show off [
    (F.cisStatus_FREE_PAGES, (s.cachePages.filter fun n => (s.page n).st == Pg.free).length),
    (F.cisStatus_FILLING, (s.pages.filter fun e => e.2.st == Pg.filling || e.2.st == Pg.writeback).length)]
  else if off = Reg.cisPageInfo then
    let n := s.rf Reg.cisPageSel F.cisPageSel_PAGE
    let p := s.page n
    if !s.cachePages.contains n then s.show off [(F.cisPageInfo_STATE, 0xF)] else
    s.show off [(F.cisPageInfo_STATE, p.st), (F.cisPageInfo_REFS, s.refs n), (F.cisPageInfo_DIRTY, b2n p.dirty),
      (F.cisPageInfo_POISON, b2n p.poison), (F.cisPageInfo_WEIGHT, b2n p.weight)]
  else if off = Reg.skimStatus then
    s.show off [(F.skimStatus_STATE, if s.skim.stopped then 2 else b2n s.skim.run.isSome)]
  else if off = Reg.spoutHead then s.show off [(F.spoutHead_COUNT, s.spout.req.head)]
  else if off = Reg.spoutHostRead then s.show off [(F.whole, s.spout.read)]
  else if off = Reg.spoutBacklog then s.show off [(F.whole, s.spoutBacklog)]
  else s.rd off

/-! PIPEs, CODEC. -/

/-- The Jet's run as a frame that began now would set it: the registers in force and the picture of the in-line stream. -/
def State.nextJet (s : State) (p : Nat) : JetRun :=
  let e := (s.stream (s.inlineStream p)).ent
  { frame := 0, regs := s.jetSnap p, w := Ent.width e, h := Ent.height e }

/-- The registers of a PIPE block as they read; JET_ROW_PITCH is that of the frame in the Jet, or of the next (R351). -/
def State.viewPipe (s : State) (p off : Nat) : W32 :=
  let x := s.pipe p
  if off = Reg.pipeStatus p then
    s.show off [(F.pipeStatus_STATE, b2n (s.inlineFrame p).isSome + 2 * b2n !x.queue.isEmpty),
      (F.pipeStatus_STREAM, ((nextFrame x.queue).map fun f => f.stream % 16).getD 0), (F.pipeStatus_QUEUE, x.queue.length)]
  else if off = Reg.jetStatus p then s.show off [(F.jetStatus_RUNNING, b2n x.jet.isSome)]
  else if off = Reg.jetRowPitch p then s.show off [(F.whole, ((x.jet.getD (s.nextJet p)).pitch p))]
  else s.rd off

def State.viewCodec (s : State) (off : Nat) : W32 :=
  if off = Reg.codecStatus then s.show off [(F.codecStatus_OPEN,
    (s.decs.filter fun e => e.2.opened).length + (s.encs.filter fun e => e.2.opened).length),
    (F.codecStatus_BUSY, packBits ((List.range 8).map fun e =>
      (s.decs.any fun x => x.2.opened && x.2.engine == e && x.2.q.waiting != 0) ||
      (s.encs.any fun x => x.2.opened && x.2.engine == e && x.2.q.waiting != 0)))]
  else match rowIdx off (Reg.codecDecHead 0) 16 64 with
    | some n => s.show off [(F.codecDecHead_COUNT, (s.dec n).q.head)]
    | none => match rowIdx off (Reg.codecEncHead 0) 16 32 with
      | some n => s.show off [(F.codecEncHead_COUNT, (s.enc n).q.head)]
      | none => match rowIdx off (Reg.codecEncRead 0) 16 32 with
        | some n => s.show off [(F.whole, (s.enc n).bytes.read)]
        | none => match rowIdx off (Reg.codecEncWrite 0) 16 32 with
          | some n => s.show off [(F.whole, (s.enc n).bytes.written)]
          | none => s.rd off

/-! DDR, ETH, PHASEIO. -/

def State.viewPhaseio (s : State) (off : Nat) : W32 :=
  match rowIdx off (Reg.phaseStatus 0) 0x40 9 with
  | some n => s.show off [(F.phaseStatus_DECLARED, b2n (s.phaseDeclared n))]
  | none => s.rd off

def State.viewEth (s : State) (off : Nat) : W32 :=
  match rowIdx off (Reg.ethTsqCtrl 0) 0x100 6 with
  | some n => s.show off [(F.ethTsqCtrl_DEPTH, (s.port n).queue.length)]
  | none => s.rd off

/-! SAFETY. -/

/-- The condition of a cause is present now (SAFE_ACTIVE, R106, R675). A cause that is an event has no condition. -/
def State.causeActive (s : State) (c : Nat) : Bool :=
  if c = 1 then s.hot
  else if c = 2 then [0, 1].any fun l => 2 ≤ Table.get 0 s.integ.tamper l
  else if c = 3 then (List.range 9).any s.rowOut
  else if c = 4 then (List.range 6).any fun n => s.rowOut (16 + n)
  else if c = 5 then s.integ.swExpired
  else if c = 6 then s.integ.safetyBad || s.weir.clocksBad
  else if c = 10 then !s.integ.parBad.isEmpty
  else if c = 12 then s.anyStopped
  else if c = 13 then s.rf Reg.safeSwStop F.safeSwStop_STOP != 0
  else if 16 ≤ c ∧ c ≤ 24 then s.rf (Reg.phaseStatus (c - 16)) F.phaseStatus_OVERSPEED == 1
  else false

/-- STATE of SAFE_PAIR_STATUS. -/
def Pair.code (p : Pair) : Nat := if !p.applied || !p.enable then 0 else if p.run then 1 else 2

def State.viewSafety (s : State) (off : Nat) : W32 :=
  if off = Reg.safeActive then s.show off [(F.whole, packBits ((List.range 25).map s.causeActive))]
  else if off = Reg.safeWdogLeft then
    s.show off [(F.whole, ceilDiv (s.integ.swKick + 1000 * s.swPeriod - (if s.swPeriod = 0 then s.integ.swKick else s.gts)) 1000)]
  else match rowIdx off (Reg.safePairStatus 0) 16 4 with
    | some k => s.show off [(F.safePairStatus_STATE, (s.pair k).code), (F.safePairStatus_LATCHED, b2n (s.pair k).latch)]
    | none => s.rd off

/-! CLOCK, POWER. -/

/-- SOURCE of CLK_REF_STATUS. -/
def RefSrc.code : RefSrc → Nat
  | .judging => 0
  | .refClk => 1
  | .recovered => 2
  | .holdover => 3

def State.viewClock (s : State) (off : Nat) : W32 :=
  if off = Reg.clkRefStatus then s.show off [(F.clkRefStatus_SOURCE, s.clk.src.code),
    (F.clkRefStatus_REF_GOOD, b2n s.clk.refClk.good), (F.clkRefStatus_RECOV_GOOD, b2n s.clk.recov.good),
    (F.clkRefStatus_LOCKED, b2n s.clk.locked), (F.clkRefStatus_TRANSFERS, s.clk.transfers)]
  else if off = Reg.clkMonStatus then s.show off [(F.clkMonStatus_OUT, packBits ((List.range 9).map s.rowOut))]
  else s.rd off

def State.viewPower (s : State) (off : Nat) : W32 :=
  if off = Reg.powerStatus then s.show off [(F.powerStatus_OP, s.pwr.op), (F.powerStatus_TARGET, s.pwr.target),
    (F.powerStatus_PENDING, s.pwr.pending.getD 0xF), (F.powerStatus_FROZEN, b2n s.seqFrozen),
    (F.powerStatus_AVS_FAULT, b2n s.pwr.avsFault), (F.powerStatus_CAP_W, s.effectiveCap),
    (F.powerStatus_THR_ACTIVE, s.thrActive)]
  else s.rd off

/-! INTEGRITY. -/

/-- Some injection point is armed (INT_STATUS.INJ_ARMED). -/
def State.injAnyArmed (s : State) : Bool :=
  (List.range 28).any fun b => injBlock b && (List.range (if b = 8 then 16 else 1)).any fun i =>
    s.rf (injBase b i + 8) F.inj_ARM == 1

def State.viewIntegrity (s : State) (off : Nat) : W32 :=
  if off = Reg.intStatus then s.show off [(F.intStatus_TEST_EN, s.rf Reg.chipMode F.chipMode_TEST_EN),
    (F.intStatus_INJ_ARMED, b2n s.injAnyArmed), (F.intStatus_PAR_PENDING, b2n !s.integ.parBad.isEmpty)]
  else if off = Reg.intParBlocks then
    s.show off [(F.whole, packBits ((List.range 28).map fun b => s.integ.parBad.any fun o => unitOf o == b))]
  else s.rd off

/-! BOOT, FWP, PINMUX, GATE. -/

/-- The ms left on the trial watchdog. -/
def State.trialLeft (s : State) : Nat :=
  match s.boot.trialEnd with
  | some t => ceilDiv (t - s.gts) 1000000
  | none => 0

def State.viewBoot (s : State) (off : Nat) : W32 :=
  let b := s.boot.board
  if off = Reg.bootTrialLeft then s.show off [(F.whole, s.trialLeft)]
  else if off = Reg.bootFuse then
    s.show off [(F.whole, b.epoch % 128 + 256 * b2n b.sigRequired + 512 * b2n b.encRequired + 1024 * b2n b.rootKeyHash.isSome)]
  else match rowIdx off (Reg.bootDeviceId 0) 4 4 with
    | some i => s.show off [(F.whole, b.deviceId / 2 ^ (32 * i))]
    | none => match rowIdx off (Reg.bootAttestPub 0) 4 24 with
      | some i => s.show off [(F.whole, leNat ((List.range 4).map fun k => Config.attestPub (4 * i + k)))]
      | none => s.rd off

def State.viewFwp (s : State) (off : Nat) : W32 :=
  if off = Reg.fwpReqHead then s.show off [(F.fwpReqHead_COUNT, s.fwp.req.head)]
  else if off = Reg.fwpRspRead then s.show off [(F.whole, s.fwp.read)]
  else s.rd off

def State.viewPinmux (s : State) (off : Nat) : W32 :=
  match rowIdx off (Reg.pmxState 0) 4 25 with
  | some g => s.show off [(F.pmxState_SWITCHING, b2n (s.pinGroup g).switchAt.isSome),
      (F.pmxState_PARK, s.rf (Reg.pmxCfg g) F.pmxCfg_PARK), (F.pmxState_FUNCTION, s.pinFn g)]
  | none => s.rd off

def State.viewGate (s : State) (off : Nat) : W32 :=
  let broken := fun g => s.rf (Reg.gateState g) F.gateState_BROKEN == 1
  let word := fun lo (p : Nat → Bool) => s.show off [(F.whole, packBits ((List.range 32).map fun i => p (lo + i)))]
  if off = Reg.gateFlagsLo then word 0 s.gateFlag
  else if off = Reg.gateFlagsHi then word 32 s.gateFlag
  else if off = Reg.gateBrokenLo then word 0 broken
  else if off = Reg.gateBrokenHi then word 32 broken
  else s.rd off

/-- What the register at an offset of the register region reads. A write-only field reads 0, since no write sets it. -/
def State.readReg (s : State) (off : Nat) : W32 :=
  match off / 0x100000 with
  | 0x00 => s.viewChip off
  | 0x02 => s.viewWeir off
  | 0x03 => s.viewClepsydra off
  | 0x04 => s.viewFtn 0 off
  | 0x05 => s.viewFtn 1 off
  | 0x06 => s.viewFtn 2 off
  | 0x07 => s.viewFtn 3 off
  | 0x08 => s.viewCore (off / 0x10000 % 16) off
  | 0x09 => s.viewCistern off
  | 0x0A => s.viewPipe 0 off
  | 0x0B => s.viewPipe 1 off
  | 0x0C => s.viewPipe 2 off
  | 0x0D => s.viewPipe 3 off
  | 0x0F => s.viewCodec off
  | 0x10 => if off = Reg.ddrTagKib then s.show off [(F.whole, s.ddr.tagBytes / 1024)] else s.rd off
  | 0x12 => s.viewEth off
  | 0x13 => s.viewPhaseio off
  | 0x14 => s.viewSafety off
  | 0x15 => s.viewClock off
  | 0x16 => s.viewPower off
  | 0x17 => s.viewIntegrity off
  | 0x18 => s.viewBoot off
  | 0x19 => s.viewFwp off
  | 0x1A => s.viewPinmux off
  | 0x1B => s.viewGate off
  | _ => s.rd off

/-- A byte of the register region: a register's byte, or a byte of the boot SRAM window or of an instruction memory bank. -/
def State.readRegByte (s : State) (off : Nat) : Byte :=
  let a := off % 0x100000
  if 0x1880000 ≤ off ∧ off < 0x1900000 then Mem.rd s.boot.sram (off - 0x1880000)
  else if 0x400000 ≤ off ∧ off < 0x800000 ∧ 0x40000 ≤ a ∧ a < 0x80000 then
    let x := s.ftn (off / 0x100000 - 4)
    if a < 0x60000 then Mem.rd x.imem0 (a - 0x40000) else Mem.rd x.imem1 (a - 0x60000)
  else BitVec.ofNat 8 ((s.readReg (off / 4 * 4)).toNat / 256 ^ (off % 4))

end Sys2Proof.Machine
end

