-- ==== Sys2Proof/Machine/Parterre.lean ====
section
/-! DEFINITION. Sys2Proof/Machine/Parterre.lean: the Parterre checker at work: reading an image, the checks that need the device's
state, application, reload and the lock (spec/02 R112 to R133, R825, R826; spec/09 R514 to R516). -/
namespace Sys2Proof.Machine

/-! Reading an image (R826). -/

/-- The END_TAG of the checker's reads, that of FWP0 (log entry 62). -/
def Who.checker : Who := { tag := 0x600 }

/-- A byte of the register region; one of an unassigned block cannot be read (R801, R806). -/
def State.checkerRegByte (s : State) (off : Nat) : Byte × Bool × State :=
  if 0x1C00000 ≤ off then (0#8, true, s.chipErr ChipErr.unassigned off Who.checker.tag) else (s.readRegByte off, false, s)

/-- n bytes that lie in one 64-byte line: the bytes, one that cannot be read as 0x00, and whether there was such a byte. -/
def State.checkerLine (s : State) (a n : Nat) : List Byte × Bool × State :=
  if 0x40000000 ≤ a ∧ a < 0x44000000 then
    (List.range n).foldl (fun (r : List Byte × Bool × State) i =>
      let q := r.2.2.checkerRegByte (a + i - 0x40000000); (r.1 ++ [q.1], r.2.1 || q.2.1, q.2.2)) ([], false, s)
  else if 0x800000000 ≤ a ∧ a < 0x803000000 then
    (List.range (ceilDiv (a % 8 + n) 8)).foldl (fun (r : List Byte × Bool × State) i =>
      let lo := max a (a / 8 * 8 + 8 * i)
      let m := min (a + n) (a / 8 * 8 + 8 * i + 8) - lo
      let q := r.2.2.cisRd (lo - 0x800000000) m
      (r.1 ++ (if q.2.1 then List.replicate m 0#8 else q.1), r.2.1 || q.2.1, q.2.2)) ([], false, s)
  else if dramBase ≤ a ∧ a < s.dramEnd then
    let q := s.dramRd Who.checker a n
    (if q.2.1 then List.replicate n 0#8 else q.1, q.2.1, q.2.2)
  else (List.replicate n 0#8, true, s)

/-- n bytes from a physical address, line by line. -/
def State.checkerRead (s : State) (a n : Nat) : List Byte × Bool × State :=
  (List.range (linesOf a n)).foldl (fun (r : List Byte × Bool × State) i =>
    let lo := max a (a / 64 * 64 + 64 * i)
    let q := r.2.2.checkerLine lo (min (a + n) (a / 64 * 64 + 64 * i + 64) - lo)
    (r.1 ++ q.1, r.2.1 || q.2.1, q.2.2)) ([], false, s)

/-- The image at a physical address: its first 12 bytes give TOTAL_LENGTH, and the read goes on to it, or to 262,144 bytes. -/
def State.readImage (s : State) (a : Nat) : List Byte × Bool × State :=
  let (h, e, s) := s.checkerRead a 12
  let (t, e', s) := s.checkerRead (a + 12) (min (Pi.total h) Pi.maxLength - 12)
  (h ++ t, e || e', s)

/-! The checks that need the device's state (R114). -/

/-- The image under check, merged with the sections in force where it is a reload. -/
def State.merge (s : State) (b : List Byte) : Merged :=
  let fs := (Pi.frames b).1
  { pl := fun tag => match fs.find? fun f => f.tag == tag with
      | some f => f.payload b
      | none => if Pi.reload b then s.sec tag else [],
    base := fun tag => (fs.find? fun f => f.tag == tag).map Sect.body }

/-- Check 0x0E (R188, R189): each Fountain's narrowest core offers MIN_WIDTH. -/
def State.checkWidth (s : State) (m : Merged) (reload : Bool) : Option CkFail :=
  let fo := m.pl Tag.fountains
  firstFail ((List.range (u8 fo 0)).map fun f =>
    let first := ((List.range f).map fun i => u8 fo (4 + i)).sum
    if (List.range (u8 fo (4 + f))).all fun i => decide (u8 fo (8 + f) ≤ s.coreWidth (first + i)) then none
    else some (m.fault reload Ck.width [(1, 8 + f)]))

/-- Check 0x0F. -/
def State.checkBase (s : State) (b : List Byte) : Option CkFail :=
  let on := s.checker.inForce
  firstFail [
    must (!Pi.reload b || on) Ck.baseMismatch 0 6,
    must (!Pi.reload b || Pi.baseId b == s.rn Reg.parterreImageId) Ck.baseMismatch 0 0x14,
    must (Pi.reload b || !on) Ck.baseMismatch 0 6,
    must (Pi.reload b || Pi.baseId b == 0) Ck.baseMismatch 0 0x14]

/-- The entry of a group in a PINS body. -/
def pinOfGroup (pl : List Byte) (g : Nat) : Option (Nat × Nat × Nat × Nat) := (pinEntries pl).find? fun e => e.1 == g

/-- An entry with LOCKED set. -/
def pinSaysLocked (e : Nat × Nat × Nat × Nat) : Bool := e.2.2.2.testBit 0

/-- The offsets, in a PINS section, of the fields at fault under the lock, the section itself for an entry that is missing
(R133; DEDUCED, log entry 63). -/
def pinLockFaults (old new : List Byte) (at_ body : Nat) : List Nat :=
  ((pinEntries new).zipIdx.flatMap fun x =>
    let o := body + 4 + 8 * x.2
    match pinOfGroup old x.1.1 with
    | some e => if pinSaysLocked e then
        (if e.2.1 != x.1.2.1 then [o + 2] else []) ++ (if e.2.2.1 != x.1.2.2.1 then [o + 3] else []) ++
        (if e.2.2.2 != x.1.2.2.2 then [o + 4] else [])
      else if pinSaysLocked x.1 then [o] else []
    | none => if pinSaysLocked x.1 then [o] else []) ++
  ((pinEntries old).filter fun e => pinSaysLocked e && (pinOfGroup new e.1).isNone).map fun _ => at_

/-- The offset at which a PINS section that breaks the lock is reported: the lowest of its fields at fault, or the section where
no field of it is at fault. -/
def lockOffset (at_ : Nat) (faults : List Nat) : Option Nat :=
  match faults.filter (· != at_) with
  | o :: l => some (l.foldl min o)
  | [] => if faults.isEmpty then none else some at_

/-- Check 0x11 of a section of a reload (R133): SAFETY, which has no field of its own at fault, at its frame (DEDUCED, log entry
126). -/
def State.lockBroken (s : State) (b : List Byte) (f : Sect) : Option CkFail :=
  if f.tag = Tag.safety then some ⟨Ck.locked, f.tag, f.at_, none⟩
  else if f.tag = Tag.pins then
    (lockOffset f.at_ (pinLockFaults (s.sec Tag.pins) (f.payload b) f.at_ f.body)).map fun o => ⟨Ck.locked, f.tag, o, none⟩
  else none

/-- Check 0x11 of a reload (R132, R133): of PINS and SAFETY, the first in the image that breaks the lock (R116; DEDUCED, log
entry 127). -/
def State.checkLock (s : State) (b : List Byte) : Option CkFail :=
  if s.checker.lockAtStart then firstFail ((Pi.frames b).1.map (s.lockBroken b)) else none

/-! Idle sections (R130). -/

/-- The function and park state that a PINS body gives a group, the reset ones where it names none (R99). They decide whether a
group changes in the sense of R130: PIN_FLAGS alone does not (DEDUCED, log entry 128). -/
def pinConfig (pl : List Byte) (g : Nat) : Nat × Nat :=
  match pinOfGroup pl g with
  | some e => (e.2.1, e.2.2.1)
  | none => let v := RegRow.resetOf (Reg.pmxCfg g); (v.fld F.pmxCfg_FUNCTION, v.fld F.pmxCfg_PARK)

/-- The frame-sync entry that a STREAMS body gives an output. -/
def fsyncEntry (pl : List Byte) (out : Nat) : Option (Nat × Nat) :=
  ((List.range (u8 pl 0x40)).find? fun i => u8 pl (0x44 + 4 * i) == out).map fun i => (u8 pl (0x45 + 4 * i), u8 pl (0x46 + 4 * i))

/-- A pipe is stopped: it holds no frame. -/
def State.pipeStopped (s : State) (p : Nat) : Bool :=
  (s.inlineFrame p).isNone && (s.pipe p).queue.isEmpty && (s.pipe p).jet.isNone

/-- The tokeniser is idle: it has taken every request. -/
def State.tokIdle (s : State) : Bool := s.tok.head == s.tok.tail && s.tokEnd.isNone

/-- An input stream is stopped: a sensor stream OFF or STOPPED, a decoded one CLOSED or STOPPED, the tokeniser idle. -/
def State.inputStopped (s : State) (n : Nat) : Bool :=
  if n < 64 then s.streamSt n == Sst.off || s.streamSt n == Sst.stopped
  else if n < 128 then s.decState (n - 64) == 0 || s.decState (n - 64) == 2
  else s.tokIdle

/-- ENABLE that a DETECTORS body gives a detector; the default is 1 (R630). -/
def detEnable (pl : List Byte) (d : Nat) : Bool :=
  match (detEntries pl).find? fun e => e.1 == d with
  | some e => e.2.1.testBit 0
  | none => true

/-- The strobe entry of a group in force changes. -/
def strobeChanges (old new : List Byte) (e : Nat × Nat × Nat × Nat) : Bool :=
  ((strobeEntries new).find? fun x => x.1 == e.1) != ((strobeEntries old).find? fun x => x.1 == e.1)

/-- A strobe group is armed by its comparator, or held at run time. -/
def State.strobeLive (s : State) (e : Nat × Nat × Nat × Nat) : Bool :=
  (e.2.1 == 1 && (s.tc e.2.2.1).armed) || (e.2.1 == 2 && (s.pc e.2.2.1).armed) ||
  (e.2.1 == 3 && s.claimOf Cls.strobeGroup e.1 != 0)

/-- The blocks of a section that a reload replaces are not idle (R130). `ctrlOn`: the pin groups of which a controller is
enabled, whose registers the spec does not give (R780). -/
def State.sectionBusy (s : State) (ctrlOn : List Nat) (tag : Nat) (new : List Byte) : Bool :=
  let old := s.sec tag
  let guar := !s.guarJobs.isEmpty
  if tag = Tag.fountains then !s.pendingJobs.isEmpty
  else if tag = Tag.cistern then
    !s.pendingJobs.isEmpty || ([0, 1, 2, 3].any fun p => (s.pipe p).jet.isSome) || !s.tokIdle || (s.pool Pool.hostWindow).isSome
  else if tag = Tag.streams then
    ([0, 1, 2, 3].any fun p => (old.drop (16 * p)).take 16 != (new.drop (16 * p)).take 16 && !s.pipeStopped p) ||
    ((List.range 129).any fun n => u16 old (0x84 + 2 * n) != u16 new (0x84 + 2 * n) && !s.inputStopped n) ||
    (List.range 16).any fun o => fsyncEntry old o != fsyncEntry new o && s.rf (Reg.fsyncCfg o) F.fsyncCfg_ENABLE == 1
  else if tag = Tag.pins then
    (List.range 25).any fun g =>
      let a := pinConfig old g
      let b := pinConfig new g
      let on := fun fn => !s.pinDisabled g fn || (pinCtrl fn && ctrlOn.contains g)
      a != b && (on a.1 || on b.1)
  else if tag = Tag.clocks then
    guar || (strobeEntries old).any fun e => strobeChanges old new e && s.strobeLive e
  else if tag = Tag.safety then [0, 1, 2, 3].any fun k => (s.pair k).run
  else if tag = Tag.detectors then guar && (List.range 18).any fun d => detEnable old d != detEnable new d
  else if tag = Tag.weir then guar
  else true

/-- The first section of a reload whose blocks are not idle. -/
def State.busyTag (s : State) (ctrlOn : List Nat) (b : List Byte) : Option Nat :=
  if !Pi.reload b then none else
  ((Pi.frames b).1.find? fun f => s.sectionBusy ctrlOn f.tag (f.payload b)).map Sect.tag

/-- Check 0x10: busy when the check began, or at the strobe. No field is at fault, and the report is at the section's frame
(DEDUCED, log entry 126). -/
def State.checkIdle (s : State) (ctrlOn : List Nat) (b : List Byte) : Option CkFail :=
  match (if s.checker.busyAtStart.isSome then s.checker.busyAtStart else s.busyTag ctrlOn b) with
  | some t => some ⟨Ck.notIdle, t, (((Pi.frames b).1.find? fun f => f.tag == t).map Sect.at_).getD 0, none⟩
  | none => none

/-- Every check, in the order of R114. -/
def State.runChecks (s : State) (ctrlOn : List Nat) : Option CkFail :=
  let b := s.checker.copy
  let m := s.merge b
  let reload := Pi.reload b
  let judged := !reload || s.checker.inForce
  firstFail [
    Pi.checkImage b s.boot.key s.boot.board.sigRequired,
    if judged then m.consistency reload else none,
    if judged then m.conflict (if reload then s.claimOf else fun _ _ => 0) else none,
    if judged then s.checkWidth m reload else none,
    s.checkBase b,
    if reload then s.checkLock b else none,
    if reload then s.checkIdle ctrlOn b else none]

/-! Application (R121 to R124, R132, R825). -/

/-- The blocks that an application of a section touches (R825). -/
def sectionBlocks (tag : Nat) : List Nat :=
  match tag with
  | 1 => [4, 5, 6, 7, 8]
  | 2 => [9]
  | 3 => [0xA, 0xB, 0xC, 0xD, 0xE, 0xF, 9, 3]
  | 4 => [0x1A]
  | 5 => [0x15, 0x16]
  | 6 => [0x14]
  | 7 => [0x17]
  | 8 => [2]
  | _ => [0x11, 2]

/-- Staged writes in touched blocks are discarded (R123). -/
def State.discardStaged (s : State) (blocks : List Nat) : State :=
  let offs := (s.staged.map Prod.fst).filter fun o => blocks.contains (unitOf o)
  if offs.isEmpty then s else
  let s := offs.foldl State.unstage s
  let s := { s with integ := { s.integ with stagedBad := s.integ.stagedBad.filter fun o => !offs.contains o } }
  s.wf Reg.parterreStatus F.parterreStatus_DISCARDED 1

/-- A configuration register that the checker writes: its parity is good again (R660). -/
def State.checkerWrite (s : State) (off : Nat) (v : W32) : State :=
  let s := s.wr off v
  { s with integ := { s.integ with parBad := s.integ.parBad.filter fun o => o != off } }

/-- A PINS section applies: a group whose function changes switches (R99, R784). -/
def State.applyPins (s : State) : State :=
  (List.range 25).foldl (fun s g =>
    let c := pinConfig (s.sec Tag.pins) g
    let old := s.pinFn g
    let s := s.checkerWrite (Reg.pmxCfg g)
      (((s.rd (Reg.pmxCfg g)).setFld F.pmxCfg_FUNCTION c.1).setFld F.pmxCfg_PARK c.2)
    if old = c.1 then s else s.setPinGroup g { switchAt := some s.gts }) s

/-- A cause of a pair is present (R107): the software stop is each pair's own. -/
def State.causePresent (s : State) (k c : Nat) : Bool :=
  if c = 13 then (s.rf Reg.safeSwStop F.safeSwStop_STOP).testBit k else s.causeActive c

/-- A SAFETY section applies to a pair (R105, R107). -/
def State.applyPair (s : State) (k : Nat) : State :=
  let pl := (s.sec Tag.safety).drop (16 * k)
  let mask := u64 pl 4
  let p := s.pair k
  let hit := (List.range 25).filter fun c => mask.testBit c && s.causePresent k c
  let s := hit.foldl (fun s c => s.wr (Reg.safeCause k) (s.rd (Reg.safeCause k) ||| BitVec.ofNat 32 (2 ^ c))) s
  let en := u8 pl 0 == 1
  let latch := u8 pl 1 == 1
  let none_ := s.rn (Reg.safeCause k) == 0
  let held := p.held || (latch && !none_)
  s.setPair k { p with applied := true, enable := en, latch := latch, mask := mask, run := false,
                       fresh := en && none_ && !held, held := held,
                       occAt := hit.foldl (fun t c => Table.put none t c (some s.gts)) p.occAt }

/-- A SAFETY section applies. -/
def State.applySafety (s : State) : State :=
  [0, 1, 2, 3].foldl State.applyPair { s with integ := { s.integ with safetyBad := false } }

/-- A DETECTORS section applies (R108, R630): the software watchdog's period begins. -/
def State.applyDetectors (s : State) : State :=
  let es := detEntries (s.sec Tag.detectors)
  let s := ((List.range 17).map (· + 1)).foldl (fun s d =>
    let e := match es.find? fun e => e.1 == d with
      | some e => (e.2.1, BitVec.ofNat 32 e.2.2)
      | none => ((RegRow.resetOf (Reg.detCtl d)).toNat % 4, RegRow.resetOf (Reg.detThresh d))
    let s := s.checkerWrite (Reg.detCtl d)
      (((s.rd (Reg.detCtl d)).setFld F.detCtl_ENABLE e.1).setFld F.detCtl_EVENT_EACH (e.1 / 2))
    s.checkerWrite (Reg.detThresh d) e.2) s
  { s with integ := { s.integ with swKick := s.gts } }

/-- The application of a CISTERN section frees every page but those that jobs with a final record have yet to write back (R73,
R130; log entry 87). -/
def State.freePages (s : State) : State :=
  { s with pages := s.pages.filter fun e => e.2.dirty || e.2.st == Pg.writeback || s.kept e.1 }

/-- What the application of a section brings about beside its payload. -/
def State.sectionApplied (s : State) (tag : Nat) : State :=
  if tag = Tag.cistern then s.freePages
  else if tag = Tag.pins then s.applyPins
  else if tag = Tag.clocks then s.clocksApplied
  else if tag = Tag.safety then s.applySafety
  else if tag = Tag.detectors then s.applyDetectors
  else s

/-- The comparators that the image in force no longer claims disarm (R557). -/
def State.disarmGone (s : State) (old : List (Nat × Nat)) : State :=
  (old.filter fun c => !s.imageComps.contains c).foldl (fun s c => s.disarm c.1 c.2) s

/-- Sections apply at a firing of strobe group 0 (R121 to R123): tags and payloads in ascending order of the tags. -/
def State.applySections (s : State) (new : List (Nat × List Byte)) : State :=
  let old := s.imageComps
  let s := s.discardStaged (new.flatMap fun x => sectionBlocks x.1)
  let s := s.fire 0
  let s := new.foldl (fun s x => { s with sections := Table.put [] s.sections x.1 x.2 }) s
  (new.foldl (fun s x => s.sectionApplied x.1) s).disarmGone old

/-- The lock is set (R132). -/
def State.setLock (s : State) : State :=
  (s.wf Reg.parterreStatus F.parterreStatus_LOCKED 1).wf Reg.parterreCtrl F.parterreCtrl_LOCK 1

/-- STATE of PARTERRE_STATUS. -/
def Ps.empty : Nat := 0
def Ps.checking : Nat := 1
def Ps.applying : Nat := 2
def Ps.applied : Nat := 3
def Ps.failed : Nat := 4
def Ps.reloadFailed : Nat := 5

/-- CHECK, SECTION and STATE of PARTERRE_STATUS. -/
def State.setVerdict (s : State) (code tag st : Nat) : State :=
  ((s.wf Reg.parterreStatus F.parterreStatus_CHECK code).wf Reg.parterreStatus F.parterreStatus_SECTION tag).wf
    Reg.parterreStatus F.parterreStatus_STATE st

/-- A check has ended: the hold of R131 ends, and the checker raises its event. -/
def State.checkEnds (s : State) : State :=
  let s := { s with checker := { inForce := s.checker.inForce }, weir := { s.weir with admitHeld := false } }
  s.raiseDev 38 Ev.parterre (s.rn Reg.parterreStatus)

/-- STATE after a failed check: RELOAD_FAILED after a reload (R128), FAILED after a full image with none in force (R125), and
RELOAD_FAILED after a full image while one is in force, of which the spec names no state (DEDUCED, log entry 125). -/
def State.failedState (s : State) : Nat :=
  if Pi.reload s.checker.copy || s.checker.inForce then Ps.reloadFailed else Ps.failed

/-- A check has failed (R116, R119, R125, R128). -/
def State.checkFails (s : State) (f : CkFail) : State :=
  let s := s.setVerdict f.code (f.tag % 256) s.failedState
  let s := s.wn Reg.parterreFailOffset f.off
  match f.conflict with
  | none => s
  | some c =>
    let s := ((s.wf Reg.parterreConflictRes F.parterreConflictRes_RES_CLASS c.cls).wf Reg.parterreConflictRes
      F.parterreConflictRes_CONFLICT_COUNT c.count).wf Reg.parterreConflictRes F.parterreConflictRes_RES_NUMBER c.unit
    (s.wn Reg.parterreConflictA (c.a.1 * 65536 + c.a.2)).wn Reg.parterreConflictB (c.b.1 * 65536 + c.b.2 % 65536)

/-- An image is in force (R124, R129). -/
def State.putInForce (s : State) (b : List Byte) : State :=
  let s := s.wn Reg.parterreImageId (Pi.imageId b)
  let s := s.wf Reg.parterreStatus F.parterreStatus_SIGNED (b2n (Pi.signed b))
  let s := { s with checker := { s.checker with inForce := true } }
  let s := if Pi.lockAtApply b then s.setLock else s
  s.setVerdict 0 0 Ps.applied

/-- An image applies. LEGACY is ignored outside the profile (R113); in the profile no image's other sections are taken (R515). -/
def State.applyImage (s : State) (b : List Byte) : State :=
  let new := (((Pi.frames b).1.filter fun f => f.tag != Tag.legacy).map fun f => (f.tag, f.payload b))
  if !s.legacy then (s.applySections new).putInForce b
  else if s.checker.inForce then s.putInForce b
  else s.setVerdict 0 0 Ps.failed

/-! The LPL-3020 profile (R112, R514 to R516, R519). -/

/-- The cores of the fixed default (R515). -/
def State.legacyCores (s : State) : Nat := ((List.range 16).find? fun c => decide (s.coreWidth c < 56)).getD 16

/-- The fixed default Parterre of k cores and a power cap (R514). -/
def legacySections (k cap : Nat) : List (Nat × List Byte) :=
  let b := fun (l : List Nat) => l.map (BitVec.ofNat 8)
  [(1, b [1, 0, 0, 0, k, 0, 0, 0, 56, 0, 0, 0, 0, 0, 0, 0]),
   (2, b [2, 0, 0, 0, 1, 0, 0, 0, 0x80, 1, 0, 0, 2, 0, 0x80, 1, 0x80, 1, 0, 0]),
   (3, List.replicate 390 0#8), (4, b [0, 0, 0, 0]), (5, b [0, 5, 0, cap, 16, 20, 6, 0]), (6, List.replicate 64 0#8),
   (7, b [0, 0, 0, 0]),
   (8, leBytes 1000000 4 ++ b [10, 2, 0, 0, 0, 0, 0, 0, 212, 0, 0, 0] ++ List.replicate 8 0#8)]

/-- The one context of the profile (R516, R517, R519). -/
def State.legacyCtx (s : State) : State :=
  let l := s.sec Tag.legacy
  let log2 := if l.isEmpty then 10 else u8 l 6
  s.setCtx 0 { resident := true, ctxId := 0, share := 1, queueCount := 1, beMax := 65536, cplLog2 := log2, cplVector := 0,
               evtLog2 := log2, evtVector := 1, queues := [(0, { log2 := log2, enable := true })] }

/-- The boot image of a profile device has been checked: the fixed default applies, with the LEGACY section of an image that
has passed every check. Where the fixed default fails WIDTH, which has no image, FAIL_OFFSET is 0 (DEDUCED, log entry 88). -/
def State.applyLegacy (s : State) (b : List Byte) (ok : Bool) : State :=
  let leg := if ok then ((Pi.frames b).1.find? fun f => f.tag == Tag.legacy).map fun f => f.payload b else none
  let k := s.legacyCores
  if k = 0 then s.checkFails ⟨Ck.width, Tag.fountains, 0, none⟩ else
  let cap := match leg with
    | some l => u8 l 7
    | none => 45
  let s := s.applySections (legacySections k cap ++ match leg with
    | some l => [(Tag.legacy, l)]
    | none => [])
  let s := if ok then s.putInForce b
    else ({ s with checker := { s.checker with inForce := true } } : State).wf Reg.parterreStatus F.parterreStatus_STATE Ps.applied
  s.legacyCtx

/-! The commands. -/

/-- A check begins with a copy of an image (R130 to R132). -/
def State.checkBegins (s : State) (ctrlOn : List Nat) (boot : Bool) (b : List Byte) : State :=
  let tags := (Pi.frames b).1.map Sect.tag
  let hold := Pi.reload b && [Tag.fountains, Tag.cistern, Tag.clocks, Tag.weir].any tags.contains
  let s := { s with
    checker := { s.checker with copy := b, tags := tags, boot := boot, lockAtStart := s.imageLocked,
                                busyAtStart := s.busyTag ctrlOn b },
    weir := { s.weir with admitHeld := hold } }
  s.wf Reg.parterreStatus F.parterreStatus_STATE Ps.checking

/-- The checker is started on the image at a physical address (R826). -/
def State.checkAt (s : State) (ctrlOn : List Nat) (boot : Bool) (a : Nat) : State :=
  let (b, e, s) := s.readImage a
  let s := if e then s.wf Reg.parterreStatus F.parterreStatus_READ_ERR 1 else s
  s.checkBegins ctrlOn boot b

/-- GO is written (R127, R826). -/
def State.parterreGo (s : State) (ctrlOn : List Nat) : State :=
  if s.checking then s.wf Reg.parterreStatus F.parterreStatus_OVERLAP 1 else
  s.checkAt ctrlOn false
    (s.rf Reg.parterreSrcLo F.parterreSrcLo_ADDR * 8 + s.rf Reg.parterreSrcHi F.parterreSrcHi_ADDR * 2 ^ 32)

/-- PARTERRE_CTRL is written: the lock once set stays set (R132), and GO starts a check. Where one write has LOCK and GO both 1 the
lock is set first, so the check is judged under it (DEDUCED, log entry 129). -/
def State.parterreCtrl (s : State) (tag : Nat) (ctrlOn : List Nat) (v : W32) : State :=
  let locked := s.imageLocked || v.fld F.parterreCtrl_LOCK == 1
  let s := (s.writeReg tag Reg.parterreCtrl v).wf Reg.parterreCtrl F.parterreCtrl_LOCK 0
  let s := if locked then s.setLock else s
  if v.fld F.parterreCtrl_GO = 1 then s.parterreGo ctrlOn else s

/-- The boot check waits for the self-test of every core (R184, R188). -/
def State.checkReady (s : State) : Bool := !s.checker.boot || (List.range 16).all fun c => (s.core c).tested

/-- PARTERRE_CHECK: the checks, and the application or the failure. -/
def State.parterreCheck (s : State) (ctrlOn : List Nat) : State :=
  let b := s.checker.copy
  let r := s.runChecks ctrlOn
  let s := if s.legacy && s.checker.boot then
      (match r with
       | none => s.applyLegacy b true
       | some f => (s.checkFails f).applyLegacy b false)
    else match r with
      | none => s.applyImage b
      | some f => s.checkFails f
  (if s.checker.boot && s.checker.inForce then s.wn Reg.bootTParterre (s.gts / 1000) else s).checkEnds

def execParterreGo (tag : Nat) (ctrlOn : List Nat) (v : W32) (s : State) :=
  onFabric s (guarded (v.fld F.parterreCtrl_GO == 1) fun s => s.parterreCtrl tag ctrlOn v)
def execParterreLock (tag : Nat) (v : W32) (s : State) :=
  onFabric s (guarded (v.fld F.parterreCtrl_GO == 0) fun s => s.parterreCtrl tag [] v)
def execParterreCheck (ctrlOn : List Nat) (s : State) :=
  onFabric s (guarded (s.checking && s.checkReady && s.dramServes) fun s => s.parterreCheck ctrlOn)

end Sys2Proof.Machine
end

