-- ==== Sys2Proof/Machine/Boot.lean ====
section
/-! DEFINITION. Sys2Proof/Machine/Boot.lean: resets (spec/14 R680, R681; spec/17 R822), the boot (spec/14 R684 to R703, R718), the
lock and relock of the root PLL (spec/15 R726, R733 to R736), standby, and the requests that FWP0 serves (spec/14 R698 to R705). -/
namespace Sys2Proof.Machine

/-! Resets (R680, R681, R773, R822). -/

/-- Codes of R680. -/
def Rc.powerOn : Nat := 1
def Rc.pin : Nat := 2
def Rc.trialExpired : Nat := 3
def Rc.request : Nat := 4
def Rc.standbyWake : Nat := 5
def Rc.tamperWake : Nat := 6
def Rc.pcie : Nat := 7

/-- The mode pins as CHIP_MODE shows them. -/
def State.sampleModes (s : State) (m : ModePins) : State :=
  (((s.wf Reg.chipMode F.chipMode_LEGACY_1CTX (b2n m.legacy)).wf Reg.chipMode F.chipMode_BOOT_SRC m.bootSrc).wf Reg.chipMode
    F.chipMode_TEST_EN (b2n m.testEn)).wf Reg.chipMode F.chipMode_AVS_ADDR m.avsAddr

/-- BOOT_DEBUG_NONCE is drawn afresh (R705). -/
def State.drawNonce (s : State) : State :=
  [0, 1, 2, 3].foldl (fun s i => let d := s.draw 24; d.2.wn (Reg.bootDebugNonce i) d.1) s

/-- A table with every value changed, its entries that become the default removed. -/
def Table.remake {α β : Type} [DecidableEq β] (d : β) (t : Table α) (f : α → β) : Table β :=
  t.foldl (fun u e => Table.put d u e.1 (f e.2)) []

/-- Fields of registers that a reset other than POWER_ON keeps (R822). -/
def State.keepFields (s old : State) : State :=
  let s := (s.wf Reg.bootStatus F.bootStatus_TAMPER (old.rf Reg.bootStatus F.bootStatus_TAMPER)).wf Reg.bootStatus
    F.bootStatus_KEY_LOCKED (old.rf Reg.bootStatus F.bootStatus_KEY_LOCKED)
  [0, 1, 2, 3, 4].foldl (fun s n => s.wf (Reg.fwpRstCount n) F.fwpRstCount_COUNT
    (old.rf (Reg.fwpRstCount n) F.fwpRstCount_COUNT)) s

/-- What every reset keeps: the commands that wait, the free values drawn, the boot flash, the board and the balls. -/
def State.afterReset (s : State) : State :=
  { State.reset with
    pending := s.pending, freeCount := s.freeCount, phases := Table.remake {} s.phases Phase.balls,
    boot := { board := s.boot.board, flash := s.boot.flash } }

/-- What a reset other than POWER_ON keeps (R530, R680): the GTS, TAI, the always-on domain with its monitors, and TAMPER_HOLD;
the marks of DRAM where DRAM is kept. -/
def State.survivors (s : State) (dram : Bool) : State :=
  let i := s.integ
  { s.afterReset with
    gts := s.gts, taiSec := s.taiSec, taiNs := s.taiNs, taiFrac := s.taiFrac, taiRate := s.taiRate, taiValid := s.taiValid,
    clk := { s.clk with transfers := 0, recovWanted := false },
    integ := { clkOut := i.clkOut, railOut := i.railOut, clkStopped := i.clkStopped, protective := i.protective,
               yesOk := i.yesOk, stopped := i.stopped, cleared := i.cleared, tamper := i.tamper, swKick := s.gts,
               marks := if dram then i.marks.filter fun e => decide (markKey Mc.dram 0 0 ≤ e.1) else [] },
    dram := if dram then s.dram else [],
    boot := { s.afterReset.boot with hold := s.boot.hold },
    pairs := [0, 1, 2, 3].foldl (fun t k => Table.put {} t k { since := s.gts }) [] }

/-- The device is reset, for every cause but POWER_ON. -/
def State.resetFor (s : State) (cause : Nat) (m : Option ModePins) : State :=
  let t := (s.survivors (cause == Rc.standbyWake)).keepFields s
  let t := match m with
    | some m => t.sampleModes m
    | none => t.wr Reg.chipMode (s.rd Reg.chipMode)
  (t.wf Reg.bootCause F.bootCause_CAUSE cause).drawNonce

/-! The loader and the ROM (R684 to R689). -/

/-- STATE of BOOT_STATUS. -/
def Bs.rom : Nat := 0
def Bs.stage1 : Nat := 1
def Bs.ready : Nat := 2
def Bs.bootFail : Nat := 3
def Bs.hold : Nat := 4
def Bs.halt : Nat := 5
def Bs.waitPcie : Nat := 6

def State.bootState (s : State) : Nat := s.rf Reg.bootStatus F.bootStatus_STATE
def State.setBootState (s : State) (v : Nat) : State := s.wf Reg.bootStatus F.bootStatus_STATE v

/-- The device holds in BOOT_FAIL: no job is admitted, and every pair stays at stop (R687). -/
def State.bootFail (s : State) : State :=
  { s.setBootState Bs.bootFail with pairs := s.pairs.map fun e => (e.1, { e.2 with run := false }) }

/-- The VERSION record as the ROM finds it. -/
def State.readVersion (s : State) : State :=
  (s.wf Reg.bootStatus F.bootStatus_VERSION_LOST (b2n s.versionRec.isNone)).wn Reg.bootMinVersion s.minVersion

/-- FWP0 loads the components (R691), releases FWP1 to FWP4, and starts the checker. A component that the table does not name
counts as one that fails (DEDUCED, log entry 64). -/
def State.loadComponents (s : State) : State :=
  if (s.component 0x12).isNone then s.bootFail else
  let s := [1, 2, 3, 4].foldl State.fwLoad s
  let s := { s with boot := { s.boot with camTable := (s.component 0x11).getD [], starting := false } }
  match s.component 0x10 with
  | some b => (s.cisWr 0x2FC0000 b).checkAt [] true 0x802FC0000
  | none => s.checkBegins [] true []

/-- The image in boot SRAM is accepted and started (R689, R701, R703). -/
def State.acceptImage (s : State) (slot : Nat) (trial : Bool) : State :=
  let i := s.sramImg
  let s := (s.wf Reg.bootStatus F.bootStatus_SLOT slot).wf Reg.bootStatus F.bootStatus_TRIAL (b2n trial)
  let s := (s.wn Reg.bootVersion (S1.version i)).wn Reg.bootTStage1 (s.gts / 1000)
  let s := (List.range 12).foldl (fun s k => s.wn (Reg.bootStage1Hash k) (leNat (i (0x100 + 4 * k) 4))) s
  let s := { s with boot := { s.boot with
    sramLock := S1.length i, comps := s.s1Comps i, key := S1.parterreKey i,
    trialEnd := if trial then some (s.gts + s.slotRec.period * second) else none } }
  let d := s.draw 23
  let s := ((d.2.setFw 0 Fw.running).wf (Reg.fwpState 0) F.fwpState_VERSION d.1).setBootState Bs.stage1
  (if trial then s else s.raiseFloor (S1.version i) (S1.epoch i)).loadComponents

/-- A slot's image is copied into boot SRAM and checked: the code of the check that fails, 0 if none. -/
def State.trySlot (s : State) (slot : Nat) : Nat × State :=
  let r := (s.loadSlot slot).sramCheck
  (r.1, if r.1 = 0 then r.2 else r.2.wf Reg.bootStatus F.bootStatus_FAIL r.1)

/-- A boot from flash (R684, R687, R700, R701). -/
def State.bootFlash (s : State) (forced : Bool) : State :=
  let r := s.slotRec
  let trial := !forced && r.trial != 1 && r.request == 1
  let slot := if forced then 0 else if trial then 1 - r.active % 2 else r.active % 2
  let s := if trial then s.writeSlotRec fun r => { r with request := 0, trial := 1 }
    else if !forced && r.trial == 1 then s.writeSlotRec fun r => { r with trial := 2 } else s
  let s := s.wf Reg.bootStatus F.bootStatus_TRIAL_FAILED (b2n (!forced && (r.trial == 1 || r.trial == 2) && !trial))
  let c := s.trySlot slot
  if c.1 = 0 then c.2.acceptImage slot trial
  else if forced then c.2.bootFail
  else
    let s := if trial then (c.2.writeSlotRec fun r => { r with trial := 2 }).wf Reg.bootStatus F.bootStatus_TRIAL_FAILED 1
      else c.2
    let d := s.trySlot (1 - slot)
    if d.1 = 0 then (d.2.wf Reg.bootStatus F.bootStatus_FALLBACK 1).acceptImage (1 - slot) false else d.2.bootFail

/-- The ROM boot (R685, R709). It runs once the fabric clock does. -/
def State.romBoot (s : State) : State :=
  if s.boot.hold then s.setBootState Bs.hold else
  let s := s.readVersion
  let src := s.rf Reg.chipMode F.chipMode_BOOT_SRC
  if src = 3 then s.setBootState Bs.halt
  else if src = 2 then { s.setBootState Bs.waitPcie with pcieUp := true }
  else s.bootFlash (src == 1)

/-- The sequencer commands 0.60 V (R748), while the rail may be anywhere from there to 0.85 V, the power-up voltages. -/
def State.railStart (s : State) : State := ({ s with pwr := { s.pwr with spHigh := opVolt 0 } } : State).sendFrame 5

/-- A boot that has not begun begins if the fabric clock runs. -/
def State.bootGoes (s : State) : State :=
  if s.clockOn && s.boot.starting && s.bootState == Bs.rom then s.railStart.romBoot else s

/-- BOOT_PCIE_GO is written: the image that the host has put into boot SRAM is checked and started (R685). -/
def State.pcieGo (s : State) : State :=
  let r := s.sramCheck
  if r.1 = 0 then r.2.acceptImage 0 false else (r.2.wf Reg.bootStatus F.bootStatus_FAIL r.1).bootFail

/-! The clock, standby and the resets as commands. -/

/-- Time passes while the fabric clock does not run: the GTS and TAI advance by it (R522, R530, R735). -/
def State.elapse (s : State) (ns : Nat) : State :=
  let t := s.taiAll + ns
  { s with gts := s.gts + ns, taiSec := t / second % 2 ^ 48, taiNs := t % second }

/-- Standby ends: its time, rounded up to a whole µs, has passed, and the root PLL judges its reference anew (R522). -/
def State.leaveStandby (s : State) (elapsed : Nat) : State :=
  if s.clk.standby then
    let s := s.elapse (ceilDiv elapsed 1000 * 1000)
    { s with clk := { s.clk with standby := false, locked := false, gated := false, src := .judging, refClk := {}, recov := {} } }
  else s

/-- A reset of the running device, or of one in standby. -/
def State.deviceReset (s : State) (cause elapsed : Nat) (m : Option ModePins) : State :=
  ((s.leaveStandby elapsed).resetFor cause m).bootGoes

/-- POWER_ON (R680, R770): nothing of the device survives; `b`: another board, with its flash and fuses. -/
def State.powerOn (s : State) (m : ModePins) (b : Option Board) : State :=
  let s := match b with
    | some b =>
      let f := b.flash.foldl (fun (f : Mem) (e : Nat × Byte) => Mem.wr f e.1 e.2) []
      { s with boot := { s.boot with board := { b with flash := [] }, flash := f } }
    | none => s
  ((s.afterReset.sampleModes m).wf Reg.bootCause F.bootCause_CAUSE Rc.powerOn).drawNonce

/-- ROOT_PLL_LOCK (R725, R726): the root PLL locks to REF_CLK, the fabric clock starts, and the boot runs. -/
def State.rootLock (s : State) : State :=
  ({ s with clk := { s.clk with locked := true, src := .refClk } } : State).bootGoes

/-- ROOT_RELOCK (R734 to R736): the clocks run again after a gap in µs. A boot that a reset has left waiting begins. -/
def State.rootRelock (s : State) (gapUs : Nat) : State :=
  let s := s.cycleEnd.elapse (1000 * gapUs)
  let s := { s with clk := { s.clk with locked := true, gated := false, selfRefresh := false, src := .refClk } }
  let s := (s.wn Reg.clkGapCount (s.rn Reg.clkGapCount + 1)).wn Reg.clkGapLast gapUs
  if s.boot.starting && s.bootState == Bs.rom then s.bootGoes else s.askWindow

/-- STANDBY (R693, R706): the device answers, then turns all but the always-on domain off. -/
def State.enterStandby (r : FwReq) (s : State) : FwResult :=
  (some (Rs.ok, none),
   { s with clk := { s.clk with standby := true, selfRefresh := true }, boot := { s.boot with wakeAt := r.a0, tamperWake := false },
            pcieUp := false, pairs := s.pairs.map fun e => (e.1, { e.2 with run := false, fresh := false }) })

/-- A wake is due: at the GTS that STANDBY named, or by WAKE_N. -/
def State.wakeDue (s : State) (elapsed : Nat) (wakeN : Bool) : Bool :=
  s.clk.standby && (wakeN || (s.boot.wakeAt != 0 && decide (s.boot.wakeAt ≤ s.gts + ceilDiv elapsed 1000 * 1000)))

/-- STANDBY_WAKE: the DRAM keeps its contents and its training (R680, R709). -/
def State.standbyWake (s : State) (elapsed : Nat) : State :=
  let s := (s.leaveStandby elapsed).resetFor Rc.standbyWake none
  ({ s with boot := { s.boot with wake := true } } : State).bootGoes

/-- TAMPER_WAKE: the wake enters TAMPER_HOLD without loading an image (R707). -/
def State.tamperWake (s : State) (elapsed : Nat) : State :=
  ((s.leaveStandby elapsed).resetFor Rc.tamperWake none).tamperHold

/-! READY (R651, R697, R718, R719, and the start-up timeline). -/

/-- The newest valid copy of the training store, and its place (R719; log entry 93). -/
def boardNewest (b : Board) : Option (TrainCopy × Nat) :=
  match b.train0, b.train1 with
  | some x, some y => if x.seq < y.seq then some (y, 1) else some (x, 0)
  | some x, none => some (x, 0)
  | none, some y => some (y, 1)
  | none, none => none

/-- Stored training applies (R719): a valid copy records the DRAM part that the mode registers report, and the DDR PHY
temperature lies within 20 °C of the recorded one. -/
def State.storedTraining (s : State) (part : Nat) : Bool :=
  match boardNewest s.boot.board with
  | some (c, _) => c.part == part && decide ((phyTemp s.pwr.sensors - c.temp).natAbs ≤ 80)
  | none => false

/-- FWP4 writes the results of a cold training to the copy that does not hold the newest valid results (R719). -/
def State.storeTraining (s : State) (part : Nat) : State :=
  let b := s.boot.board
  let c : TrainCopy := { seq := ((boardNewest b).map fun x => x.1.seq + 1).getD 0, part := part, temp := phyTemp s.pwr.sensors }
  let b := if (boardNewest b).map Prod.snd = some 0 then { b with train1 := some c } else { b with train0 := some c }
  { s with boot := { s.boot with board := b } }

/-- BOOT_READY: DRAM is trained, from its store or cold; `ok`: no channel has failed twice. -/
def State.bootReady (s : State) (t : Training) (ok : Bool) : State :=
  if !ok then s.bootFail else
  let cold := !s.boot.wake && (t.retrained || !s.storedTraining t.part)
  let s := if cold then s.storeTraining t.part else s
  let s := s.wn Reg.ddrUsable s.boot.board.usable
  let s := s.wf Reg.bootStatus F.bootStatus_COLD_TRAINED (b2n cold)
  let s := ((s.trained.wn Reg.bootTDram (s.gts / 1000)).wn Reg.bootTReady (s.gts / 1000)).setBootState Bs.ready
  let s := s.wf Reg.bootStatus F.bootStatus_READY 1
  ({ s with pcieUp := true } : State).fwPump

/-- The steps of the timeline before READY are done. -/
def State.readyDue (s : State) : Bool :=
  s.bootState == Bs.stage1 && !s.checking && s.fwUp 4 && (List.range 16).all fun c => (s.core c).tested

/-! Trial boots (R701, R702). -/

/-- BOOT_CONFIRM is written; the registers and the watchdog need no firmware. -/
def State.bootConfirm (s : State) (v : W32) : State :=
  if v ≠ 0x0C0FF3F0#32 then s.wf Reg.intStatus F.intStatus_TWIN_WRITE 1
  else match s.boot.trialEnd with
    | some t =>
      if t ≤ s.gts then s else
      let s := { s with boot := { s.boot with trialEnd := none, confirming := true } }
      (s.wf Reg.bootStatus F.bootStatus_CONFIRM 1).confirmCommit
    | none => if s.boot.confirming then s else s.wf Reg.bootStatus F.bootStatus_CONFIRM 3

/-- The trial watchdog has expired; it runs through standby too. -/
def State.trialOver (s : State) (elapsed : Nat) : Bool :=
  s.boot.trialEnd.any fun t => decide (t ≤ s.gts + if s.clk.standby then elapsed else 0)

/-! Requests that FWP0 serves (R698, R699, R704, R705). -/

/-- SLOT_REQUEST (R699): TRIAL_S must fit its field; its meaning is R683's. -/
def State.slotRequest (r : FwReq) (s : State) : FwResult :=
  if 65536 ≤ r.a0 then (some (Rs.badArg, none), s) else
  let other := 1 - s.rf Reg.bootStatus F.bootStatus_SLOT
  let i := s.slotImg other
  if s.s1Check i = 0 ∧ (s.s1Comps i).all (s.compHashOk other) then
    (some (Rs.ok, none), s.writeSlotRec fun c => { c with request := 1, trialS := r.a0 })
  else (some (Rs.verifyFail, none), s)

/-- Two ranges of the flash overlap. -/
def overlaps (a n b m : Nat) : Bool := decide (0 < n) && decide (a < b + m) && decide (b < a + n)

/-- FLASH_WRITE is denied (R698). -/
def State.flashDenied (s : State) (a n : Nat) : Bool :=
  let slot := s.rf Reg.bootStatus F.bootStatus_SLOT
  a % 4096 != 0 || n % 4096 != 0 || overlaps a n 0 0x10000 || overlaps a n 0x80000 0x10000 || overlaps a n 0x3100000 0x100000 ||
  overlaps a n (stage1Base slot) 0x70000 || overlaps a n (payloadBase slot) payloadSize

/-- FLASH_WRITE (R698). `flashOk`: the flash has programmed what it was given; where it has not, the bytes of the range are free
values (log entry 6). -/
def State.flashWrite (flashOk : Bool) (r : FwReq) (s : State) : FwResult :=
  if s.flashDenied r.a0 r.a2 then (some (Rs.flashDenied, none), s)
  else if 2 ^ 32 < r.a0 + r.a2 then (some (Rs.badArg, none), s) else
  match s.vread { tag := 0x600 } r.a1 r.a2 with
  | (none, s) => (some (Rs.badArg, none), s.xlateFault 0x600)
  | (some (b, _), s) =>
    if flashOk then (some (Rs.ok, none), s.flashWr r.a0 b)
    else
      let d := s.draw 26
      (some (Rs.flashError, none), d.2.flashWr r.a0 ((List.range r.a2).map fun i => BitVec.ofNat 8 (Config.freePixel d.1 40 i 0)))

/-- FLAGS of the attestation report. -/
def State.attestFlags (s : State) : Nat :=
  s.rf Reg.bootStatus F.bootStatus_TRIAL + 2 * s.rf Reg.bootStatus F.bootStatus_SLOT + 4 * s.rf Reg.chipMode F.chipMode_TEST_EN +
  8 * s.rf Reg.intStatus F.intStatus_DEBUG_GRANT + 16 * b2n s.legacy + 32 * b2n s.imageLocked +
  64 * s.rf Reg.bootStatus F.bootStatus_VERSION_LOST

/-- The signed part of the attestation report. -/
def State.attestBody (s : State) (nonce : List Byte) : List Byte :=
  leBytes 0x54535441 4 ++ leBytes 0x100 2 ++ leBytes s.attestFlags 2 ++ leBytes s.gts 8 ++ nonce ++
  ((List.range 12).flatMap fun k => leBytes (s.rn (Reg.bootStage1Hash k)) 4) ++ beBytes (sha384 s.boot.comps.flatten) 48 ++
  leBytes (s.rn Reg.parterreImageId) 4 ++ leBytes (s.rn Reg.bootVersion) 4 ++ leBytes (s.rn Reg.bootMinVersion) 4 ++
  leBytes s.boot.board.epoch 1 ++ leBytes 0 19

/-- ATTEST. -/
def State.attest (r : FwReq) (s : State) : FwResult :=
  if r.a0 % 32 ≠ 0 then (some (Rs.badArg, none), s)
  else if s.keyLocked then (some (Rs.keyLocked, none), s) else
  match s.vread { tag := 0x600 } (r.a0 + 0x10) 48 with
  | (none, s) => (some (Rs.badArg, none), s.xlateFault 0x600)
  | (some (n, _), s) =>
    let b := s.attestBody n
    let w := s.vwrite { tag := 0x600 } r.a0 (b ++ ((Config.ecdsaSign (sha384 b)) ++ List.replicate 96 0#8).take 96)
    if w.1 then (some (Rs.ok, none), w.2) else (some (Rs.badArg, none), w.2.xlateFault 0x600)

/-- The token of R705 is good. -/
def State.tokenOk (s : State) (b : List Byte) : Bool :=
  match s.boot.board.debugKeyHash with
  | none => false
  | some h => fieldAt b 0 16 == s.boot.board.deviceId % 2 ^ 128 &&
    ((List.range 4).all fun i => u32 b (16 + 4 * i) == s.rn (Reg.bootDebugNonce i)) &&
    Config.ecdsaVerify (Config.keyOfDigest h) (sha384 (b.take 32)) ((b.drop 32).take 96)

/-- DEBUG_GRANT (R705). -/
def State.debugGrant (r : FwReq) (s : State) : FwResult :=
  if s.keyLocked then (some (Rs.keyLocked, none), s) else
  match s.vread { tag := 0x600 } r.a0 128 with
  | (none, s) => (some (Rs.badArg, none), s.xlateFault 0x600)
  | (some (b, _), s) =>
    if s.tokenOk b then (some (Rs.ok, none), s.wf Reg.intStatus F.intStatus_DEBUG_GRANT 1) else (some (Rs.tokenBad, none), s)

/-- RESET: FWP0 resets the device for a taken request (R693). -/
def State.resetRequest (s : State) (m : ModePins) : State :=
  let s := s.fwPump
  if s.fwUp 0 && s.fwp.taken.any (fun r => r.code == 0x55) then s.deviceReset Rc.request 0 (some m) else s

/-- PCIE_LINK_DOWN: at every such event the host's Gates break (R503, R507), and a down link may take PCIE_CFG (R794; log entry
134). -/
def State.pcieDown (s : State) : State := ({ s with pcieUp := false } : State).breakGates Owner.pcieHost

/-! Meanings. -/

def execPowerOn (m : ModePins) (b : Option Board) (s : State) := always s fun s => s.powerOn m b
def execPinReset (m : ModePins) (elapsed : Nat) (s : State) :=
  always s (guarded (!s.clk.shutdown) fun s => s.deviceReset Rc.pin elapsed (some m))
def execTrialExpired (m : ModePins) (elapsed : Nat) (s : State) :=
  always s (guarded (!s.clk.shutdown && s.trialOver elapsed) fun s => s.deviceReset Rc.trialExpired elapsed (some m))
def execStandbyWake (elapsed : Nat) (wakeN : Bool) (s : State) :=
  always s (guarded (s.wakeDue elapsed wakeN) fun s => s.standbyWake elapsed)
def execTamperWake (elapsed : Nat) (s : State) :=
  always s (guarded (s.clk.standby && s.boot.tamperWake) fun s => s.tamperWake elapsed)
def execPcieReset (m : ModePins) (s : State) :=
  always s (guarded (!s.clk.shutdown && !s.clk.standby && s.rf Reg.chipMode F.chipMode_BOOT_SRC == 2) fun s =>
    s.deviceReset Rc.pcie 0 (some m))
def execPcieLinkDown (s : State) := onFabric s State.pcieDown
def execBootPcieGo (v : W32) (s : State) :=
  onFabric s (guarded (v == 1#32 && s.bootState == Bs.waitPcie) State.pcieGo)
def execBootReady (training : Training) (ok : Bool) (s : State) :=
  onFabric s (guarded s.readyDue fun s => s.bootReady training ok)
def execSlotRequest (s : State) := onFabric s fun s => s.fwServe 0x50 State.slotRequest
def execFlashWrite (flashOk : Bool) (s : State) := onFabric s fun s => s.fwServe 0x51 (State.flashWrite flashOk)
def execAttest (s : State) := onFabric s fun s => s.fwServe 0x52 State.attest
def execDebugGrant (s : State) := onFabric s fun s => s.fwServe 0x53 State.debugGrant
def execDebugRevoke (s : State) := onFabric s fun s => s.fwServe 0x54 fun _ s => (some (Rs.ok, none), s.revokeDebug)
def execReset (m : ModePins) (s : State) := onFabric s fun s => s.resetRequest m
def execStandby (s : State) := onFabric s fun s => s.fwServe 0x56 State.enterStandby
def execBootConfirm (v : W32) (s : State) := onFabric s fun s => s.bootConfirm v
/-- The root PLL locks to a reference judged good; it waits in no shutdown, standby or gated state. -/
def execRootPllLock (s : State) :=
  always s (guarded (!s.clk.locked && !s.clk.gated && !s.clk.shutdown && !s.clk.standby && s.clk.refClk.good) State.rootLock)
def execRootRelock (gapUs : Nat) (s : State) :=
  always s (guarded (s.clk.gated && !s.clk.shutdown && !s.clk.standby && s.clk.refClk.good) fun s => s.rootRelock gapUs)

end Sys2Proof.Machine
end

