-- ==== Sys2Proof/Machine/MoveSlots.lean ====
section
/-! DEFINITION. Sys2Proof/Machine/MoveSlots.lean: the matrix, load and store slots of a bundle (spec/04 R216 to R236). -/
namespace Sys2Proof.Machine

/-- Batches of steps with their preloads and drains are ordered, and the weight pointer moves on (R217, R219). -/
def execMst (f : Nat) (m : MSlot) (last : Bool) (s : State) :=
  onFabric s fun s => s.slot f (.mst m) last

/-- A preload of the named arrays is ordered (R223). -/
def execMpl (f : Nat) (m : MSlot) (last : Bool) (s : State) :=
  onFabric s fun s => s.slot f (.mpl m) last

/-- A load Rill starts (R225). -/
def execRstart (f : Nat) (r : RSlot) (last : Bool) (s : State) :=
  onFabric s fun s => s.slot f (.rstart r) last

/-- A load Rill stops (R226). -/
def execRstop (f : Nat) (g r : Nat) (last : Bool) (s : State) :=
  onFabric s fun s => s.slot f (.rstop g r) last

/-- A vector register is loaded from the Basin (R227). -/
def execVld (f : Nat) (v : VMem) (last : Bool) (s : State) :=
  onFabric s fun s => s.slot f (.vld v) last

/-- A weight pointer is set (R228). -/
def execWset (f : Nat) (g w base step bstep : Nat) (last : Bool) (s : State) :=
  onFabric s fun s => s.slot f (.wset g w base step bstep) last

/-- The preload pointer becomes ADDR × 256 (R229). -/
def execPpset (f : Nat) (g addr : Nat) (last : Bool) (s : State) :=
  onFabric s fun s => s.slot f (.ppset g addr) last

/-- The drain selection is set (R231), and the descriptor counts its drains from 0 (R338). -/
def execDsel (f : Nat) (g dcd sr : Nat) (last : Bool) (s : State) :=
  onFabric s fun s => s.slot f (.dsel g dcd sr) last

/-- A drain of the named arrays is ordered (R232). -/
def execDrn (f : Nat) (g amask pls dcd sr : Nat) (last : Bool) (s : State) :=
  onFabric s fun s => s.slot f (.drn g amask pls dcd sr) last

/-- A vector register is stored to the Basin (R234). -/
def execVst (f : Nat) (v : VMem) (last : Bool) (s : State) :=
  onFabric s fun s => s.slot f (.vst v) last

/-- A store Rill starts (R235). -/
def execSstart (f : Nat) (r : RSlot) (last : Bool) (s : State) :=
  onFabric s fun s => s.slot f (.sstart r) last

/-- A store Rill stops (R235). -/
def execSstop (f : Nat) (g r : Nat) (last : Bool) (s : State) :=
  onFabric s fun s => s.slot f (.sstop g r) last

end Sys2Proof.Machine
end

