-- ==== Sys2Proof/Machine/PhaseIo.lean ====
section
/-! DEFINITION. Sys2Proof/Machine/PhaseIo.lean: the phase inputs and their velocity bound (spec/10 R540 to R551). -/
namespace Sys2Proof.Machine

/-- The pin group and function that carry an input (R777, R778). -/
def phasePins (n : Nat) : Nat × Nat :=
  if n < 4 then (16 + n, Fn.quad) else if isSsi n then (20, Fn.ssi) else (21, Fn.line)

/-- An input's balls reach it: its group has the input's function and no switch goes on (R785). -/
def State.phaseWired (s : State) (n : Nat) : Bool := s.pinCarries (phasePins n).1 (phasePins n).2

/-- The window of R549 in ns. -/
def State.phaseWindow (s : State) (n : Nat) : Nat := 2 ^ s.rf (Reg.phaseCfg n) F.phaseCfg_VWIN * 1000

/-- An input takes a position (R523, R547). -/
def State.moveTo (s : State) (n pos : Nat) : State :=
  let p := s.phase n
  s.setPhase n { p with pos := pos, hist := (pos, s.gts) :: p.hist }

/-- An input counts (R540, R541): DIR inverts the sign. -/
def State.countBy (s : State) (n : Nat) (d : Int) : State :=
  let d := if s.rf (Reg.phaseCfg n) F.phaseCfg_DIR = 1 then -d else d
  s.moveTo n (wrapN 48 (((s.phase n).pos : Int) + d))

/-! OVERSPEED (R549 to R551). -/

/-- A reason of OVERSPEED occurs (R550, R551): the latch, its first reason, the event, the cause, and the end of the input's
phase-deadline jobs; while the latch is set, only the GTS of the reason is kept. -/
def State.overspeed (s : State) (n reason : Nat) (inj : Bool) : State :=
  let s := s.setPhase n { s.phase n with reasonGts := s.gts }
  if s.rf (Reg.phaseStatus n) F.phaseStatus_OVERSPEED = 1 then s else
  let s := (s.wf (Reg.phaseStatus n) F.phaseStatus_OVERSPEED 1).wf (Reg.phaseStatus n) F.phaseStatus_REASON reason
  let s := (s.detCount ⟨0xF, Kind.occurrence, 0x13, n, inj⟩).raiseDev (10 + n) Ev.overspeed n
  (s.cause (16 + n)).overspeedJobs n

/-- The position that an input held at a GTS: the newest one taken no later, 0 before the first. -/
def posAt (h : List (Nat × Nat)) (t : Nat) : Nat :=
  match h.find? fun e => e.2 ≤ t with
  | some e => e.1
  | none => 0

/-- The positions that a later window may ask for: those taken after a GTS, and the newest one before it. -/
def trimHist (h : List (Nat × Nat)) (t : Nat) : List (Nat × Nat) :=
  (h.takeWhile fun e => t < e.2) ++ (h.dropWhile fun e => t < e.2).take 1

/-- D of R549. -/
def State.phaseD (s : State) (n : Nat) : Nat :=
  (sdiff48 (s.phase n).pos (posAt (s.phase n).hist (s.gts - s.phaseWindow n))).natAbs

/-- The threshold of R549. -/
def State.phaseLimit (s : State) (n : Nat) : Nat := s.vmax n * (s.phaseWindow n / 1000) / 1000000 + 1

/-- One input's evaluation (R549); an injection forces D above the threshold (R642). -/
def State.evalInput (s : State) (n : Nat) : State :=
  if !s.phaseOn n then s else
  let (err, s) := s.inject 0x13 0 1 n
  let d := if err.isSome then max (s.phaseD n) (s.phaseLimit n + 1) else s.phaseD n
  let s := s.wf (Reg.phaseStatus n) F.phaseStatus_LAST_D (min d 0xFFFF)
  let s := s.setPhase n { s.phase n with hist := trimHist (s.phase n).hist (s.gts - 1024000) }
  if s.phaseLimit n < d then s.overspeed n 1 err.isSome else s

/-- VELOCITY_EVAL: at a whole microsecond, every enabled input is checked. -/
def State.velocityEval (s : State) : State :=
  if s.gts % 1000 = 0 then (List.range 9).foldl State.evalInput s else s

/-- The GTS after which no good SSI frame leaves the input stale (R545). -/
def State.ssiStaleAt (s : State) (n : Nat) : Nat := (s.phase n).lastGood + 2000 * s.rf (Reg.phaseSsi n) F.phaseSsi_PERIOD_US

/-- A reason of OVERSPEED holds now: D above the threshold, two bad frames, or no good frame (R550). -/
def State.reasonNow (s : State) (n : Nat) : Bool :=
  s.phaseOn n && (decide (s.phaseLimit n < s.phaseD n) ||
    (isSsi n && (decide (2 ≤ (s.phase n).badRun) || decide (s.ssiStaleAt n < s.gts))))

/-- PHASE_STATUS is written: OVERSPEED clears only if no reason has held for one full window, and REASON with it (R550). -/
def State.phaseStatusWrite (s : State) (tag n : Nat) (v : W32) : State :=
  let was := s.rf (Reg.phaseStatus n) F.phaseStatus_OVERSPEED
  let clear := v.fld F.phaseStatus_OVERSPEED == 1 && was == 1
  let free := !s.reasonNow n && decide ((s.phase n).reasonGts + s.phaseWindow n ≤ s.gts)
  let s := s.writeReg tag (Reg.phaseStatus n) v
  if !clear then s
  else if free then s.wf (Reg.phaseStatus n) F.phaseStatus_REASON 0
  else s.wf (Reg.phaseStatus n) F.phaseStatus_OVERSPEED 1

/-! The filters (R542). A command brings the levels of the balls at a sample, which falls on an edge of the I/O clock; at an edge
without a command the balls have their accepted levels (log entry 144). -/

/-- FILT (R542). -/
def State.filtLen (s : State) (n : Nat) : Nat := s.rf (Reg.phaseCfg n) F.phaseCfg_FILT + 1

/-- A sample of a ball whose accepted level is `acc`: the level accepted after it, which changes once `need` samples in a row
agree, and the samples in a row unlike it. -/
def filtStep (need run : Nat) (acc v : Bool) : Bool × Nat :=
  if v = acc then (acc, 0) else if need ≤ run + 1 then (v, 0) else (acc, run + 1)

/-- A filter's run at a sample: samples in a row are 10 ns apart. -/
def State.runAt (s : State) (last : Option Nat) (run : Nat) : Nat := if last.any fun t => t + 10 == s.gts then run else 0

/-- A sample falls on this cycle: an edge of the I/O clock that has not been sampled. -/
def State.sampleDue (s : State) (last : Option Nat) : Bool := s.gts % 10 == 0 && last != some s.gts

/-! Counting (R543 to R546). -/

/-- What an edge of one signal counts: A leads B upward (R543). -/
def quadStep (mode : Nat) (edgeA a b : Bool) : Int :=
  let up : Int := if edgeA then (if a != b then 1 else -1) else (if a == b then 1 else -1)
  if mode = 2 then up else if !edgeA then 0 else if mode = 1 || a then up else 0

/-- An accepted sample of A and B (R543). -/
def State.quadAccept (s : State) (n : Nat) (a b : Bool) : State :=
  let p := s.phase n
  let s := s.setPhase n { p with a := a, b := b }
  if !s.phaseOn n then s
  else if p.a != a && p.b != b then
    (s.bumpSat (Reg.phaseErrcnt n) F.phaseErrcnt_QERR).overspeed n 2 false
  else if p.a == a && p.b == b then s
  else
    let d := quadStep (s.rf (Reg.phaseCfg n) F.phaseCfg_QMODE) (p.a != a) a b
    if d = 0 then s else s.countBy n d

/-- QUAD_EDGE: the levels of A and B at a sample, each with its own filter. -/
def State.quadEdge (s : State) (n : Nat) (a b : Bool) : State :=
  let p := s.phase n
  if !s.sampleDue p.sampled then s else
  let x := filtStep (s.filtLen n) (s.runAt p.sampled p.fa) p.a a
  let y := filtStep (s.filtLen n) (s.runAt p.sampled p.fb) p.b b
  (s.setPhase n { p with fa := x.2, fb := y.2, sampled := some s.gts }).quadAccept n x.1 y.1

/-- An accepted level of Z (R544). -/
def State.zAccept (s : State) (n : Nat) (z : Bool) : State :=
  let p := s.phase n
  let s := s.setPhase n { p with z := z }
  if s.phaseOn n && z && !p.z && s.rf (Reg.phaseZcapHi n) F.phaseZcapHi_VALID == 0 then
    let s := (s.wn (Reg.phaseZcapLo n) p.pos).wf (Reg.phaseZcapHi n) F.phaseZcapHi_POS_HI (p.pos / 2 ^ 32)
    s.wf (Reg.phaseZcapHi n) F.phaseZcapHi_VALID 1
  else s

/-- Z_CAPTURE: the level of Z at a sample. -/
def State.zEdge (s : State) (n : Nat) (z : Bool) : State :=
  let p := s.phase n
  if !s.sampleDue p.zSampled then s else
  let x := filtStep (s.filtLen n) (s.runAt p.zSampled p.fz) p.z z
  (s.setPhase n { p with fz := x.2, zSampled := some s.gts }).zAccept n x.1

/-- An accepted edge of the mains input counts outside the hold-off (R546). -/
def State.mainsCount (s : State) : State :=
  let held := match (s.phase 8).lastMains with
    | some t => decide (s.gts < t + 1000 * s.rf (Reg.phaseCfg 8) F.phaseCfg_HOLDOFF_US)
    | none => false
  if !s.phaseOn 8 || held then s else (s.setPhase 8 { s.phase 8 with lastMains := some s.gts }).countBy 8 1

/-- An accepted level of a line-pulse input, which counts a rising edge, or of the mains input (R546). -/
def State.lineAccept (s : State) (n : Nat) (v : Bool) : State :=
  let p := s.phase n
  let s := s.setPhase n { p with level := v }
  if p.level = v then s
  else if n = 8 then s.mainsCount
  else if v && s.phaseOn n then s.countBy n 1 else s

/-- LINE_PULSE and MAINS_EDGE: a sample at which the ball has not its accepted level. -/
def State.lineEdge (s : State) (n : Nat) : State :=
  let p := s.phase n
  if !s.sampleDue p.sampled then s else
  let x := filtStep (s.filtLen n) (s.runAt p.sampled p.fl) p.level !p.level
  (s.setPhase n { p with fl := x.2, sampled := some s.gts }).lineAccept n x.1

/-! SSI inputs (R545). -/

/-- SSI_FRAME_START: a frame starts every PERIOD_US. -/
def State.ssiStart (s : State) (n : Nat) : State :=
  let p := s.phase n
  let due := match p.lastStart with
    | some t => decide (t + 1000 * s.rf (Reg.phaseSsi n) F.phaseSsi_PERIOD_US ≤ s.gts)
    | none => true
  if s.phaseOn n && due then s.setPhase n { p with frameStart := some s.gts, lastStart := some s.gts } else s

/-- The exclusive or of the bits of a word from bit i upward: bit i of a Gray code decoded. -/
def grayBit (w raw i : Nat) : Bool := ((List.range w).map fun k => raw.testBit k && decide (i ≤ k)).foldl Bool.xor false

/-- A Gray code of w bits decoded. -/
def grayDecode (w raw : Nat) : Nat := ((List.range w).map fun i => if grayBit w raw i then 2 ^ i else 0).sum

/-- A bad frame is counted; two in a row are a reason of OVERSPEED. -/
def State.ssiBad (s : State) (n : Nat) : State :=
  let s := s.setPhase n { s.phase n with badRun := (s.phase n).badRun + 1 }
  let s := s.bumpSat (Reg.phaseErrcnt n) F.phaseErrcnt_SSI_ERR
  if 2 ≤ (s.phase n).badRun then s.overspeed n 3 false else s

/-- A good frame moves the position by the difference of the values, or sets it at the first (R540, R545). -/
def State.ssiGood (s : State) (n start raw : Nat) : State :=
  let w := s.rf (Reg.phaseSsi n) F.phaseSsi_BITS + 1
  let held := decide (2 ≤ (s.phase n).badRun) || decide (s.ssiStaleAt n < s.gts)
  let p := s.phase n
  let s := s.setPhase n { p with badRun := 0, gotFirst := true, rawPrev := raw, lastGood := s.gts, sampleGts := start,
                                 reasonGts := if held then s.gts else p.reasonGts }
  if p.gotFirst then s.countBy n (sext w (raw + 2 ^ w - p.rawPrev)) else s.moveTo n raw

/-- SSI_FRAME_END: the frame's data bits, the level of the data line as it started, and its error bit. -/
def State.ssiEnd (s : State) (n raw : Nat) (lineLow errBit : Bool) : State :=
  match (s.phase n).frameStart with
  | none => s
  | some t =>
    let s := s.setPhase n { s.phase n with frameStart := none }
    if !s.phaseOn n then s
    else if lineLow || (errBit && s.rf (Reg.phaseSsi n) F.phaseSsi_ERRBIT == 1) then s.ssiBad n
    else
      let w := s.rf (Reg.phaseSsi n) F.phaseSsi_BITS + 1
      let raw := raw % 2 ^ w
      s.ssiGood n t (if s.rf (Reg.phaseSsi n) F.phaseSsi_GRAY = 1 then grayDecode w raw else raw)

/-- SSI_STALE: no good frame has ended within two periods. -/
def State.ssiStale (s : State) (n : Nat) : State :=
  if s.phaseOn n && decide (s.ssiStaleAt n < s.gts) then s.overspeed n 4 false else s

/-! Meanings. -/

def execQuadEdge (n : Nat) (a b : Bool) (s : State) :=
  onFabric s (guarded (decide (n < 4) && s.phaseWired n) fun s => (s.quadEdge n a b).settle)
def execZCapture (n : Nat) (z : Bool) (s : State) :=
  onFabric s (guarded (decide (n < 4) && s.phaseWired n) fun s => s.zEdge n z)
def execLinePulse (n : Nat) (s : State) :=
  onFabric s (guarded ((n == 6 || n == 7) && s.phaseWired n) fun s => s.lineEdge n)
def execMainsEdge (s : State) := onFabric s (guarded (s.phaseWired 8) fun s => s.lineEdge 8)
def execSsiFrameStart (n : Nat) (s : State) := onFabric s (guarded (isSsi n) fun s => s.ssiStart n)
def execSsiFrameEnd (n raw : Nat) (lineLow errBit : Bool) (s : State) :=
  onFabric s (guarded (isSsi n) fun s => (s.ssiEnd n raw (lineLow || !s.phaseWired n) errBit).settle)
def execSsiStale (n : Nat) (s : State) := onFabric s (guarded (isSsi n) fun s => (s.ssiStale n).settle)
def execVelocityEval (s : State) := onFabric s fun s => s.velocityEval.settle
def execOverspeedClear (tag n : Nat) (v : W32) (s : State) :=
  onFabric s (guarded (decide (n < 9)) fun s => s.phaseStatusWrite tag n v)

end Sys2Proof.Machine
end

