-- ==== Sys2Proof/Machine/Registers.lean ====
section
/-! DEFINITION. Sys2Proof/Machine/Registers.lean: a write of a register that has no command of its own, and an access that
ends with a bus error (spec/17 R801, R804, R806 to R814, R821; spec/13 R642, R660; spec/09 R517). -/
namespace Sys2Proof.Machine

/-- Some register of a list of (offset, stride, count) rows lies at an offset. -/
def anyRow (off : Nat) (l : List (Nat × Nat × Nat)) : Bool := l.any fun r => (rowIdx off r.1 r.2.1 r.2.2).isSome

/-- The registers and windows whose write is a command of its own. -/
def ownRow (off : Nat) : Bool :=
  [Reg.parterreCtrl, Reg.parterreClaimReq, Reg.chipStrobeFire, Reg.chipStrobeDrop, Reg.weirXlateInv, Reg.weirPin,
   Reg.weirDevringRead, Reg.taiWrCtrl, Reg.spoutTail, Reg.spoutHostRead, Reg.safeKick, Reg.safeSwStop, Reg.powerOpReq,
   Reg.powerCtrl, Reg.fwpReqTail, Reg.fwpRspRead, Reg.bootConfirm, Reg.bootPcieGo].contains off ||
  anyRow off [(Reg.parterreStrobeCfg 1, 4, 15), (Reg.clkSnapCtrl 0, 0x80, 4), (Reg.tcmpCtrl 0, 0x20, 64),
    (Reg.pcmpCtrl 0, 0x20, 64), (Reg.ethTsqCtrl 0, 0x100, 6), (Reg.phaseStatus 0, 0x40, 9), (Reg.ftnCtrl 0, 0x100000, 4),
    (Reg.coreBistCtrl 0, 0x10000, 16), (Reg.pipeTuneSel 0, 0x100000, 4), (Reg.codecDecTail 0, 16, 64),
    (Reg.codecDecCtrl 0, 16, 64), (Reg.codecEncTail 0, 16, 32), (Reg.codecEncRead 0, 16, 32), (Reg.safeCause 0, 16, 4),
    (Reg.gateCtrl 0, 8, 64)] ||
  (List.range 16).any (fun p => anyRow off [(Reg.csiVcCtrl p 0, 16, 4), (Reg.csiVcRel p 0, 16, 4)]) ||
  (match injAt off with
   | some (b, i) => off == injBase b i || off == injBase b i + 8
   | none => false) ||
  (decide (0x400000 ≤ off) && decide (off < 0x800000) && decide (0x40000 ≤ off % 0x100000) && decide (off % 0x100000 < 0x80000))

/-- A 32-bit word is written to the boot SRAM window (R685, R689): write-protected bytes keep their value. -/
def State.sramWindow (s : State) (a : Nat) (v : W32) : State :=
  if a < s.boot.sramLock then s else
  let s := s.writeEcc Mc.bootSram 0 a 4
  { s with boot := { s.boot with sram := Mem.wrBytes s.boot.sram a (leBytes v.toNat 4) } }

/-- A virtual address with its low or high half written. -/
def halfVa (old : Nat) (hi : Bool) (v : Nat) : Nat := if hi then old % 2 ^ 32 + 2 ^ 32 * v else old / 2 ^ 32 * 2 ^ 32 + v

/-- A ring base register of the LPL-3020 profile is written (R517). -/
def State.legacyBase (s : State) (x v : Nat) : State :=
  let c := s.ctx 0
  let hi := x / 4 % 2 == 1
  if x / 8 = 2 then
    s.setCtx 0 { c with queues := Table.put {} c.queues 0 { s.queue 0 0 with ringVa := halfVa (s.queue 0 0).ringVa hi v } }
  else if x / 8 = 3 then s.setCtx 0 { c with cplVa := halfVa c.cplVa hi v }
  else if x / 8 = 4 then s.setCtx 0 { c with evtVa := halfVa c.evtVa hi v }
  else s

/-- DB_STATUS of a queue is written: its W1C bits (R482, R483, R488). -/
def State.dbStatus (s : State) (slot q : Nat) (v : W32) : State :=
  let c := s.ctx slot
  let x := s.queue slot q
  if !s.pageOpen slot q then s else
  s.setCtx slot { c with queues := Table.put {} c.queues q { x with
    cancelIgnored := x.cancelIgnored && !v.getLsbD 3, twinBad := x.twinBad && !v.getLsbD 2,
    coalesced := x.coalesced && !v.getLsbD 1 } }

/-- A register of BAR2 that has no command of its own is written at an offset of BAR2 (R480, R517). -/
def State.bar2Write (s : State) (x : Nat) (v : W32) : State :=
  if s.legacy then (if x % 4 = 0 ∧ x < 0x28 then s.legacyBase x v.toNat else s)
  else if x % 4096 = 0xC ∧ x / 4096 < 384 then s.dbStatus (x / 4096 / 8) (x / 4096 % 8) v
  else s

/-- What a write of some registers changes beside their fields: CHIP_ERR_SRC.COUNT, the count that DET_COUNT shows the low
bits of, the peak junction temperature, and the bytes counted for DDR_TAG_SEL. -/
def State.regSide (s : State) (off : Nat) (v : W32) : State :=
  if off = Reg.chipErr ∧ v.fld F.chipErr_VALID = 1 then s.wf Reg.chipErrSrc F.chipErrSrc_COUNT 0
  else if off = Reg.powerTemp ∧ v.fld F.powerTemp_PEAK = 0 then { s with pwr := { s.pwr with peakSet := false } }
  else if off = Reg.ddrTagSel then { s with ddr := { s.ddr with tagBytes := 0 } }
  else match rowIdx off (Reg.detCount 1) 16 17 with
    | some d => if v = 0 then { s with integ := { s.integ with corrected := Table.put 0 s.integ.corrected (d + 1) 0 } } else s
    | none => s

/-- A register or window without a command of its own is written at an offset of the register region, or of BAR2 from
0x400_0000 up (log entry 65). -/
def State.registerWrite (s : State) (tag off : Nat) (v : W32) : State :=
  if 0x4000000 ≤ off then s.bar2Write (off - 0x4000000) v
  else if off % 4 ≠ 0 then s.chipErr ChipErr.size off tag
  else if 0x1C00000 ≤ off then s.chipErr ChipErr.unassigned off tag
  else if 0x1880000 ≤ off ∧ off < 0x1900000 then s.sramWindow (off - 0x1880000) v
  else if ownRow off then s
  else match injAt off with
    | some (b, i) => s.injConfig tag off v b i
    | none => (s.writeReg tag off v).regSide off v

/-- The KIND that CHIP_ERR takes from an access of size bytes at an offset of the register region (R801, R808): UNASSIGNED in
an unassigned block, SIZE for an access that is not performed and for a write of 8 or 16 bits. -/
def accessKind (off size : Nat) (write : Bool) : Option Nat :=
  let misaligned := (size == 2 && off % 2 == 1) || (decide (4 ≤ size) && off % 4 != 0)
  if misaligned || (write && decide (size < 4)) then some ChipErr.size
  else if 0x1C00000 ≤ off then some ChipErr.unassigned
  else none

/-- Where the Cistern lies in the host's physical address space (R800). -/
def cisWindow : Nat := 0x800000000

/-- An access by physical address ends with a bus error (R801; R300 in the Cistern), or is a write too narrow for a register (R801, R808). -/
def State.badAccess (s : State) (tag addr size : Nat) (write : Bool) : State :=
  if cisWindow ≤ addr ∧ addr < cisWindow + 0x3000000 then
    (let pg := (addr - cisWindow) / 0x10000
     if s.portReaches Port.host pg then s else s.cisRefuse Port.host pg)
  else if addr < 0x40000000 ∨ 0x44000000 ≤ addr then s else
  match accessKind (addr - 0x40000000) size write with
  | some k => s.chipErr k (addr - 0x40000000) tag
  | none => s

def execRegisterWrite (tag off : Nat) (v : W32) (s : State) :=
  onFabric s (guarded (!ownRow off) fun s => s.registerWrite tag off v)
def execUnassignedAccess (tag addr size : Nat) (write : Bool) (s : State) :=
  onFabric s fun s => s.badAccess tag addr size write

end Sys2Proof.Machine
end

