-- ==== Sys2Proof/Machine/ScalarSlots.lean ====
section
/-! DEFINITION. Sys2Proof/Machine/ScalarSlots.lean: the scalar slots of a bundle (spec/04 R200, R206 to R210). -/
namespace Sys2Proof.Machine

/-- A NOP slot does nothing (R200). -/
def execNop (f : Nat) (p : SlotPos) (last : Bool) (s : State) :=
  onFabric s fun s => s.slot f (.nop p) last

/-- LC = IMM (R208). -/
def execSetc (f : Nat) (lc imm : Nat) (last : Bool) (s : State) :=
  onFabric s fun s => s.slot f (.setc lc imm) last

/-- LC = LC + IMM modulo 65,536 (R206, R208). -/
def execIncc (f : Nat) (lc imm : Nat) (last : Bool) (s : State) :=
  onFabric s fun s => s.slot f (.incc lc imm) last

/-- LC = LC − IMM modulo 65,536 (R206, R208). -/
def execDecc (f : Nat) (lc imm : Nat) (last : Bool) (s : State) :=
  onFabric s fun s => s.slot f (.decc lc imm) last

/-- A counter that is not 0 is decremented; while the result is not 0 the next bundle is TARGET (R209). -/
def execLoop (f : Nat) (lc target : Nat) (last : Bool) (s : State) :=
  onFabric s fun s => s.slot f (.loop lc target) last

/-- CMPk is bound to its condition (R207, R208). -/
def execCmpset (f : Nat) (k lca cond : Nat) (refsel : Bool) (lcb imm : Nat) (last : Bool) (s : State) :=
  onFabric s fun s => s.slot f (.cmpset k lca cond refsel lcb imm) last

/-- CMPk is unbound and Pk set (R207, R208). -/
def execPset (f : Nat) (k : Nat) (val : Bool) (last : Bool) (s : State) :=
  onFabric s fun s => s.slot f (.pset k val) last

/-- The next bundle is TARGET (R208, R210). -/
def execJmp (f : Nat) (target : Nat) (last : Bool) (s : State) :=
  onFabric s fun s => s.slot f (.jmp target) last

end Sys2Proof.Machine
end

