-- ==== Sys2Proof/Machine/SyncSlots.lean ====
section
/-! DEFINITION. Sys2Proof/Machine/SyncSlots.lean: the sync slots of a bundle (spec/04 R237 to R250). -/
namespace Sys2Proof.Machine

/-- The bundle holds until the work started before it has drained (R238); with SWP the banks swap (R239, R260). -/
def execBar (f : Nat) (g : Nat) (swp : Bool) (last : Bool) (s : State) :=
  onFabric s fun s => s.slot f (.bar g swp) last

/-- A flag write is held for the commit (R240). -/
def execSetf (f : Nat) (g gate : Nat) (val : Bool) (last : Bool) (s : State) :=
  onFabric s fun s => s.slot f (.setf g gate val) last

/-- The bundle holds until the Gate's flag equals VAL (R241). -/
def execWaitf (f : Nat) (g gate : Nat) (val : Bool) (last : Bool) (s : State) :=
  onFabric s fun s => s.slot f (.waitf g gate val) last

/-- A PROGRAM event is held for the commit (R244). -/
def execEvt (f : Nat) (g code : Nat) (last : Bool) (s : State) :=
  onFabric s fun s => s.slot f (.evt g code) last

/-- The bundle holds until every core's count suffices, and the drops are taken (R246). -/
def execCrdTake (f : Nat) (g sl drops : Nat) (last : Bool) (s : State) :=
  onFabric s fun s => s.slot f (.crd g 0 sl drops) last

/-- Drops are given to a Sluice (R246). -/
def execCrdGive (f : Nat) (g sl drops : Nat) (last : Bool) (s : State) :=
  onFabric s fun s => s.slot f (.crd g 1 sl drops) last

/-- The count of a Sluice becomes DROPS (R246). -/
def execCrdInit (f : Nat) (g sl drops : Nat) (last : Bool) (s : State) :=
  onFabric s fun s => s.slot f (.crd g 2 sl drops) last

/-- The bundle holds as a BAR, and the layer commit is requested (R248). -/
def execCommitLayer (f : Nat) (g : Nat) (last : Bool) (s : State) :=
  onFabric s fun s => s.slot f (.commit g false) last

/-- The bundle holds as a BAR but for load Rills, and a tile commit is requested (R249). -/
def execCommitTile (f : Nat) (g : Nat) (last : Bool) (s : State) :=
  onFabric s fun s => s.slot f (.commit g true) last

end Sys2Proof.Machine
end

