-- ==== Sys2Proof/Machine/VectorSlots.lean ====
section
/-! DEFINITION. Sys2Proof/Machine/VectorSlots.lean: the vector slots of a bundle (spec/04 R211 to R215), by opcode. -/
namespace Sys2Proof.Machine

/-- Each lane of VD becomes a + b (R213). -/
def execVadd (f : Nat) (v : VSlot) (last : Bool) (s : State) :=
  onFabric s fun s => s.slot f (.vec 0x01 v) last

/-- Each lane of VD becomes a − b (R213). -/
def execVsub (f : Nat) (v : VSlot) (last : Bool) (s : State) :=
  onFabric s fun s => s.slot f (.vec 0x02 v) last

/-- Each lane of VD becomes a and b (R213). -/
def execVand (f : Nat) (v : VSlot) (last : Bool) (s : State) :=
  onFabric s fun s => s.slot f (.vec 0x03 v) last

/-- Each lane of VD becomes a or b (R213). -/
def execVor (f : Nat) (v : VSlot) (last : Bool) (s : State) :=
  onFabric s fun s => s.slot f (.vec 0x04 v) last

/-- Each lane of VD becomes a xor b (R213). -/
def execVxor (f : Nat) (v : VSlot) (last : Bool) (s : State) :=
  onFabric s fun s => s.slot f (.vec 0x05 v) last

/-- Each lane of VD becomes a shifted left by b (R213). -/
def execVshl (f : Nat) (v : VSlot) (last : Bool) (s : State) :=
  onFabric s fun s => s.slot f (.vec 0x06 v) last

/-- Each lane of VD becomes a shifted right logically by b (R213). -/
def execVshr (f : Nat) (v : VSlot) (last : Bool) (s : State) :=
  onFabric s fun s => s.slot f (.vec 0x07 v) last

/-- Each lane of VD becomes a shifted right arithmetically by b (R213). -/
def execVsra (f : Nat) (v : VSlot) (last : Bool) (s : State) :=
  onFabric s fun s => s.slot f (.vec 0x08 v) last

/-- Each lane of VD becomes min(a, b) (R213). -/
def execVmin (f : Nat) (v : VSlot) (last : Bool) (s : State) :=
  onFabric s fun s => s.slot f (.vec 0x09 v) last

/-- Each lane of VD becomes max(a, b) (R213). -/
def execVmax (f : Nat) (v : VSlot) (last : Bool) (s : State) :=
  onFabric s fun s => s.slot f (.vec 0x0A v) last

/-- Each lane of VD becomes all ones if a = b, otherwise 0 (R213). -/
def execVcmpeq (f : Nat) (v : VSlot) (last : Bool) (s : State) :=
  onFabric s fun s => s.slot f (.vec 0x0B v) last

/-- Each lane of VD becomes all ones if a < b, otherwise 0 (R213). -/
def execVcmplt (f : Nat) (v : VSlot) (last : Bool) (s : State) :=
  onFabric s fun s => s.slot f (.vec 0x0C v) last

/-- Each lane of VD becomes all ones if a ≤ b, otherwise 0 (R213). -/
def execVcmple (f : Nat) (v : VSlot) (last : Bool) (s : State) :=
  onFabric s fun s => s.slot f (.vec 0x0D v) last

/-- Each lane of VD becomes a if lane k of c is not 0, otherwise b (R213). -/
def execVsel (f : Nat) (v : VSlot) (last : Bool) (s : State) :=
  onFabric s fun s => s.slot f (.vec 0x0E v) last

/-- Each lane of VD becomes a (R213). -/
def execVmov (f : Nat) (v : VSlot) (last : Bool) (s : State) :=
  onFabric s fun s => s.slot f (.vec 0x0F v) last

/-- Each lane of VD becomes the low half of a × b, or the float product (R213). -/
def execVmul (f : Nat) (v : VSlot) (last : Bool) (s : State) :=
  onFabric s fun s => s.slot f (.vec 0x10 v) last

/-- Each lane of VD becomes a converted to the type in VB[2:0] (R213). -/
def execVcvt (f : Nat) (v : VSlot) (last : Bool) (s : State) :=
  onFabric s fun s => s.slot f (.vec 0x11 v) last

/-- Each lane of VD becomes a shifted right by b, rounded to nearest with ties to even (R213). -/
def execVrshr (f : Nat) (v : VSlot) (last : Bool) (s : State) :=
  onFabric s fun s => s.slot f (.vec 0x12 v) last

/-- Each lane of VD becomes lane (b mod L) of a (R213). -/
def execVperm (f : Nat) (v : VSlot) (last : Bool) (s : State) :=
  onFabric s fun s => s.slot f (.vec 0x13 v) last

/-- Each lane of VD becomes lane (IMM mod L) of a (R213). -/
def execVbcast (f : Nat) (v : VSlot) (last : Bool) (s : State) :=
  onFabric s fun s => s.slot f (.vec 0x14 v) last

/-- Each lane of VD becomes CORE_INDEX, the lane number or a counter (R215) (R213). -/
def execVidx (f : Nat) (v : VSlot) (last : Bool) (s : State) :=
  onFabric s fun s => s.slot f (.vec 0x15 v) last

/-- Each lane of VD becomes a × b + c, rounded once (R213). -/
def execVfma (f : Nat) (v : VSlot) (last : Bool) (s : State) :=
  onFabric s fun s => s.slot f (.vec 0x16 v) last

/-- Each lane of VD becomes exp2(a) under R178 (R213). -/
def execVexp2 (f : Nat) (v : VSlot) (last : Bool) (s : State) :=
  onFabric s fun s => s.slot f (.vec 0x17 v) last

/-- Each lane of VD becomes recip(a) under R178 (R213). -/
def execVrecip (f : Nat) (v : VSlot) (last : Bool) (s : State) :=
  onFabric s fun s => s.slot f (.vec 0x18 v) last

/-- Each lane of VD becomes rsqrt(a) under R178 (R213). -/
def execVrsqrt (f : Nat) (v : VSlot) (last : Bool) (s : State) :=
  onFabric s fun s => s.slot f (.vec 0x19 v) last

/-- Each lane of VD becomes lane 0: the sum of every lane of a (R214) (R213). -/
def execVrsum (f : Nat) (v : VSlot) (last : Bool) (s : State) :=
  onFabric s fun s => s.slot f (.vec 0x1A v) last

/-- Each lane of VD becomes lane 0: the maximum of a (R213). -/
def execVrmax (f : Nat) (v : VSlot) (last : Bool) (s : State) :=
  onFabric s fun s => s.slot f (.vec 0x1B v) last

/-- Each lane of VD becomes lane 0: the minimum of a (R213). -/
def execVrmin (f : Nat) (v : VSlot) (last : Bool) (s : State) :=
  onFabric s fun s => s.slot f (.vec 0x1C v) last

end Sys2Proof.Machine
end

