-- ==== Sys2Proof/Machine/Dispatch.lean ====
section
/-! DEFINITION. Sys2Proof/Machine/Dispatch.lean: which meaning each command has. -/
namespace Sys2Proof.Machine

/-- The effect of a command on everything but the queue of waiting commands. -/
def exec (i : Instr) (s : State) : Host.Outcome State Fault Refusal :=
  match i with
  | .sqTailWrite page v => Sys2Proof.Machine.execSqTailWrite page v s
  | .descriptorTaken => Sys2Proof.Machine.execDescriptorTaken s
  | .cancelWrite page v => Sys2Proof.Machine.execCancelWrite page v s
  | .admissionTest => Sys2Proof.Machine.execAdmissionTest s
  | .layerDispatch f => Sys2Proof.Machine.execLayerDispatch f s
  | .layerCommit f => Sys2Proof.Machine.execLayerCommit f s
  | .tileCommit f => Sys2Proof.Machine.execTileCommit f s
  | .deadlineMiss job => Sys2Proof.Machine.execDeadlineMiss job s
  | .stopTimeReached job => Sys2Proof.Machine.execStopTimeReached job s
  | .faultCharged e core det unit index input => Sys2Proof.Machine.execFaultCharged e core det unit index input s
  | .replayRestart e => Sys2Proof.Machine.execReplayRestart e s
  | .budgetExhausted f => Sys2Proof.Machine.execBudgetExhausted f s
  | .skimmerBudgetExhausted => Sys2Proof.Machine.execSkimmerBudgetExhausted s
  | .phaseTargetCheck => Sys2Proof.Machine.execPhaseTargetCheck s
  | .waitfTimeout f => Sys2Proof.Machine.execWaitfTimeout f s
  | .beWaitfPreempt f => Sys2Proof.Machine.execBeWaitfPreempt f s
  | .deadlockWalk => Sys2Proof.Machine.execDeadlockWalk s
  | .maintWindowRequest => Sys2Proof.Machine.execMaintWindowRequest s
  | .maintWindowTest => Sys2Proof.Machine.execMaintWindowTest s
  | .maintWindowEnd failCh => Sys2Proof.Machine.execMaintWindowEnd failCh s
  | .pageFillStart job dma => Sys2Proof.Machine.execPageFillStart job dma s
  | .pageFillDone pg => Sys2Proof.Machine.execPageFillDone pg s
  | .pageWritebackDone pg => Sys2Proof.Machine.execPageWritebackDone pg s
  | .writebackDone job => Sys2Proof.Machine.execWritebackDone job s
  | .skimmerDispatch => Sys2Proof.Machine.execSkimmerDispatch s
  | .skimmerCommit => Sys2Proof.Machine.execSkimmerCommit s
  | .ctxLoad => Sys2Proof.Machine.execCtxLoad s
  | .ctxUnload => Sys2Proof.Machine.execCtxUnload s
  | .ctxDestroy => Sys2Proof.Machine.execCtxDestroy s
  | .eventRingWrite ring => Sys2Proof.Machine.execEventRingWrite ring s
  | .overflow ring => Sys2Proof.Machine.execOverflow ring s
  | .interruptSignal ring => Sys2Proof.Machine.execInterruptSignal ring s
  | .cplReadWrite slot v => Sys2Proof.Machine.execCplReadWrite slot v s
  | .evtReadWrite slot v => Sys2Proof.Machine.execEvtReadWrite slot v s
  | .weirDevringReadWrite v => Sys2Proof.Machine.execWeirDevringReadWrite v s
  | .lcqReadWrite v => Sys2Proof.Machine.execLcqReadWrite v s
  | .leqReadWrite v => Sys2Proof.Machine.execLeqReadWrite v s
  | .lsqTailWrite v => Sys2Proof.Machine.execLsqTailWrite v s
  | .gateAcquire g owner => Sys2Proof.Machine.execGateAcquire g owner s
  | .gateRelease g owner => Sys2Proof.Machine.execGateRelease g owner s
  | .gateFlag g val twinOk => Sys2Proof.Machine.execGateFlag g val twinOk s
  | .xlateInvalidate tag v => Sys2Proof.Machine.execXlateInvalidate tag v s
  | .xlateInvalidateDone => Sys2Proof.Machine.execXlateInvalidateDone s
  | .pin tag v => Sys2Proof.Machine.execPin tag v s
  | .unpin tag v => Sys2Proof.Machine.execUnpin tag v s
  | .tokTailWrite v => Sys2Proof.Machine.execTokTailWrite v s
  | .tokeniserRequest => Sys2Proof.Machine.execTokeniserRequest s
  | .tokensDone => Sys2Proof.Machine.execTokensDone s
  | .parterreGo tag ctrlOn v => Sys2Proof.Machine.execParterreGo tag ctrlOn v s
  | .parterreCheck ctrlOn => Sys2Proof.Machine.execParterreCheck ctrlOn s
  | .parterreLock tag v => Sys2Proof.Machine.execParterreLock tag v s
  | .claim v => Sys2Proof.Machine.execClaim v s
  | .release v => Sys2Proof.Machine.execRelease v s
  | .strobeCfgWrite tag g v => Sys2Proof.Machine.execStrobeCfgWrite tag g v s
  | .bistStart core v => Sys2Proof.Machine.execBistStart core v s
  | .bistDone core fail us bad basin resv vreg acc => Sys2Proof.Machine.execBistDone core fail us bad basin resv vreg acc s
  | .hostImemWrite f v => Sys2Proof.Machine.execHostImemWrite f v s
  | .imemWrite f off v => Sys2Proof.Machine.execImemWrite f off v s
  | .segmentLoaded f job layer seg => Sys2Proof.Machine.execSegmentLoaded f job layer seg s
  | .nop f p last => Sys2Proof.Machine.execNop f p last s
  | .setc f lc imm last => Sys2Proof.Machine.execSetc f lc imm last s
  | .incc f lc imm last => Sys2Proof.Machine.execIncc f lc imm last s
  | .decc f lc imm last => Sys2Proof.Machine.execDecc f lc imm last s
  | .loop f lc target last => Sys2Proof.Machine.execLoop f lc target last s
  | .cmpset f k lca cond refsel lcb imm last => Sys2Proof.Machine.execCmpset f k lca cond refsel lcb imm last s
  | .pset f k val last => Sys2Proof.Machine.execPset f k val last s
  | .jmp f target last => Sys2Proof.Machine.execJmp f target last s
  | .vadd f v last => Sys2Proof.Machine.execVadd f v last s
  | .vsub f v last => Sys2Proof.Machine.execVsub f v last s
  | .vand f v last => Sys2Proof.Machine.execVand f v last s
  | .vor f v last => Sys2Proof.Machine.execVor f v last s
  | .vxor f v last => Sys2Proof.Machine.execVxor f v last s
  | .vshl f v last => Sys2Proof.Machine.execVshl f v last s
  | .vshr f v last => Sys2Proof.Machine.execVshr f v last s
  | .vsra f v last => Sys2Proof.Machine.execVsra f v last s
  | .vmin f v last => Sys2Proof.Machine.execVmin f v last s
  | .vmax f v last => Sys2Proof.Machine.execVmax f v last s
  | .vcmpeq f v last => Sys2Proof.Machine.execVcmpeq f v last s
  | .vcmplt f v last => Sys2Proof.Machine.execVcmplt f v last s
  | .vcmple f v last => Sys2Proof.Machine.execVcmple f v last s
  | .vsel f v last => Sys2Proof.Machine.execVsel f v last s
  | .vmov f v last => Sys2Proof.Machine.execVmov f v last s
  | .vmul f v last => Sys2Proof.Machine.execVmul f v last s
  | .vcvt f v last => Sys2Proof.Machine.execVcvt f v last s
  | .vrshr f v last => Sys2Proof.Machine.execVrshr f v last s
  | .vperm f v last => Sys2Proof.Machine.execVperm f v last s
  | .vbcast f v last => Sys2Proof.Machine.execVbcast f v last s
  | .vidx f v last => Sys2Proof.Machine.execVidx f v last s
  | .vfma f v last => Sys2Proof.Machine.execVfma f v last s
  | .vexp2 f v last => Sys2Proof.Machine.execVexp2 f v last s
  | .vrecip f v last => Sys2Proof.Machine.execVrecip f v last s
  | .vrsqrt f v last => Sys2Proof.Machine.execVrsqrt f v last s
  | .vrsum f v last => Sys2Proof.Machine.execVrsum f v last s
  | .vrmax f v last => Sys2Proof.Machine.execVrmax f v last s
  | .vrmin f v last => Sys2Proof.Machine.execVrmin f v last s
  | .mst f m last => Sys2Proof.Machine.execMst f m last s
  | .mpl f m last => Sys2Proof.Machine.execMpl f m last s
  | .matrixStep f => Sys2Proof.Machine.execMatrixStep f s
  | .preloadDrainBegin f => Sys2Proof.Machine.execPreloadDrainBegin f s
  | .drainRow core => Sys2Proof.Machine.execDrainRow core s
  | .rstart f r last => Sys2Proof.Machine.execRstart f r last s
  | .rstop f g r last => Sys2Proof.Machine.execRstop f g r last s
  | .vld f v last => Sys2Proof.Machine.execVld f v last s
  | .wset f g w base step bstep last => Sys2Proof.Machine.execWset f g w base step bstep last s
  | .ppset f g addr last => Sys2Proof.Machine.execPpset f g addr last s
  | .dsel f g dcd sr last => Sys2Proof.Machine.execDsel f g dcd sr last s
  | .drn f g amask pls dcd sr last => Sys2Proof.Machine.execDrn f g amask pls dcd sr last s
  | .vst f v last => Sys2Proof.Machine.execVst f v last s
  | .sstart f r last => Sys2Proof.Machine.execSstart f r last s
  | .sstop f g r last => Sys2Proof.Machine.execSstop f g r last s
  | .bar f g swp last => Sys2Proof.Machine.execBar f g swp last s
  | .setf f g gate val last => Sys2Proof.Machine.execSetf f g gate val last s
  | .waitf f g gate val last => Sys2Proof.Machine.execWaitf f g gate val last s
  | .evt f g code last => Sys2Proof.Machine.execEvt f g code last s
  | .crdTake f g sl drops last => Sys2Proof.Machine.execCrdTake f g sl drops last s
  | .crdGive f g sl drops last => Sys2Proof.Machine.execCrdGive f g sl drops last s
  | .crdInit f g sl drops last => Sys2Proof.Machine.execCrdInit f g sl drops last s
  | .commitLayer f g last => Sys2Proof.Machine.execCommitLayer f g last s
  | .commitTile f g last => Sys2Proof.Machine.execCommitTile f g last s
  | .rillGroup core rill => Sys2Proof.Machine.execRillGroup core rill s
  | .dropLanded core rill => Sys2Proof.Machine.execDropLanded core rill s
  | .rillFinished core rill => Sys2Proof.Machine.execRillFinished core rill s
  | .cisternScrub line => Sys2Proof.Machine.execCisternScrub line s
  | .calendarFrame => Sys2Proof.Machine.execCalendarFrame s
  | .busTimeout port sub => Sys2Proof.Machine.execBusTimeout port sub s
  | .jetRowComplete p => Sys2Proof.Machine.execJetRowComplete p s
  | .jetRowTransfer p => Sys2Proof.Machine.execJetRowTransfer p s
  | .snapshotRequest tag k v => Sys2Proof.Machine.execSnapshotRequest tag k v s
  | .snapshotCapture k => Sys2Proof.Machine.execSnapshotCapture k s
  | .taiCancel tag v => Sys2Proof.Machine.execTaiCancel tag v s
  | .taiSet tag v => Sys2Proof.Machine.execTaiSet tag v s
  | .taiAdd tag v => Sys2Proof.Machine.execTaiAdd tag v s
  | .taiRate tag v => Sys2Proof.Machine.execTaiRate tag v s
  | .taiOpApply => Sys2Proof.Machine.execTaiOpApply s
  | .taiRollover => Sys2Proof.Machine.execTaiRollover s
  | .ptpStamp port egress send msgType domain seqId => Sys2Proof.Machine.execPtpStamp port egress send msgType domain seqId s
  | .ethTsqPop tag port v => Sys2Proof.Machine.execEthTsqPop tag port v s
  | .quadEdge n a b => Sys2Proof.Machine.execQuadEdge n a b s
  | .zCapture n z => Sys2Proof.Machine.execZCapture n z s
  | .linePulse n => Sys2Proof.Machine.execLinePulse n s
  | .mainsEdge => Sys2Proof.Machine.execMainsEdge s
  | .ssiFrameStart n => Sys2Proof.Machine.execSsiFrameStart n s
  | .ssiFrameEnd n raw lineLow errBit => Sys2Proof.Machine.execSsiFrameEnd n raw lineLow errBit s
  | .ssiStale n => Sys2Proof.Machine.execSsiStale n s
  | .velocityEval => Sys2Proof.Machine.execVelocityEval s
  | .overspeedClear tag n v => Sys2Proof.Machine.execOverspeedClear tag n v s
  | .tcmpCtrlWrite n v => Sys2Proof.Machine.execTcmpCtrlWrite n v s
  | .pcmpCtrlWrite n v => Sys2Proof.Machine.execPcmpCtrlWrite n v s
  | .tcmpMatch n => Sys2Proof.Machine.execTcmpMatch n s
  | .pcmpMatch n => Sys2Proof.Machine.execPcmpMatch n s
  | .fsyncAssert n => Sys2Proof.Machine.execFsyncAssert n s
  | .fsyncDeassert n => Sys2Proof.Machine.execFsyncDeassert n s
  | .csiFrameStart port vc fn ecc => Sys2Proof.Machine.execCsiFrameStart port vc fn ecc s
  | .csiLine port vc vcx dt ecc crcOk data => Sys2Proof.Machine.execCsiLine port vc vcx dt ecc crcOk data s
  | .csiFrameEnd port vc ecc => Sys2Proof.Machine.execCsiFrameEnd port vc ecc s
  | .frameRecord stream => Sys2Proof.Machine.execFrameRecord stream s
  | .csiRestart tag port vc v => Sys2Proof.Machine.execCsiRestart tag port vc v s
  | .csiVcRelWrite tag stream v => Sys2Proof.Machine.execCsiVcRelWrite tag stream v s
  | .linkDown port => Sys2Proof.Machine.execLinkDown port s
  | .streamTimeout stream => Sys2Proof.Machine.execStreamTimeout stream s
  | .linkUp port deskewed => Sys2Proof.Machine.execLinkUp port deskewed s
  | .pipeMemoryFrame p => Sys2Proof.Machine.execPipeMemoryFrame p s
  | .pipeInlineLine p overflow => Sys2Proof.Machine.execPipeInlineLine p overflow s
  | .pipeTuneSelWrite tag p v => Sys2Proof.Machine.execPipeTuneSelWrite tag p v s
  | .camProbeCycle port answers => Sys2Proof.Machine.execCamProbeCycle port answers s
  | .camProbe answers => Sys2Proof.Machine.execCamProbe answers s
  | .spoutTailWrite v => Sys2Proof.Machine.execSpoutTailWrite v s
  | .spoutTake => Sys2Proof.Machine.execSpoutTake s
  | .spoutDone => Sys2Proof.Machine.execSpoutDone s
  | .spoutHostReadWrite v => Sys2Proof.Machine.execSpoutHostReadWrite v s
  | .codecOpen => Sys2Proof.Machine.execCodecOpen s
  | .codecClose => Sys2Proof.Machine.execCodecClose s
  | .codecDecTailWrite n v => Sys2Proof.Machine.execCodecDecTailWrite n v s
  | .accessUnitDecode n unsupported rap pic order => Sys2Proof.Machine.execAccessUnitDecode n unsupported rap pic order s
  | .decodedPictureOutput n => Sys2Proof.Machine.execDecodedPictureOutput n s
  | .codecDecRestart tag n v => Sys2Proof.Machine.execCodecDecRestart tag n v s
  | .codecEncTailWrite n v => Sys2Proof.Machine.execCodecEncTailWrite n v s
  | .pictureEncode n pic qp => Sys2Proof.Machine.execPictureEncode n pic qp s
  | .codecEncReadWrite n v => Sys2Proof.Machine.execCodecEncReadWrite n v s
  | .injUnlock block inst v => Sys2Proof.Machine.execInjUnlock block inst v s
  | .injModeWrite tag block inst v => Sys2Proof.Machine.execInjModeWrite tag block inst v s
  | .parityScan bad staged => Sys2Proof.Machine.execParityScan bad staged s
  | .clockMonFinding rail n reading stopped => Sys2Proof.Machine.execClockMonFinding rail n reading stopped s
  | .protectiveStopEnd => Sys2Proof.Machine.execProtectiveStopEnd s
  | .domainResume rail n => Sys2Proof.Machine.execDomainResume rail n s
  | .fwWatchdogExpiry proc expired => Sys2Proof.Machine.execFwWatchdogExpiry proc expired s
  | .swWatchdogExpiry => Sys2Proof.Machine.execSwWatchdogExpiry s
  | .safeKick v => Sys2Proof.Machine.execSafeKick v s
  | .safeCauseClear tag k v => Sys2Proof.Machine.execSafeCauseClear tag k v s
  | .pairReturnToRun k => Sys2Proof.Machine.execPairReturnToRun k s
  | .safeSwStopWrite tag v => Sys2Proof.Machine.execSafeSwStopWrite tag v s
  | .tamperSample follows0 follows1 => Sys2Proof.Machine.execTamperSample follows0 follows1 s
  | .powerOn m b => Sys2Proof.Machine.execPowerOn m b s
  | .pinReset m elapsed => Sys2Proof.Machine.execPinReset m elapsed s
  | .trialExpired m elapsed => Sys2Proof.Machine.execTrialExpired m elapsed s
  | .standbyWake elapsed wakeN => Sys2Proof.Machine.execStandbyWake elapsed wakeN s
  | .tamperWake elapsed => Sys2Proof.Machine.execTamperWake elapsed s
  | .pcieReset m => Sys2Proof.Machine.execPcieReset m s
  | .pcieLinkDown => Sys2Proof.Machine.execPcieLinkDown s
  | .bootPcieGo v => Sys2Proof.Machine.execBootPcieGo v s
  | .bootReady training ok => Sys2Proof.Machine.execBootReady training ok s
  | .fwpReqTailWrite v => Sys2Proof.Machine.execFwpReqTailWrite v s
  | .fwpRspReadWrite v => Sys2Proof.Machine.execFwpRspReadWrite v s
  | .ping => Sys2Proof.Machine.execPing s
  | .fwRestart => Sys2Proof.Machine.execFwRestart s
  | .slotRequest => Sys2Proof.Machine.execSlotRequest s
  | .flashWrite flashOk => Sys2Proof.Machine.execFlashWrite flashOk s
  | .attest => Sys2Proof.Machine.execAttest s
  | .debugGrant => Sys2Proof.Machine.execDebugGrant s
  | .debugRevoke => Sys2Proof.Machine.execDebugRevoke s
  | .reset m => Sys2Proof.Machine.execReset m s
  | .standby => Sys2Proof.Machine.execStandby s
  | .bootConfirm v => Sys2Proof.Machine.execBootConfirm v s
  | .fwProcessorRestart n cause => Sys2Proof.Machine.execFwProcessorRestart n cause s
  | .fwLogWrite proc level point a0 a1 a2 => Sys2Proof.Machine.execFwLogWrite proc level point a0 a1 a2 s
  | .powerSetCap => Sys2Proof.Machine.execPowerSetCap s
  | .powerSetCeil => Sys2Proof.Machine.execPowerSetCeil s
  | .powerGet => Sys2Proof.Machine.execPowerGet s
  | .powerSetFloorLock => Sys2Proof.Machine.execPowerSetFloorLock s
  | .ddrRetrain => Sys2Proof.Machine.execDdrRetrain s
  | .refJudgeWindow recovered dev => Sys2Proof.Machine.execRefJudgeWindow recovered dev s
  | .rootPllLock => Sys2Proof.Machine.execRootPllLock s
  | .recoveredRefLoss => Sys2Proof.Machine.execRecoveredRefLoss s
  | .refTransfer => Sys2Proof.Machine.execRefTransfer s
  | .refRevert => Sys2Proof.Machine.execRefRevert s
  | .rootRelock gapUs => Sys2Proof.Machine.execRootRelock gapUs s
  | .powerOpReqWrite tag v => Sys2Proof.Machine.execPowerOpReqWrite tag v s
  | .opRequestServe => Sys2Proof.Machine.execOpRequestServe s
  | .avsFrameDone ok => Sys2Proof.Machine.execAvsFrameDone ok s
  | .voltageReached mv => Sys2Proof.Machine.execVoltageReached mv s
  | .avsTimeout => Sys2Proof.Machine.execAvsTimeout s
  | .floorLockWrite tag v => Sys2Proof.Machine.execFloorLockWrite tag v s
  | .powerEstimate estimate => Sys2Proof.Machine.execPowerEstimate estimate s
  | .powerCapCheck => Sys2Proof.Machine.execPowerCapCheck s
  | .capLimitStep => Sys2Proof.Machine.execCapLimitStep s
  | .thermalReading readings => Sys2Proof.Machine.execThermalReading readings s
  | .ddrEyeFailRetry => Sys2Proof.Machine.execDdrEyeFailRetry s
  | .pmxSwitchApply g ctrlOff => Sys2Proof.Machine.execPmxSwitchApply g ctrlOff s
  | .pmxSwitchDone g => Sys2Proof.Machine.execPmxSwitchDone g s
  | .chipStrobeFire v => Sys2Proof.Machine.execChipStrobeFire v s
  | .chipStrobeDrop v => Sys2Proof.Machine.execChipStrobeDrop v s
  | .registerWrite tag off v => Sys2Proof.Machine.execRegisterWrite tag off v s
  | .unassignedAccess tag addr size write => Sys2Proof.Machine.execUnassignedAccess tag addr size write s
  | .hostCoreReset core => Sys2Proof.Machine.execHostCoreReset core s
  | .safetyTwinMismatch t bad => Sys2Proof.Machine.execSafetyTwinMismatch t bad s
  | .pcieAerError err => Sys2Proof.Machine.execPcieAerError err s

end Sys2Proof.Machine
end

