-- ==== Sys2Proof/Machine/Step.lean ====
section
/-! DEFINITION. Sys2Proof/Machine/Step.lean: one step of the block, and how the host hands it a command. -/
namespace Sys2Proof.Machine

/-- A step with nothing waiting: one cycle of the fabric clock while it runs, and nothing while it does not (log entry 3). -/
def State.idle (s : State) : State := if s.clockOn then s.tick else s

/-- One step: the command at the front of the queue acts on the state with the rest of the queue; with nothing waiting the
block idles. -/
def step (s : State) : Host.Outcome State Fault Refusal :=
  match s.pending with
  | [] => .next s.idle
  | c :: rest => exec c { s with pending := rest }

/-- The state with the command that a word spells at the front of its queue: the table gives no command any bits, so no word
spells one (log entry 8). -/
def State.withFetchWord (s : State) (nbits w : Nat) : State :=
  match Sys2Proof.decodeTableWord nbits w with
  | some c => { s with pending := c :: s.pending }
  | none => s

end Sys2Proof.Machine
end

