-- ==== Sys2Proof/WellFormed.lean ====
section
/-! DEFINITION. Sys2Proof/WellFormed.lean: which commands a sender can send: every unit number names a unit that the spec gives the
device, every field of a bundle's slot lies in its width, an END_TAG lies in its 12 bits (R317), and an address in the address
space. -/
namespace Sys2Proof

/-- A ring is the device ring or that of one of the 48 resident slots (spec/09 R475, R497). -/
def ringOk : Ring → Bool
  | .dev => true
  | .ctx slot => decide (slot < 48)

/-- A ring that signals a vector exists (R501). -/
def selOk : RingSel → Bool
  | .evt r => ringOk r
  | .cpl slot => decide (slot < 48)

/-- A twin word exists: there are four safety pairs (R661, R672). -/
def siteOk : TwinSite → Bool
  | .pairCommand k => decide (k < 4)
  | .safetySection | .clocksSection | .deadlineEntry _ => true

/-- BOOT_SRC and AVS_ADDR are two pins each (R772). -/
def ModePins.ok (m : ModePins) : Bool := decide (m.bootSrc < 4) && decide (m.avsAddr < 4)

/-- A command that a sender can send. -/
def Instr.wf : Instr → Bool
  | .sqTailWrite page _ => decide (page < 384)
  | .descriptorTaken => true
  | .cancelWrite page _ => decide (page < 384)
  | .admissionTest => true
  | .layerDispatch f => decide (f < 4)
  | .layerCommit f => decide (f < 4)
  | .tileCommit f => decide (f < 4)
  | .deadlineMiss _ => true
  | .stopTimeReached _ => true
  | .faultCharged e core det _ _ _ => decide (e < 5) && decide (core < 16) && decide (1 ≤ det) && decide (det ≤ 0x11)
  | .replayRestart e => decide (e < 5)
  | .budgetExhausted f => decide (f < 4)
  | .skimmerBudgetExhausted => true
  | .phaseTargetCheck => true
  | .waitfTimeout f => decide (f < 4)
  | .beWaitfPreempt f => decide (f < 4)
  | .deadlockWalk => true
  | .maintWindowRequest => true
  | .maintWindowTest => true
  | .maintWindowEnd failCh => decide (failCh < 65536)
  | .pageFillStart _ dma => decide (dma < 32)
  | .pageFillDone pg => decide (pg < 768)
  | .pageWritebackDone pg => decide (pg < 768)
  | .writebackDone _ => true
  | .skimmerDispatch => true
  | .skimmerCommit => true
  | .ctxLoad => true
  | .ctxUnload => true
  | .ctxDestroy => true
  | .eventRingWrite ring => ringOk ring
  | .overflow ring => ringOk ring
  | .interruptSignal ring => selOk ring
  | .cplReadWrite slot _ => decide (slot < 48)
  | .evtReadWrite slot _ => decide (slot < 48)
  | .weirDevringReadWrite _ => true
  | .lcqReadWrite _ => true
  | .leqReadWrite _ => true
  | .lsqTailWrite _ => true
  | .gateAcquire g owner => decide (g < 64) && decide (owner < 2 ^ 16)
  | .gateRelease g owner => decide (g < 64) && decide (owner < 2 ^ 16)
  | .gateFlag g _ _ => decide (g < 64)
  | .xlateInvalidate tag _ => decide (tag < 4096)
  | .xlateInvalidateDone => true
  | .pin tag _ => decide (tag < 4096)
  | .unpin tag _ => decide (tag < 4096)
  | .tokTailWrite _ => true
  | .tokeniserRequest => true
  | .tokensDone => true
  | .parterreGo tag ctrlOn _ => decide (tag < 4096) && ctrlOn.all fun c => decide (c < 25)
  | .parterreCheck ctrlOn => ctrlOn.all fun c => decide (c < 25)
  | .parterreLock tag _ => decide (tag < 4096)
  | .claim _ => true
  | .release _ => true
  | .strobeCfgWrite tag g _ => decide (tag < 4096) && decide (1 ≤ g) && decide (g ≤ 15)
  | .bistStart core _ => decide (core < 16)
  | .bistDone core fail us _ _ _ _ _ => decide (core < 16) && decide (fail < 16) && decide (us < 2 ^ 16)
  | .hostImemWrite f _ => decide (f < 4)
  | .imemWrite f off _ => decide (f < 4) && decide (off < 0x40000) && off % 4 == 0
  | .segmentLoaded f _ _ _ => decide (f < 4)
  | .nop f p _ => decide (f < 4) && Machine.slotFits (.nop p)
  | .setc f lc imm _ => decide (f < 4) && Machine.slotFits (.setc lc imm)
  | .incc f lc imm _ => decide (f < 4) && Machine.slotFits (.incc lc imm)
  | .decc f lc imm _ => decide (f < 4) && Machine.slotFits (.decc lc imm)
  | .loop f lc target _ => decide (f < 4) && Machine.slotFits (.loop lc target)
  | .cmpset f k lca cond refsel lcb imm _ => decide (f < 4) && Machine.slotFits (.cmpset k lca cond refsel lcb imm)
  | .pset f k val _ => decide (f < 4) && Machine.slotFits (.pset k val)
  | .jmp f target _ => decide (f < 4) && Machine.slotFits (.jmp target)
  | .vadd f v _ => decide (f < 4) && Machine.slotFits (.vec 0x01 v)
  | .vsub f v _ => decide (f < 4) && Machine.slotFits (.vec 0x02 v)
  | .vand f v _ => decide (f < 4) && Machine.slotFits (.vec 0x03 v)
  | .vor f v _ => decide (f < 4) && Machine.slotFits (.vec 0x04 v)
  | .vxor f v _ => decide (f < 4) && Machine.slotFits (.vec 0x05 v)
  | .vshl f v _ => decide (f < 4) && Machine.slotFits (.vec 0x06 v)
  | .vshr f v _ => decide (f < 4) && Machine.slotFits (.vec 0x07 v)
  | .vsra f v _ => decide (f < 4) && Machine.slotFits (.vec 0x08 v)
  | .vmin f v _ => decide (f < 4) && Machine.slotFits (.vec 0x09 v)
  | .vmax f v _ => decide (f < 4) && Machine.slotFits (.vec 0x0A v)
  | .vcmpeq f v _ => decide (f < 4) && Machine.slotFits (.vec 0x0B v)
  | .vcmplt f v _ => decide (f < 4) && Machine.slotFits (.vec 0x0C v)
  | .vcmple f v _ => decide (f < 4) && Machine.slotFits (.vec 0x0D v)
  | .vsel f v _ => decide (f < 4) && Machine.slotFits (.vec 0x0E v)
  | .vmov f v _ => decide (f < 4) && Machine.slotFits (.vec 0x0F v)
  | .vmul f v _ => decide (f < 4) && Machine.slotFits (.vec 0x10 v)
  | .vcvt f v _ => decide (f < 4) && Machine.slotFits (.vec 0x11 v)
  | .vrshr f v _ => decide (f < 4) && Machine.slotFits (.vec 0x12 v)
  | .vperm f v _ => decide (f < 4) && Machine.slotFits (.vec 0x13 v)
  | .vbcast f v _ => decide (f < 4) && Machine.slotFits (.vec 0x14 v)
  | .vidx f v _ => decide (f < 4) && Machine.slotFits (.vec 0x15 v)
  | .vfma f v _ => decide (f < 4) && Machine.slotFits (.vec 0x16 v)
  | .vexp2 f v _ => decide (f < 4) && Machine.slotFits (.vec 0x17 v)
  | .vrecip f v _ => decide (f < 4) && Machine.slotFits (.vec 0x18 v)
  | .vrsqrt f v _ => decide (f < 4) && Machine.slotFits (.vec 0x19 v)
  | .vrsum f v _ => decide (f < 4) && Machine.slotFits (.vec 0x1A v)
  | .vrmax f v _ => decide (f < 4) && Machine.slotFits (.vec 0x1B v)
  | .vrmin f v _ => decide (f < 4) && Machine.slotFits (.vec 0x1C v)
  | .mst f m _ => decide (f < 4) && Machine.slotFits (.mst m)
  | .mpl f m _ => decide (f < 4) && Machine.slotFits (.mpl m)
  | .matrixStep f => decide (f < 4)
  | .preloadDrainBegin f => decide (f < 4)
  | .drainRow core => decide (core < 16)
  | .rstart f r _ => decide (f < 4) && Machine.slotFits (.rstart r)
  | .rstop f g r _ => decide (f < 4) && Machine.slotFits (.rstop g r)
  | .vld f v _ => decide (f < 4) && Machine.slotFits (.vld v)
  | .wset f g w base step bstep _ => decide (f < 4) && Machine.slotFits (.wset g w base step bstep)
  | .ppset f g addr _ => decide (f < 4) && Machine.slotFits (.ppset g addr)
  | .dsel f g dcd sr _ => decide (f < 4) && Machine.slotFits (.dsel g dcd sr)
  | .drn f g amask pls dcd sr _ => decide (f < 4) && Machine.slotFits (.drn g amask pls dcd sr)
  | .vst f v _ => decide (f < 4) && Machine.slotFits (.vst v)
  | .sstart f r _ => decide (f < 4) && Machine.slotFits (.sstart r)
  | .sstop f g r _ => decide (f < 4) && Machine.slotFits (.sstop g r)
  | .bar f g swp _ => decide (f < 4) && Machine.slotFits (.bar g swp)
  | .setf f g gate val _ => decide (f < 4) && Machine.slotFits (.setf g gate val)
  | .waitf f g gate val _ => decide (f < 4) && Machine.slotFits (.waitf g gate val)
  | .evt f g code _ => decide (f < 4) && Machine.slotFits (.evt g code)
  | .crdTake f g sl drops _ => decide (f < 4) && Machine.slotFits (.crd g 0 sl drops)
  | .crdGive f g sl drops _ => decide (f < 4) && Machine.slotFits (.crd g 1 sl drops)
  | .crdInit f g sl drops _ => decide (f < 4) && Machine.slotFits (.crd g 2 sl drops)
  | .commitLayer f g _ => decide (f < 4) && Machine.slotFits (.commit g false)
  | .commitTile f g _ => decide (f < 4) && Machine.slotFits (.commit g true)
  | .rillGroup core rill => decide (core < 16) && decide (rill < 6)
  | .dropLanded core rill => decide (core < 16) && decide (rill < 6)
  | .rillFinished core rill => decide (core < 16) && decide (rill < 6)
  | .cisternScrub line => decide (line < 786432)
  | .calendarFrame => true
  | .busTimeout port _ => decide (port < 28)
  | .jetRowComplete p => decide (p < 4)
  | .jetRowTransfer p => decide (p < 4)
  | .snapshotRequest tag k _ => decide (tag < 4096) && decide (k < 4)
  | .snapshotCapture k => decide (k < 4)
  | .taiCancel tag _ => decide (tag < 4096)
  | .taiSet tag _ => decide (tag < 4096)
  | .taiAdd tag _ => decide (tag < 4096)
  | .taiRate tag _ => decide (tag < 4096)
  | .taiOpApply => true
  | .taiRollover => true
  | .ptpStamp port _ send msgType domain seqId => decide (port < 6) && decide (send.transport < 3) && decide (msgType < 16) && decide (domain < 256) && decide (seqId < 2 ^ 16)
  | .ethTsqPop tag port _ => decide (tag < 4096) && decide (port < 6)
  | .quadEdge n _ _ => decide (n < 4)
  | .zCapture n _ => decide (n < 4)
  | .linePulse n => n == 6 || n == 7
  | .mainsEdge => true
  | .ssiFrameStart n => n == 4 || n == 5
  | .ssiFrameEnd n _ _ _ => n == 4 || n == 5
  | .ssiStale n => n == 4 || n == 5
  | .velocityEval => true
  | .overspeedClear tag n _ => decide (tag < 4096) && decide (n < 9)
  | .tcmpCtrlWrite n _ => decide (n < 64)
  | .pcmpCtrlWrite n _ => decide (n < 64)
  | .tcmpMatch n => decide (n < 64)
  | .pcmpMatch n => decide (n < 64)
  | .fsyncAssert n => decide (n < 16)
  | .fsyncDeassert n => decide (n < 16)
  | .csiFrameStart port vc fn ecc => decide (port < 16) && decide (vc < 4) && decide (fn < 2 ^ 16) && decide (ecc < 3)
  | .csiLine port vc _ dt ecc _ _ => decide (port < 16) && decide (vc < 4) && decide (dt < 64) && decide (ecc < 3)
  | .csiFrameEnd port vc ecc => decide (port < 16) && decide (vc < 4) && decide (ecc < 3)
  | .frameRecord stream => decide (stream < 128)
  | .csiRestart tag port vc _ => decide (tag < 4096) && decide (port < 16) && decide (vc < 4)
  | .csiVcRelWrite tag stream _ => decide (tag < 4096) && decide (stream < 128)
  | .linkDown port => decide (port < 16)
  | .streamTimeout stream => decide (stream < 64)
  | .linkUp port _ => decide (port < 16)
  | .pipeMemoryFrame p => decide (p < 4)
  | .pipeInlineLine p _ => decide (p < 4)
  | .pipeTuneSelWrite tag p _ => decide (tag < 4096) && decide (p < 4)
  | .camProbeCycle port _ => decide (port < 16)
  | .camProbe _ => true
  | .spoutTailWrite _ => true
  | .spoutTake => true
  | .spoutDone => true
  | .spoutHostReadWrite _ => true
  | .codecOpen => true
  | .codecClose => true
  | .codecDecTailWrite n _ => decide (n < 64)
  | .accessUnitDecode n _ _ _ _ => decide (n < 64)
  | .decodedPictureOutput n => decide (n < 64)
  | .codecDecRestart tag n _ => decide (tag < 4096) && decide (n < 64)
  | .codecEncTailWrite n _ => decide (n < 32)
  | .pictureEncode n _ _ => decide (n < 32)
  | .codecEncReadWrite n _ => decide (n < 32)
  | .injUnlock block inst _ => Machine.injPoint block inst
  | .injModeWrite tag block inst _ => decide (tag < 4096) && Machine.injPoint block inst
  | .parityScan _ _ => true
  | .clockMonFinding rail n _ _ => decide (n < if rail then 6 else 9)
  | .protectiveStopEnd => true
  | .domainResume rail n => decide (n < if rail then 6 else 9)
  | .fwWatchdogExpiry proc _ => decide (proc < 5)
  | .swWatchdogExpiry => true
  | .safeKick _ => true
  | .safeCauseClear tag k _ => decide (tag < 4096) && decide (k < 4)
  | .pairReturnToRun k => decide (k < 4)
  | .safeSwStopWrite tag _ => decide (tag < 4096)
  | .tamperSample _ _ => true
  | .powerOn m _ => m.ok
  | .pinReset m _ => m.ok
  | .trialExpired m _ => m.ok
  | .standbyWake _ _ => true
  | .tamperWake _ => true
  | .pcieReset m => m.ok
  | .pcieLinkDown => true
  | .bootPcieGo _ => true
  | .bootReady _ _ => true
  | .fwpReqTailWrite _ => true
  | .fwpRspReadWrite _ => true
  | .ping => true
  | .fwRestart => true
  | .slotRequest => true
  | .flashWrite _ => true
  | .attest => true
  | .debugGrant => true
  | .debugRevoke => true
  | .reset m => m.ok
  | .standby => true
  | .bootConfirm _ => true
  | .fwProcessorRestart n _ => decide (n < 5)
  | .fwLogWrite proc level point a0 a1 a2 => decide (proc < 5) && decide (level < 4) && decide (point < 2 ^ 32) && decide (a0 < 2 ^ 32) && decide (a1 < 2 ^ 32) && decide (a2 < 2 ^ 32)
  | .powerSetCap => true
  | .powerSetCeil => true
  | .powerGet => true
  | .powerSetFloorLock => true
  | .ddrRetrain => true
  | .refJudgeWindow _ _ => true
  | .rootPllLock => true
  | .recoveredRefLoss => true
  | .refTransfer => true
  | .refRevert => true
  | .rootRelock _ => true
  | .powerOpReqWrite tag _ => decide (tag < 4096)
  | .opRequestServe => true
  | .avsFrameDone _ => true
  | .voltageReached _ => true
  | .avsTimeout => true
  | .floorLockWrite tag _ => decide (tag < 4096)
  | .powerEstimate _ => true
  | .powerCapCheck => true
  | .capLimitStep => true
  | .thermalReading readings => readings.length == 24
  | .ddrEyeFailRetry => true
  | .pmxSwitchApply g _ => decide (g < 25)
  | .pmxSwitchDone g => decide (g < 25)
  | .chipStrobeFire _ => true
  | .chipStrobeDrop _ => true
  | .registerWrite tag off _ => decide (tag < 4096) && decide (off < 0x4200000)
  | .unassignedAccess tag addr size _ => decide (tag < 4096) && decide (addr < 2 ^ 40) && [1, 2, 4, 8].contains size
  | .hostCoreReset core => decide (core < 8)
  | .safetyTwinMismatch t _ => siteOk t
  | .pcieAerError err => decide (err < 3)

end Sys2Proof
end

