-- ==== Sys2Proof/Safety.lean ====
section
/-! DEFINITION. Sys2Proof/Safety.lean: what the statements say of a step: a command completes with an effect, and what it leaves
alone. -/
namespace Sys2Proof.Machine

/-- The command answers a next state, and the state it answers has a property. -/
def Does (c : Instr) (s : State) (p : State → Prop) : Prop := ∃ t, exec c s = .next t ∧ p t

/-- Every byte of DRAM, of the Cistern, of boot SRAM and of the boot flash reads as before. -/
def sameMem (s t : State) : Prop := ∀ a,
  Mem.rd t.dram a = Mem.rd s.dram a ∧ Mem.rd t.cistern a = Mem.rd s.cistern a ∧
  Mem.rd t.boot.sram a = Mem.rd s.boot.sram a ∧ Mem.rd t.boot.flash a = Mem.rd s.boot.flash a

/-- Every register of the register file but those of a list holds the value it held. -/
def sameRegs (s t : State) (l : List Nat) : Prop := ∀ off, off ∉ l → t.rd off = s.rd off

/-- The registers that record an access error (CHIP_ERR, CHIP_ERR_SRC). -/
def errRegs : List Nat := [Reg.chipErr, Reg.chipErrSrc]

/-- After the firmware has taken the requests it can take, the oldest one of a code is a request that its owner, which runs, can
serve, outside a maintenance window. -/
def State.serves (s : State) (code owner : Nat) (r : FwReq) : Prop :=
  s.up = true ∧ (s.fwPump.fwp.taken.find? fun q => q.code == code) = some r ∧ s.fwPump.fwUp owner = true ∧
  s.fwPump.dramServes = true

/-- A request is answered with a result and a value, and the firmware takes further requests. -/
def State.reply (s : State) (r : FwReq) (result : Nat) (value : Option Nat) : State := (s.fwAnswer r result value).fwPump

/-- The Fountain, the slot and the mark of the last slot of a command that presents a slot of a bundle (spec/04 R197, R198). -/
def slotOf? : Instr → Option (Nat × SlotOp × Bool)
  | .nop f p last => some (f, .nop p, last)
  | .setc f lc imm last => some (f, .setc lc imm, last)
  | .incc f lc imm last => some (f, .incc lc imm, last)
  | .decc f lc imm last => some (f, .decc lc imm, last)
  | .loop f lc target last => some (f, .loop lc target, last)
  | .cmpset f k lca cond refsel lcb imm last => some (f, .cmpset k lca cond refsel lcb imm, last)
  | .pset f k val last => some (f, .pset k val, last)
  | .jmp f target last => some (f, .jmp target, last)
  | .vadd f v last => some (f, .vec 0x01 v, last)
  | .vsub f v last => some (f, .vec 0x02 v, last)
  | .vand f v last => some (f, .vec 0x03 v, last)
  | .vor f v last => some (f, .vec 0x04 v, last)
  | .vxor f v last => some (f, .vec 0x05 v, last)
  | .vshl f v last => some (f, .vec 0x06 v, last)
  | .vshr f v last => some (f, .vec 0x07 v, last)
  | .vsra f v last => some (f, .vec 0x08 v, last)
  | .vmin f v last => some (f, .vec 0x09 v, last)
  | .vmax f v last => some (f, .vec 0x0A v, last)
  | .vcmpeq f v last => some (f, .vec 0x0B v, last)
  | .vcmplt f v last => some (f, .vec 0x0C v, last)
  | .vcmple f v last => some (f, .vec 0x0D v, last)
  | .vsel f v last => some (f, .vec 0x0E v, last)
  | .vmov f v last => some (f, .vec 0x0F v, last)
  | .vmul f v last => some (f, .vec 0x10 v, last)
  | .vcvt f v last => some (f, .vec 0x11 v, last)
  | .vrshr f v last => some (f, .vec 0x12 v, last)
  | .vperm f v last => some (f, .vec 0x13 v, last)
  | .vbcast f v last => some (f, .vec 0x14 v, last)
  | .vidx f v last => some (f, .vec 0x15 v, last)
  | .vfma f v last => some (f, .vec 0x16 v, last)
  | .vexp2 f v last => some (f, .vec 0x17 v, last)
  | .vrecip f v last => some (f, .vec 0x18 v, last)
  | .vrsqrt f v last => some (f, .vec 0x19 v, last)
  | .vrsum f v last => some (f, .vec 0x1A v, last)
  | .vrmax f v last => some (f, .vec 0x1B v, last)
  | .vrmin f v last => some (f, .vec 0x1C v, last)
  | .mst f m last => some (f, .mst m, last)
  | .mpl f m last => some (f, .mpl m, last)
  | .rstart f r last => some (f, .rstart r, last)
  | .rstop f g r last => some (f, .rstop g r, last)
  | .vld f v last => some (f, .vld v, last)
  | .wset f g w base step bstep last => some (f, .wset g w base step bstep, last)
  | .ppset f g addr last => some (f, .ppset g addr, last)
  | .dsel f g dcd sr last => some (f, .dsel g dcd sr, last)
  | .drn f g amask pls dcd sr last => some (f, .drn g amask pls dcd sr, last)
  | .vst f v last => some (f, .vst v, last)
  | .sstart f r last => some (f, .sstart r, last)
  | .sstop f g r last => some (f, .sstop g r, last)
  | .bar f g swp last => some (f, .bar g swp, last)
  | .setf f g gate val last => some (f, .setf g gate val, last)
  | .waitf f g gate val last => some (f, .waitf g gate val, last)
  | .evt f g code last => some (f, .evt g code, last)
  | .crdTake f g sl drops last => some (f, .crd g 0 sl drops, last)
  | .crdGive f g sl drops last => some (f, .crd g 1 sl drops, last)
  | .crdInit f g sl drops last => some (f, .crd g 2 sl drops, last)
  | .commitLayer f g last => some (f, .commit g false, last)
  | .commitTile f g last => some (f, .commit g true, last)
  | _ => none

/-- The slots of a bundle that holds one slot beside NOPs (R198, R200). -/
def alone (o : SlotOp) : List SlotOp := slotPositions.map fun p => if p = o.pos then o else .nop p

/-- A Fountain has fetched a bundle of one slot beside NOPs, and nothing keeps the slot from its effect: its layer runs within its
budget, the bundle is legal, the slot's guard is true, and it neither holds nor faults (R142, R197 to R203, R252 to R254, R67). -/
def State.issuesAlone (s : State) (f : Nat) (o : SlotOp) : Prop :=
  s.up = true ∧ f < 4 ∧ s.ftnLive f = true ∧ (s.ftn f).committing = false ∧ s.spent f = false ∧ (s.ftn f).hits = [] ∧
  (s.ftn f).asm = [] ∧ (s.ftn f).ir ≠ [] ∧ decodeBundle (s.ftn f).ir = some (alone o) ∧ bundleOk (alone o) = true ∧
  (s.ftn f).runs o = true ∧ s.slotHolds f o = false ∧ s.slotFaults f (alone o) o = [] ∧ s.overHeld f (alone o) = false

/-- The commands that act whether or not the fabric clock runs: those of the always-on domain, the resets and the root PLL. -/
def actsUnclocked : Instr → Bool
  | .refJudgeWindow _ _ | .thermalReading _ | .clockMonFinding _ _ _ _ | .tamperSample _ _ | .powerOn _ _ | .pinReset _ _
  | .trialExpired _ _ | .standbyWake _ _ | .tamperWake _ | .pcieReset _ | .rootPllLock | .rootRelock _ => true
  | _ => false

/-- The device is in the thermal shutdown of R756, and no POWER_ON waits. -/
def State.shutDown (s : State) : Prop :=
  s.clk.shutdown = true ∧ s.clk.standby = false ∧ s.pcieUp = false ∧ (∀ k < 4, (s.pair k).run = false) ∧
  ∀ m b, Instr.powerOn m b ∉ s.pending

/-- The root PLL has not locked since POWER_ON, and no lock waits: time stands, and nothing has been loaded (R521, R530, R727). -/
def State.waitsForRoot (s : State) : Prop :=
  s.clk.locked = false ∧ s.clk.gated = false ∧ s.clk.standby = false ∧ s.gts = 0 ∧ s.taiValid = false ∧ s.dram = [] ∧
  s.cistern = [] ∧ s.boot.sram = [] ∧ s.ctxs = [] ∧ s.weir.jobs = [] ∧ Instr.rootPllLock ∉ s.pending

end Sys2Proof.Machine
end

