-- ==== Sys2Proof/Certificates/Slice0/Obligations.lean ====
section
/-! DEFINITION. Sys2Proof/Certificates/Slice0/Obligations.lean: the statements about the block. -/
open Sys2Proof Sys2Proof.Machine


/-- With a command at the front of its queue the block's step is that command's effect on the state with the rest of the queue;
with nothing waiting it idles. Some of it rests on the model's choices, log entry 3. -/
def Obligations.StepRunsTheFrontCommand : Prop := ∀ (s : State) (c : Instr),
  step { s with pending := c :: s.pending } = exec c s ∧
  step { s with pending := [] } = .next { s with pending := [] }.idle

/-- R827: a write of a consumed count is accepted only if it lies between the count in force and the count of records written,
modulo 2^32, and any other write is ignored: EVT_READ, CPL_READ, WEIR_DEVRING_READ, the profile's LEQ_READ and LCQ_READ,
SPOUT_HOST_READ and FWP_RSP_READ. The page of a queue that is closed (R480) takes no write. -/
def Obligations.ConsumedCountsAreAccepted : Prop := ∀ (s : State) (slot : Nat) (v : W32), s.up = true →
  let now := fun (written read : Nat) =>
    if (v.toNat + 2 ^ 32 - read % 2 ^ 32) % 2 ^ 32 ≤ written - read then read + (v.toNat + 2 ^ 32 - read % 2 ^ 32) % 2 ^ 32 else read
  let after := fun (t : RingSt) => { t with read := now t.written t.read }
  let c := s.ctx slot
  (s.legacy = false → s.pageOpen slot 0 = true →
    exec (.evtReadWrite slot v) s = .next (s.setCtx slot { c with evt := after c.evt }) ∧
    exec (.cplReadWrite slot v) s = .next (s.setCtx slot { c with cpl := after c.cpl })) ∧
  (s.pageOpen slot 0 = false → exec (.evtReadWrite slot v) s = .next s ∧ exec (.cplReadWrite slot v) s = .next s) ∧
  exec (.weirDevringReadWrite v) s = .next { s.touch 2 with devRing := after s.devRing } ∧
  (s.legacy = true → s.pageOpen 0 0 = true →
    exec (.leqReadWrite v) s = .next (s.setCtx 0 { s.ctx 0 with evt := after (s.ctx 0).evt }) ∧
    exec (.lcqReadWrite v) s = .next (s.setCtx 0 { s.ctx 0 with cpl := after (s.ctx 0).cpl })) ∧
  exec (.spoutHostReadWrite v) s =
    .next { s.touch 9 with spout := { s.spout with read := now s.spout.written s.spout.read } } ∧
  Does (.fwpRspReadWrite v) s fun t => t.fwp.read = now s.fwp.written s.fwp.read

/-- An event that has waited 512 ns, passes its check and finds room is written as the next record of its ring and leaves the
Clepsydra; one that finds no room is dropped and counted; the final records that waited for an event of a context's ring follow
it (R496). R500: once 17 records are free, one OVERFLOW event carries the count of drops since the last, and the count starts
again. R501: a ring with unconsumed records signals its vector when MOD_US has passed since the oldest record not yet signalled, or
at once for a safety-class record, and with MOD_US 0 once for each record written; R502: in endpoint mode with IRQ_ROUTE MODE 0
the signal goes to the MSI-X entry alone, which is pending while it is masked. Some of it rests on the model's choices, log
entries 15 and 131. -/
def Obligations.EventsReachTheirRingAndSignal : Prop :=
  (∀ (s u : State) (r : Ring) (e : Event),
  s.up = true → s.dramServes = true → s.nextEvent r = some e → e.ring = r → e.gts + 512 ≤ s.gts → s.behindOverflow e = false →
  s.checkEvent e = (true, u) →
  let finals := fun t : State => match r with
    | .dev => t
    | .ctx k => t.flushFinals k
  (u.room e = false → exec (.eventRingWrite r) s = .next (finals ((u.takeEvent e).dropEvent r))) ∧
  (∀ va l w, u.room e = true → (u.takeEvent e).ringGeom r = some (va, l) →
    (u.takeEvent e).vwrite Who.walker (va + 32 * ((u.ringSt r).written % 2 ^ l)) (e.bytes ((u.ringSt r).written + 1)) = (true, w) →
    ∃ x : State, exec (.eventRingWrite r) s = .next (finals x) ∧ (x.ringSt r).written = (u.ringSt r).written + 1 ∧
      (x.ringSt r).unsig = (u.ringSt r).unsig + 1 ∧ x.events = w.events ∧ x.dram = w.dram ∧ x.live = w.live)) ∧
  (∀ (s w : State) (r : Ring) (va l : Nat),
  s.up = true → s.dramServes = true → 0 < (s.ringSt r).unreported → 17 ≤ s.ringFree r → s.ringGeom r = some (va, l) →
  s.vwrite Who.walker (va + 32 * ((s.ringSt r).written % 2 ^ l)) ((s.overflowEvent r).bytes ((s.ringSt r).written + 1)) = (true, w) →
  Does (.overflow r) s fun t => (t.ringSt r).unreported = 0 ∧ (t.ringSt r).written = (s.ringSt r).written + 1 ∧
    t.dram = w.dram ∧ t.events = w.events) ∧
  (∀ (s : State) (r : RingSel) (g : Nat),
  let q := s.ringSel r
  let n := if q.2.1 = 0 then q.1.unsig else 1
  let x := Table.get {} s.msixVecs q.2.2
  s.up = true →
  (if q.2.1 = 0 then 0 < q.1.unsig
    else q.1.read < q.1.written ∧ q.1.oldest = some g ∧ (q.1.safetyNew = true ∨ g + 1000 * q.2.1 ≤ s.gts)) →
  exec (.interruptSignal r) s = .next (State.signalTimes q.2.2 n (s.setSel r { q.1 with unsig := 0, oldest := none, safetyNew := false })) ∧
  (q.2.2 < 64 → s.msix = true → s.rf Reg.weirIrqRoute F.weirIrqRoute_MODE = 0 →
    (x.masked = false → Does (.interruptSignal r) s fun t => Table.get 0 t.vectors q.2.2 = Table.get 0 s.vectors q.2.2 + n ∧
      (∀ k, k ≠ q.2.2 → Table.get 0 t.vectors k = Table.get 0 s.vectors k) ∧
      sameMem s t ∧ t.live = s.live ∧ t.events = s.events) ∧
    (x.masked = true → Does (.interruptSignal r) s fun t => Table.get {} t.msixVecs q.2.2 = { x with pending := true } ∧
      t.vectors = s.vectors ∧ sameMem s t ∧ t.live = s.live ∧ t.events = s.events)))

/-- R506: a RELEASE by a Gate's owner frees it and clears BROKEN, and any other changes nothing. Beside it, parts of R504, R507
and R509: a free Gate is acquired and a held one is not, its flag is written, and the reset of a host core breaks every Gate
that the core holds. -/
def Obligations.GatesAreTakenAndGivenUp : Prop := ∀ (s : State) (g o c : Nat) (v : Bool), s.up = true →
  let st := Reg.gateState g
  let frame := fun t : State => sameRegs s t [st] ∧ ∃ x, t = { s with live := x }
  (g < 64 → s.rf st F.gateState_LOCKED = 0 →
    Does (.gateAcquire g o) s fun t => t.gateOwner g = o % 0x10000 ∧
      t.rf st F.gateState_LOCKED = (if o % 0x10000 = 0 then 0 else 1) ∧ t.gateFlag g = s.gateFlag g ∧
      t.rf st F.gateState_BROKEN = s.rf st F.gateState_BROKEN ∧ frame t) ∧
  (g < 64 → s.rf st F.gateState_LOCKED = 1 → exec (.gateAcquire g o) s = .next s) ∧
  (g < 64 → s.rf st F.gateState_LOCKED = 1 → s.gateOwner g = o % 0x10000 →
    Does (.gateRelease g o) s fun t => t.rf st F.gateState_LOCKED = 0 ∧ t.rf st F.gateState_BROKEN = 0 ∧
      t.gateFlag g = s.gateFlag g ∧ frame t) ∧
  (g < 64 → ¬(s.rf st F.gateState_LOCKED = 1 ∧ s.gateOwner g = o % 0x10000) → exec (.gateRelease g o) s = .next s) ∧
  (g < 64 → s.injArmed 2 0 4 g = false → s.flagLater g 4 = false →
    Does (.gateFlag g v true) s fun t => t.gateFlag g = v ∧ t.gateOwner g = s.gateOwner g ∧ sameRegs s t [st] ∧
      Table.get none t.weir.flagLast g = some (s.gts, 4) ∧ ∃ x y, t = { s with live := x, weir := { s.weir with flagLast := y } }) ∧
  (c < 8 → Does (.hostCoreReset c) s fun t => ∀ n < 64,
    (s.rf (Reg.gateState n) F.gateState_LOCKED = 1 ∧ s.gateOwner n = 0x3000 + c →
      t.rf (Reg.gateState n) F.gateState_LOCKED = 0 ∧ t.rf (Reg.gateState n) F.gateState_BROKEN = 1 ∧
      t.gateFlag n = s.gateFlag n) ∧
    (¬(s.rf (Reg.gateState n) F.gateState_LOCKED = 1 ∧ s.gateOwner n = 0x3000 + c) →
      t.rd (Reg.gateState n) = s.rd (Reg.gateState n)))

/-- R480, R482, R483: a tail that is written to an open doorbell page and whose halves agree is latched, replacing the newest where
256 are latched, and becomes the queue's tail, value and complement; latched tails that cover no descriptor leave the latch, and the
head does not move. One that lies outside the ring, or whose halves disagree, is ignored and sets TWIN_BAD. R453: a queue
whose pointers fail their twin check stops, and a stopped queue takes no tail. It says so of the native pages and of the
LPL-3020 profile's LSQ_TAIL. -/
def Obligations.DoorbellsLatchTheirTail : Prop := ∀ (s : State) (page : Nat) (v : W32), s.up = true →
  let tail := v.toNat % 65536
  let agree := v.toNat / 65536 + tail = 65535
  let rung := fun (c : Instr) (slot q : Nat) =>
    let x := s.queue slot q
    let y : Queue := { x with tail := tail, tailC := 65535 - tail }
    let latched : Queue := if x.doorbells.length < 256 then { y with doorbells := x.doorbells ++ [tail] }
      else { y with doorbells := x.doorbells.dropLast ++ [tail], coalesced := true }
    let only := fun t : State => (∀ k n, (k ≠ slot ∨ n ≠ q) → t.queue k n = s.queue k n) ∧ ∃ z, t = { s with ctxs := z }
    (agree → x.stopped = false → s.injArmed 2 0 3 (slot * 256 + q) = false → x.twinOk = true →
      ((tail + 65536 - x.head) % 65536 ≤ 2 ^ x.log2 → Does c s fun t => t.queue slot q = latched.settle ∧
        (t.queue slot q).tail = tail ∧ (t.queue slot q).head = x.head ∧ only t) ∧
      (2 ^ x.log2 < (tail + 65536 - x.head) % 65536 → Does c s fun t => t.queue slot q = { x with twinBad := true } ∧ only t)) ∧
    (agree → x.stopped = false → s.injArmed 2 0 3 (slot * 256 + q) = false → x.twinOk = false →
      Does c s fun t => t.queue slot q = { x with stopped := true } ∧ t.weir = s.weir ∧ sameMem s t) ∧
    (agree → x.stopped = true → exec c s = .next s) ∧
    (¬agree → Does c s fun t => t.queue slot q = { x with twinBad := true } ∧ t.events = s.events ∧ t.weir = s.weir ∧ sameMem s t)
  (s.legacy = false → s.pageOpen (page / 8) (page % 8) = true → rung (.sqTailWrite page v) (page / 8) (page % 8)) ∧
  (s.legacy = true → s.pageOpen 0 0 = true → rung (.lsqTailWrite v) 0 0) ∧
  (s.pageOpen (page / 8) (page % 8) = false → exec (.sqTailWrite page v) s = .next s)

/-- R453, R484 to R486: the next descriptor of a queue moves into the intake: the head counts it, value and complement, two records
of its completion ring are held back for it, and the intake grows by it alone. In a maintenance window FWP3 takes none (R429).
Some of it rests on the model's choices, log entries 10 and 131. -/
def Obligations.DescriptorsEnterTheIntake : Prop := ∀ (s u : State) (k : Nat) (b : List Byte) (bad : Bool), s.up = true →
  let slot := k / 8
  let q := k % 8
  let x := s.queue slot q
  (s.dramServes = true → s.fwUp 3 = true → s.weir.intake.length < 64 → s.queuedCount < 65536 → s.nextQueue = some k →
    s.injArmed 2 0 3 (slot * 256 + q) = false → x.twinOk = true →
    (s.setQueue slot q x).vread Who.fwp3 x.nextVa 128 = (some (b, bad), u) →
    Does .descriptorTaken s fun t => (t.queue slot q).head = (x.head + 1) % 65536 ∧
      (t.queue slot q).headC = 65535 - (x.head + 1) % 65536 ∧ (t.queue slot q).tail = x.tail ∧
      (t.ctx slot).cplHeld = (s.ctx slot).cplHeld + 2 ∧
      ∃ i : Intake, t.weir.intake = s.weir.intake ++ [i] ∧ i.slot = slot ∧ i.queue = q ∧ i.ringCount = x.head ∧
        i.desc = u.profileDesc (Desc.parse b) ∧ i.cancelled = false) ∧
  (s.dramServes = false ∨ s.fwUp 3 = false ∨ 64 ≤ s.weir.intake.length ∨ 65536 ≤ s.queuedCount ∨ s.nextQueue = none →
    exec .descriptorTaken s = .next s)

/-- R488, R489: a cancel of a job that is not yet decided marks it, whatever else waits; one that names no job is ignored and says
so in DB_STATUS; one that names a pending job marks it for its end with CANCELLED as the cycle ends, when a commit, breach or
fault of that cycle has come before it. Some of it rests on the model's choices, log entry 147. -/
def Obligations.CancelsMarkOrEndTheirJob : Prop := ∀ (s : State) (page : Nat) (v : W32),
  let slot := page / 8
  let q := page % 8
  let n := v.toNat % 65536
  let named := fun i : Intake => i.slot == slot && i.queue == q && i.ringCount == n
  let job := s.pendingJobs.find? fun j => j.slot == slot && j.queue == q && j.ringCount == n
  (s.up = true → s.legacy = false → s.pageOpen slot q = true → v.toNat / 65536 + n = 65535 →
    (∀ j, job = some j → ∃ u : State, exec (.cancelWrite page v) s = .next u.settle ∧
      (∀ k ∈ u.weir.jobs, k.id = j.id → k.cancelAt = some s.gts) ∧ u.weir.jobs.length = s.weir.jobs.length ∧
      ∃ x, u = { s with weir := x }) ∧
    (job = none → s.weir.intake.any named = true →
      ∃ u : State, exec (.cancelWrite page v) s = .next u.settle ∧ u.weir.intake.length = s.weir.intake.length ∧
        (∀ i ∈ u.weir.intake, named i = true → i.cancelled = true) ∧ ∃ x, u = { s with weir := x }) ∧
    (job = none → s.weir.intake.any named = false →
      ∃ u : State, exec (.cancelWrite page v) s = .next u.settle ∧ (u.queue slot q).cancelIgnored = true ∧ u.weir = s.weir ∧
        sameMem s u)) ∧
  ((s.weir.jobs.any fun j => j.cancelAt.isSome) = true →
    s.cycleEnd = (s.endAll ((s.pendingJobs.filter fun j => j.cancelAt.isSome).map fun j => (j.id, 0x16, j.lastDet))).settle)

/-- R136, R137: a claim of a free unit that run-time claims may name is granted to its claimant, its release by the holder gives
it up, and PARTERRE_CLAIM_RESULT says so; no other unit changes hands. -/
def Obligations.ClaimsAreGrantedAndReleased : Prop := ∀ (s : State) (v : W32),
  let cls := v.fld F.parterreClaimReq_RES_CLASS
  let u := v.fld F.parterreClaimReq_RES_NUMBER
  let o := v.fld F.parterreClaimReq_CLAIMANT
  let idle := s.rf Reg.parterreStatus F.parterreStatus_STATE ≠ 1 ∧ s.rf Reg.parterreStatus F.parterreStatus_STATE ≠ 2
  let others := fun t : State => ∀ k, k ≠ cls * 1024 + u → Table.get 0 t.claims k = Table.get 0 s.claims k
  s.up = true → idle → claimUnit cls u = true → s.imageHolds cls u = false →
  (v.fld F.parterreClaimReq_OP = 1 → (cls = Cls.strobeGroup → s.strobeOf u ≠ none) → s.claimOf cls u = 0 →
    Does (.claim v) s fun t => t.claimOf cls u = o ∧ t.rf Reg.parterreClaimResult F.parterreClaimResult_RESULT = 0 ∧ others t) ∧
  (v.fld F.parterreClaimReq_OP = 2 → s.claimOf cls u = o → o ≠ 0 →
    Does (.release v) s fun t => t.claimOf cls u = 0 ∧ t.rf Reg.parterreClaimResult F.parterreClaimResult_RESULT = 0 ∧ others t)

/-- R139, R140: the holder of a strobe group open to run-time claim binds its trigger, to a comparator only if the same claimant
holds it. -/
def Obligations.StrobeGroupsTakeTheirTrigger : Prop := ∀ (s : State) (tag g : Nat) (v : W32) (e : Nat × Nat × Nat × Nat),
  let o := v.fld F.parterreStrobeCfg_CLAIMANT
  let t := v.fld F.parterreStrobeCfg_TRIGGER
  let c := v.fld F.parterreStrobeCfg_COMPARATOR
  s.up = true → 1 ≤ g → g ≤ 15 → s.strobeOf g = some e → e.2.1 = 3 → o ≠ 0 → s.claimOf Cls.strobeGroup g = o →
  ((t = 1 → c ≤ 63 ∧ s.claimOf Cls.timeComp c = o) ∧ (t = 2 → c ≤ 63 ∧ s.claimOf Cls.phaseComp c = o) →
    exec (.strobeCfgWrite tag g v) s = .next (s.writeReg tag (Reg.parterreStrobeCfg g) v)) ∧
  (t = 1 → s.claimOf Cls.timeComp c ≠ o → exec (.strobeCfgWrite tag g v) s = .next s)

/-- R466, R472: a write of WEIR_XLATE_INV clears DONE until its invalidation has completed, which takes the page's translations
out of the shared cache and leaves the locked ones; UNPIN gives up the locked translations of its object alone. Some of it
rests on the model's choices, log entries 44 and 45. -/
def Obligations.TranslationsAreInvalidatedAndUnpinned : Prop := ∀ (s : State) (tag : Nat) (v : W32), s.up = true →
  (Does (.xlateInvalidate tag v) s fun t => t.rf Reg.weirXlateInv F.weirXlateInv_DONE = 0 ∧
    t.weir.invPending.map Prod.snd = some (v.fld F.weirXlateInv_PAGES) ∧ t.weir.invAll = (v.fld F.weirXlateInv_ALL == 1) ∧
    t.weir.locked = s.weir.locked ∧ (s.weir.invPending = none → s.weir.invAll = false → t.weir.cache = s.weir.cache) ∧ sameMem s t) ∧
  (∀ p n, s.weir.invPending = some (p, n) →
    Does .xlateInvalidateDone s fun t => t.rf Reg.weirXlateInv F.weirXlateInv_DONE = 1 ∧ t.weir.invPending = none ∧
      (∀ e ∈ t.weir.cache, s.weir.invAll = false ∧ (e.1 < p ∨ p + n ≤ e.1)) ∧ t.weir.locked = s.weir.locked ∧ sameMem s t) ∧
  (s.weir.invPending = none → exec .xlateInvalidateDone s = .next s) ∧
  (v.fld F.weirPin_OP = 2 →
    Does (.unpin tag v) s fun t => t.weir.locked = s.weir.locked.filter fun e => e.1 != v.fld F.weirPin_HANDLE) ∧
  (v.fld F.weirPin_OP = 1 →
    let u := s.writeReg tag Reg.weirPin v
    let x := u.readHandle (v.fld F.weirPin_HANDLE)
    let w := u.charge Who.walker (3 * x.vpages.length)
    ∀ l, x.ok = true → x.pinned = true →
      (u.weir.locked.filter fun e => e.1 != v.fld F.weirPin_HANDLE).length + x.vpages.length ≤ 4096 → w.walkAll x.vpages = some l →
      Does (.pin tag v) s fun t => t.rf Reg.weirPin F.weirPin_RESULT = 0 ∧
        ∀ e ∈ l, (v.fld F.weirPin_HANDLE, e) ∈ t.weir.locked)

/-- R512, R695: the tails of the tokeniser's ring and of the request ring, and the consumed count of the response ring (R827).
Some of it rests on the model's choices, log entries 10 and 38. -/
def Obligations.ServiceRingTailsAreTaken : Prop := ∀ (s : State) (v : W32),
  let tail := v.toNat % 65536
  s.up = true →
  (v.toNat / 65536 + tail = 65535 → (tail + 65536 - s.tok.head) % 65536 ≤ 2 ^ s.tokLog2 →
    exec (.tokTailWrite v) s = .next { s with tok := { s.tok with tail := tail } }) ∧
  (v.toNat / 65536 + tail = 65535 → (tail + 65536 - s.fwp.req.head) % 65536 ≤ 2 ^ s.fwLog2 →
    exec (.fwpReqTailWrite v) s = .next ({ s with fwp := { s.fwp with req := { s.fwp.req with tail := tail } } } : State).fwPump) ∧
  (let d := (v.toNat + 2 ^ 32 - s.fwp.read % 2 ^ 32) % 2 ^ 32
   d ≤ s.fwp.written - s.fwp.read →
     exec (.fwpRspReadWrite v) s = .next ({ s with fwp := { s.fwp with read := s.fwp.read + d } } : State).fwPump)

/-- The requests of FWP4 (R753): the cap, the ceiling, the status, the floor lock and a DRAM training; each is answered by its
owner with its effect. Some of it rests on the model's choices, log entry 10. -/
def Obligations.PowerRequestsAreServed : Prop := ∀ (s : State) (r : FwReq),
  let u := s.fwPump
  (s.serves 0x40 4 r →
    (15 ≤ r.a0 ∧ r.a0 ≤ 45 →
      exec .powerSetCap s = .next (({ u with pwr := { u.pwr with capSet := r.a0 } } : State).reply r Rs.ok none)) ∧
    (r.a0 < 15 ∨ 45 < r.a0 → exec .powerSetCap s = .next (u.reply r Rs.badArg none))) ∧
  (s.serves 0x41 4 r → r.a0 ≤ 5 → u.floorLock = false →
    (r.a0 ≤ u.pwr.op →
      exec .powerSetCeil s = .next (({ u with pwr := { u.pwr with ceiling := r.a0 } } : State).reply r Rs.ok none)) ∧
    (u.pwr.op < r.a0 →
      exec .powerSetCeil s =
        .next ((({ u with pwr := { u.pwr with ceiling := r.a0 } } : State).fwp4Request r.a0).reply r Rs.ok none))) ∧
  (s.serves 0x41 4 r → r.a0 ≤ 5 → u.floorLock = true → u.clocksOn = true → u.floorOp < r.a0 → u.floorOp ≤ u.pwr.op →
    exec .powerSetCeil s =
      .next (({ u with pwr := { u.pwr with ceiling := u.floorOp } } : State).reply r Rs.floorHeld none)) ∧
  (s.serves 0x42 4 r → exec .powerGet s = .next (u.reply r Rs.ok (some (u.pwr.op + u.effectiveCap * 2 ^ 8 +
    u.powerMean % 65536 * 2 ^ 16 + wrapN 16 (junction u.pwr.sensors) * 2 ^ 32)))) ∧
  (s.serves 0x43 4 r → r.a0 ≤ 1 →
    exec .powerSetFloorLock s =
      .next ((u.floorLockWrite 0x604 ((u.rd Reg.powerCtrl).setFld F.powerCtrl_FLOOR_LOCK r.a0)).reply r Rs.ok none)) ∧
  (s.serves 0x44 4 r → exec .ddrRetrain s = .next (u.maintRequest.reply r Rs.ok none))

/-- The requests of FWP0 and PING (R693, R698, R699, R704, R705, R712): each is answered by its owner with its effect. Some of it
rests on the model's choices, log entries 6, 10, 59, 92 and 95. -/
def Obligations.FirmwareRequestsAreServed : Prop := ∀ (s w : State) (r : FwReq) (b : List Byte) (bad ok : Bool),
  let u := s.fwPump
  (s.serves 0x01 3 r → exec .ping s = .next (u.reply r Rs.ok none)) ∧
  (s.serves 0x02 0 r → r.a0 ≤ 4 → exec .fwRestart s = .next ((u.fwNeed r.a0 RstCause.request).reply r Rs.ok none)) ∧
  (s.serves 0x50 0 r → r.a0 < 65536 →
    let other := 1 - u.rf Reg.bootStatus F.bootStatus_SLOT
    exec .slotRequest s = .next (
      if u.s1Check (u.slotImg other) = 0 ∧ (u.s1Comps (u.slotImg other)).all (u.compHashOk other) = true then
        (u.writeSlotRec fun c => { c with request := 1, trialS := r.a0 }).reply r Rs.ok none
      else u.reply r Rs.verifyFail none)) ∧
  (s.serves 0x51 0 r → u.flashDenied r.a0 r.a2 = false → r.a0 + r.a2 ≤ 2 ^ 32 →
    u.vread { tag := 0x600 } r.a1 r.a2 = (some (b, bad), w) →
    exec (.flashWrite true) s = .next ((w.flashWr r.a0 b).reply r Rs.ok none)) ∧
  (s.serves 0x51 0 r → u.flashDenied r.a0 r.a2 = true → exec (.flashWrite ok) s = .next (u.reply r Rs.flashDenied none)) ∧
  (s.serves 0x52 0 r → r.a0 % 32 = 0 → u.keyLocked = false → u.vread { tag := 0x600 } (r.a0 + 0x10) 48 = (some (b, bad), w) →
    let body := w.attestBody b
    let put := w.vwrite { tag := 0x600 } r.a0
      (body ++ (Config.ecdsaSign (sha384 body) ++ List.replicate 96 0#8).take 96)
    exec .attest s = .next (if put.1 = true then put.2.reply r Rs.ok none else (put.2.xlateFault 0x600).reply r Rs.badArg none)) ∧
  (s.serves 0x53 0 r → u.keyLocked = false → u.vread { tag := 0x600 } r.a0 128 = (some (b, bad), w) →
    exec .debugGrant s = .next (if w.tokenOk b = true then (w.wf Reg.intStatus F.intStatus_DEBUG_GRANT 1).reply r Rs.ok none
      else w.reply r Rs.tokenBad none)) ∧
  (s.serves 0x53 0 r → u.keyLocked = true → exec .debugGrant s = .next (u.reply r Rs.keyLocked none)) ∧
  (s.serves 0x54 0 r →
    exec .debugRevoke s = .next ((u.wf Reg.intStatus F.intStatus_DEBUG_GRANT 0).reply r Rs.ok none))

/-- The context requests (R475 to R479): a record that keeps R476, of the root in force and of a context not resident, is loaded
into the lowest free slot; an unload frees the slot of a resident context without queued jobs, unwritten records or waiting
events; a destroy ends with the slot free, once its jobs have ended and its events are written. Some of it rests on the model's
choices, log entries 6, 10 and 133. -/
def Obligations.ContextRequestsAreServed : Prop := ∀ (s w : State) (r : FwReq) (b : List Byte) (bad : Bool) (k : Nat),
  let u := s.fwPump
  let event := fun (t : State) (code slot : Nat) => t.raiseDev 83 Ev.context (code * 2 ^ 24 + slot % 64)
  u.legacy = false →
  (s.serves 0x10 3 r → u.vread Who.fwp3 r.a0 1024 = (some (b, bad), w) → r.a0 % 1024 = 0 → ctxRecOk b = true →
    u64 b 0x18 = w.ptRoot → (w.ctxs.any fun e => e.2.resident && e.2.ctxId == u16 b 6) = false → w.freeSlot = some k →
    exec .ctxLoad s = .next ((event (w.setCtx k (Ctx.parse r.a0 b)) 0x10 k).reply r 0 (some k)) ∧
    (w.ctx k).resident = false ∧ ∀ n < k, (w.ctx n).resident = true) ∧
  (s.serves 0x11 3 r → r.a0 < 48 → (u.ctx r.a0).resident = true → u.slotBusy r.a0 = false → u.ringWaits r.a0 = false →
    u.mapped true (u.ctx r.a0).recVa 1024 = true →
    let stored := (u.ctx r.a0).fields.foldl (fun s e => (s.vwrite Who.fwp3 e.1 e.2).2) u
    exec .ctxUnload s = .next ((event (stored.setCtx r.a0 {}) 0x11 r.a0).reply r 0 none)) ∧
  (s.serves 0x12 3 r → r.a0 < 48 → (u.ctx r.a0).resident = true →
    let closed := (u.ctxClose r.a0).settle
    (closed.slotBusy r.a0 = true ∨ closed.ringWaits r.a0 = true → exec .ctxDestroy s = .next closed) ∧
    (closed.slotBusy r.a0 = false → closed.ringWaits r.a0 = false → exec .ctxDestroy s = .next ((event (closed.ctxEnd r.a0) 0x12 r.a0).reply r 0 none)))

/-- R740, R741, R746: only FWP4's write requests a point, the newest request stands, and the sequencer serves it: a slower point's
divider applies before its Voltage write begins, a faster one's after; a point below the floor is refused and says so. -/
def Obligations.OperatingPointsAreRequestedAndServed : Prop := ∀ (s : State) (tag k : Nat) (v : W32), s.up = true →
  (tag = 0x604 → v.fld F.powerOpReq_OP ≤ 5 →
    Does (.powerOpReqWrite tag v) s fun t => t.pwr.pending = some (v.fld F.powerOpReq_OP) ∧ t.pwr.op = s.pwr.op ∧
      t.live = s.live ∧ sameMem s t) ∧
  (tag ≠ 0x604 → exec (.powerOpReqWrite tag v) s = .next s) ∧
  (s.pwr.pending = some k → s.pwr.frame = none → s.seqFrozen = false → (s.hot = true → max s.pwr.op s.floorOp ≤ k) →
    (s.floorRefuses k = false →
      Does .opRequestServe s fun t => t.pwr.pending = none ∧ t.pwr.target = k ∧ t.pwr.frame = some { op := k, start := s.gts } ∧
        t.pwr.op = max s.pwr.op k ∧ sameRegs s t [Reg.clkDiv]) ∧
    (s.floorRefuses k = true →
      Does .opRequestServe s fun t => t.pwr.pending = none ∧ t.pwr.op = s.pwr.op ∧ t.pwr.frame = none ∧
        t.rf Reg.powerStatus F.powerStatus_FLOOR_HELD = 1 ∧ sameRegs s t [Reg.powerStatus]))

/-- R742 to R745: a Voltage write that succeeds starts the slew, one that fails is sent once more and then freezes the sequencer;
the fifth sample in a row within 10 mV ends the slew, and a faster point's divider applies; the window of the monitor spans the
slew and narrows as it ends (R745); a slew of 200 µs goes back. Some of it rests on the model's choices, log entries 53 and 148. -/
def Obligations.TheRailFollowsTheSequencer : Prop := ∀ (s : State) (f : Frame) (mv : Nat), s.up = true →
  (s.pwr.frame = some f → f.start + 1280 ≤ s.gts →
    Does (.avsFrameDone true) s (fun t =>
      t = { s with pwr := { s.pwr with frame := none, slewing := true, spLow := min s.pwr.spLow (opVolt s.pwr.target),
                                       spHigh := max s.pwr.spHigh (opVolt s.pwr.target) } }) ∧
    (f.retry = false → Does (.avsFrameDone false) s fun t =>
      t = { s with pwr := { s.pwr with frame := some { f with retry := true, start := s.gts } } }) ∧
    (f.retry = true → Does (.avsFrameDone false) s fun t => t = { s with pwr := { s.pwr with frame := none, avsFault := true } } ∧
      t.seqFrozen = true)) ∧
  (s.gts % 1000 = 0 → s.pwr.frame = none → s.pwr.slewing = true → s.seqFrozen = false → s.pwr.reached = 4 →
    1000 ≤ s.gts → s.pwr.sampleAt = some (s.gts - 1000) → opVolt s.pwr.target ≤ mv + 10 →
    Does (.voltageReached mv) s fun t => t.pwr.slewing = false ∧ t.pwr.op = min s.pwr.op s.pwr.target ∧
      t.pwr.spLow = opVolt s.pwr.target ∧ t.pwr.spHigh = opVolt s.pwr.target ∧ sameRegs s t [Reg.clkDiv]) ∧
  (s.pwr.slewing = true → s.pwr.frame = none → s.seqFrozen = false → s.pwr.cmdGts + 200000 ≤ s.gts →
    Does .avsTimeout s fun t => t.pwr.target = s.pwr.op ∧ t.pwr.frame = some { op := s.pwr.op, start := s.gts } ∧
      t.pwr.op = s.pwr.op ∧ sameMem s t)

/-- R747, R749, R750, R6: the floor lock, the estimates and their mean, the check that steps to a slower point while the mean
exceeds the cap, and the cap limit that rises by one watt for each second below 98 °C. Some of it rests on the model's
choices, log entry 57. -/
def Obligations.ThePowerCapIsKept : Prop := ∀ (s : State) (tag e at_ : Nat) (v : W32), s.up = true →
  (let u := s.writeReg tag Reg.powerCtrl v
   (u.floorLock = true → u.clocksOn = true → u.floorOp < u.pwr.op →
     exec (.floorLockWrite tag v) s = .next { u with pwr := { u.pwr with pending := some u.floorOp } }) ∧
   (u.floorLock = false → exec (.floorLockWrite tag v) s = .next u)) ∧
  (s.fwUp 4 = true → s.pwr.estAt = none →
    Does (.powerEstimate e) s fun t => t.pwr.est = (e :: s.pwr.est).take 100 ∧ t.pwr.estAt = some s.gts ∧
      t.rf Reg.powerEst F.powerEst_NOW = e % 2 ^ F.powerEst_NOW.width ∧ sameRegs s t [Reg.powerEst] ∧ sameMem s t) ∧
  (s.fwUp 4 = true → s.pwr.checkAt = none → s.pwr.est ≠ [] → 100 * s.effectiveCap * s.pwr.est.length < s.pwr.est.sum →
    s.pwr.op < 5 →
    Does .powerCapCheck s fun t => t.pwr.pending = some (s.pwr.op + 1) ∧ t.pwr.capThrottle = true ∧ t.pwr.checkAt = some s.gts ∧
      t.live = s.live) ∧
  (s.pwr.belowSince = some at_ → s.pwr.limited = true → at_ + 1000000000 ≤ s.gts →
    Does .capLimitStep s fun t => t.pwr.capLimit = s.pwr.capLimit + 1 ∧ t.pwr.limited = decide (s.pwr.capLimit + 1 < 45) ∧
      t.pwr.belowSince = some (at_ + 1000000000) ∧ t.live = s.live ∧ sameMem s t)

/-- R680: each reset starts the device again with its own code, from standby or from work; R707, R709: a tamper that fires in
standby wakes the device into TAMPER_HOLD; R693: the RESET request resets the device. R680, R530, R822, R709: what a reset
other than POWER_ON leaves: its cause, the GTS and TAI, DRAM after a wake from standby alone, the flash, the tamper record;
every section, event, context, claim and page is gone, and no pair runs. Some of it rests on the model's choices, log entries
69, 91 and 94. -/
def Obligations.ResetsRestartTheDevice : Prop :=
  (∀ (s : State) (m : ModePins) (e : Nat) (w : Bool),
  let again := fun (t : State) (code e : Nat) (m : Option ModePins) => ((t.leaveStandby e).resetFor code m).bootGoes
  (s.clk.shutdown = false → exec (.pinReset m e) s = .next (again s 2 e (some m))) ∧
  (s.clk.shutdown = false → s.trialOver e = true → exec (.trialExpired m e) s = .next (again s 3 e (some m))) ∧
  (s.up = true → s.fwPump.fwUp 0 = true → (∃ r ∈ s.fwPump.fwp.taken, r.code = 0x55) →
    exec (.reset m) s = .next (again s.fwPump 4 0 (some m))) ∧
  (s.clk.standby = true → w = true ∨ s.boot.wakeAt ≠ 0 ∧ s.boot.wakeAt ≤ s.gts + (e + 999) / 1000 * 1000 →
    let t := (s.leaveStandby e).resetFor 5 none
    exec (.standbyWake e w) s = .next ({ t with boot := { t.boot with wake := true } } : State).bootGoes) ∧
  (s.clk.standby = true → s.boot.tamperWake = true →
    Does (.tamperWake e) s fun t => t.boot.hold = true ∧ t.rf Reg.bootStatus F.bootStatus_STATE = 4 ∧
      t.rf Reg.bootCause F.bootCause_CAUSE = 6 ∧ t.up = false ∧ ∀ p < 5, t.fwUp p = false) ∧
  (s.clk.shutdown = false → s.clk.standby = false → s.rf Reg.chipMode F.chipMode_BOOT_SRC = 2 →
    exec (.pcieReset m) s = .next (again s 7 0 (some m)))) ∧
  (∀ (s : State) (code : Nat) (m : Option ModePins), code < 16 →
  let t := s.resetFor code m
  t.rf Reg.bootCause F.bootCause_CAUSE = code ∧
  (t.gts, t.taiSec, t.taiNs, t.taiFrac, t.taiRate, t.taiValid) = (s.gts, s.taiSec, s.taiNs, s.taiFrac, s.taiRate, s.taiValid) ∧
  t.dram = (if code = 5 then s.dram else []) ∧ t.cistern = [] ∧ t.boot.flash = s.boot.flash ∧ t.boot.board = s.boot.board ∧
  t.boot.hold = s.boot.hold ∧ t.rf Reg.bootStatus F.bootStatus_TAMPER = s.rf Reg.bootStatus F.bootStatus_TAMPER ∧
  t.rf Reg.bootStatus F.bootStatus_KEY_LOCKED = s.rf Reg.bootStatus F.bootStatus_KEY_LOCKED ∧
  t.sections = [] ∧ t.events = [] ∧ t.ctxs = [] ∧ t.claims = [] ∧ t.pages = [] ∧ t.staged = [] ∧ t.weir.jobs = [] ∧
  t.pending = s.pending ∧ ∀ k, (t.pair k).run = false)

/-- R680, R770, R521, R530: after POWER_ON nothing of the device stands but its board: the GTS counts from 0, TAI is not valid,
every clock waits for the root PLL, and the mode pins show in CHIP_MODE. Some of it rests on the model's choices, log entries
1, 9 and 33. -/
def Obligations.PowerOnStartsFromNothing : Prop := ∀ (s : State) (m : ModePins) (b : Option Board),
  Does (.powerOn m b) s fun t => t.gts = 0 ∧ t.taiValid = false ∧ t.clk = {} ∧ t.up = false ∧ t.dram = [] ∧ t.cistern = [] ∧
    t.sections = [] ∧ t.events = [] ∧ t.ctxs = [] ∧ t.pairs = [] ∧ t.integ = {} ∧ t.boot.starting = true ∧ t.boot.hold = false ∧
    t.rf Reg.bootCause F.bootCause_CAUSE = 1 ∧ t.rf Reg.chipMode F.chipMode_BOOT_SRC = m.bootSrc % 4 ∧
    (t.rf Reg.chipMode F.chipMode_TEST_EN = 1 ↔ m.testEn = true) ∧ (t.legacy = true ↔ m.legacy = true) ∧
    (b = none → t.boot.board = s.boot.board ∧ t.boot.flash = s.boot.flash) ∧
    (∀ x, b = some x → t.boot.board = { x with flash := [] } ∧
      (x.flash.Pairwise (fun p q => p.1 ≠ q.1) → ∀ e ∈ x.flash, Mem.rd t.boot.flash e.1 = e.2))

/-- R725, R726, R733 to R736: REF_CLK is judged good after three windows that agree, and not before; the root PLL locks to a good
reference and the fabric clock starts; a relock after a loss advances the GTS by the gap and counts it. R728 to R732: a lost
recovered reference leaves the root in holdover; a transfer takes REF_CLK while it is good, counts, and warns by detector 7;
REVERT goes back to the recovered reference after 10 s. Some of it rests on the model's choices, log entries 34, 56 and 69. -/
def Obligations.TheRootPllLocksAndTransfers : Prop :=
  (∀ (s : State) (d : Int) (a b : Int) (g : Nat),
  (s.clk.shutdown = false → s.clk.standby = false → s.clk.src = .judging →
    (200000 < d.natAbs → Does (.refJudgeWindow false d) s fun t => t = { s with clk := { s.clk with refClk := {} } }) ∧
    (d.natAbs ≤ 200000 → s.clk.refClk = {} → Does (.refJudgeWindow false d) s fun t =>
      t = { s with clk := { s.clk with refClk := { counts := [d] } } }) ∧
    (d.natAbs ≤ 200000 → s.clk.refClk = { counts := [a, b] } → (d - a).natAbs ≤ 10000 → (d - b).natAbs ≤ 10000 →
      (a - b).natAbs ≤ 10000 → Does (.refJudgeWindow false d) s fun t =>
        t = { s with clk := { s.clk with refClk := { counts := [d, a, b], good := true, since := s.gts } } })) ∧
  (s.clk.refClk.good = true → s.clk.shutdown = false → s.clk.standby = false →
    (s.clk.locked = false → s.clk.gated = false →
      exec .rootPllLock s = .next ({ s with clk := { s.clk with locked := true, src := .refClk } } : State).bootGoes) ∧
    (s.clk.gated = true → s.boot.starting = false → s.boot.hold = false →
      Does (.rootRelock g) s fun t => t.gts = s.gts + 1000 * g ∧ t.up = true ∧ t.clk.src = .refClk ∧
        t.rn Reg.clkGapLast = g % 2 ^ 32 ∧ t.rn Reg.clkGapCount = (s.rn Reg.clkGapCount + 1) % 2 ^ 32 ∧
        ((∀ j ∈ s.weir.jobs, j.cancelAt = none) → sameMem s t))) ∧
  (s.clk.refClk.good = false → exec .rootPllLock s = .next s ∧ exec (.rootRelock g) s = .next s)) ∧
  (∀ (s : State), s.up = true →
  (s.clk.src = .recovered → s.clk.recov.good = true →
    Does .recoveredRefLoss s fun t => t = { s with clk := { s.clk with recov := {}, src := .holdover } }) ∧
  (s.clk.src = .holdover → s.clk.refClk.good = true → Does .refTransfer s fun t => t.clk.src = .refClk ∧
    t.clk.transfers = (s.clk.transfers + 1) % 65536 ∧ sameRegs s t [Reg.detCount 7, Reg.detLast 7] ∧ t.gts = s.gts) ∧
  (s.clk.src = .refClk → s.clk.recovWanted = true → s.clk.recov.good = true → s.refSrcCfg = 1 →
    Does .refTransfer s fun t => t.clk.src = .recovered ∧ t.clk.recovWanted = false ∧
      t.clk.transfers = (s.clk.transfers + 1) % 65536) ∧
  (s.clk.src = .refClk → s.rf Reg.clkRefCfg F.clkRefCfg_REVERT = 1 → s.refSrcCfg = 1 → s.clk.recov.good = true →
    (s.clk.recov.since + 10000000000 ≤ s.gts → Does .refRevert s fun t => t.clk.src = .recovered ∧ t.gts = s.gts) ∧
    (s.gts < s.clk.recov.since + 10000000000 → exec .refRevert s = .next s)))

/-- R685, R687, R689, R701, R702, R718, R719: a go for an image that passes the ROM's checks starts it and one that fails ends in
BOOT_FAIL; READY follows the training of DRAM, whose results a cold training stores; the key confirms a trial in time. Some of it rests on the model's choices, log
entries 10, 64, 67, 93 and 96. -/
def Obligations.TheBootGoesItsWay : Prop := ∀ (s : State) (v : W32) (tr : Training) (t0 : Nat), s.up = true →
  let cold := !s.boot.wake && (tr.retrained || !s.storedTraining tr.part)
  (s.rf Reg.bootStatus F.bootStatus_STATE = 6 → exec (.bootPcieGo 1) s = .next (
    if s.sramCheck.1 = 0 then s.sramCheck.2.acceptImage 0 false
    else (s.sramCheck.2.wf Reg.bootStatus F.bootStatus_FAIL s.sramCheck.1).bootFail)) ∧
  (s.rf Reg.bootStatus F.bootStatus_STATE = 6 → s.sramCheck.1 ≠ 0 → s.sramCheck.1 < 16 →
    Does (.bootPcieGo 1) s fun t => t.rf Reg.bootStatus F.bootStatus_STATE = 3 ∧
      t.rf Reg.bootStatus F.bootStatus_FAIL = s.sramCheck.1 ∧ ∀ k, (t.pair k).run = false) ∧
  (v ≠ 1 → exec (.bootPcieGo v) s = .next s) ∧
  (s.readyDue = true →
    (Does (.bootReady tr false) s fun t => t.rf Reg.bootStatus F.bootStatus_STATE = 3 ∧ ∀ k, (t.pair k).run = false) ∧
    (s.fwp.taken = [] → s.fwp.req.waiting = 0 → Does (.bootReady tr true) s fun t => t.rf Reg.bootStatus F.bootStatus_STATE = 2 ∧
      t.rf Reg.bootStatus F.bootStatus_READY = 1 ∧ t.rf Reg.bootStatus F.bootStatus_COLD_TRAINED = b2n cold ∧
      t.boot.board = (if cold = true then (s.storeTraining tr.part).boot.board else s.boot.board) ∧ t.pcieUp = true ∧ t.rn Reg.ddrUsable = s.boot.board.usable % 2 ^ 32 ∧
      t.rn Reg.bootTReady = s.gts / 1000 % 2 ^ 32 ∧ sameMem s t)) ∧
  (s.boot.trialEnd = some t0 → s.gts < t0 → s.fwUp 0 = false →
    Does (.bootConfirm 0x0C0FF3F0#32) s fun t => t.boot.trialEnd = none ∧ t.boot.confirming = true ∧
      t.rf Reg.bootStatus F.bootStatus_CONFIRM = 1 ∧ sameRegs s t [Reg.bootStatus]) ∧
  (v ≠ 0x0C0FF3F0#32 → Does (.bootConfirm v) s fun t => t.rf Reg.intStatus F.intStatus_TWIN_WRITE = 1 ∧
    sameRegs s t [Reg.intStatus] ∧ ∃ x, t = { s with live := x })

/-- R693, R706, R709, R507: STANDBY answers and turns everything but the always-on domain off; a link that goes down breaks the
Gates of the PCIe host, and no other. Some of it rests on the model's choices, log entries 10, 17, 78 and 134. -/
def Obligations.StandbyAndTheLinkGoDown : Prop := ∀ (s : State) (r : FwReq),
  (s.serves 0x56 4 r →
    let u := s.fwPump
    let t : State := { u with clk := { u.clk with standby := true, selfRefresh := true },
                              boot := { u.boot with wakeAt := r.a0, tamperWake := false }, pcieUp := false,
                              pairs := u.pairs.map fun e => (e.1, { e.2 with run := false, fresh := false }) }
    exec .standby s = .next (t.reply r Rs.ok none) ∧ t.up = false ∧ ∀ k, (t.pair k).run = false) ∧
  (s.up = true → Does .pcieLinkDown s fun t => t.pcieUp = false ∧ sameMem s t ∧ ∀ n < 64,
    (s.rf (Reg.gateState n) F.gateState_LOCKED = 1 ∧ s.gateOwner n = 0x4000 →
      t.rf (Reg.gateState n) F.gateState_LOCKED = 0 ∧ t.rf (Reg.gateState n) F.gateState_BROKEN = 1) ∧
    (¬(s.rf (Reg.gateState n) F.gateState_LOCKED = 1 ∧ s.gateOwner n = 0x4000) →
      t.rd (Reg.gateState n) = s.rd (Reg.gateState n)))

/-- R712 to R717, R705, R710, R711: a processor that needs a restart stops, the restart that has waited longest is performed, the
fifth within 10 s leaves it failed, and it writes its log records with their numbers. Some of it rests on the model's choices,
log entries 6, 10, 72 and 73. -/
def Obligations.FirmwareProcessorsRestartAndLog : Prop := ∀ (s w : State) (p c l pt a b d : Nat) (rest : List (Nat × Nat)),
  s.up = true →
  (p ≤ 4 → s.fwUp p = true → s.fwp.waiting = [] → p ≠ 0 → s.fwUp 0 = false →
    (Does (.fwProcessorRestart p 3) s fun t => t.rf (Reg.fwpState p) F.fwpState_STATE = Fw.restarting ∧
      t.fwp.waiting = [(p, 3)] ∧ sameRegs s t [Reg.fwpState p] ∧ sameMem s t) ∧
    (Does (.fwProcessorRestart p 2) s fun t => t.rf (Reg.fwpState p) F.fwpState_STATE = Fw.restarting ∧
      t.fwp.waiting = [(p, 2)] ∧ sameMem s t ∧
      sameRegs s t [Reg.fwpState p, Reg.detCount 1, Reg.detLast 1, Reg.intUeLo, Reg.intUeHi])) ∧
  (p ≤ 4 → c ≠ 2 → c ≠ 3 → s.fwp.waiting = (p, c) :: rest → p = 0 ∨ s.fwUp 0 = true →
    7 ∉ s.integ.stopped →
    exec (.fwProcessorRestart p c) s = .next (({ s with fwp := { s.fwp with waiting := rest } } : State).fwRestart p c)) ∧
  (p ≤ 4 → 4 ≤ (s.recentRestarts p).length → s.fwp.taken = [] →
    (s.fwRestart p c).rf (Reg.fwpState p) F.fwpState_STATE = Fw.failed ∧
    (s.fwRestart p c).rd (Reg.fwpRstCount p) = s.rd (Reg.fwpRstCount p)) ∧
  (s.logReady = true → s.fwp.early = [] → p ≤ 4 → s.fwUp p = true → l ≤ 3 →
    l ≤ bitsOf (s.rf Reg.fwpTraceMask F.fwpTraceMask_LEVEL) (2 * p + 1) (2 * p) →
    s.vwrite { tag := 0x600 + p } (s.logVa + 32 * (s.rn Reg.fwpLogCount % 2 ^ s.logLog2))
      (leBytes s.gts 8 ++ leBytes p 1 ++ leBytes l 1 ++ leBytes 0 2 ++ leBytes pt 4 ++ leBytes a 4 ++ leBytes b 4 ++ leBytes d 4 ++
        leBytes (s.rn Reg.fwpLogCount + 1) 4) = (true, w) →
    exec (.fwLogWrite p l pt a b d) s = .next (w.wn Reg.fwpLogCount (s.rn Reg.fwpLogCount + 1)))

/-- R427 to R429, R760, R761: a maintenance window is requested, starts once its test passes, and ends 40 µs later, a complete
training where no channel fails; a failed eye check asks for another a millisecond later. Some of it rests on the model's
choices, log entries 37 and 102. -/
def Obligations.MaintenanceWindowsAreHeld : Prop := ∀ (s : State) (t0 k : Nat), s.up = true →
  exec .maintWindowRequest s = .next { s with weir := { s.weir with maintPending := true } } ∧
  (s.weir.maintPending = true → s.weir.maintStart = none → (∀ j ∈ s.guarJobs, j.twinOk = true) →
    (s.maintFits = true → Does .maintWindowTest s fun t => t.weir = { s.weir with maintPending := false, maintStart := some s.gts } ∧
      sameRegs s t [Reg.weirMaint] ∧ sameMem s t) ∧
    (s.maintFits = false → exec .maintWindowTest s = .next s)) ∧
  (s.weir.maintStart = some t0 →
    (s.gts < t0 + 40000 → exec (.maintWindowEnd k) s = .next s.settle) ∧
    (t0 + 40000 ≤ s.gts → ∃ u : State, exec (.maintWindowEnd k) s = .next u.settle ∧ u.weir.maintStart = none ∧
      u.rf Reg.powerDdrTrain F.powerDdrTrain_FAIL_CH = k % 256 ∧ sameMem s u ∧ sameRegs s u [Reg.powerDdrTrain] ∧
      (k % 256 = 0 → u.rf Reg.powerDdrTrain F.powerDdrTrain_TRAIN_TEMP = wrapN 16 (phyTemp s.pwr.sensors)) ∧
      (k % 256 ≠ 0 → u.pwr.retrainAt = some (s.gts + 1000000)))) ∧
  (s.pwr.retrainAt = some t0 → t0 ≤ s.gts → s.fwUp 4 = true →
    exec .ddrEyeFailRetry s =
      .next { s with pwr := { s.pwr with retrainAt := none }, weir := { s.weir with maintPending := true } })

/-- R754, R755, R756: every 10 µs the 24 sensors are read and the junction shows; two readings at 115 °C trip and raise cause bit
1; two readings at 125 °C shut the device down, with every pair at stop and the link down. Some of it rests on the model's
choices, log entries 36 and 70. -/
def Obligations.TheTemperatureIsWatched : Prop := ∀ (s : State) (l : List Int), s.up = true → l.length = 24 → s.pwr.readAt = none →
  s.injArmed 0x17 0 5 (s.rf (injBase 0x17 0 + 4) F.inj_TARGET) = false →
  (Does (.thermalReading l) s fun t => t.pwr.sensors = l ∧ t.pwr.prev = s.pwr.sensors ∧ t.pwr.readAt = some s.gts ∧
    t.rf Reg.powerTemp F.powerTemp_JUNCTION = wrapN 16 (junction l) ∧ sameMem s t) ∧
  ((∃ x ∈ l.zip s.pwr.sensors, 460 ≤ x.1 ∧ 460 ≤ x.2) → s.pwr.trip = false →
    Does (.thermalReading l) s fun t => t.pwr.trip = true ∧
      ∀ k < 4, (s.pair k).mask.testBit 1 = true → (t.rd (Reg.safeCause k)).getLsbD 1 = true) ∧
  ((∃ x ∈ l.zip s.pwr.sensors, 500 ≤ x.1 ∧ 500 ≤ x.2) →
    Does (.thermalReading l) s fun t => t.clk.shutdown = true ∧ t.up = false ∧ t.pcieUp = false ∧ ∀ k, (t.pair k).run = false)

/-- R670, R675: a watchdog that expires restarts its processor, the software watchdog drives cause bit 5 and starts its period
again, and a valid kick starts it too. Some of it rests on the model's choices, log entries 16 and 51. -/
def Obligations.WatchdogsExpire : Prop := ∀ (s : State) (p : Nat) (v : W32), s.up = true →
  (p < 5 → s.fwUp p = true → 7 ∉ s.integ.stopped → s.injArmed 0x17 0 6 p = false →
    (Does (.fwWatchdogExpiry p true) s fun t => t.fwState p = Fw.restarting ∧ t.fwp.waiting = s.fwp.waiting ++ [(p, 1)] ∧
      sameMem s t ∧ ∀ n < 5, n ≠ p → t.fwState n = s.fwState n) ∧
    exec (.fwWatchdogExpiry p false) s = .next s) ∧
  (0 < s.swPeriod → s.injArmed 0x17 0 6 5 = false →
    (s.integ.swKick + 1000 * s.swPeriod ≤ s.gts →
      Does .swWatchdogExpiry s fun t => t.integ.swKick = s.gts ∧ t.integ.swExpired = true ∧ sameMem s t ∧
        ∀ k < 4, (s.pair k).mask.testBit 5 = true → (t.rd (Reg.safeCause k)).getLsbD 5 = true ∧ (t.pair k).run = false) ∧
    (s.gts < s.integ.swKick + 1000 * s.swPeriod → exec .swWatchdogExpiry s = .next s)) ∧
  exec (.safeKick 0x5A3CA5C3#32) s = .next { s with integ := { s.integ with swKick := s.gts, swExpired := false } } ∧
  (v ≠ 0x5A3CA5C3#32 → exec (.safeKick v) s = .next (s.wf Reg.intStatus F.intStatus_TWIN_WRITE 1))

/-- R675 to R679, R107: a written cause clears where its condition holds and no other does; a qualified pair starts its alive
pattern at a millisecond of the GTS and not between; a software stop with good halves stops the pairs whose mask names it.
Some of it rests on the model's choices, log entries 51 and 78. -/
def Obligations.PairsStopAndReturn : Prop := ∀ (s : State) (tag k st : Nat) (v : W32), s.up = true →
  (k < 4 → Does (.safeCauseClear tag k v) s fun t => sameRegs s t (Reg.safeCause k :: errRegs) ∧ t.pairs = s.pairs ∧ sameMem s t ∧
    ∀ c, c < 14 ∨ 16 ≤ c ∧ c ≤ 24 → (t.rd (Reg.safeCause k)).getLsbD c = ((s.rd (Reg.safeCause k)).getLsbD c &&
      !(v.getLsbD c && s.causeClears k c && Table.get none (s.pair k).occAt c != some s.gts))) ∧
  (k < 4 → s.gts % 1000000 = 0 → s.qualified k = true → s.rf Reg.bootStatus F.bootStatus_STATE ≠ 3 →
    exec (.pairReturnToRun k) s = .next (s.setPair k { s.pair k with run := true, fresh := false })) ∧
  (k < 4 → s.gts % 1000000 ≠ 0 → exec (.pairReturnToRun k) s = .next s) ∧
  (st ≤ 15 → v.fld F.safeSwStop_STOP = st → v.fld F.safeSwStop_STOP_C = 15 - st →
    Does (.safeSwStopWrite tag v) s fun t => t.rf Reg.safeSwStop F.safeSwStop_STOP = st ∧
      t.rf Reg.safeSwStop F.safeSwStop_STOP_C = 15 - st ∧ sameMem s t ∧
      ∀ n < 4, st.testBit n = true → (s.pair n).mask.testBit 13 = true →
        (t.pair n).run = false ∧ (t.rd (Reg.safeCause n)).getLsbD 13 = true) ∧
  (v.fld F.safeSwStop_STOP_C + v.fld F.safeSwStop_STOP ≠ 15 →
    exec (.safeSwStopWrite tag v) s = .next (s.wf Reg.intStatus F.intStatus_TWIN_WRITE 1))

/-- R661, R663, R664: a mismatch of the SAFETY section's halves stops every pair and is latched; one of the CLOCKS section freezes
the sequencer; one of a pair's command path stops that pair. Some of it rests on the model's choices, log entries 16 and 76.
-/
def Obligations.TwinMismatchesAreActedOn : Prop := ∀ (s : State) (k : Nat), s.up = true → (∀ n, s.injArmed 0x17 0 0xC n = false) →
  (s.integ.safetyBad = false → Does (.safetyTwinMismatch .safetySection true) s fun t => t.integ.safetyBad = true ∧ sameMem s t ∧
    ∀ n < 4, (t.pair n).run = false) ∧
  (s.weir.clocksBad = false → ∃ u : State, exec (.safetyTwinMismatch .clocksSection true) s = .next u.settle ∧
    u.weir.clocksBad = true ∧ u.seqFrozen = true ∧ sameMem s u) ∧
  (k < 4 → Does (.safetyTwinMismatch (.pairCommand k) true) s fun t => (t.pair k).run = false ∧
    (t.rd (Reg.safeCause k)).getLsbD 6 = true ∧ sameMem s t) ∧
  (k < 4 → exec (.safetyTwinMismatch (.pairCommand k) false) s = .next s.settle)

/-- R665 to R668, R733, R759: a Yes row's clock that is further from nominal than its threshold begins the protective stop and
gates every clock; a rail outside its window begins it too or stops its domain, as its row says; the stop ends, and a domain
resumes, 100 µs after the finding. Some of it rests on the model's choices, log entries 16 and 75. -/
def Obligations.MonitorsActOnTheirRows : Prop := ∀ (s : State) (n : Nat) (x : Int), s.up = true →
  (n = 1 ∨ n = 2 ∨ n = 4 ∨ n = 8 → s.detOn 7 = true → s.injArmed 0x17 0 3 n = false → s.integ.clkOut.testBit n = false →
    s.clockOff x = true → Does (.clockMonFinding false n x false) s fun t => t.clk.gated = true ∧ t.clk.locked = false ∧ t.clk.src = .judging ∧
      t.integ.protective = true ∧ t.up = false) ∧
  (n = 0 ∨ n = 1 ∨ n = 4 → s.detOn 8 = true → s.injArmed 0x17 0 4 n = false → s.integ.railOut.testBit n = false →
    s.railOff n x = true → Does (.clockMonFinding true n x false) s fun t => t.integ.protective = true) ∧
  (n = 2 ∨ n = 3 ∨ n = 5 → s.detOn 8 = true → s.injArmed 0x17 0 4 n = false → s.integ.railOut.testBit n = false →
    s.railOff n x = true → Does (.clockMonFinding true n x false) s fun t => 16 + n ∈ t.integ.stopped ∧ t.integ.protective = s.integ.protective) ∧
  (s.integ.protective = true → s.yesInRange = true → s.integ.yesOk + 100000 ≤ s.gts →
    exec .protectiveStopEnd s = .next ({ s with integ := { s.integ with protective := false },
                                                weir := { s.weir with floorBreach := false } } : State).settle) ∧
  (n < 16 → n ∈ s.integ.stopped → s.rowOut n = false → Table.get 0 s.integ.cleared n + 100000 ≤ s.gts →
    exec (.domainResume false n) s = .next { s with integ := { s.integ with stopped := s.integ.stopped.erase n } })

/-- R635 to R638: the two keys in a row unlock an injection point where injections are allowed, an unlock that is not allowed is
reported, a write of the mode arms an unlocked point and locks it, and leaves a locked one alone. Some of it rests on the
model's choices, log entry 106. -/
def Obligations.InjectionPointsUnlockAndArm : Prop := ∀ (s : State) (tag b i : Nat) (v : W32), s.up = true → injPoint b i = true →
  ((s.inj b i).stage = 0 → Does (.injUnlock b i 0x5EED#32) s fun t => (t.inj b i).stage = 1 ∧ t.live = s.live ∧ sameMem s t) ∧
  ((s.inj b i).stage = 1 → s.injAllowed = true →
    Does (.injUnlock b i 0xFA11#32) s fun t => (t.inj b i).stage = 2 ∧ t.live = s.live ∧ sameMem s t) ∧
  ((s.inj b i).stage = 1 → s.injAllowed = false →
    Does (.injUnlock b i 0xFA11#32) s fun t => (t.inj b i).stage = 0 ∧ t.rf Reg.intStatus F.intStatus_INJ_REFUSED = 1 ∧
      sameRegs s t [Reg.intStatus]) ∧
  ((s.inj b i).stage = 1 → v ≠ 0xFA11#32 → v ≠ 0x5EED#32 →
    Does (.injUnlock b i v) s fun t => (t.inj b i).stage = 0 ∧ t.live = s.live) ∧
  ((s.inj b i).stage = 2 → s.injAllowed = true → Does (.injModeWrite tag b i v) s fun t => (t.inj b i).stage = 0 ∧
    (t.inj b i).count = 0 ∧ t.rf (injBase b i + 8) F.inj_ARM = v.fld F.inj_ARM ∧ t.rf (injBase b i + 8) F.inj_N = v.fld F.inj_N ∧
    (v.fld F.inj_ARM = 1 → t.rf (injBase b i + 12) F.inj_MADE = 0)) ∧
  ((s.inj b i).stage = 0 → v ≠ 0 → Does (.injModeWrite tag b i v) s fun t => t.live = s.live ∧ (t.inj b i).stage = 0)

/-- R657, R659, R706 to R708, R792, R630: the scan records a register whose parity fails, once; a loop that fails twice in a row
fires, and zeroises the keys; an errored TLP is counted by its detector. Some of it rests on the model's choices, log entries
16, 52 and 77. -/
def Obligations.ErrorsAreDetected : Prop := ∀ (s : State) (off : Nat), s.up = true → (∀ b < 28, ∀ i < 16, s.rf (injBase b i + 8) F.inj_ARM = 0) →
  (isConfig off = true → off ∉ s.integ.parBad → 9 ≤ off / 0x100000 → s.detOn 3 = true →
    ∃ u : State, exec (.parityScan [off] []) s = .next u.settle ∧ u.integ.parBad = s.integ.parBad ++ [off] ∧
      u.rn (Reg.detLast 3) = (Occ.detail ⟨3, Kind.occurrence, unitOf off, parIndex off, false⟩) % 2 ^ 32 ∧ sameMem s u ∧
      ∀ k < 4, (s.pair k).mask.testBit 10 = true → (u.rd (Reg.safeCause k)).getLsbD 10 = true) ∧
  (off ∈ s.integ.parBad → exec (.parityScan [off] []) s = .next s.settle) ∧
  (Table.get 0 s.integ.tamper 0 = 1 → Table.get 0 s.integ.tamper 2 = 1 → s.boot.starting = false →
    Does (.tamperSample false true) s fun t => t.rf Reg.bootStatus F.bootStatus_TAMPER = 1 ∧
      t.rf Reg.bootStatus F.bootStatus_KEY_LOCKED = 1 ∧ sameMem s t ∧
      ∀ k < 4, (s.pair k).mask.testBit 2 = true → (t.rd (Reg.safeCause k)).getLsbD 2 = true) ∧
  (s.integ.tamper = [] → Does (.tamperSample true true) s fun t => t = s) ∧
  (Does (.pcieAerError 2) s fun t => t.rn (Reg.detLast 6) = (Occ.detail ⟨6, Kind.uncorrectable, 0x11, 0, false⟩) % 2 ^ 32 ∧
    sameMem s t) ∧
  exec (.pcieAerError 0) s = .next s

/-- R527 to R529: a request makes its mailbox's capture pending and its VALID 0; the capture takes the GTS, TAI and every position
as they stand in one cycle. -/
def Obligations.SnapshotsTakeOneCycle : Prop := ∀ (s : State) (tag k : Nat) (v : W32), s.up = true → k < 4 →
  (v.fld F.clkSnapCtrl_REQ = 1 → Does (.snapshotRequest tag k v) s fun t => k ∈ t.snapPending ∧
    t.rf (Reg.clkSnapCtrl k) F.clkSnapCtrl_VALID = 0 ∧ sameRegs s t (Reg.clkSnapCtrl k :: errRegs) ∧ sameMem s t) ∧
  (k ∈ s.snapPending → Does (.snapshotCapture k) s fun t =>
    t.rn (Reg.snapGtsLo k) = s.gts % 2 ^ 32 ∧ t.rn (Reg.snapGtsHi k) = s.gts / 2 ^ 32 % 2 ^ 32 ∧
    t.rn (Reg.snapTaiNs k) = s.taiNs % 2 ^ 32 ∧ t.rn (Reg.snapTaiSLo k) = s.taiSec % 2 ^ 32 ∧
    (∀ n < 9, t.rn (Reg.snapPosLo k n) = (s.phase n).pos % 2 ^ 32 ∧ t.rn (Reg.snapPosHi k n) = (s.phase n).pos / 2 ^ 32 % 2 ^ 32) ∧
    t.rf (Reg.clkSnapCtrl k) F.clkSnapCtrl_VALID = 1 ∧ t.rf (Reg.clkSnapCtrl k) F.clkSnapCtrl_TAI_VALID = b2n s.taiValid ∧
    t.snapPending = s.snapPending.erase k ∧ sameMem s t) ∧
  (k ∉ s.snapPending → exec (.snapshotCapture k) s = .next s)

/-- R531 to R536: a write of TAI_WR_CTRL takes its operands as the pending operation, CANCEL discards it; the applying tick sets
TAI, adds to it or sets its rate, in the same cycle in which the GTS counts, once what the cycle before has left to its end is
done; a second rolls over. -/
def Obligations.TaiIsSteered : Prop := ∀ (s : State) (tag : Nat) (v : W32) (o : TaiOp), s.up = true →
  let taken := fun (t : State) (op : Nat) => t.taiOp = some
    { op := op, sec := s.rn Reg.taiWrSLo + s.rf Reg.taiWrSHi F.taiWrSHi_SECONDS * 2 ^ 32, ns := s.rf Reg.taiWrNs F.taiWrNs_NS,
      adj := s.rn Reg.taiWrAdj, onStrobe := v.fld F.taiWrCtrl_WHEN == 1, ready := !(v.fld F.taiWrCtrl_WHEN == 1) } ∧
    (s.taiOp.isSome = true → t.rf Reg.taiWrCtrl F.taiWrCtrl_REPLACED = 1) ∧ sameMem s t
  (v.fld F.taiWrCtrl_OP = 1 → Does (.taiSet tag v) s fun t => taken t 1) ∧
  (v.fld F.taiWrCtrl_OP = 2 → Does (.taiAdd tag v) s fun t => taken t 2) ∧
  (v.fld F.taiWrCtrl_OP = 3 → Does (.taiRate tag v) s fun t => taken t 3) ∧
  (v.fld F.taiWrCtrl_OP = 0 → Does (.taiCancel tag v) s fun t => t.taiOp = none ∧ sameMem s t) ∧
  let c := s.cycleEnd
  (s.taiReady = true → c.taiOp = some o → o.ready = true →
    (o.op = 1 → o.ns < 1000000000 → Does .taiOpApply s fun t => t.gts = c.gts + 1 ∧ t.taiSec = o.sec ∧ t.taiNs = o.ns ∧
      t.taiFrac = 0 ∧ t.taiValid = true ∧ t.taiOp = none ∧ sameMem c t) ∧
    (o.op = 1 → 1000000000 ≤ o.ns → Does .taiOpApply s fun t => t.gts = c.gts + 1 ∧ t.taiOp = none ∧
      (t.taiSec, t.taiNs, t.taiFrac) = c.taiNext ∧ t.rf Reg.taiWrCtrl F.taiWrCtrl_ERR = 1) ∧
    (let sum : Int := (c.taiNext.1 * 1000000000 + c.taiNext.2.1 : Nat) + sext 32 o.adj
     o.op = 2 → (0 ≤ sum → Does .taiOpApply s fun t => t.gts = c.gts + 1 ∧ t.taiSec = sum.toNat / 1000000000 % 2 ^ 48 ∧
        t.taiNs = sum.toNat % 1000000000 ∧ t.taiFrac = c.taiNext.2.2 ∧ t.taiOp = none) ∧
      (sum < 0 → Does .taiOpApply s fun t => (t.taiSec, t.taiNs, t.taiFrac) = c.taiNext ∧
        t.rf Reg.taiWrCtrl F.taiWrCtrl_ERR = 1)) ∧
    (o.op = 3 → (sext 32 o.adj).natAbs ≤ 4294967 → Does .taiOpApply s fun t => t.taiRate = sext 32 o.adj ∧
      (t.taiSec, t.taiNs, t.taiFrac) = c.taiNext ∧ t.gts = c.gts + 1)) ∧
  (s.rollsOver = true → c.taiReady = false → 1000000000 ≤ c.taiNs + ((c.taiFrac : Int) + 2 ^ 32 + c.taiRate).toNat / 2 ^ 32 →
    Does .taiRollover s fun t => t.taiSec = (c.taiSec + 1) % 2 ^ 48 ∧ t.gts = c.gts + 1 ∧ sameMem c t) ∧
  ((∀ j ∈ s.weir.jobs, j.cancelAt = none) → c = s)

/-- R537, R538, R824: an egress stamp queues behind those not yet read, sets OVERFLOW where 64 wait, and pops oldest first into
the mailbox; a one-step Sync carries its own stamp, but not over IPv6, and over IPv4 its checksum is cleared. -/
def Obligations.EthernetStampsAreKept : Prop := ∀ (s : State) (n ty dom seq tag : Nat) (v : W32) (x : Stamp) (q : List Stamp)
    (d : PtpSend), s.up = true → n < 6 →
  let now : Stamp := { sec := s.taiSec, ns := s.taiNs, seqId := seq, domain := dom, msgType := ty }
  (ty < 4 → Does (.ptpStamp n false d ty dom seq) s fun t => (t.port n).ingress = some now ∧
    (t.port n).queue = (s.port n).queue ∧ t.live = s.live ∧ sameMem s t) ∧
  (ty < 4 → (s.port n).queue.length < 64 → Does (.ptpStamp n true d ty dom seq) s fun t =>
    (t.port n).queue = (s.port n).queue ++ [now] ∧ t.live = s.live ∧ sameMem s t) ∧
  (ty < 4 → 64 ≤ (s.port n).queue.length → Does (.ptpStamp n true d ty dom seq) s fun t =>
    (t.port n).queue = (s.port n).queue ∧ t.rf (Reg.ethTsqCtrl n) F.ethTsqCtrl_OVERFLOW = 1) ∧
  (d.oneStep = true → d.transport ≠ 2 → Does (.ptpStamp n true d 0 dom seq) s fun t =>
    (t.port n).originTs = some { now with msgType := 0 } ∧ (t.port n).csumCleared = (d.transport == 1)) ∧
  (d.oneStep = false ∨ d.transport = 2 ∨ 0 < ty → ty < 4 → Does (.ptpStamp n true d ty dom seq) s fun t =>
    (t.port n).originTs = (s.port n).originTs ∧ (t.port n).csumCleared = (s.port n).csumCleared) ∧
  (v.fld F.ethTsqCtrl_POP = 1 → (s.port n).queue = x :: q → Does (.ethTsqPop tag n v) s fun t => (t.port n).queue = q ∧
    t.rf (Reg.ethTsqCtrl n) F.ethTsqCtrl_VALID = 1 ∧ t.rn (Reg.ethTsqNs n) = x.ns % 2 ^ 32 ∧
    t.rn (Reg.ethTsqSLo n) = x.sec % 2 ^ 32 ∧ sameMem s t) ∧
  (v.fld F.ethTsqCtrl_POP = 1 → (s.port n).queue = [] → Does (.ethTsqPop tag n v) s fun t =>
    t.rf (Reg.ethTsqCtrl n) F.ethTsqCtrl_VALID = 0)

/-- R552, R553, R555, R556, R558: a comparator's holder arms it at the target of its registers, once an old match of the cycle
has been made; a write of another claimant changes nothing; a match is counted with its GTS, disarms it or moves its target
past the present, and fires what it drives; one armed with its condition met matches no earlier than the next cycle. -/
def Obligations.ComparatorsArmAndMatch : Prop := ∀ (s : State) (n : Nat) (v : W32), s.up = true → n < 64 →
  let m := s.tcmpMatch n
  let p := s.pcmpMatch n
  (v.fld F.tcmpCtrl_ARM = 1 → v.fld F.tcmpCtrl_BASE = 0 → s.holds Cls.timeComp n (v.fld F.tcmpCtrl_CLAIMANT) = true →
    Does (.tcmpCtrlWrite n v) s fun t => (t.tc n).armed = true ∧ (t.tc n).base = 0 ∧
      (t.tc n).target = s.rn (Reg.tcmpT0 n) + m.rn (Reg.tcmpT1 n) * 2 ^ 32 ∧ (t.tc n).period = m.rn (Reg.tcmpPeriod n) ∧
      (t.tc n).armedAt = m.gts ∧
      t.rf (Reg.tcmpStatus n) F.tcmpStatus_MISSED = 0 ∧ sameRegs m t [Reg.tcmpStatus n] ∧ sameMem m t) ∧
  (s.holds Cls.timeComp n (v.fld F.tcmpCtrl_CLAIMANT) = false → exec (.tcmpCtrlWrite n v) s = .next s) ∧
  (v.fld F.pcmpCtrl_ARM = 0 → s.holds Cls.phaseComp n (v.fld F.pcmpCtrl_CLAIMANT) = true →
    Does (.pcmpCtrlWrite n v) s fun t => (t.pc n).armed = false ∧ t.live = p.live ∧ sameMem p t) ∧
  (v.fld F.pcmpCtrl_ARM = 1 → v.fld F.pcmpCtrl_DIR = 1 → v.fld F.pcmpCtrl_INPUT ≤ 8 → 0 ≤ sext 32 (s.rn (Reg.pcmpPitch n)) →
    s.holds Cls.phaseComp n (v.fld F.pcmpCtrl_CLAIMANT) = true →
    Does (.pcmpCtrlWrite n v) s fun t => (t.pc n).armed = true ∧ (t.pc n).dir = 1 ∧ (t.pc n).input = v.fld F.pcmpCtrl_INPUT ∧
      (t.pc n).target = p.rn (Reg.pcmpT0 n) + p.rf (Reg.pcmpT1 n) F.pcmpT1_VALUE * 2 ^ 32 ∧ sameRegs p t [Reg.pcmpStatus n]) ∧
  ((s.tc n).armed = true → s.timeMet (s.tc n) = true → (s.tc n).early s.gts = false → ∃ u : State,
    exec (.tcmpMatch n) s = .next (u.fireMatch Cls.timeComp n) ∧ u.rn (Reg.tcmpMatchGts n) = s.gts % 2 ^ 32 ∧
    u.rf (Reg.tcmpStatus n) F.tcmpStatus_MATCHES = (s.rf (Reg.tcmpStatus n) F.tcmpStatus_MATCHES + 1) % 2 ^ 16 ∧
    ((s.tc n).period = 0 → (u.tc n).armed = false) ∧
    (0 < (s.tc n).period → (u.tc n).armed = true ∧ s.baseTime (s.tc n).base < (u.tc n).target ∧
      (u.tc n).target ≤ s.baseTime (s.tc n).base + (s.tc n).period)) ∧
  ((s.tc n).armed = false ∨ s.timeMet (s.tc n) = false ∨ (s.tc n).early s.gts = true → exec (.tcmpMatch n) s = .next s) ∧
  ((s.pc n).armed = true → s.phaseMet (s.pc n) = true → (s.pc n).early s.gts = false → ∃ u : State,
    exec (.pcmpMatch n) s = .next (u.fireMatch Cls.phaseComp n) ∧ u.rn (Reg.pcmpMatchGts n) = s.gts % 2 ^ 32 ∧
    u.rf (Reg.pcmpStatus n) F.tcmpStatus_MATCHES = (s.rf (Reg.pcmpStatus n) F.tcmpStatus_MATCHES + 1) % 2 ^ 16 ∧
    ((s.pc n).period = 0 → (u.pc n).armed = false) ∧
    ((s.pc n).period ≠ 0 → (u.pc n).armed = true ∧ ∃ k, 0 < k ∧
      (u.pc n).target = wrapN 48 (((s.pc n).target : Int) + (k : Nat) * sext 32 (s.pc n).period))) ∧
  ((s.pc n).armed = false ∨ s.phaseMet (s.pc n) = false ∨ (s.pc n).early s.gts = true → exec (.pcmpMatch n) s = .next s)

/-- R559: a frame-sync output asserts at an edge of the I/O clock at least 10 ns after its match, counts its pulse, and stays active for WIDTH × 10 ns. Some
of it rests on the model's choices, log entry 11. -/
def Obligations.FrameSyncPulsesHaveTheirWidth : Prop := ∀ (s : State) (n m : Nat), s.up = true → n < 16 →
  ((s.fsync n).matched = some m →
    (m + 10 ≤ s.gts → s.gts % 10 = 0 → Does (.fsyncAssert n) s fun t => t.fsync n = { matched := none, asserted := some s.gts } ∧
      t.rf (Reg.fsyncStatus n) F.fsyncStatus_PULSES = (s.rf (Reg.fsyncStatus n) F.fsyncStatus_PULSES + 1) % 2 ^ 16 ∧
      sameRegs s t [Reg.fsyncStatus n] ∧ sameMem s t) ∧
    (s.gts < m + 10 ∨ s.gts % 10 ≠ 0 → exec (.fsyncAssert n) s = .next s)) ∧
  ((s.fsync n).asserted = some m →
    (m + 10 * max 1 (s.rf (Reg.fsyncCfg n) F.fsyncCfg_WIDTH) ≤ s.gts →
      exec (.fsyncDeassert n) s = .next (s.setFsync n { s.fsync n with asserted := none })) ∧
    (s.gts < m + 10 * max 1 (s.rf (Reg.fsyncCfg n) F.fsyncCfg_WIDTH) → exec (.fsyncDeassert n) s = .next s))

/-- R542 to R544, R546: a level is accepted once FILT + 1 samples of the I/O clock in a row agree, and a sample in between counts
nothing; an edge of A before B counts up in X4, both edges at once are an error, Z captures once until it is read, the rising
edge of a line pulse counts, and every mains edge counts outside its hold-off; DIR inverts the sign. Some of it rests on the
model's choices, log entries 39 and 144. -/
def Obligations.PhaseInputsCount : Prop := ∀ (s : State) (n t0 : Nat) (a b : Bool), s.up = true →
  let x := s.phase n
  let y := s.phase 8
  let dir := fun n (d : Int) => if s.rf (Reg.phaseCfg n) F.phaseCfg_DIR = 1 then -d else d
  let due := fun (last : Option Nat) => s.gts % 10 = 0 ∧ last ≠ some s.gts
  let full := fun n (last : Option Nat) (run : Nat) => s.filtLen n ≤ s.runAt last run + 1
  let on := fun n => s.phaseWired n = true ∧ s.phaseOn n = true
  (n < 4 → on n → due x.sampled → s.rf (Reg.phaseCfg n) F.phaseCfg_QMODE = 2 → x.a = a → x.b = b →
    (full n x.sampled x.fa → ∃ u : State, exec (.quadEdge n (!a) b) s = .next u.settle ∧
      (u.phase n).pos = wrapN 48 (x.pos + dir n (if a = b then 1 else -1)) ∧ (u.phase n).a = !a ∧ u.live = s.live ∧ sameMem s u) ∧
    (¬full n x.sampled x.fa → ∃ u : State, exec (.quadEdge n (!a) b) s = .next u.settle ∧
      (u.phase n).pos = x.pos ∧ (u.phase n).a = a ∧ (u.phase n).fa = s.runAt x.sampled x.fa + 1 ∧ u.live = s.live ∧ sameMem s u)) ∧
  (n < 4 → on n → due x.sampled → full n x.sampled x.fa → full n x.sampled x.fb → x.a = a → x.b = b →
    s.rf (Reg.phaseStatus n) F.phaseStatus_OVERSPEED = 1 → s.rf (Reg.phaseErrcnt n) F.phaseErrcnt_QERR < 65535 →
    Does (.quadEdge n (!a) (!b)) s fun t => (t.phase n).pos = x.pos ∧
      t.rf (Reg.phaseErrcnt n) F.phaseErrcnt_QERR = s.rf (Reg.phaseErrcnt n) F.phaseErrcnt_QERR + 1) ∧
  (n < 4 → s.phaseWired n = true → ¬due x.sampled → exec (.quadEdge n a b) s = .next s.settle) ∧
  (n < 4 → s.phaseWired n = false → exec (.quadEdge n a b) s = .next s) ∧
  (n < 4 → on n → due x.zSampled → full n x.zSampled x.fz → x.z = false →
    (s.rf (Reg.phaseZcapHi n) F.phaseZcapHi_VALID = 0 → Does (.zCapture n true) s fun t =>
      t.rn (Reg.phaseZcapLo n) = x.pos % 2 ^ 32 ∧ t.rf (Reg.phaseZcapHi n) F.phaseZcapHi_VALID = 1 ∧
      t.rf (Reg.phaseZcapHi n) F.phaseZcapHi_POS_HI = x.pos / 2 ^ 32 % 2 ^ 16) ∧
    (s.rf (Reg.phaseZcapHi n) F.phaseZcapHi_VALID = 1 → Does (.zCapture n true) s fun t => t.live = s.live)) ∧
  (n = 6 ∨ n = 7 → on n → due x.sampled → full n x.sampled x.fl →
    (x.level = false → Does (.linePulse n) s fun t => (t.phase n).pos = wrapN 48 (x.pos + dir n 1) ∧ (t.phase n).level = true ∧
      t.live = s.live) ∧
    (x.level = true → Does (.linePulse n) s fun t => (t.phase n).pos = x.pos ∧ (t.phase n).level = false ∧ t.live = s.live)) ∧
  (on 8 → due y.sampled → full 8 y.sampled y.fl → y.lastMains = some t0 →
    (t0 + 1000 * s.rf (Reg.phaseCfg 8) F.phaseCfg_HOLDOFF_US ≤ s.gts → Does .mainsEdge s fun t =>
      (t.phase 8).pos = wrapN 48 (y.pos + dir 8 1) ∧ (t.phase 8).lastMains = some s.gts ∧ (t.phase 8).level = !y.level ∧ t.live = s.live) ∧
    (s.gts < t0 + 1000 * s.rf (Reg.phaseCfg 8) F.phaseCfg_HOLDOFF_US → Does .mainsEdge s fun t =>
      (t.phase 8).pos = y.pos ∧ (t.phase 8).lastMains = some t0 ∧ (t.phase 8).level = !y.level ∧ t.live = s.live))

/-- R545, R549 to R551: an SSI frame that ends well moves its position by the difference of the values; an input without a good
frame, or faster than its bound, latches OVERSPEED with its reason and raises its cause; the latch clears once no reason has
held for a window. Some of it rests on the model's choices, log entry 39. -/
def Obligations.OverspeedIsLatched : Prop := ∀ (s : State) (tag n t0 raw : Nat) (v : W32), s.up = true →
  let latched := fun (u : State) (reason : Nat) => u.rf (Reg.phaseStatus n) F.phaseStatus_OVERSPEED = 1 ∧
    u.rf (Reg.phaseStatus n) F.phaseStatus_REASON = reason ∧
    ∀ k < 4, (s.pair k).mask.testBit (16 + n) = true → (u.rd (Reg.safeCause k)).getLsbD (16 + n) = true
  let free := s.rf (Reg.phaseStatus n) F.phaseStatus_OVERSPEED = 0
  (n = 4 ∨ n = 5 → s.phaseOn n = true →
    ((s.phase n).lastStart = none → Does (.ssiFrameStart n) s fun t => (t.phase n).frameStart = some s.gts ∧
      (t.phase n).lastStart = some s.gts ∧ (t.phase n).pos = (s.phase n).pos ∧ t.live = s.live) ∧
    ((s.phase n).frameStart = some t0 → (s.phase n).gotFirst = false → s.phaseWired n = true →
      s.rf (Reg.phaseSsi n) F.phaseSsi_GRAY = 0 → ∃ u : State, exec (.ssiFrameEnd n raw false false) s = .next u.settle ∧
        (u.phase n).pos = raw % 2 ^ (s.rf (Reg.phaseSsi n) F.phaseSsi_BITS + 1) ∧ (u.phase n).sampleGts = t0 ∧
        (u.phase n).badRun = 0 ∧ u.live = s.live) ∧
    ((s.phase n).frameStart = some t0 → (s.phase n).badRun = 0 → ∃ u : State,
      exec (.ssiFrameEnd n raw true false) s = .next u.settle ∧ (u.phase n).badRun = 1 ∧ (u.phase n).pos = (s.phase n).pos) ∧
    (s.ssiStaleAt n < s.gts → free →
      ∃ u : State, exec (.ssiStale n) s = .next (u.overspeedJobs n).settle ∧ latched u 4) ∧
    (s.gts ≤ s.ssiStaleAt n → exec (.ssiStale n) s = .next s.settle)) ∧
  (s.gts % 1000 = 0 → exec .velocityEval s = .next ((List.range 9).foldl State.evalInput s).settle) ∧
  (s.phaseOn n = false → s.evalInput n = s) ∧
  (s.phaseOn n = true → s.injArmed 0x13 0 1 n = false →
    (s.phaseLimit n < s.phaseD n → free → ∃ u : State, s.evalInput n = u.overspeedJobs n ∧ latched u 1) ∧
    (s.phaseD n ≤ s.phaseLimit n → sameRegs s (s.evalInput n) [Reg.phaseStatus n] ∧
      (s.evalInput n).rf (Reg.phaseStatus n) F.phaseStatus_LAST_D = min (s.phaseD n) 65535)) ∧
  (s.gts % 1000 ≠ 0 → exec .velocityEval s = .next s.settle) ∧
  (n < 9 → v.fld F.phaseStatus_OVERSPEED = 1 → s.rf (Reg.phaseStatus n) F.phaseStatus_OVERSPEED = 1 →
    (s.reasonNow n = false → (s.phase n).reasonGts + s.phaseWindow n ≤ s.gts → Does (.overspeedClear tag n v) s fun t =>
      t.rf (Reg.phaseStatus n) F.phaseStatus_OVERSPEED = 0 ∧ t.rf (Reg.phaseStatus n) F.phaseStatus_REASON = 0 ∧
      sameRegs s t (Reg.phaseStatus n :: errRegs)) ∧
    (s.reasonNow n = true → Does (.overspeedClear tag n v) s fun t =>
      t.rf (Reg.phaseStatus n) F.phaseStatus_OVERSPEED = 1))

/-- R814 to R819, R784: a WRITE-triggered group that is fired applies its blocks' staged values, a group with another trigger is
marked ignored, and a drop discards staged values; a pin group's new function takes its balls 40 ns after the park. Some of it
rests on the model's choices, log entries 30, 47 and 49. -/
def Obligations.StrobesFireAndDrop : Prop := ∀ (s : State) (g off t0 : Nat) (x w : W32) (c : Bool), s.up = true →
  (1 ≤ g → g < 16 → s.writeTrigger g = true → exec (.chipStrobeFire (BitVec.ofNat 32 (2 ^ g))) s = .next (s.fire g)) ∧
  (1 ≤ g → g < 16 → s.writeTrigger g = false → Does (.chipStrobeFire (BitVec.ofNat 32 (2 ^ g))) s fun t =>
    (t.rd Reg.chipStrobeIgn).getLsbD g = true ∧ sameRegs s t [Reg.chipStrobeIgn] ∧ t.staged = s.staged) ∧
  (let b := s.bump (Reg.chipStrobeCount g) F.chipStrobeCount_FIRES
   s.staged = [(off, some x)] → s.groupOf (unitOf off) = g → s.integ.stagedBad = [] → b.weirRefused off = false →
    off ≠ Reg.pcieCfg → pinOf off = none → phaseOf off = none →
    s.fire g = (((b.wr off (b.result off)).unstage off).applied off (b.rd off)).taiStrobe g) ∧
  (1 ≤ g → g < 16 → s.staged = [(off, some x)] → s.groupOf (unitOf off) = g →
    Does (.chipStrobeDrop (BitVec.ofNat 32 (2 ^ g))) s fun t => t.staged = [] ∧ t.live = s.live) ∧
  (g < 25 → (s.pinGroup g).due = some (w, 0) → pinCtrl (s.pinFn g) = false → pinCtrl (w.fld F.pmxCfg_FUNCTION) = false →
    Does (.pmxSwitchApply g c) s fun t => t.rd (Reg.pmxCfg g) = w ∧ t.pinGroup g = { switchAt := some s.gts } ∧
      sameRegs s t [Reg.pmxCfg g] ∧ sameMem s t) ∧
  (g < 25 → (s.pinGroup g).due = some (w, 1) → Does (.pmxSwitchApply g c) s fun t => (t.pinGroup g).due = none ∧
    t.rf Reg.pmxStatus F.pmxStatus_NOT_IDLE = 1 ∧ t.rf Reg.pmxStatus F.pmxStatus_LAST_GROUP = g ∧
    sameRegs s t [Reg.pmxStatus]) ∧
  (g < 25 → (s.pinGroup g).switchAt = some t0 →
    ((t0 + 9) / 10 * 10 + 40 ≤ s.gts → exec (.pmxSwitchDone g) s = .next (s.setPinGroup g { s.pinGroup g with switchAt := none })) ∧
    (s.gts < (t0 + 9) / 10 * 10 + 40 → exec (.pmxSwitchDone g) s = .next s))

/-- R575, R580, R584 to R586, R596: a frame start in WAIT_FS reads the stream's entry and opens the next frame in its slot, one
while STOPPED is kept for RESTART; a complete frame that ends has its record due; a stream without a frame start for
TIMEOUT_US loses its link. Some of it rests on the model's choices, log entry 50. -/
def Obligations.FramesBeginAndEnd : Prop := ∀ (s u : State) (p vc fn t0 : Nat) (e : List Byte) (f : FrameS),
  let n := 4 * p + vc
  let x := s.stream n
  s.up = true → p < 16 → vc < 4 → s.portOn p = true → s.streamOn n = true →
  (s.streamSt n = 1 → x.cur = none → s.inlinePipe n = none → s.readEnt (s.pipeWho n) n = (some e, u) → Ent.pipe e = false →
    s.slotFree n x.begun (Ent.ringLog2 e) = true →
    Does (.csiFrameStart p vc fn 0) s fun t => (t.stream n).begun = x.begun + 1 ∧ t.streamSt n = 2 ∧ sameMem s t ∧
      ∃ g, (t.stream n).cur = some g ∧ g.stream = n ∧ g.frame = x.begun ∧ g.slot = x.begun % 2 ^ Ent.ringLog2 e ∧
        g.fsGts = s.gts ∧ g.csiFn = fn % 65536 ∧ g.ent = e ∧ g.marks = 0) ∧
  (s.streamSt n = 3 → x.cur = none →
    exec (.csiFrameStart p vc fn 0) s = .next (s.setStream n { x with lateFs := some (s.gts, fn) })) ∧
  (s.streamSt n = 2 → x.cur = some f → f.stream = n → Ent.height f.ent ≤ f.got → s.inlinePipe n = none → Ent.pipe f.ent = false →
    Does (.csiFrameEnd p vc 0) s fun t => t.streamSt n = 1 ∧ (t.stream n).cur = none ∧ sameMem s t ∧
      ∃ g, (t.stream n).ready = x.ready ++ [g] ∧ g.frame = f.frame ∧ g.slot = f.slot ∧ g.marks = f.marks ∧ g.doneGts = s.gts) ∧
  (s.streamSt n = 1 → x.cur = none → Ent.timeoutUs x.ent = t0 → t0 ≠ 0 → s.stops n = false →
    (x.since + 1000 * t0 ≤ s.gts → exec (.streamTimeout n) s = .next (s.setStreamSt n 4)) ∧
    (s.gts < x.since + 1000 * t0 → exec (.streamTimeout n) s = .next s))

/-- R581, R583, R585, R586, R594, R580: the oldest record that is due is written at its place and its vector signalled; released
frames and tuning selections are kept as they stood before their cycle; RESTART takes a stopped stream to WAIT_FS. Some of it
rests on the model's choices, log entries 32 and 50. -/
def Obligations.StreamsAreRecordedAndReleased : Prop := ∀ (s w : State) (tag n p : Nat) (v : W32) (f : FrameS) (l : List FrameS),
  s.up = true →
  (n < 64 → s.dramServes = true → (s.stream n).ready = f :: l →
    let u := s.setStream n { s.stream n with ready := l, recs := (s.stream n).recs + 1 }
    u.vwrite (s.pipeWho n) (Ent.recVa f.ent + 64 * ((s.stream n).recs % 2 ^ Ent.recLog2 f.ent))
      (f.record ((s.stream n).recs + 1)) = (true, w) →
    exec (.frameRecord n) s = .next (w.signal (Ent.vector f.ent)) ∧ (w.stream n).ready = l ∧
      (w.stream n).recs = (s.stream n).recs + 1) ∧
  (n < 128 → (s.stream n).ready = [] ∨ s.dramServes = false → exec (.frameRecord n) s = .next s) ∧
  (n < 64 → Does (.csiVcRelWrite tag n v) s fun t => (t.stream n).relOld = s.released n ∧ (t.stream n).relAt = some s.gts ∧
    t.rf (Reg.csiVcRel (n / 4) (n % 4)) F.csiVcRel_RELEASED = v.fld F.csiVcRel_RELEASED ∧
    sameRegs s t (Reg.csiVcRel (n / 4) (n % 4) :: errRegs) ∧ sameMem s t) ∧
  (64 ≤ n → n < 128 → Does (.csiVcRelWrite tag n v) s fun t => (t.stream n).rel = v.toNat % 65536 ∧ t.live = s.live) ∧
  (p < 4 → Does (.pipeTuneSelWrite tag p v) s fun t => (t.pipe p).selOld = s.tuneSel p ∧ (t.pipe p).selAt = some s.gts ∧
    t.rf (Reg.pipeTuneSel p) F.pipeTuneSel_SEL = v.fld F.pipeTuneSel_SEL ∧ sameRegs s t (Reg.pipeTuneSel p :: errRegs)) ∧
  (n < 64 → v.fld F.csiVcCtrl_RESTART = 1 → s.streamSt n = 3 → (s.stream n).lateFs = none →
    Does (.csiRestart tag (n / 4) (n % 4) v) s fun t => t.streamSt n = 1 ∧ (t.stream n).since = s.gts ∧ sameMem s t) ∧
  (n < 64 → v.fld F.csiVcCtrl_RESTART = 0 → Does (.csiRestart tag (n / 4) (n % 4) v) s fun t =>
    t.streamSt n = s.streamSt n ∧ t.streams = s.streams)

/-- R569, R574, R575, R596 to R598: a sound line of an open frame is counted, one of a channel that is not enabled or of another
data type is not used; a port whose link goes down takes its running streams with it, and its return lets them wait for a
frame start. Some of it rests on the model's choices, log entry 31. -/
def Obligations.LinesAndLinks : Prop := ∀ (s : State) (p vc dt : Nat) (d : List Byte) (f : FrameS) (ans : List Nat) (r : FwReq),
  let n := 4 * p + vc
  s.up = true → p < 16 → vc < 4 →
  (s.portOn p = true → s.injArmed 0xE 0 1 n = false → s.injArmed 0xE 0 2 n = false →
    (s.streamOn n = false → exec (.csiLine p vc false dt 0 true d) s =
      .next (s.bumpSat (Reg.csiPortErr p) F.csiPortErr_VC_OTHER)) ∧
    (s.streamOn n = true → dt ≠ Ent.dt (s.stream n).ent → (s.stream n).cur = none →
      exec (.csiLine p vc false dt 0 true d) s = .next (s.bumpSat (Reg.csiVcErr p vc) F.csiVcErr_DT_OTHER)) ∧
    (s.streamOn n = true → dt = Ent.dt (s.stream n).ent → (s.stream n).cur = some f → f.stream = n →
      f.got < Ent.height f.ent → s.stops n = false → Does (.csiLine p vc false dt 0 true d) s fun t =>
        ∃ g, (t.stream n).cur = some g ∧ g.got = f.got + 1 ∧ g.lines = f.lines + 1 ∧ g.frame = f.frame ∧ g.slot = f.slot)) ∧
  (Does (.linkDown p) s fun t => t.rf (Reg.csiPortStatus p) F.csiPortStatus_LINK = 0 ∧
    (s.streamSt n = 1 ∨ s.streamSt n = 2 → t.streamSt n = if s.stops n then 3 else 4) ∧
    (s.streamSt n ≠ 1 → s.streamSt n ≠ 2 → t.streamSt n = s.streamSt n)) ∧
  (s.portOn p = true → Does (.linkUp p true) s fun t => t.rf (Reg.csiPortStatus p) F.csiPortStatus_LINK = 2 ∧
    t.rf (Reg.csiPortStatus p) F.csiPortStatus_DESKEWED = 1 ∧ t.streamSt n = if s.streamSt n = 4 then 1 else s.streamSt n) ∧
  (s.fwUp 1 = true → s.probeDue p = true →
    exec (.camProbeCycle p ans) s = .next (({ s with boot := { s.boot with probed := Table.put 0 s.boot.probed p (s.gts + 1) } } : State).probe p ans)) ∧
  (s.probeDue p = false → exec (.camProbeCycle p ans) s = .next s) ∧
  (s.serves 0x30 1 r → r.a0 < 16 → exec (.camProbe ans) s = .next ((s.fwPump.probe r.a0 ans).reply r Rs.ok none)) ∧
  (camTableOk s.boot.camTable = true →
    (([0, 1, 2, 3].filter fun v => camCand s.boot.camTable p v != 0xFF).map fun v =>
      scriptUs s.boot.camTable (camCand s.boot.camTable p v)).sum ≤ 25000 →
    (camCand s.boot.camTable p vc = 0xFF → (s.probe p ans).rf (Reg.fwpCam n) F.fwpCam_STATE = 7) ∧
    (camCand s.boot.camTable p vc ≠ 0xFF → ans.getD vc 0 = 0 → (s.probe p ans).rf (Reg.fwpCam n) F.fwpCam_STATE = 1))

/-- R587, R588, R592, R350 to R355: a memory-path frame whose record fails its check or that finds no slot is discarded, and
another goes through to its record; an overflow loses the in-line frame; a Jet's row enters its ring and leaves it for its
frame buffer. Some of it rests on the model's choices, log entries 6, 50, 112, 131 and 141. -/
def Obligations.PipesAndJetsMoveFrames : Prop := ∀ (s u w : State) (p at_ : Nat) (f : FrameS) (o : Option (List Byte)) (j : JetRun)
    (r : JetRow) (l : List JetRow) (b : List Byte),
  s.up = true → p < 4 → s.pipesOn = true →
  (s.dramServes = true → s.rf (Reg.pipeCtrl p) F.pipeCtrl_ENABLE = 1 → s.startHeld Tag.streams = false → nextFrame (s.pipe p).queue = some f →
    (s.setPipe p { s.pipe p with queue := (s.pipe p).queue.erase f }).readTune f.stream = (o, u) →
    ((o.map Tune.ok).getD false = false ∨ u.slotFree f.stream f.frame (Ent.ringLog2 f.ent) = false →
      exec (.pipeMemoryFrame p) s = .next (u.discard (f.mark Mk.dropped))) ∧
    ((o.map Tune.ok).getD false = true → u.slotFree f.stream f.frame (Ent.ringLog2 f.ent) = true →
      u.injArmed 0x17 0 1 (9 * 256 + p) = false → u.stops f.stream = false →
      ∃ (x : State) (g : FrameS), exec (.pipeMemoryFrame p) s = .next (x.recordDue g) ∧ g.frame = f.frame ∧ g.stream = f.stream ∧
        g.slot = f.slot ∧ g.marks.testBit Mk.piped = true)) ∧
  (s.startHeld Tag.streams = false ∨ f.outY ≠ 0 → s.inlineFrame p = some f → exec (.pipeInlineLine p true) s =
    .next (((s.setInline p none).bumpSat (Reg.pipeStatus p) F.pipeStatus_OVERRUN_COUNT).discard (f.mark Mk.overrun))) ∧
  (s.startHeld Tag.streams = true → s.inlineFrame p = some f → f.outY = 0 → exec (.pipeInlineLine p true) s = .next s) ∧
  (s.inlineFrame p = some f → f.rows.length ≤ min (Ent.height f.ent - 1) (f.outY + 6) →
    exec (.pipeInlineLine p false) s = .next s) ∧
  ((s.pipe p).jet = some j → j.oy < j.hOut p → j.needs p ≤ j.lines.length → j.act p ≠ 3 → s.jetRowAt p j = some at_ →
    let a := s.jetFirst p * 0x10000 + at_
    (∀ q ∈ (s.pipe p).ring, a + j.pitch p ≤ q.addr ∨ q.addr + q.pitch ≤ a) →
    Does (.jetRowComplete p) s fun t => t.dram = s.dram ∧
      t.cistern = (j.row p 0).foldl (fun c w => Mem.wrBytes c (a + w.1) w.2) s.cistern ∧ (t.pipe p).ringAt = at_ + j.pitch p ∧
      ∃ q, (t.pipe p).ring = (s.pipe p).ring ++ [q] ∧ q.addr = a ∧ q.pitch = j.pitch p ∧ q.frame = j.frame ∧
        q.marks = j.marks ∧ q.last = decide (j.oy + 1 = j.hOut p)) ∧
  ((s.pipe p).jet = some j → j.oy < j.hOut p → j.needs p ≤ j.lines.length → s.jetRowAt p j = none →
    exec (.jetRowComplete p) s = .next (s.jetOverrun p j.frame)) ∧
  (s.dramServes = true → (s.pipe p).ring = r :: l → (s.setPipe p { s.pipe p with ring := l }).cisRd r.addr r.pitch = (b, false, u) →
    u.lockedRange r.dst r.pitch = true → u.vwrite { tag := 0x200 + p, holder := some (2 ^ 40 + p) } r.dst b = (true, w) →
    (r.last = false → exec (.jetRowTransfer p) s = .next w) ∧
    (r.last = true → Does (.jetRowTransfer p) s fun t => t.rn (Reg.jetFrame p) = (w.rn (Reg.jetFrame p) + 1) % 2 ^ 32 ∧
      t.events.length = w.events.length + 1 ∧ t.dram = w.dram))

/-- R599, R602 to R605, R827: the Spout takes the next request while its host ring has two free entries, splits it at its budget,
ends a malformed one, or one whose addresses do not map, at once, and a finished part leaves the host its rows. Some of it
rests on the model's choices, log entries 6, 131 and 140. -/
def Obligations.TheSpoutSplitsItsRequests : Prop := ∀ (s u : State) (v : W32) (b : List Byte) (bad : Bool) (q : SpoutPart)
    (l : List SpoutPart), s.up = true →
  let tail := v.toNat % 65536
  (v.toNat / 65536 + tail = 65535 → (tail + 65536 - s.spout.req.head) % 65536 ≤ 2 ^ s.spoutLog2 →
    exec (.spoutTailWrite v) s = .next ({ s.touch 9 with spout := { s.spout with req := { s.spout.req with tail := tail } } } : State)) ∧
  (let d := (v.toNat + 2 ^ 32 - s.spout.read % 2 ^ 32) % 2 ^ 32
   d ≤ s.spout.written - s.spout.read →
     exec (.spoutHostReadWrite v) s = .next ({ s.touch 9 with spout := { s.spout with read := s.spout.read + d } } : State)) ∧
  (s.spout.req.waiting = 0 ∨ s.hostFree < 2 ∨ s.dramServes = false → exec .spoutTake s = .next s) ∧
  (s.dramServes = true → s.spout.req.waiting ≠ 0 → 2 ≤ s.hostFree →
    ({ s with spout := { s.spout with req := s.spout.req.next } } : State).vread Who.spout (s.spoutVa s.spout.req.head) 64 =
      (some (b, bad), u) →
    let r := SpoutReq.parse b
    (r.ok = false → exec .spoutTake s = .next (u.spoutEnd s.spout.req.head 0 true true)) ∧
    (r.ok = true → u.spoutMaps r = false → exec .spoutTake s = .next ((u.spoutFault r).spoutEnd s.spout.req.head 0 true true)) ∧
    (r.ok = true → u.spoutMaps r = true →
      (r.split u.spoutBacklog = 0 → exec .spoutTake s = .next (u.finishPart s.spout.req.head 0 r)) ∧
      (0 < r.split u.spoutBacklog → Does .spoutTake s fun t => t.spout.req = s.spout.req.next ∧
        t.spout.parts = s.spout.parts ++ [SpoutPart.mk s.spout.req.head b (r.split u.spoutBacklog)
          (r.est (r.split u.spoutBacklog)) (if s.spout.parts = [] then some s.gts else none)]))) ∧
  (s.spout.parts = q :: l → let r := SpoutReq.parse q.req
    (q.k < r.rows → s.hostFree = 0 → exec .spoutDone s = .next s) ∧
    (s.dramServes = true → r.rows ≤ q.k ∨ s.hostFree ≠ 0 → s.spoutMaps r = false → ∃ x : State,
      exec .spoutDone s = .next (x.spoutEnd q.count q.k true true) ∧ x.spout.parts.tail = l.tail) ∧
    (s.dramServes = true → r.rows ≤ q.k ∨ s.hostFree ≠ 0 → s.spoutMaps r = true → ∃ (x : State) (z : SpoutReq),
      exec .spoutDone s = .next (x.finishPart q.count q.k z) ∧ z.rows = r.rows ∧ x.spout.req = s.spout.req ∧ x.spout.parts.tail = l.tail ∧ x.spout.parts.head?.map SpoutPart.start = l.head?.map fun _ => some s.gts))

/-- R511, R513, R611: a request that is malformed ends with result 3, a sound one with the tokens of its longest matches; its end
writes the count, frees its place and raises TOKENS_DONE on its context's ring. Some of it rests on the model's choices, log
entries 6 and 131. -/
def Obligations.TheTokeniserEndsItsRequests : Prop := ∀ (s u v w : State) (b inp : List Byte) (d : Dict) (e : TokEnd) (k : Nat),
  s.up = true →
  let s1 := s.wf Reg.cisTokStatus F.cisTokStatus_STATE 1
  (s.dramServes = true → s.tok.waiting ≠ 0 → s.tokEnd = none → s1.vread Who.tok (s1.tokVa s.tok.head) 64 = (some (b, false), u) →
    (tokReqOk b = false → Does .tokeniserRequest s fun t =>
      t.tokEnd = some { ctxId := u16 b 0, cookie := u64 b 0x20, countVa := u64 b 0x28, result := 3, count := 0 } ∧ sameMem s t) ∧
    (tokReqOk b = true → u.dict = (some d, v) → v.vread Who.tok (u64 b 8) (u32 b 4) = (some (inp, false), w) →
      let r := State.tokRun d (w.policy 128).1 (w.policy 128).2 (u32 b 0x18) inp.length w (utf8Mark 0 inp) [] 0
      exec .tokeniserRequest s = .next ((r.2.wf Reg.cisTokStatus F.cisTokStatus_SPILLED
        (min 65535 (r.2.rf Reg.cisTokStatus F.cisTokStatus_SPILLED + r.1.spilled))).tokStore b r.1))) ∧
  (s.tok.waiting = 0 ∨ s.tokEnd.isSome = true ∨ s.dramServes = false → exec .tokeniserRequest s = .next s) ∧
  (s.dramServes = true → s.tokEnd = some e → s.slotOf e.ctxId = some k →
    (({ s with tokEnd := none, tok := s.tok.next } : State).wf Reg.cisTokStatus F.cisTokStatus_STATE 0).vwrite Who.tok e.countVa
      (leBytes e.count 4) = (true, w) →
    Does .tokensDone s fun t => t.tokEnd = none ∧ t.tok = s.tok.next ∧ t.dram = w.dram ∧
      t.rf Reg.cisTokStatus F.cisTokStatus_LAST_RESULT = e.result % 2 ^ F.cisTokStatus_LAST_RESULT.width ∧
      ∃ x, t.events = w.events ++ [x] ∧ x.type = Ev.tokensDone ∧ x.cookie = e.cookie)

/-- R615 to R629, R827, R482: a sound session record opens a session, a close ends every descriptor and frees it, and its tails
and counts move only as its ring allows; access units are skipped, refused or decoded, pictures leave in order to their slots
or are discarded, and coded pictures enter their output ring or report FULL. Some of it rests on the model's choices, log
entries 6, 40, 41, 42, 43, 55, 58, 110, 131 and 145. -/
def Obligations.CodecSessionsWork : Prop := ∀ (s u w : State) (r : FwReq) (b e c y : List Byte) (bad bad2 rap : Bool) (n tag qp : Nat)
    (v : W32) (cp : CodedPicture) (p : Picture) (order : List Nat) (d : DecPic) (l : List DecPic) (off adv : Nat),
  let x := s.dec n
  let z := s.enc n
  let m := Ses.num b
  let tail := v.toNat % 65536
  (s.serves 0x20 2 r → s.fwPump.vread Who.fwp2 r.a0 64 = (some (b, bad), u) →
    (Ses.kind b = 1 → Ses.decOk b = true → u.readEnt Who.fwp2 (64 + m) = (some e, w) → decEntOk (Ses.codec b) e = true →
      ((w.dec m).opened = true → exec .codecOpen s = .next (w.reply r Cd.inUse none)) ∧
      ((w.dec m).opened = false →
        17 * (if Ent.dt e = Dt.p010 then 3 * (Ent.width e * Ent.height e) else Ent.width e * Ent.height e * 3 / 2) + 1048576 ≤
          Ses.workBytes b →
        let g := leastEngine (fun g => ((w.decOn g).map Ses.rate).sum) [0, 1, 2, 3]
        ((w.decOn g).map Ses.rate).sum + Ses.rate b ≤ w.codecRate → ((w.decOn g).map Ses.kbps).sum + Ses.kbps b ≤ 120000 →
          ∃ t : State, exec .codecOpen s = .next (t.reply r Cd.ok none) ∧ t.decState m = 1 ∧ t.dram = w.dram ∧
            t.dec m = { opened := true, ses := b, engine := g, ent := e })) ∧
    (Ses.kind b = 2 → Ses.encOk b = true → (u.enc m).opened = false →
      3 * (Ses.width b * Ses.height b * 3 / 2) + 1048576 ≤ Ses.workBytes b →
      let g := leastEngine (fun g => ((u.encOn g).map Ses.rate).sum) [4, 5]
      ((u.encOn g).map Ses.rate).sum + Ses.rate b ≤ u.codecRate →
        exec .codecOpen s = .next ((u.setEnc m { opened := true, ses := b, engine := g, qp := Ses.qp b }).reply r Cd.ok none))) ∧
  (s.serves 0x21 2 r → n = r.a0 % 256 →
    (r.a0 / 256 = 1 → n < 64 → (s.fwPump.dec n).opened = false → exec .codecClose s = .next (s.fwPump.reply r Cd.notOpen none)) ∧
    (r.a0 / 256 = 1 → n < 64 → (s.fwPump.dec n).opened = true →
      ∃ t : State, exec .codecClose s = .next (t.reply r Cd.ok none) ∧ t.dec n = {} ∧ t.decState n = 0) ∧
    (r.a0 / 256 = 2 → n < 32 → (s.fwPump.enc n).opened = true →
      ∃ t : State, exec .codecClose s = .next (t.reply r Cd.ok none) ∧ t.enc n = {})) ∧
  (s.up = true →
    (n < 64 → x.opened = true → v.toNat / 65536 + tail = 65535 → (tail + 65536 - x.q.head) % 65536 ≤ 2 ^ Ses.inLog2 x.ses →
      exec (.codecDecTailWrite n v) s = .next ((s.touch 15).setDec n { x with q := { x.q with tail := tail } })) ∧
    (n < 32 → z.opened = true → v.toNat / 65536 + tail = 65535 → (tail + 65536 - z.q.head) % 65536 ≤ 2 ^ Ses.inLog2 z.ses →
      exec (.codecEncTailWrite n v) s = .next ((s.touch 15).setEnc n { z with q := { z.q with tail := tail } })) ∧
    (let took := (v.toNat + 2 ^ 32 - z.bytes.read % 2 ^ 32) % 2 ^ 32
     n < 32 → took ≤ z.bytes.written - z.bytes.read → exec (.codecEncReadWrite n v) s =
       .next ((s.touch 15).setEnc n { z with bytes := { z.bytes with read := z.bytes.read + took } })) ∧
    (n < 64 → v.fld F.codecDecCtrl_RESTART = 1 → s.decState n = 2 → exec (.codecDecRestart tag n v) s =
      .next ((x.late.filter fun a => a.at_ == s.gts).foldl (fun t a => t.auTaken n a)
        (((s.writeReg tag (Reg.codecDecCtrl n) v).setDec n { x with late := [] }).setDecState n 3))) ∧
    (n < 64 → (∀ a ∈ x.late, a.at_ ≠ s.gts) → Does (.codecDecRestart tag n v) s fun t =>
      t.decState n = (if v.fld F.codecDecCtrl_RESTART = 1 ∧ s.decState n = 2 then 3 else s.decState n) ∧ sameMem s t ∧
      sameRegs s t ([Reg.codecDecCtrl n, Reg.codecDecStatus n] ++ errRegs)) ∧
    (n < 64 → s.codecOff = false → s.dramServes = true → x.opened = true → x.q.waiting ≠ 0 → x.out = [] ∨ Ses.live x.ses = true →
      (s.setDec n { x with q := x.q.next }).vread (Who.codec 7) (x.descVa x.q.head) 32 = (some (c, bad), u) → auOk c = true →
      u.mapped false (u64 c 0) (u32 c 8) = true →
      let eos := (u16 c 0x10).testBit 0
      (u.decState n = 2 ∨ u.decState n = 3 → ∀ q, ∃ t : State,
        exec (.accessUnitDecode n bad2 false q order) s = .next (t.auDone n x.q.head Au.skipped) ∧
        (t.dec n).out = (u.dec n).out ++ (if eos then (u.dec n).held else []) ∧
        (t.dec n).held = (if eos then [] else (u.dec n).held)) ∧
      (u.decState n = 1 → u.vread (Who.codec x.engine) (u64 c 0) (u32 c 8) = (some (y, false), w) →
        (∀ q, exec (.accessUnitDecode n true rap q order) s = .next ((w.auEos n c).auDone n x.q.head Au.unsupported)) ∧
        (picSupported p = false →
          exec (.accessUnitDecode n false rap (some p) order) s = .next ((w.auEos n c).auDone n x.q.head Au.unsupported)) ∧
        (picSupported p = true → picAnyBad p = false → w.injArmed 15 0 1 (w.dec n).engine = false →
          w.injArmed 0x17 0 1 (Mc.codec * 256 + (w.dec n).engine) = false →
          ∃ (t : State) (k : DecPic), exec (.accessUnitDecode n false rap (some p) order) s = .next (t.auDone n x.q.head Au.decoded) ∧
            k.pic = p ∧ k.auSeq = u32 c 0xC ∧ k.fsGts = w.gts ∧ k.stop = false ∧
            let r := releasePics order ((w.dec n).held ++ [k])
            (t.dec n).out = (w.dec n).out ++ r.1 ++ (if eos then r.2 else []) ∧ (t.dec n).held = (if eos then [] else r.2)))) ∧
    (n < 64 → s.codecOff = false → s.dramServes = true → x.out = d :: l →
      let st := s.stream (64 + n)
      let slot := st.begun % 2 ^ Ent.ringLog2 x.ent
      (d.stop = true → exec (.decodedPictureOutput n) s = .next ((s.setDec n { x with out := l }).decDiscard n d Mk.stopped)) ∧
      (d.stop = false → d.pic.w ≠ Ent.width x.ent →
        exec (.decodedPictureOutput n) s = .next ((s.setDec n { x with out := l }).decDiscard n d Mk.size)) ∧
      (d.stop = false → d.pic.w = Ent.width x.ent → d.pic.h = Ent.height x.ent →
        (s.slotFree (64 + n) st.begun (Ent.ringLog2 x.ent) = false → Ses.live x.ses = false →
          exec (.decodedPictureOutput n) s = .next s) ∧
        (s.slotFree (64 + n) st.begun (Ent.ringLog2 x.ent) = false → Ses.live x.ses = true →
          exec (.decodedPictureOutput n) s = .next ((s.setDec n { x with out := l }).decDiscard n d Mk.dropped)) ∧
        (s.slotFree (64 + n) st.begun (Ent.ringLog2 x.ent) = true → ∃ (t : State) (f : FrameS),
          exec (.decodedPictureOutput n) s = .next (t.decRecord f) ∧ f.stream = 64 + n ∧ f.frame = st.begun ∧ f.slot = slot ∧
          f.spilled = (picBad d.pic).length ∧ (t.stream (64 + n)).begun = st.begun + 1 ∧ (t.dec n).out = l))) ∧
    (n < 32 → s.codecOff = false → s.dramServes = true → z.opened = true → z.q.waiting ≠ 0 →
      (s.setEnc n { z with q := z.q.next }).vread (Who.codec 7) (z.descVa z.q.head) 64 = (some (c, bad), u) → srcOk c = true →
      u.vread (Who.codec z.engine) (u64 c 0) (u32 c 8 * Ses.height z.ses * 3 / 2) = (some (y, bad2), w) →
      let bytes := cp.head ++ (if (u16 c 0xC).testBit 1 then w.encSei (Ses.codec z.ses) c else []) ++ cp.slices
      (z.place bytes.length = none → exec (.pictureEncode n cp qp) s =
        .next ((w.setEnc n { w.enc n with idrNext := true, qp := w.encQp z qp }).encDone n z.q.head 1 0 0 (w.encQp z qp) (z.idr c))) ∧
      (z.place bytes.length = some (off, adv) → w.mapped true (Ses.outVa z.ses + off) bytes.length = true →
        ∃ t : State, exec (.pictureEncode n cp qp) s =
          .next (t.encDone n z.q.head 0 off bytes.length (w.encQp z qp) (z.idr c)) ∧
          (t.enc n).bytes.written = (w.enc n).bytes.written + adv ∧ (t.enc n).idrNext = false ∧
          t.dram = (w.codecWrite z.engine (Ses.outVa z.ses + off) bytes).dram)))

/-- R114, R116, R119, R121 to R129, R132, R826: GO starts a check of the image in memory or, during one, only records the overlap;
a check that fails leaves the sections and its code, one that passes puts the image in force; the lock once set stays set.
Some of it rests on the model's choices, log entries 10, 47, 60, 61, 62, 63, 64, 80, 83, 84, 85, 87, 88, 117, 125, 129 and
131. -/
def Obligations.TheCheckerJudgesImages : Prop := ∀ (s : State) (tag : Nat) (ctrlOn : List Nat) (v : W32) (f : CkFail), s.up = true →
  let st := Reg.parterreStatus
  let at_ := s.rf Reg.parterreSrcLo F.parterreSrcLo_ADDR * 8 + s.rf Reg.parterreSrcHi F.parterreSrcHi_ADDR * 2 ^ 32
  (v.fld F.parterreCtrl_GO = 1 →
    (s.checking = true → Does (.parterreGo tag ctrlOn v) s fun t => t.rf st F.parterreStatus_OVERLAP = 1 ∧ t.checker = s.checker ∧
      t.sections = s.sections ∧ sameMem s t ∧ sameRegs s t ([st, Reg.parterreCtrl] ++ errRegs)) ∧
    (s.checking = false → ∃ x : State, x.dram = s.dram ∧ x.cistern = s.cistern ∧ x.sections = s.sections ∧
      Does (.parterreGo tag ctrlOn v) s fun t => t.checking = true ∧ t.checker.copy = (x.readImage at_).1 ∧
        t.checker.lockAtStart = (s.imageLocked || v.fld F.parterreCtrl_LOCK == 1) ∧ t.checker.boot = false ∧
        ((x.readImage at_).2.1 = true → t.rf st F.parterreStatus_READ_ERR = 1) ∧ t.sections = s.sections)) ∧
  (v.fld F.parterreCtrl_GO = 0 → Does (.parterreLock tag v) s fun t =>
    t.imageLocked = (s.imageLocked || v.fld F.parterreCtrl_LOCK == 1) ∧ t.checker = s.checker ∧ sameMem s t ∧
    sameRegs s t ([st, Reg.parterreCtrl] ++ errRegs)) ∧
  (s.checking = true → s.checkReady = true → s.dramServes = true → s.legacy = false →
    (s.runChecks ctrlOn = some f → (s.checker.boot && s.checker.inForce) = false →
      exec (.parterreCheck ctrlOn) s = .next (s.checkFails f).checkEnds ∧
      Does (.parterreCheck ctrlOn) s fun t => t.rf st F.parterreStatus_CHECK = f.code % 256 ∧
        t.rf st F.parterreStatus_STATE = (if (Pi.reload s.checker.copy || s.checker.inForce) = true then 5 else 4) ∧
        t.rn Reg.parterreFailOffset = f.off % 2 ^ 32 ∧ t.sections = s.sections ∧ t.checker.inForce = s.checker.inForce ∧
        t.checking = false ∧ sameMem s t ∧
        ∃ e, t.events = s.events ++ [e] ∧ e.ring = .dev ∧ e.type = Ev.parterre ∧ e.detail = t.rn st) ∧
    (s.runChecks ctrlOn = none → Does (.parterreCheck ctrlOn) s fun t => t.checker.inForce = true ∧ t.checking = false ∧
      t.rf st F.parterreStatus_STATE = 3 ∧ t.rf st F.parterreStatus_CHECK = 0 ∧
      t.rn Reg.parterreImageId = Pi.imageId s.checker.copy % 2 ^ 32 ∧
      (Pi.lockAtApply s.checker.copy = true → t.imageLocked = true) ∧
      ∀ g ∈ (Pi.frames s.checker.copy).1, g.tag ≠ Tag.legacy → (∀ h ∈ (Pi.frames s.checker.copy).1, h.tag = g.tag → h = g) →
        t.sec g.tag = g.payload s.checker.copy))

/-- R801, R806 to R814: a write of a register by its address writes its writable bits, at once or staged, and no other register;
one at a misaligned or unassigned offset, or of the wrong size, is a bus error that CHIP_ERR records. R300: an access of the
host to a Cistern page that its port does not reach is recorded in CIS_ERR. Some of it rests on the
model's choices, log entries 65 and 114. -/
def Obligations.RegistersAreWritten : Prop := ∀ (s : State) (tag off addr size : Nat) (v : W32), s.up = true →
  (0x1C00000 ≤ off → off < 0x4000000 → off % 4 = 0 → ownRow off = false →
    exec (.registerWrite tag off v) s = .next (s.chipErr ChipErr.unassigned off tag)) ∧
  (off < 0x1C00000 → off % 4 ≠ 0 → ownRow off = false → exec (.registerWrite tag off v) s = .next (s.chipErr ChipErr.size off tag)) ∧
  (off < 0x1880000 → off % 4 = 0 → ownRow off = false → injAt off = none →
    exec (.registerWrite tag off v) s = .next ((s.writeReg tag off v).regSide off v)) ∧
  (off < 0x80000 → off % 4 = 0 → ownRow (0x1880000 + off) = false → s.boot.sramLock ≤ off →
     Does (.registerWrite tag (0x1880000 + off) v) s fun t =>
    Mem.rdN t.boot.sram off 4 = v.toNat ∧ (∀ a, a < off ∨ off + 4 ≤ a → Mem.rd t.boot.sram a = Mem.rd s.boot.sram a) ∧
    t.dram = s.dram ∧ t.cistern = s.cistern ∧ t.boot.flash = s.boot.flash) ∧
  (off < 0x80000 → off % 4 = 0 → ownRow (0x1880000 + off) = false → off < s.boot.sramLock →
     exec (.registerWrite tag (0x1880000 + off) v) s = .next s) ∧
  (0x40000000 ≤ addr → addr < 0x44000000 → ∀ wr : Bool, ∀ k, accessKind (addr - 0x40000000) size wr = some k →
    exec (.unassignedAccess tag addr size wr) s = .next (s.chipErr k (addr - 0x40000000) tag)) ∧
  (addr < 0x3000000 → s.portReaches 26 (addr / 0x10000) = false → s.rf Reg.cisErr F.cisErr_VALID = 0 → ∀ wr : Bool,
    Does (.unassignedAccess tag (0x800000000 + addr) size wr) s fun t => t.rf Reg.cisErr F.cisErr_VALID = 1 ∧
      t.rf Reg.cisErr F.cisErr_PORT = 26 ∧ t.rf Reg.cisErr F.cisErr_PAGE = addr / 0x10000 ∧ sameRegs s t [Reg.cisErr] ∧ sameMem s t) ∧
  (addr < 0x3000000 → s.portReaches 26 (addr / 0x10000) = true → ∀ wr : Bool,
    exec (.unassignedAccess tag (0x800000000 + addr) size wr) s = .next s) ∧
  (accessKind addr 4 true = if addr % 4 = 0 then (if 0x1C00000 ≤ addr then some ChipErr.unassigned else none) else some ChipErr.size) ∧
  (off < 0x1C00000 → s.rf Reg.chipErr F.chipErr_VALID = 0 → 
    Does (.unassignedAccess tag (0x40000000 + off) 2 true) s fun t =>
      t.rf Reg.chipErr F.chipErr_VALID = 1 ∧ t.rf Reg.chipErr F.chipErr_KIND = ChipErr.size ∧ sameRegs s t errRegs ∧ sameMem s t)

/-- R20, R21, R424, R426, R490, R491: the Weir decides the oldest descriptor of its intake unless tests are held; what is wrong
with a descriptor, its certificate, the Fountain's width or the memory decides the reason, in that order, and an accepted job
joins the pending ones; a FREE page that still holds a page of it is RESIDENT again (R312). Some of it rests on the model's choices, log entries 6, 19, 97, 98, 99, 101, 103, 104 and 107. -/
def Obligations.JobsAreAdmitted : Prop := ∀ (s u : State) (i : Intake) (rest : List Intake) (c : Option Cert) (k : Cert) (j : Job),
  (s.up = true →
    (s.weir.intake = [] ∨ s.testsHeld = true → exec .admissionTest s = .next s.settle) ∧
    (s.weir.intake = i :: rest → s.testsHeld = false → i.desc.twinOk = true →
      ({ s with weir := { s.weir with intake := rest } } : State).loadCert i.desc.certVa = (c, u) →
      (i.desc.guar = false → exec .admissionTest s = .next (u.conclude i (u.verdict i c)).settle) ∧
      (i.desc.guar = true → (∀ j ∈ s.guarJobs, j.twinOk = true) → exec .admissionTest s =
        .next ((u.noteTest i.desc.fountain (u.verdict i c).reason).conclude i (u.verdict i c)).settle))) ∧
  (i.desc.twinOk = false → (s.verdict i c).reason = 0x27) ∧
  (i.desc.twinOk = true → (s.verdict i none).reason = 0x26 ∧
    (s.descOk i = false ∨ s.certFound i k = false → (s.verdict i (some k)).reason = 0x26) ∧
    (s.descOk i = true → s.certFound i k = true →
      (s.ftnWidth i.desc.fountain < k.pw → (s.verdict i (some k)).reason = 0x21) ∧
      (k.pw ≤ s.ftnWidth i.desc.fountain →
        (i.desc.guar = false → (s.verdict i (some k)).reason = if s.beMemoryRefused (s.newJob i k) then 0x23 else 0) ∧
        (i.desc.guar = true → 256 ≤ s.guarJobs.length → (s.verdict i (some k)).reason = 0x22) ∧
        (i.desc.guar = true → s.guarJobs.length < 256 → s.belowFloor = true → (s.verdict i (some k)).reason = 0x25) ∧
        (i.desc.guar = true → s.guarJobs.length < 256 → s.belowFloor = false → i.desc.phase = false → s.producers k = none →
          (s.verdict i (some k)).reason = 0x28)))) ∧
  (j.progressVa = 0 → j.guar = false → s.accept j =
    ({ s with weir := { s.weir with jobs := s.weir.jobs ++ [{ j with twinOk := true }], nextId := s.weir.nextId + 1 } } : State).revive j) ∧
  (∀ n q, s.pages = [(n, q)] → q.st = Pg.free → q.weight = true → j.lists q = true →
    (s.revive j).page n = { q with st := Pg.resident } ∧ (s.revive j).weir = s.weir ∧ sameMem s (s.revive j))

/-- R35 to R44, R50 to R54, R204, R363, R401, R405, R411, R439, R441: a ready layer that passes its checks starts on its Fountain
or on the Skimmer with its budget, over the commit of the layer before it where that one waits for its commit alone, and one
that fails them ends its job; a layer at COMMIT commits once its stores have landed and its job goes on to the next, a tile in
its turn, and nothing of a job past its deadline commits; a stopped layer restarts. Some of it rests on the model's choices, log
entries 6, 20, 111, 132 and 137. -/
def Obligations.LayersRunAndCommit : Prop := ∀ (s u w : State) (f t0 : Nat) (r : LayerRun) (j k : Job) (e : CertLayer) (b : List Byte)
    (l : List Held) (o : Over), s.up = true →
  let x := s.ftn f
  let v := s.checkEntries.grantAll.noteReady
  (s.integ.protective = false →
    (f < 4 → s.ftnFree f = false → s.ftnOverlaps f = none → exec (.layerDispatch f) s = .next s) ∧
    (f < 4 → s.ftnFree f = true → (v.ftn f).carryOf = none →
      (v.chooseLayer f = none → exec (.layerDispatch f) s = .next v) ∧
      (v.chooseLayer f = some j → v.listsPoison j j.nextLayer = false → v.layerEnt j j.nextLayer = some e →
        (j.layerOk j.nextLayer e = false → exec (.layerDispatch f) s = .next (v.endWith j.id St.certOverrun)) ∧
        (j.layerOk j.nextLayer e = true → (v.progLayer j j.nextLayer).isSome = true → j.started = true ∨ j.cert.scaleVa = 0 →
          v.pending? j.id = some j → v.injArmed 0x17 0 8 f = false → Does (.layerDispatch f) s fun t =>
            (t.ftn f).run = some { job := j.id, layer := j.nextLayer, ent := e, dispatchGts := v.gts } ∧
            (t.ftn f).pc = 0 ∧ (t.ftn f).lc = [] ∧ t.rn (Reg.ftnBudget f) = (e.bound - 96) % 2 ^ 32 ∧
            t.rn (Reg.ftnCycles f) = 0 ∧ t.rn (Reg.ftnWait f) = 0 ∧ t.dram = v.dram ∧ t.cistern = v.cistern))) ∧
    (f < 4 → s.ftnOverlaps f = some o →
      let y := v.asCommitted f o
      (y.chooseLayer f = none → exec (.layerDispatch f) s = .next v) ∧
      (y.chooseLayer f = some j → y.dispatchSure j = false → exec (.layerDispatch f) s = .next v) ∧
      (y.chooseLayer f = some j → y.dispatchSure j = true → y.layerEnt j j.nextLayer = some e → v.injArmed 0x17 0 8 f = false →
        Does (.layerDispatch f) s fun t => (t.ftn f).ovl = some o ∧
          (t.ftn f).run = some { job := j.id, layer := j.nextLayer, ent := e, dispatchGts := v.gts } ∧ (t.ftn f).started = false ∧
          t.rn (Reg.ftnCycles f) = 0 ∧ t.dram = v.dram ∧ t.cistern = v.cistern)) ∧
    (s.dramServes = false → exec .skimmerDispatch s = .next s) ∧
    (s.dramServes = true → s.skim.run.isSome = true → exec .skimmerDispatch s = .next s.settle) ∧
    (s.dramServes = true → s.skim.run = none → v.chooseSkim = some j → v.listsPoison j j.nextLayer = false →
      v.layerEnt j j.nextLayer = some e →
      (j.layerOk j.nextLayer e = false → exec .skimmerDispatch s = .next (v.endWith j.id St.certOverrun).settle) ∧
      (j.layerOk j.nextLayer e = true → j.started = true ∨ j.cert.scaleVa = 0 → v.pending? j.id = some j →
        v.skimBytes j j.nextLayer = (some b, w) → (SkimCmd.parse b).ok = true → b.length = 64 →
        ∃ t : State, exec .skimmerDispatch s = .next t.settle ∧ t.skim.cmd = b ∧ t.rn Reg.skimCycles = 0 ∧
          t.skim.run = some { job := j.id, layer := j.nextLayer, ent := e, dispatchGts := w.gts })) ∧
    (f < 4 → x.run = some r → s.pending? r.job = some j →
      (r.stoppedAt = none → exec (.replayRestart f) s = .next s) ∧
      (r.stoppedAt = some t0 → s.refillAll j r.layer = (.bad, u) → exec (.replayRestart f) s = .next (u.failJob j Br.inputLost 2)) ∧
      (r.stoppedAt = some t0 → s.refillAll j r.layer = (.unmapped, u) → exec (.replayRestart f) s = .next (u.dispatchFault j Pf.xlate)) ∧
      (r.stoppedAt = some t0 → s.refillAll j r.layer = (.good, u) →
        (u.reloadSeg f j r.layer = (false, w) → exec (.replayRestart f) s = .next (w.dispatchFault j Pf.xlate)) ∧
        (u.reloadSeg f j r.layer = (true, w) → Does (.replayRestart f) s fun t =>
          (t.ftn f).run = some { r with stoppedAt := none, attempt := r.attempt + 1, dispatchGts := u.gts } ∧
          t.rn (Reg.ftnCycles f) = 0 ∧ t.rn (Reg.ftnWait f) = 0 ∧ (t.ftn f).pc = 0))) ∧
    (s.skim.run = some r → s.pending? r.job = some j → r.stoppedAt = some t0 → s.refillAll j r.layer = (.good, u) →
      Does (.replayRestart 4) s fun t => t.rn Reg.skimCycles = 0 ∧
        t.skim.run = some { r with stoppedAt := none, attempt := r.attempt + 1, dispatchGts := u.gts })) ∧
  (f < 4 → x.committer = none → exec (.layerCommit f) s = .next s.settle) ∧
  (f < 4 → x.ovl = none → x.run = some r → s.pending? r.job = some j → r.stoppedAt = none → x.committing = true →
    (s.storesQuiet f = false → exec (.layerCommit f) s = .next s.settle) ∧
    (s.storesQuiet f = true → s.overdue j = true → exec (.layerCommit f) s = .next (s.breach j.id Br.unexplained).settle) ∧
    (s.storesQuiet f = true → s.overdue j = false → r.ent.streaming = false → x.held = [] → j.guar = true →
      r.layer + 1 < j.cert.layerCount →
      ∃ t : State, exec (.layerCommit f) s = .next t.settle ∧ (t.ftn f).run = none ∧ t.dram = s.dram ∧ t.cistern = s.cistern ∧
        ∃ k, t.pending? r.job = some k ∧ k.nextLayer = r.layer + 1 ∧ k.lastCommit = some r.layer ∧ k.replays = j.replays ∧
          k.outBits = j.outBits ||| (r.ent.outLast % 2 ^ j.cert.outputCount))) ∧
  (f < 4 → x.ovl = some o → s.pending? o.run.job = some j → s.overdue j = false → o.run.ent.streaming = false → o.held = [] →
    j.guar = true → o.run.layer + 1 < j.cert.layerCount →
    ∃ t : State, exec (.layerCommit f) s = .next t.settle ∧ (t.ftn f).run = x.run ∧ (t.ftn f).ovl = none ∧
      ∃ k, t.pending? o.run.job = some k ∧ k.nextLayer = o.run.layer + 1 ∧ k.lastCommit = some o.run.layer) ∧
  (f < 4 → x.run = some r → s.pending? r.job = some j → r.stoppedAt = none →
    (x.tileReqs = 0 ∨ s.storesQuiet f = false → exec (.tileCommit f) s = .next s.settle) ∧
    (x.tileReqs ≠ 0 → s.storesQuiet f = true → s.overdue j = true →
      exec (.tileCommit f) s = .next (s.breach j.id Br.unexplained).settle) ∧
    (x.tileReqs ≠ 0 → s.storesQuiet f = true → s.overdue j = false → x.held = .tile :: l →
      let y := s.setFtn f { x with held := l, tileNow := x.tileNow + 1, tileReqs := x.tileReqs - 1 }
      (r.ent.firstTile + x.tileNow < j.tileDone → exec (.tileCommit f) s = .next y.settle) ∧
      (j.tileDone ≤ r.ent.firstTile + x.tileNow → j.progressVa = 0 → exec (.tileCommit f) s =
        .next (y.modJob j.id fun k => { k with tileDone := r.ent.firstTile + x.tileNow + 1 }).settle))) ∧
  (s.skim.run = some r → s.pending? r.job = some j → r.stoppedAt = none → s.overdue j = false →
    s.skimStore (SkimCmd.parse s.skim.cmd) = (false, u) →
    (u.skimRun (SkimCmd.parse s.skim.cmd) = (.error .range, w) → exec .skimmerCommit s = .next (w.skimFault 2).settle) ∧
    (u.skimRun (SkimCmd.parse s.skim.cmd) = (.ok (), w) → w.pending? r.job = some k → k.guar = true → r.layer + 1 < k.cert.layerCount →
      ∃ t : State, exec .skimmerCommit s = .next t.settle ∧ t.skim.run = none ∧ t.dram = w.dram ∧ t.cistern = w.cistern ∧
        ∃ m, t.pending? r.job = some m ∧ m.nextLayer = r.layer + 1 ∧ m.lastCommit = some r.layer)) ∧
  (s.skim.run = some r → s.pending? r.job = some j → r.stoppedAt = none → s.overdue j = true →
    exec .skimmerCommit s = .next (s.breach j.id Br.unexplained).settle)

/-- R13, R14, R49 to R56, R60, R67, R73, R401, R416, R440, R454, R455, R564: what ends, stops or spares a job, each at its own
condition: its deadline, its stop time, its budgets, its phase target, a wait that is too long or in a cycle, a charged fault;
and its last writeback. R412: a fault while a commit is overlapped is the committing layer's. Some of it rests on the model's
choices, log entries 6, 108 and 132. -/
def Obligations.TheWeirWatchesItsJobs : Prop := ∀ (s : State) (id f e core det unit index g t0 st ft at_ : Nat) (v : Bool) (r : LayerRun)
    (j : Job) (p : PhaseDl) (h : Job × Nat × Nat × Bool),
  let x := s.ftn f
  let u := s.checkEntries
  let o := s.occur ⟨det, if det = 1 ∨ det = 2 then Kind.uncorrectable else Kind.occurrence, unit, index, false⟩
  ((s.finalRecord j st ft at_).pending? j.id = none) ∧
  (s.up = true →
    (u.pending? id = some j → j.guar = true → j.doneAt = none →
      (j.deadline ≤ u.gts → exec (.deadlineMiss id) s = .next (u.breach id 0x0F).settle) ∧
      (u.gts < j.deadline → u.injArmed 0x17 0 9 0 = false → exec (.deadlineMiss id) s = .next u.settle)) ∧
    (s.pending? id = some j → j.guar = false → j.deadline ≠ 0 →
      (j.deadline ≤ s.gts → exec (.stopTimeReached id) s = .next (s.endWith id St.partial_).settle) ∧
      (s.gts < j.deadline → exec (.stopTimeReached id) s = .next s.settle)) ∧
    (f < 4 → x.run = some r → r.stoppedAt = none → x.committing = false → x.started = true →
      (s.rn (Reg.ftnBudget f) ≤ s.rn (Reg.ftnCycles f) → exec (.budgetExhausted f) s = .next (s.endWith r.job St.certOverrun).settle) ∧
      (s.rn (Reg.ftnCycles f) < s.rn (Reg.ftnBudget f) → exec (.budgetExhausted f) s = .next s.settle)) ∧
    (s.skim.run = some r → r.stoppedAt = none →
      (r.ent.bound - 64 ≤ s.rn Reg.skimCycles → exec .skimmerBudgetExhausted s = .next (s.endWith r.job St.certOverrun).settle) ∧
      (s.rn Reg.skimCycles < r.ent.bound - 64 → exec .skimmerBudgetExhausted s = .next s.settle)) ∧
    ((∀ k ∈ s.pendingJobs, ∀ q, k.phase = some q → s.targetReached q = false) → exec .phaseTargetCheck s = .next s.settle) ∧
    (s.pendingJobs = [j] → j.phase = some p → s.targetReached p = true →
      exec .phaseTargetCheck s = .next (s.breach j.id Br.phaseReached).settle) ∧
    (f < 4 → x.run = some r → x.waitf = some (g, v, t0) → s.pending? r.job = some j → s.gateFlag g ≠ v →
      (j.guar = true → (t0 + 1000 < s.gts → exec (.waitfTimeout f) s = .next (s.breach j.id Br.producerFailed).settle) ∧
        (s.gts ≤ t0 + 1000 → exec (.waitfTimeout f) s = .next s.settle)) ∧
      (j.guar = false → (s.guarJobs.any fun k => k.fountain == f && s.ftnReady k) = true → ∃ t : State,
        exec (.beWaitfPreempt f) s = .next t.settle ∧ (t.ftn f).run = none ∧ t.pendingJobs = s.pendingJobs ∧ t.dram = s.dram) ∧
      (j.guar = false → (s.guarJobs.any fun k => k.fountain == f && s.ftnReady k) = false →
        exec (.beWaitfPreempt f) s = .next s.settle)) ∧
    (s.gts % 1000 ≠ 0 → exec .deadlockWalk s = .next s.settle) ∧
    (s.gts % 1000 = 0 → s.holders = [h] →
      (onCycle s.waitEdges h.1.node = false → exec .deadlockWalk s = .next s.settle) ∧
      (onCycle s.waitEdges h.1.node = true → exec .deadlockWalk s =
        .next ((s.bumpSat Reg.weirDeadlocks F.weirDeadlocks_COUNT).endWith h.1.id St.failedDeadlock).settle)) ∧
    (e < 5 → 1 ≤ det → det ≤ 0x11 → (s.runOf e).isSome = true → (∀ q, s.runOf e = some q → q.stoppedAt = none) →
      (s.ftnCores e).contains core = false → det ≠ 0xB ∨ 16 ≤ core → ∀ input : Bool,
      exec (.faultCharged e core det unit index input) s = .next (o.chargeFault e det input).settle ∧
      ((e < 4 → (s.ftn e).ovl = none ∨ (s.ftn e).started = true) →
        o.runOf e = some r → o.pending? r.job = some j → r.stoppedAt = none → input = false → j.replays < j.reserve → ∃ t : State,
        exec (.faultCharged e core det unit index input) s = .next t.settle ∧ t.runOf e = some { r with stoppedAt := some o.gts }) ∧
      (∀ c : Over, e < 4 → (s.ftn e).ovl = some c → (s.ftn e).started = false → o.pending? c.run.job = some j →
        c.run.stoppedAt = none → input = false → j.replays < j.reserve → ∃ t : State,
        exec (.faultCharged e core det unit index input) s = .next t.settle ∧ (t.ftn e).ovl = none ∧
          t.runOf e = some { c.run with stoppedAt := some o.gts })) ∧
    (e < 5 → core < 16 → (s.runOf e).isSome = true → (∀ q, s.runOf e = some q → q.stoppedAt = none) →
      s.rf (Reg.residueCount core) F.residueCount_COUNT < 65535 → ∀ input : Bool, ∃ y : State,
      exec (.faultCharged e core 0xB unit index input) s = .next (y.chargeFault e 0xB input).settle ∧
      y.rf (Reg.residueCount core) F.residueCount_COUNT = s.rf (Reg.residueCount core) F.residueCount_COUNT + 1 ∧
      y.rf (Reg.residueLog core) F.residueLog_VALID = 1) ∧
    (s.job? id = some j → j.ended.isSome = true →
      (s.dirtyOutputs j ≠ 0 → exec (.writebackDone id) s = .next s.settle) ∧
      (s.dirtyOutputs j = 0 → ∃ (t : State) (q : Event), exec (.writebackDone id) s = .next t.settle ∧ t.events = s.events ++ [q] ∧
        q.type = Ev.writebackDone ∧ q.detail = min j.wbPages 768 ∧ q.cookie = j.cookie ∧
        t.weir.jobs = s.weir.jobs.filter fun k => k.id != id)))

/-- R307 to R315, R402, R434 to R437: the Weir brings in the next page that a job wants into the page that has been FREE longest,
or makes room by the rules of R436; a fill puts the page's bytes into the Cistern, and a writeback puts a dirty page's bytes
into DRAM and leaves it clean. Some of it rests on the model's choices, log entries 100, 130 and 131. -/
def Obligations.PagesMoveWithTheirJobs : Prop := ∀ (s u : State) (job dma n m a b : Nat) (j : Job) (p : CertPage), s.up = true →
  let v := s.grantAll
  let q := s.page n
  (dma < 32 → v.pending? job = none → exec (.pageFillStart job dma) s = .next v.noteReady) ∧
  (dma < 32 → v.pending? job = some j →
    let pool := if p.weight then Pool.weight else Pool.feature
    (v.nextFill j = none → exec (.pageFillStart job dma) s = .next v.noteReady) ∧
    (v.nextFill j = some p → j.guar = true ∨ v.bePages < v.beLimit → v.oldestFree pool = some m →
      exec (.pageFillStart job dma) s = .next (v.setPage m
        { st := if p.fill && p.ofObj then Pg.filling else Pg.resident, va := if p.ofObj then some (j.vpage p) else none,
          scratch := if p.ofObj then none else some (j.id, p.view), weight := p.weight, dma := dma, by_ := j.id }).noteReady) ∧
    (v.nextFill j = some p → j.guar = false → v.beLimit ≤ v.bePages ∨ v.oldestFree pool = none → v.firstWaiting j < p.first →
      exec (.pageFillStart job dma) s = .next v.noteReady) ∧
    (v.nextFill j = some p → j.guar = false → v.bePages < v.beLimit → v.oldestFree pool = none → p.first ≤ v.firstWaiting j →
      v.reclaim (v.poolPages pool) (some j) = some m → exec (.pageFillStart job dma) s = .next (v.evict m).noteReady)) ∧
  (s.dramServes = false → exec (.pageFillDone n) s = .next s ∧ exec (.pageWritebackDone n) s = .next s) ∧
  (s.dramServes = true →
    (q.st ≠ Pg.filling → exec (.pageFillDone n) s = .next s.settle) ∧
    (q.st = Pg.filling → q.va = none → exec (.pageFillDone n) s = .next (s.setPage n { q with st := Pg.resident }).settle) ∧
    (q.st = Pg.filling → q.va = some a → s.xlateFor q.who false (a * 0x10000) = (some b, u) →
      let w := u.copyIn n b
      exec (.pageFillDone n) s = .next (w.2.setPage n { q with st := Pg.resident, poison := w.1 }).releasePages.settle ∧
      w.2.cistern = Mem.copy u.cistern (n * 0x10000) u.dram b 0x10000 ∧ w.2.dram = u.dram) ∧
    (q.st ≠ Pg.writeback → exec (.pageWritebackDone n) s = .next s.settle) ∧
    (q.st = Pg.writeback → q.va = some a → s.xlateFor (s.backWho q) true (a * 0x10000) = (some b, u) →
      (∀ k ∈ s.pendingJobs, k.doneAt = none) →
      ∃ t : State, exec (.pageWritebackDone n) s = .next t.settle ∧ t.dram = Mem.copy u.dram b u.cistern (n * 0x10000) 0x10000 ∧
        t.cistern = u.cistern ∧ (t.page n).dirty = false ∧ ((t.page n).st = Pg.resident ∨ (t.page n).st = Pg.free)))

/-- R184 to R194, R255, R256, R262, R430 to R433, R645, R656, R669: a retest starts where a core is free and its end records the
columns to bypass for good; the driver writes the instruction memory's inactive bank while HOST_IMEM is set, which only an
idle Fountain takes; a scrub leaves every byte; R319, R430: a calendar frame grants no more than its free lines, and every
request where they suffice, and shows its counts; a bus timeout is charged to its requester. Some of it rests on the model's
choices, log entries 16, 18, 25, 26 and 131. -/
def Obligations.CoresAndMemoriesAreServiced : Prop := ∀ (s : State) (c f k n off line port sub fail us : Nat) (bad : List Nat) (inj : Bool)
    (basin resv : List (Nat × Byte)) (vreg acc : List (Nat × Nat)) (v : W32), s.up = true →
  let o := s.occur ⟨0xC, Kind.occurrence, 0x17, port, false⟩
  let x := s.ftn f
  (c < 16 → v.toNat % 2 = 1 →
    (s.coreState c = Cs.off → Does (.bistStart c v) s fun t => (t.core c).testing = true ∧ (∀ n ≠ c, t.core n = s.core n) ∧
      sameRegs s t [Reg.coreBistCtrl c] ∧ sameMem s t) ∧
    (s.coreState c = Cs.idle → s.ftnOf c = some f → s.jobsFor f = false → Does (.bistStart c v) s fun t => (t.core c).testing = true) ∧
    (s.coreState c ≠ Cs.off → s.coreState c ≠ Cs.idle → Does (.bistStart c v) s fun t => t.cores = s.cores ∧
      t.rf (Reg.coreStatus c) F.coreStatus_BIST_REFUSED = 1 ∧ sameRegs s t [Reg.coreBistCtrl c, Reg.coreStatus c] ∧ sameMem s t)) ∧
  (c < 16 → v.toNat % 2 = 0 → Does (.bistStart c v) s fun t => t.cores = s.cores ∧ sameRegs s t [Reg.coreBistCtrl c] ∧ sameMem s t) ∧
  (c < 16 → (s.core c).testing = true ∨ (s.core c).tested = false → Does (.bistDone c fail us bad basin resv vreg acc) s fun t =>
    (t.core c).tested = true ∧ (t.core c).testing = false ∧ (t.core c).unfit = decide (fail % 16 ≠ 0) ∧
    (∀ a < 4, t.badcol c a = s.badcol c a ||| (bad.getD a 0 % 2 ^ 64)) ∧ (∀ n ≠ c, t.core n = s.core n) ∧
    t.rf (Reg.coreStatus c) F.coreStatus_BIST_DONE = 1 ∧ t.rf (Reg.coreStatus c) F.coreStatus_BIST_FAIL = (if fail % 16 = 0 then 0 else 1) ∧
    t.rf (Reg.coreBistResult c) F.coreBistResult_FAIL_UNIT = fail % 16 ∧
    t.rf (Reg.coreBistResult c) F.coreBistResult_DURATION_US = us % 65536 ∧
    sameRegs s t [Reg.coreStatus c, Reg.coreBistResult c] ∧ sameMem s t) ∧
  (c < 16 → (s.core c).testing = false → (s.core c).tested = true → exec (.bistDone c fail us bad basin resv vreg acc) s = .next s) ∧
  (f < 4 → Does (.hostImemWrite f v) s fun t => sameRegs s t [Reg.ftnCtrl f] ∧ sameMem s t ∧ t.ftns = s.ftns ∧
    t.rf (Reg.ftnCtrl f) F.ftnCtrl_HOST_IMEM = if v.toNat % 2 = 0 then 0
      else if s.ftnState f = 1 ∧ (∀ j ∈ s.pendingJobs, j.fountain ≠ f) then 1 else s.rf (Reg.ftnCtrl f) F.ftnCtrl_HOST_IMEM) ∧
  (f < 4 → off < 0x40000 → off % 4 = 0 →
    (s.rf (Reg.ftnCtrl f) F.ftnCtrl_HOST_IMEM = 0 → exec (.imemWrite f off v) s = .next (s.touch (4 + f))) ∧
    (s.rf (Reg.ftnCtrl f) F.ftnCtrl_HOST_IMEM ≠ 0 → off / 0x20000 = x.bank → Does (.imemWrite f off v) s fun t =>
      t.ftns = s.ftns ∧ t.rf (Reg.ftnImemStatus f) F.ftnImemStatus_IMEM_BUSY = 1 ∧ sameRegs s t [Reg.ftnImemStatus f] ∧ sameMem s t) ∧
    (s.rf (Reg.ftnCtrl f) F.ftnCtrl_HOST_IMEM ≠ 0 → off / 0x20000 ≠ x.bank → Does (.imemWrite f off v) s fun t =>
      let m := if off / 0x20000 = 0 then ((t.ftn f).imem0, x.imem0) else ((t.ftn f).imem1, x.imem1)
      Mem.rdN m.1 (off % 0x20000) 4 = v.toNat ∧
      (∀ a, a < off % 0x20000 ∨ off % 0x20000 + 4 ≤ a → Mem.rd m.1 a = Mem.rd m.2 a) ∧ (t.ftn f).bank = x.bank ∧ (t.ftn f).pc = x.pc)) ∧
  (line < 786432 → Does (.cisternScrub line) s fun t => sameMem s t ∧
    (s.marksIn Mc.cistern 0 (64 * line) 64 = [] → t = s) ∧
    (s.marksIn Mc.cistern 0 (64 * line) 64 = [(k, .single inj)] → Table.get .clean t.integ.marks k = .clean)) ∧
  (s.gts % 1000 ≠ 0 → exec .calendarFrame s = .next s) ∧
  (s.gts % 1000 = 0 → Does .calendarFrame s fun t =>
    let g := s.ddr.frame (s.rf Reg.ddrTagSel F.ddrTagSel_END_TAG) (16 * s.freeOffered)
    t.rf Reg.ddrFreeSlots F.ddrFreeSlots_RESERVED = min s.heldSlots 255 ∧ t.rf Reg.ddrFreeSlots F.ddrFreeSlots_USED_FREE = ceilDiv g.1 16 ∧
    t.rf Reg.ddrFreeSlots F.ddrFreeSlots_FREE = s.freeOffered ∧ t.ddr.used = [] ∧ t.ddr.reserved = 0 ∧ t.ddr.pend = g.2.pend ∧
    sameMem s t) ∧
  (s.freeOffered ≤ 212 ∧ (s.weir.maintStart = none → s.freeOffered = 212 - ceilDiv s.ddr.reserved 16)) ∧
  (∀ sel lines, (s.ddr.frame sel lines).1 ≤ lines ∧
    ((s.ddr.pend.map fun e => e.2.lines).sum ≤ lines → (∀ e ∈ s.ddr.pend, 0 < e.2.weight) →
      (s.ddr.pend.map Prod.fst).Pairwise (· < ·) →
      (s.ddr.frame sel lines).1 = (s.ddr.pend.map fun e => e.2.lines).sum)) ∧
  (s.injArmed 0x17 0 7 port = false →
    (port < 16 → exec (.busTimeout port sub) s = .next (o.coreFault port 0xC false).settle) ∧
    (16 ≤ port → port < 20 → (∀ e < 5, o.layerLists e sub = false) → exec (.busTimeout port sub) s = .next o.settle) ∧
    (16 ≤ port → port < 20 → n < 5 → (∀ e < 5, e ≠ n → o.layerLists e sub = false) → o.layerLists n sub = true →
      (∀ e < 5, n < e → (o.chargeFault n 0xC false).layerLists e sub = false) →
      exec (.busTimeout port sub) s = .next (o.chargeFault n 0xC false).settle) ∧
    (port = 24 → sub = 1 → exec (.busTimeout port sub) s = .next (o.chargeFault Eng.skim 0xC false).settle) ∧
    (20 ≤ port → port < 28 → port ≠ 24 ∨ sub ≠ 1 → exec (.busTimeout port sub) s = .next o.settle))

/-- R145, R156 to R161, R217, R221, R256 to R264, R272, R279, R284 to R286, R322, R337 to R347, R349: a segment that belongs next
is loaded into the inactive bank; a step waits for its operands and then moves its instruction on; a preload or a drain does
its work or raises its fault; a row goes through the drain chain; a Rill moves its elements, gives its drops and finishes.
Some of it rests on the model's choices, log entries 6, 21, 24, 27, 28, 29, 115, 131, 135 and 138. -/
def Obligations.TheFountainsEnginesWork : Prop := ∀ (s u : State) (f c r m job layer seg va n k : Nat) (j : Job) (l : Nat × Nat × Nat × Nat)
    (b : List Byte) (bad : Bool) (p : RProg) (h : MRun) (t : List MRun) (w : RawRow) (z : List RawRow) (d : DrainDesc)
    (run : LayerRun), s.up = true →
  let x := s.ftn f
  let q := s.rill c r
  let now := match x.run with
    | some r => r.job == job && r.layer == layer
    | none => false
  (f < 4 → s.dramServes = true → s.pending? job = some j → j.fountain = f → s.ftnSize f ≠ 0 → s.progLayer j layer = some l →
    s.segment j seg = some (va, n) →
    (if now then decide (l.1 < seg) && decide (seg < l.1 + l.2.1) && decide (layer < j.cert.layerCount)
      else layer == s.firstWaiting j && seg == l.1 && decide (layer < j.cert.layerCount)) = true →
    n ≠ 0 → n ≤ 4096 → s.vread Who.walker va (32 * n) = (some (b, bad), u) → ∃ t : State, exec (.segmentLoaded f job layer seg) s = .next t.noteReady ∧
      (t.ftn f).swapPending = true ∧ (t.ftn f).pend = some (job, layer, seg) ∧ (t.ftn f).pendCount = n ∧ (t.ftn f).bank = x.bank ∧
      (if 1 - x.bank = 0 then (t.ftn f).imem0 = Mem.wrBytes x.imem0 0 b else (t.ftn f).imem1 = Mem.wrBytes x.imem1 0 b) ∧ t.dram = u.dram) ∧
  (f < 4 → s.pending? job = none ∨ s.dramServes = false → exec (.segmentLoaded f job layer seg) s = .next s) ∧
  (f < 4 → x.mats = h :: t → s.ftnLive f = true →
    (h.drn = false → h.mpl = false → h.phase = 1 → s.operandsReady f h = false → exec (.matrixStep f) s = .next s.settle) ∧
    (h.drn = false → h.mpl = false → h.phase = 1 → s.operandsReady f h = true → fmtMx h.m.fmt = false →
      let y := ((s.ftnCores f).zip ((s.ftnCores f).map fun _ => [])).foldl (State.stepCore f h) s
      exec (.matrixStep f) s = .next ((y.setHead f h.stepped).chargeHits f).settle) ∧
    (h.mpl = true → h.phase ≠ 2 →
      let y := (s.ftnCores f).foldl (State.beginCore f h (arraysOf (rot4 h.m.amask (h.b * h.m.arot))) (Table.get 0 x.drainM h.dcd)) s
      exec (.preloadDrainBegin f) s = .next ((y.setHead f h.begun).chargeHits f).settle) ∧
    (h.phase = 2 → dsetDesc x.drainSet h.dcd = some d → s.drainFaults f h (arraysOf (rot4 h.m.amask (h.b * h.m.arot))) d = [m] →
      exec (.preloadDrainBegin f) s = .next (s.progFault f m h.bank h.addr).settle) ∧
    (h.phase = 2 → dsetDesc x.drainSet h.dcd = some d → s.drainFaults f h (arraysOf (rot4 h.m.amask (h.b * h.m.arot))) d = [] →
      let g := Table.get 0 x.drainM h.dcd
      let y := (s.ftnCores f).foldl (State.beginCore f h (arraysOf (rot4 h.m.amask (h.b * h.m.arot))) g) s
      (y.ftn f).hits = [] → ∃ t : State, exec (.preloadDrainBegin f) s = .next t.settle ∧ t.cores = y.cores ∧
        (t.ftn f).mats = h.begun.toList ++ (y.ftn f).mats.tail ∧ Table.get 0 (t.ftn f).drainM h.dcd = g + 1)) ∧
  (c < 16 → s.ftnOf c = some f → (s.core c).raw = w :: z → dsetDesc x.drainSet w.dcd = some d → x.run = some run → s.ftnLive f = true →
    ((d.emits w.row && !(s.core c).outRoom (d.rowSize w.elems.length)) = true → exec (.drainRow c) s = .next s.settle) ∧
    ((d.emits w.row && !(s.core c).outRoom (d.rowSize w.elems.length)) = false → d.resid = false → w.err = none → s.pending? run.job = some j →
      exec (.drainRow c) s = .next ((s.setCore c { s.core c with raw := z }).chainRow f c w d (j.effOf run.layer w.dcd d) []).settle)) ∧
  (c < 16 → s.activeRill c r = none → exec (.rillGroup c r) s = .next s.settle ∧ exec (.dropLanded c r) s = .next s.settle ∧
    exec (.rillFinished c r) s = .next s.settle) ∧
  (c < 16 → s.activeRill c r = some (f, p) → x.hits = [] →
    (q.busy = true → q.outq = [] → p.pspace ≠ Sp.dram ∨ s.dramServes = true →
      exec (.rillGroup c r) s = .next ((State.genElems f c r p 16 0 0 [] s).chargeHits f).settle) ∧
    (q.busy = true → q.outq = [] → p.total ≤ q.idx → exec (.rillGroup c r) s = .next s.settle) ∧
    (q.busy = false ∨ p.pspace = Sp.dram ∧ s.dramServes = false → exec (.rillGroup c r) s = .next s.settle) ∧
    ((s.giveDrops f c r 1 p).1 = true → exec (.dropLanded c r) s = .next ((s.giveDrops f c r 1 p).2.chargeHits f).settle) ∧
    ((s.giveDrops f c r 1 p).1 = false → exec (.dropLanded c r) s =
      .next (s.rillStop f c r { fault := some Pf.rillSluice }).settle) ∧
    (q.busy = true → q.spent p = false → exec (.rillFinished c r) s = .next s.settle) ∧
    (q.busy = true → q.spent p = true → (s.giveDrops f c r (2 ^ 32) p).1 = true → slOf p.post = none →
      ∃ t : State, exec (.rillFinished c r) s = .next t.settle ∧ (t.rill c r).st = Rl.done ∧ t.dram = s.dram ∧ t.cistern = s.cistern) ∧
    (q.busy = true → q.spent p = true → (s.giveDrops f c r (2 ^ 32) p).1 = true → slOf p.post = some k →
      s.injArmed 8 c 6 k = false → q.lin % 512 ≠ 0 → (s.giveDrops f c r (2 ^ 32) p).2.sluice c k < 4095 → ∃ t : State, exec (.rillFinished c r) s = .next t.settle ∧
        (t.rill c r).st = Rl.done ∧ t.sluice c k = (s.giveDrops f c r (2 ^ 32) p).2.sluice c k + 1) ∧
    (q.busy = true → q.spent p = true → (s.giveDrops f c r (2 ^ 32) p).1 = false →
      exec (.rillFinished c r) s = .next (s.rillStop f c r { fault := some Pf.rillSluice }).settle))

/-- R197 to R203, R252 to R254, R67: the bundle at the program counter is fetched once; beyond the segment, past the budget or where
its words are no legal bundle the layer's job ends; a slot that is not the bundle's last waits for the rest; with the last, the
bundle holds where one of its executing slots holds it, faults where one faults, and otherwise issues. Some of it rests on the
model's choices, log entries 22, 23 and 28. -/
def Obligations.BundlesHoldOrIssue : Prop := ∀ (s u : State) (cmd : Instr) (f k : Nat) (o : SlotOp) (all : List SlotOp) (last bad : Bool),
  slotOf? cmd = some (f, o, last) → s.up = true → f < 4 → s.ftnLive f = true → (s.ftn f).committing = false →
  let x := s.ftn f
  (s.spent f = true → exec cmd s = .next (s.overrun f).settle) ∧
  (x.ir ≠ [] → s.fetch f = (true, s)) ∧
  (x.ir = [] → x.pc < x.count → s.readEcc Mc.imem f (x.bank * 0x20000 + 32 * x.pc) 32 = (bad, u) →
    s.fetch f = if bad = true then (false, u.chargeFault f 1 false)
      else (true, u.setFtn f { u.ftn f with ir := Mem.rdBytes (x.imem x.bank) (32 * x.pc) 32 })) ∧
  (s.spent f = false →
    (x.ir = [] → x.count ≤ x.pc → exec cmd s = .next (s.progFault f Pf.fetchRange x.bank x.pc).settle) ∧
    (s.fetch f = (false, u) → exec cmd s = .next u.settle) ∧
    (s.fetch f = (true, u) →
      let y := u.ftn f
      ((decodeBundle y.ir).filter bundleOk = none → exec cmd s = .next (u.progFault f Pf.illegal y.bank y.pc).settle) ∧
      ((decodeBundle y.ir).filter bundleOk = some all →
        let b := all.filter y.runs
        let swaps := ∃ g, SlotOp.bar g true ∈ b
        (o ∉ all ∨ o ∈ y.asm → exec cmd s = .next s) ∧
        (o ∈ all → o ∉ y.asm →
          (last = false → exec cmd s = .next (u.setFtn f { y with asm := y.asm ++ [o] })) ∧
          (last = true → (∃ p ∈ all, slotNop p = false ∧ p ∉ y.asm ∧ p ≠ o) → exec cmd s = .next s) ∧
          (last = true → (∀ p ∈ all, slotNop p = true ∨ p ∈ y.asm ∨ p = o) →
            (swaps → u.nextSeg f = none → u.quiet f true = true → exec cmd s = .next (u.progFault f Pf.swapNone y.bank y.pc).settle) ∧
            (¬swaps ∨ (u.nextSeg f).isSome = true →
              (b.any (u.slotHolds f) = true → exec cmd s = .next (u.holdBundle f b).settle) ∧
              (b.any (u.slotHolds f) = false →
                (b.flatMap (u.slotFaults f b) = [k] → exec cmd s = .next (u.progFault f k y.bank y.pc).settle) ∧
                (b.flatMap (u.slotFaults f b) = [] →
                  (u.overHeld f b = true → exec cmd s = .next (u.overrun f).settle) ∧
                  (u.overHeld f b = false → exec cmd s = .next (u.issue f b).settle)))))))))

/-- R142, R203, R206 to R215, R217, R219, R222 to R249: what each slot does as its bundle issues, for a bundle of that slot beside
NOPs that nothing keeps from issuing: the counters, predicates and next address of the scalar slots, the instruction that a matrix
slot orders and the pointers it sets, what a sync slot holds or counts, the lanes of a vector slot, a core's Rills, and the loads and
stores of the Basin; what a core does is stated of a Fountain of one core. Some of it rests on the model's choices, log entries 6,
22 and 23. -/
def Obligations.SlotsDoTheirPart : Prop := ∀ (s : State) (f c n k i t a cnd b r : Nat) (p : SlotPos) (v : Bool) (m : MSlot) (w : VSlot)
    (q : RSlot) (e : VMem) (l : List Nat) (x0 y0 z0 : Nat) (la lb lc : List Nat),
  let x := s.ftn f
  let fx := fun (cmd : Instr) (o : SlotOp) (prop : Fountain → Prop) => s.issuesAlone f o → ∃ y : Fountain,
    exec cmd s = .next (s.setFtn f y).settle ∧ y.lastPc = x.pc ∧ y.asm = [] ∧ y.ir = [] ∧ prop y
  let core := fun (cmd : Instr) (o : SlotOp) (prop : State → Prop) => s.issuesAlone f o →
    exec cmd s = .next (s.issue f (alone o)).settle ∧ (s.ftnCores f = [c] → prop (s.issue f (alone o)))
  let others := fun (y : Fountain) => ∀ j ≠ n, y.lcVal j = x.lcVal j
  let vec := fun (cmd : Instr) (op : Nat) => core cmd (.vec op w) fun u => s.integ.marks = [] →
    vecLanes op w (s.coreIndex c) x.lcVal ((s.core c).vregWords w.va) ((s.core c).vregWords w.vb) ((s.core c).vregWords w.vc) =
      l.map some →
    let ty := if op = 0x11 then w.vb % 8 else w.ty
    (vWords ty l).length = 64 → (u.core c).vregWords w.vd = vWords ty l
  let quietCredits := ∀ j, s.injArmed 8 c 6 j = false
  (fx (.nop f p true) (.nop p) fun y => y.pc = x.pc + 1 ∧ y.lc = x.lc) ∧
  (fx (.setc f n i true) (.setc n i) fun y => y.lcVal n = i % 65536 ∧ others y ∧ y.pc = x.pc + 1) ∧
  (fx (.incc f n i true) (.incc n i) fun y => y.lcVal n = (x.lcVal n + i) % 65536 ∧ others y ∧ y.pc = x.pc + 1) ∧
  (fx (.decc f n i true) (.decc n i) fun y => y.lcVal n = (x.lcVal n + 65536 - i) % 65536 ∧ others y ∧ y.pc = x.pc + 1) ∧
  (fx (.loop f n t true) (.loop n t) fun y => others y ∧ y.lcVal n = (if x.lcVal n = 0 then 0 else (x.lcVal n - 1) % 65536) ∧
    y.pc = if x.lcVal n ≤ 1 then x.pc + 1 else t) ∧
  (fx (.cmpset f k a cnd v b i true) (.cmpset k a cnd v b i) fun y =>
    Table.get none y.cmp k = some ⟨a, cnd, v, b, i⟩ ∧ y.pc = x.pc + 1 ∧ y.lc = x.lc) ∧
  (fx (.pset f k v true) (.pset k v) fun y => k < 4 → Table.get none y.cmp k = none ∧ y.pred.testBit k = v ∧
    (∀ j < 4, j ≠ k → y.pred.testBit j = x.preds.testBit j) ∧ y.lc = x.lc) ∧
  (fx (.jmp f t true) (.jmp t) fun y => y.pc = t ∧ y.lc = x.lc) ∧
  (fx (.setf f a n v true) (.setf a n v) fun y => y.held = x.held ++ [.setf n v] ∧ y.pc = x.pc + 1) ∧
  (fx (.evt f a n true) (.evt a n) fun y => y.held = x.held ++ [.evt n] ∧ y.pc = x.pc + 1) ∧
  (fx (.waitf f a n v true) (.waitf a n v) fun y => y.waitf = none ∧ y.pc = x.pc + 1) ∧
  (fx (.bar f a false true) (.bar a false) fun y => y.pc = x.pc + 1 ∧ y.bank = x.bank) ∧
  (fx (.bar f a true true) (.bar a true) fun y =>
    y.pc = 0 ∧ y.bank = 1 - x.bank ∧ y.active = x.pend ∧ y.count = x.pendCount ∧ y.swapPending = false) ∧
  (fx (.commitLayer f a true) (.commit a false) fun y => y.committing = true ∧ y.tileReqs = x.tileReqs) ∧
  (fx (.commitTile f a true) (.commit a true) fun y =>
    y.tileReqs = x.tileReqs + 1 ∧ y.held = x.held ++ [.tile] ∧ y.committing = x.committing) ∧
  (fx (.wset f a n b i t true) (.wset a n b i t) fun y => Table.get {} y.wp n = { cur := b, step := sext 8 i, bstep := sext 14 t }) ∧
  (fx (.ppset f a n true) (.ppset a n) fun y => y.pp = n * 256) ∧
  (fx (.dsel f a n b true) (.dsel a n b) fun y => y.dcd = n ∧ y.sr = b ∧ Table.get 0 y.drainM n = 0) ∧
  (fx (.mst f m true) (.mst m) fun y => ∃ g : MRun, y.mats = x.mats ++ [g] ∧ g.m = m ∧ g.w = (Table.get {} x.wp m.wp).cur ∧ g.dcd = x.dcd ∧
    g.sr = x.sr ∧ g.phase = (if m.acc = 1 then 0 else 1) ∧ g.drn = false ∧ g.mpl = false) ∧
  (fx (.mpl f m true) (.mpl m) fun y => ∃ g : MRun, y.mats = x.mats ++ [g] ∧ g.m = m ∧ g.mpl = true) ∧
  (fx (.drn f a n k b r true) (.drn a n k b r) fun y => ∃ g : MRun, y.mats = x.mats ++ [g] ∧ g.drn = true ∧ g.phase = 2 ∧ g.m.amask = n ∧
    g.m.pls = k ∧ g.dcd = b ∧ g.sr = r) ∧
  (core (.crdTake f a n i true) (.crd a 0 n i) fun u => quietCredits → u.sluice c n = s.sluice c n - i) ∧
  (core (.crdGive f a n i true) (.crd a 1 n i) fun u => quietCredits → u.sluice c n = s.sluice c n + i) ∧
  (core (.crdInit f a n i true) (.crd a 2 n i) fun u => u.sluice c n = i) ∧
  (core (.rstart f q true) (.rstart q) fun u => quietCredits → (u.rill c q.r).st = Rl.running ∧ (u.rill c q.r).prog = q.prog ∧
    (u.rill c q.r).idx = 0 ∧ (u.rill c q.r).start = rslotBase q x (s.posOf f c)) ∧
  (core (.sstart f q true) (.sstart q) fun u => quietCredits → (u.rill c (4 + q.r)).st = Rl.running ∧
    (u.rill c (4 + q.r)).prog = q.prog ∧ (u.rill c (4 + q.r)).idx = 0 ∧ (u.rill c (4 + q.r)).start = rslotBase q x (s.posOf f c)) ∧
  (let stops := fun (u : State) (r : Nat) =>
     let mid := match s.rillProgOf f c r with
       | some p => (s.rill c r).mid p
       | none => false
     u.rill c r = if (s.rill c r).busy then (if mid then { s.rill c r with stopReq := true } else (s.rill c r).stop) else s.rill c r
   (core (.rstop f a r true) (.rstop a r) fun u => stops u r) ∧ (core (.sstop f a r true) (.sstop a r) fun u => stops u (4 + r))) ∧
  (core (.vld f e true) (.vld e) fun u => s.integ.marks = [] → (u.core c).vregWords e.v = (List.range 64).map fun j =>
    Mem.rdN (s.core c).basin ((vmemAddr e x).toNat + 4 * j) 4) ∧
  (core (.vst f e true) (.vst e) fun u => s.integ.marks = [] → (u.core c).basin =
    Mem.wrBytes (s.core c).basin (vmemAddr e x).toNat (((s.core c).vregWords e.v).flatMap fun n => leBytes n 4)) ∧
  (vec (.vadd f w true) 0x01 ∧ vec (.vsub f w true) 0x02 ∧ vec (.vand f w true) 0x03 ∧ vec (.vor f w true) 0x04 ∧
    vec (.vxor f w true) 0x05 ∧ vec (.vshl f w true) 0x06 ∧ vec (.vshr f w true) 0x07 ∧ vec (.vsra f w true) 0x08 ∧
    vec (.vmin f w true) 0x09 ∧ vec (.vmax f w true) 0x0A ∧ vec (.vcmpeq f w true) 0x0B ∧ vec (.vcmplt f w true) 0x0C ∧
    vec (.vcmple f w true) 0x0D ∧ vec (.vsel f w true) 0x0E ∧ vec (.vmov f w true) 0x0F ∧ vec (.vmul f w true) 0x10 ∧
    vec (.vcvt f w true) 0x11 ∧ vec (.vrshr f w true) 0x12 ∧ vec (.vperm f w true) 0x13 ∧ vec (.vbcast f w true) 0x14 ∧
    vec (.vidx f w true) 0x15 ∧ vec (.vfma f w true) 0x16 ∧ vec (.vexp2 f w true) 0x17 ∧ vec (.vrecip f w true) 0x18 ∧
    vec (.vrsqrt f w true) 0x19 ∧ vec (.vrsum f w true) 0x1A ∧ vec (.vrmax f w true) 0x1B ∧ vec (.vrmin f w true) 0x1C) ∧
  (w.ty = 0 → w.immb = false → w.sat = false → k < 64 → la.getD k 0 = x0 → lb.getD k 0 = y0 → lc.getD k 0 = z0 →
    x0 < 2 ^ 32 → y0 < 2 ^ 32 →
    let lane := fun op => (vecLanes op w n x.lcVal la lb lc).getD k none
    lane 0x01 = some ((x0 + y0) % 2 ^ 32) ∧ lane 0x02 = some ((x0 + 2 ^ 32 - y0) % 2 ^ 32) ∧ lane 0x03 = some (x0 &&& y0) ∧
    lane 0x04 = some (x0 ||| y0) ∧ lane 0x05 = some (x0 ^^^ y0) ∧ lane 0x06 = some (x0 * 2 ^ (y0 % 32) % 2 ^ 32) ∧
    lane 0x07 = some (x0 / 2 ^ (y0 % 32)) ∧ lane 0x08 = some (((BitVec.ofNat 32 x0).sshiftRight (y0 % 32)).toNat) ∧
    lane 0x09 = some (if (BitVec.ofNat 32 x0).toInt ≤ (BitVec.ofNat 32 y0).toInt then x0 else y0) ∧
    lane 0x0A = some (if (BitVec.ofNat 32 y0).toInt ≤ (BitVec.ofNat 32 x0).toInt then x0 else y0) ∧
    lane 0x0B = some (if x0 = y0 then 2 ^ 32 - 1 else 0) ∧
    lane 0x0C = some (if (BitVec.ofNat 32 x0).toInt < (BitVec.ofNat 32 y0).toInt then 2 ^ 32 - 1 else 0) ∧
    lane 0x0D = some (if (BitVec.ofNat 32 x0).toInt ≤ (BitVec.ofNat 32 y0).toInt then 2 ^ 32 - 1 else 0) ∧
    lane 0x0E = some (if z0 = 0 then y0 else x0) ∧ lane 0x0F = some x0 ∧ lane 0x10 = some (x0 * y0 % 2 ^ 32) ∧
    lane 0x13 = some (la.getD (y0 % 64) 0) ∧ (w.imm = 1 → lane 0x15 = some k) ∧ (w.imm = 0 → lane 0x15 = some n))

/-- R206, R209: SETC, INCC and DECC set a loop counter modulo 65,536, and a LOOP does nothing at 0, and otherwise decrements and
branches while the new value is not 0; each is here the one slot beside NOPs of a bundle that issues. -/
def Obligations.LoopCountersCountAndBranch : Prop := ∀ (s : State) (f n i t : Nat),
  let x := s.ftn f
  let sets := fun (c : Instr) (o : SlotOp) (v pc : Nat) => s.issuesAlone f o → ∃ y : Fountain,
    exec c s = .next (s.setFtn f y).settle ∧ y.lcVal n = v ∧ y.pc = pc ∧ (∀ m ≠ n, y.lcVal m = x.lcVal m)
  sets (.setc f n i true) (.setc n i) (i % 65536) (x.pc + 1) ∧
  sets (.incc f n i true) (.incc n i) ((x.lcVal n + i) % 65536) (x.pc + 1) ∧
  sets (.decc f n i true) (.decc n i) ((x.lcVal n + 65536 - i) % 65536) (x.pc + 1) ∧
  (x.lcVal n = 0 → sets (.loop f n t true) (.loop n t) 0 (x.pc + 1)) ∧
  (x.lcVal n < 65536 → (x.lcVal n = 1 → sets (.loop f n t true) (.loop n t) 0 (x.pc + 1)) ∧
    (1 < x.lcVal n → sets (.loop f n t true) (.loop n t) (x.lcVal n - 1) t))

/-- R521, R530, R727, R822: right after POWER_ON the GTS is 0, TAI reads 0 and is not valid, every register holds its reset value,
every memory lists nothing and nothing is in force; and while the fabric clock does not run, a command of the fabric changes
nothing. Some of it rests on the model's choices, log entries 1, 2, 4 and 9. -/
def Obligations.ResetIsAsTheSpecSays : Prop :=
  (State.reset.waitsForRoot ∧ State.reset.up = false ∧ State.reset.taiSec = 0 ∧ State.reset.taiNs = 0 ∧ State.reset.taiFrac = 0 ∧
    State.reset.taiRate = 0 ∧ State.reset.pending = [] ∧ State.reset.sections = [] ∧ State.reset.events = [] ∧
    State.reset.checker.inForce = false ∧ (∀ k, (State.reset.pair k).run = false) ∧ (∀ off, State.reset.rd off = RegRow.resetOf off) ∧
    Mem.wf State.reset.dram = true ∧ Mem.wf State.reset.cistern = true ∧ Mem.wf State.reset.boot.sram = true ∧
    Mem.wf State.reset.boot.flash = true) ∧
  ∀ (s : State) (c : Instr), s.up = false → actsUnclocked c = false → exec c s = .next s

/-- Until the root PLL locks, whatever commands come and however often the device is reset, no command brings the fabric to work:
the time stands, memory stays empty and no context or job exists. Some of it rests on the model's choices, log entries 2 and
4. -/
def Obligations.TheFabricWaitsForTheRootPll : Prop := ∀ s t : State, s.waitsForRoot → step s = .next t → t.waitsForRoot ∧ t.up = false

/-- R756: in the thermal shutdown every command but POWER_ON leaves the device down: no safety pair runs, the link is down, and no
byte of memory, no job and no time changes. Some of it rests on the model's choices, log entry 4. -/
def Obligations.AShutdownLastsUntilPowerOn : Prop := ∀ s t : State, s.shutDown → step s = .next t →
  t.shutDown ∧ t.up = false ∧ sameMem s t ∧ t.gts = s.gts ∧ t.weir = s.weir
end

