-- ==== Sys2Proof/Laws/Table.lean ====
section
/-! SUPPORT. Sys2Proof/Laws/Table.lean: reading a table or a memory after writing it, and the canonical form that every
operation of theirs keeps. The laws of reading hold of any list of entries, canonical or not. -/
namespace Sys2Proof.Machine

variable {α : Type}

@[simp] theorem Table.get_nil (d : α) (k : Nat) : Table.get d [] k = d := rfl

theorem Table.get_cons (d : α) (j : Nat) (v : α) (t : Table α) (k : Nat) :
    Table.get d ((j, v) :: t) k = if j = k then v else Table.get d t k := rfl

theorem Table.get_erase_same (d : α) (t : Table α) (k : Nat) : Table.get d (Table.erase t k) k = d := by
  induction t with
  | nil => rfl
  | cons e t ih =>
    obtain ⟨j, v⟩ := e
    unfold Table.erase at ih ⊢
    by_cases h : j = k
    · simpa [List.filter_cons, h] using ih
    · simpa [List.filter_cons, h, Table.get_cons] using ih

theorem Table.get_erase_ne (d : α) (t : Table α) {k n : Nat} (hn : n ≠ k) :
    Table.get d (Table.erase t k) n = Table.get d t n := by
  induction t with
  | nil => rfl
  | cons e t ih =>
    obtain ⟨j, v⟩ := e
    unfold Table.erase at ih ⊢
    by_cases h : j = k
    · have : ¬ k = n := fun e => hn e.symm
      simpa [List.filter_cons, h, Table.get_cons, this] using ih
    · simp only [List.filter_cons, bne_iff_ne, ne_eq, h, not_false_eq_true, ↓reduceIte, Table.get_cons, ih]

theorem Table.get_insert_same (d : α) (t : Table α) (k : Nat) (v : α) : Table.get d (Table.insert t k v) k = v := by
  induction t with
  | nil => simp [Table.insert, Table.get]
  | cons e t ih =>
    obtain ⟨j, w⟩ := e
    simp only [Table.insert]
    split
    · simp [Table.get_cons]
    · split
      · simp [Table.get_cons]
      · simp_all [Table.get_cons]

theorem Table.get_insert_ne (d : α) (t : Table α) {k n : Nat} (v : α) (h : n ≠ k) :
    Table.get d (Table.insert t k v) n = Table.get d t n := by
  have hk : ¬ k = n := fun e => h e.symm
  induction t with
  | nil => simp [Table.insert, Table.get, hk]
  | cons e t ih =>
    obtain ⟨j, w⟩ := e
    simp only [Table.insert]
    split
    · subst_vars
      simp [Table.get_cons, hk]
    · split
      · simp [Table.get_cons, hk]
      · simp [Table.get_cons, ih]

variable [DecidableEq α]

@[simp] theorem Table.get_put_same (d : α) (t : Table α) (k : Nat) (v : α) : Table.get d (Table.put d t k v) k = v := by
  unfold Table.put
  split
  · next h => rw [h, Table.get_erase_same]
  · exact Table.get_insert_same d t k v

theorem Table.get_put_ne (d c : α) (t : Table α) {k n : Nat} (v : α) (h : n ≠ k) :
    Table.get d (Table.put c t k v) n = Table.get d t n := by
  unfold Table.put
  split
  · exact Table.get_erase_ne d t h
  · exact Table.get_insert_ne d t v h

/-! The canonical form. -/

theorem Table.above_mono {d : α} {t : Table α} {a b : Nat} (h : a ≤ b) (hb : Table.above d b t = true) :
    Table.above d a t = true := by
  cases t with
  | nil => rfl
  | cons e t =>
    obtain ⟨k, v⟩ := e
    simp only [Table.above, Bool.and_eq_true, decide_eq_true_eq] at hb ⊢
    exact ⟨⟨by omega, hb.1.2⟩, hb.2⟩

theorem Table.above_filter {d : α} (p : Nat × α → Bool) :
    ∀ {t : Table α} {b : Nat}, Table.above d b t = true → Table.above d b (t.filter p) = true
  | [], _, _ => rfl
  | (k, v) :: t, b, h => by
    simp only [Table.above, Bool.and_eq_true, decide_eq_true_eq] at h
    have ih := Table.above_filter p h.2
    by_cases hp : p (k, v) = true
    · simp only [List.filter_cons, hp, if_true, Table.above, Bool.and_eq_true, decide_eq_true_eq]
      exact ⟨h.1, ih⟩
    · simp only [List.filter_cons, hp]
      exact Table.above_mono (by omega) ih

theorem Table.above_insert {d : α} (k : Nat) (v : α) (hv : v ≠ d) :
    ∀ {t : Table α} {b : Nat}, Table.above d b t = true → b ≤ k → Table.above d b (Table.insert t k v) = true
  | [], b, _, hb => by simp [Table.insert, Table.above, hv, hb]
  | (j, w) :: t, b, h, hb => by
    simp only [Table.above, Bool.and_eq_true, decide_eq_true_eq] at h
    simp only [Table.insert]
    split
    · next e =>
      subst e
      simp only [Table.above, Bool.and_eq_true, decide_eq_true_eq]
      exact ⟨⟨h.1.1, by simpa using hv⟩, h.2⟩
    · split
      · simp only [Table.above, Bool.and_eq_true, decide_eq_true_eq]
        exact ⟨⟨hb, by simpa using hv⟩, ⟨by omega, h.1.2⟩, h.2⟩
      · simp only [Table.above, Bool.and_eq_true, decide_eq_true_eq]
        exact ⟨h.1, Table.above_insert k v hv h.2 (by omega)⟩

/-- Writing a table keeps its canonical form. -/
theorem Table.wf_put {d : α} {t : Table α} (k : Nat) (v : α) (h : Table.wf d t = true) :
    Table.wf d (Table.put d t k v) = true := by
  unfold Table.put
  split
  · exact Table.above_filter _ h
  · next hv => exact Table.above_insert k v hv h (Nat.zero_le k)

/-- Clearing a range of a table keeps its canonical form. -/
theorem Table.wf_clear {d : α} {t : Table α} (lo n : Nat) (h : Table.wf d t = true) :
    Table.wf d (Table.clear t lo n) = true := Table.above_filter _ h

/-! Memories. -/

@[simp] theorem Mem.rd_wr_same (m : Mem) (a : Nat) (b : Byte) : Mem.rd (Mem.wr m a b) a = b := Table.get_put_same _ _ _ _

theorem Mem.rd_wr_ne (m : Mem) {a n : Nat} (b : Byte) (h : n ≠ a) : Mem.rd (Mem.wr m a b) n = Mem.rd m n :=
  Table.get_put_ne _ _ _ _ h

/-- A memory that bytes were written to: a byte within them is theirs, every other is as before. -/
theorem Mem.rd_wrBytes (n : Nat) : ∀ (m : Mem) (a : Nat) (l : List Byte),
    Mem.rd (Mem.wrBytes m a l) n = if a ≤ n ∧ n < a + l.length then l.getD (n - a) 0#8 else Mem.rd m n
  | m, a, [] => by rw [Mem.wrBytes, if_neg (by simp only [List.length_nil]; omega)]
  | m, a, b :: l => by
    rw [Mem.wrBytes, Mem.rd_wrBytes n (Mem.wr m a b) (a + 1) l]
    rcases Nat.lt_trichotomy n a with h | h | h
    · rw [if_neg (by omega), if_neg (by omega), Mem.rd_wr_ne _ _ (by omega)]
    · subst h
      rw [if_neg (by omega), Mem.rd_wr_same, if_pos (by simp)]
      simp
    · by_cases h2 : n < a + (l.length + 1)
      · rw [if_pos (by omega), if_pos (by simp; omega)]
        obtain ⟨k, hk⟩ : ∃ k, n - a = k + 1 := ⟨n - a - 1, by omega⟩
        rw [show n - (a + 1) = k by omega, hk]
        simp
      · rw [if_neg (by omega), if_neg (by simp; omega), Mem.rd_wr_ne _ _ (by omega)]

theorem Mem.wf_wr {m : Mem} (a : Nat) (b : Byte) (h : Mem.wf m = true) : Mem.wf (Mem.wr m a b) = true :=
  Table.wf_put a b h

/-- Writing bytes keeps the canonical form of a memory. -/
theorem Mem.wf_wrBytes : ∀ (l : List Byte) {m : Mem} (a : Nat), Mem.wf m = true → Mem.wf (Mem.wrBytes m a l) = true
  | [], _, _, h => h
  | b :: l, _, a, h => Mem.wf_wrBytes l (a + 1) (Mem.wf_wr a b h)

/-- Writing a number keeps the canonical form of a memory. -/
theorem Mem.wf_wrN {m : Mem} (a n v : Nat) (h : Mem.wf m = true) : Mem.wf (Mem.wrN m a n v) = true :=
  Mem.wf_wrBytes _ a h

/-- Two canonical tables, the first below a bound and the second from it on, make one. -/
theorem Table.above_append {d : α} {u : Table α} {m : Nat} (hu : Table.above d m u = true) :
    ∀ {t : Table α} {b : Nat}, b ≤ m → Table.above d b t = true → (∀ e ∈ t, e.1 < m) → Table.above d b (t ++ u) = true
  | [], b, hb, _, _ => Table.above_mono hb hu
  | (k, v) :: t, b, hb, h, hm => by
    simp only [Table.above, Bool.and_eq_true, decide_eq_true_eq, List.cons_append] at h ⊢
    have hk : k < m := hm (k, v) (List.mem_cons_self ..)
    exact ⟨h.1, Table.above_append hu (by omega) h.2 fun e he => hm e (List.mem_cons_of_mem _ he)⟩

theorem Table.above_shift {d : α} {lo dst : Nat} :
    ∀ {t : Table α} {b : Nat}, lo ≤ b → Table.above d b t = true → (∀ e ∈ t, lo ≤ e.1) →
      Table.above d (b - lo + dst) (t.map fun e => (e.1 - lo + dst, e.2)) = true
  | [], _, _, _, _ => rfl
  | (k, v) :: t, b, hb, h, hm => by
    simp only [Table.above, Bool.and_eq_true, decide_eq_true_eq, List.map_cons] at h ⊢
    have hk : lo ≤ k := hm (k, v) (List.mem_cons_self ..)
    have ih := Table.above_shift (dst := dst) (b := k + 1) (by omega) h.2 fun e he => hm e (List.mem_cons_of_mem _ he)
    exact ⟨⟨by omega, h.1.2⟩, by rw [show k - lo + dst + 1 = k + 1 - lo + dst by omega]; exact ih⟩

/-- A table from a bound on: its entries below it are gone. -/
theorem Table.above_of_le {d : α} {m : Nat} : ∀ {t : Table α} {b : Nat}, Table.above d b t = true → (∀ e ∈ t, m ≤ e.1) →
    Table.above d m t = true
  | [], _, _, _ => rfl
  | (k, v) :: t, b, h, hm => by
    simp only [Table.above, Bool.and_eq_true, decide_eq_true_eq] at h ⊢
    exact ⟨⟨hm (k, v) (List.mem_cons_self ..), h.1.2⟩, h.2⟩

/-- Copying from a canonical memory into another keeps the canonical form. -/
theorem Mem.wf_copy {dst src : Mem} (d a n : Nat) (hd : Mem.wf dst = true) (hs : Mem.wf src = true) :
    Mem.wf (Mem.copy dst d src a n) = true := by
  have h1 : Table.above Mem.unwritten (d + n) (dst.filter fun e => d + n ≤ e.1) = true :=
    Table.above_of_le (Table.above_filter _ hd) fun e he => by simpa using (List.mem_filter.1 he).2
  have hsl : Table.above Mem.unwritten a (src.filter fun e => a ≤ e.1 && e.1 < a + n) = true :=
    Table.above_of_le (Table.above_filter _ hs) fun e he => by
      have := (List.mem_filter.1 he).2
      simp at this
      exact this.1
  have h2 : Table.above Mem.unwritten d (Mem.slice src a n d) = true := by
    have := Table.above_shift (lo := a) (dst := d) (Nat.le_refl a) hsl fun e he => by
      have := (List.mem_filter.1 he).2
      simp at this
      exact this.1
    simpa [Mem.slice] using this
  unfold Mem.copy
  rw [List.append_assoc]
  refine Table.above_append (m := d) (Table.above_append (m := d + n) h1 (by omega) h2 ?_) (Nat.zero_le d)
    (Table.above_filter _ hd) ?_
  · intro e he
    simp only [Mem.slice, List.mem_map, List.mem_filter] at he
    obtain ⟨x, ⟨_, hx⟩, rfl⟩ := he
    simp at hx
    simp
    omega
  · intro e he
    simpa using (List.mem_filter.1 he).2

end Sys2Proof.Machine
end

