-- ==== Sys2Proof/Laws/Word.lean ====
section
/-! SUPPORT. Sys2Proof/Laws/Word.lean: reading a field of a word after a field of it is replaced. -/
namespace Sys2Proof

theorem Fld.mask_bit (f : Fld) (i : Nat) (hi : i < 32) :
    f.mask.getLsbD i = (decide (f.lo ≤ i) && decide (i < f.hi + 1)) := by
  unfold Fld.mask Fld.width
  rw [BitVec.getLsbD_ofNat, Nat.testBit_mul_two_pow]
  by_cases h : f.lo ≤ i
  · simp only [hi, h, decide_true, Bool.true_and, Nat.testBit_two_pow_sub_one]
    rw [decide_eq_decide]
    omega
  · simp [h]

theorem W32.fld_bit (w : W32) (f : Fld) (k : Nat) :
    (w.fld f).testBit k = (decide (k < f.width) && w.getLsbD (f.lo + k)) := by
  unfold W32.fld
  rw [Nat.testBit_mod_two_pow, Nat.testBit_div_two_pow, ← BitVec.testBit_toNat, Nat.add_comm]

theorem W32.setFld_bit (w : W32) (f : Fld) (v i : Nat) (hi : i < 32) :
    (w.setFld f v).getLsbD i = if f.lo ≤ i ∧ i < f.hi + 1 then v.testBit (i - f.lo) else w.getLsbD i := by
  unfold W32.setFld
  rw [BitVec.getLsbD_or, BitVec.getLsbD_and, BitVec.getLsbD_not, Fld.mask_bit f i hi, BitVec.getLsbD_ofNat,
    Nat.testBit_mul_two_pow, Nat.testBit_mod_two_pow]
  by_cases h1 : f.lo ≤ i
  · by_cases h2 : i < f.hi + 1
    · have : i - f.lo < f.width := by unfold Fld.width; omega
      simp [h1, h2, hi, this]
    · have : ¬ i - f.lo < f.width := by unfold Fld.width; omega
      simp [h1, h2, hi, this]
  · simp [h1, hi]

/-- A field that was replaced reads as the value, taken modulo the field's width. -/
theorem W32.fld_setFld_same (w : W32) (f : Fld) (v : Nat) (h : f.lo ≤ f.hi) (hf : f.hi < 32) :
    (w.setFld f v).fld f = v % 2 ^ f.width := by
  apply Nat.eq_of_testBit_eq
  intro k
  rw [W32.fld_bit, Nat.testBit_mod_two_pow]
  by_cases hk : k < f.width
  · have h1 : f.lo + k < 32 := by unfold Fld.width at hk; omega
    rw [W32.setFld_bit w f v _ h1, if_pos (by unfold Fld.width at hk; omega)]
    simp [hk]
  · simp [hk]

/-- A field apart from the one that was replaced reads as before. -/
theorem W32.fld_setFld_apart (w : W32) (f g : Fld) (v : Nat) (hg : g.hi < 32)
    (h : f.hi < g.lo ∨ g.hi < f.lo) : (w.setFld f v).fld g = w.fld g := by
  apply Nat.eq_of_testBit_eq
  intro k
  rw [W32.fld_bit, W32.fld_bit]
  by_cases hk : k < g.width
  · have h1 : g.lo + k < 32 := by unfold Fld.width at hk; omega
    rw [W32.setFld_bit w f v _ h1, if_neg (by unfold Fld.width at hk; omega)]
  · simp [hk]

end Sys2Proof
end

