-- ==== Sys2Proof/Laws/State.lean ====
section
/-! SUPPORT. Sys2Proof/Laws/State.lean: what each update of the state leaves alone, one lemma for each field and update, and what
a register or an entry reads after it is written. -/
namespace Sys2Proof.Machine

/-! wr changes live alone. -/
@[simp] theorem State.wr_pending (s : State) (o : Nat) (v : W32) : (s.wr o v).pending = s.pending := rfl
@[simp] theorem State.wr_freeCount (s : State) (o : Nat) (v : W32) : (s.wr o v).freeCount = s.freeCount := rfl
@[simp] theorem State.wr_gts (s : State) (o : Nat) (v : W32) : (s.wr o v).gts = s.gts := rfl
@[simp] theorem State.wr_taiSec (s : State) (o : Nat) (v : W32) : (s.wr o v).taiSec = s.taiSec := rfl
@[simp] theorem State.wr_taiNs (s : State) (o : Nat) (v : W32) : (s.wr o v).taiNs = s.taiNs := rfl
@[simp] theorem State.wr_taiFrac (s : State) (o : Nat) (v : W32) : (s.wr o v).taiFrac = s.taiFrac := rfl
@[simp] theorem State.wr_taiRate (s : State) (o : Nat) (v : W32) : (s.wr o v).taiRate = s.taiRate := rfl
@[simp] theorem State.wr_taiValid (s : State) (o : Nat) (v : W32) : (s.wr o v).taiValid = s.taiValid := rfl
@[simp] theorem State.wr_taiOp (s : State) (o : Nat) (v : W32) : (s.wr o v).taiOp = s.taiOp := rfl
@[simp] theorem State.wr_snapPending (s : State) (o : Nat) (v : W32) : (s.wr o v).snapPending = s.snapPending := rfl
@[simp] theorem State.wr_staged (s : State) (o : Nat) (v : W32) : (s.wr o v).staged = s.staged := rfl
@[simp] theorem State.wr_sections (s : State) (o : Nat) (v : W32) : (s.wr o v).sections = s.sections := rfl
@[simp] theorem State.wr_checker (s : State) (o : Nat) (v : W32) : (s.wr o v).checker = s.checker := rfl
@[simp] theorem State.wr_claims (s : State) (o : Nat) (v : W32) : (s.wr o v).claims = s.claims := rfl
@[simp] theorem State.wr_events (s : State) (o : Nat) (v : W32) : (s.wr o v).events = s.events := rfl
@[simp] theorem State.wr_devRing (s : State) (o : Nat) (v : W32) : (s.wr o v).devRing = s.devRing := rfl
@[simp] theorem State.wr_ctxs (s : State) (o : Nat) (v : W32) : (s.wr o v).ctxs = s.ctxs := rfl
@[simp] theorem State.wr_vectors (s : State) (o : Nat) (v : W32) : (s.wr o v).vectors = s.vectors := rfl
@[simp] theorem State.wr_msixVecs (s : State) (o : Nat) (v : W32) : (s.wr o v).msixVecs = s.msixVecs := rfl
@[simp] theorem State.wr_tcmp (s : State) (o : Nat) (v : W32) : (s.wr o v).tcmp = s.tcmp := rfl
@[simp] theorem State.wr_pcmp (s : State) (o : Nat) (v : W32) : (s.wr o v).pcmp = s.pcmp := rfl
@[simp] theorem State.wr_phases (s : State) (o : Nat) (v : W32) : (s.wr o v).phases = s.phases := rfl
@[simp] theorem State.wr_fsyncs (s : State) (o : Nat) (v : W32) : (s.wr o v).fsyncs = s.fsyncs := rfl
@[simp] theorem State.wr_eth (s : State) (o : Nat) (v : W32) : (s.wr o v).eth = s.eth := rfl
@[simp] theorem State.wr_integ (s : State) (o : Nat) (v : W32) : (s.wr o v).integ = s.integ := rfl
@[simp] theorem State.wr_pairs (s : State) (o : Nat) (v : W32) : (s.wr o v).pairs = s.pairs := rfl
@[simp] theorem State.wr_clk (s : State) (o : Nat) (v : W32) : (s.wr o v).clk = s.clk := rfl
@[simp] theorem State.wr_pwr (s : State) (o : Nat) (v : W32) : (s.wr o v).pwr = s.pwr := rfl
@[simp] theorem State.wr_pins (s : State) (o : Nat) (v : W32) : (s.wr o v).pins = s.pins := rfl
@[simp] theorem State.wr_pcieUp (s : State) (o : Nat) (v : W32) : (s.wr o v).pcieUp = s.pcieUp := rfl
@[simp] theorem State.wr_weir (s : State) (o : Nat) (v : W32) : (s.wr o v).weir = s.weir := rfl
@[simp] theorem State.wr_dram (s : State) (o : Nat) (v : W32) : (s.wr o v).dram = s.dram := rfl
@[simp] theorem State.wr_cistern (s : State) (o : Nat) (v : W32) : (s.wr o v).cistern = s.cistern := rfl
@[simp] theorem State.wr_pages (s : State) (o : Nat) (v : W32) : (s.wr o v).pages = s.pages := rfl
@[simp] theorem State.wr_freeSeq (s : State) (o : Nat) (v : W32) : (s.wr o v).freeSeq = s.freeSeq := rfl
@[simp] theorem State.wr_ftns (s : State) (o : Nat) (v : W32) : (s.wr o v).ftns = s.ftns := rfl
@[simp] theorem State.wr_cores (s : State) (o : Nat) (v : W32) : (s.wr o v).cores = s.cores := rfl
@[simp] theorem State.wr_skim (s : State) (o : Nat) (v : W32) : (s.wr o v).skim = s.skim := rfl
@[simp] theorem State.wr_ddr (s : State) (o : Nat) (v : W32) : (s.wr o v).ddr = s.ddr := rfl
@[simp] theorem State.wr_fwp (s : State) (o : Nat) (v : W32) : (s.wr o v).fwp = s.fwp := rfl
@[simp] theorem State.wr_tok (s : State) (o : Nat) (v : W32) : (s.wr o v).tok = s.tok := rfl
@[simp] theorem State.wr_tokEnd (s : State) (o : Nat) (v : W32) : (s.wr o v).tokEnd = s.tokEnd := rfl
@[simp] theorem State.wr_streams (s : State) (o : Nat) (v : W32) : (s.wr o v).streams = s.streams := rfl
@[simp] theorem State.wr_pipes (s : State) (o : Nat) (v : W32) : (s.wr o v).pipes = s.pipes := rfl
@[simp] theorem State.wr_spout (s : State) (o : Nat) (v : W32) : (s.wr o v).spout = s.spout := rfl
@[simp] theorem State.wr_decs (s : State) (o : Nat) (v : W32) : (s.wr o v).decs = s.decs := rfl
@[simp] theorem State.wr_encs (s : State) (o : Nat) (v : W32) : (s.wr o v).encs = s.encs := rfl
@[simp] theorem State.wr_boot (s : State) (o : Nat) (v : W32) : (s.wr o v).boot = s.boot := rfl
@[simp] theorem State.wr_up (s : State) (o : Nat) (v : W32) : (s.wr o v).up = s.up := rfl
@[simp] theorem State.wr_clockOn (s : State) (o : Nat) (v : W32) : (s.wr o v).clockOn = s.clockOn := rfl
/-! wf changes live alone. -/
@[simp] theorem State.wf_pending (s : State) (o : Nat) (f : Fld) (v : Nat) : (s.wf o f v).pending = s.pending := rfl
@[simp] theorem State.wf_freeCount (s : State) (o : Nat) (f : Fld) (v : Nat) : (s.wf o f v).freeCount = s.freeCount := rfl
@[simp] theorem State.wf_gts (s : State) (o : Nat) (f : Fld) (v : Nat) : (s.wf o f v).gts = s.gts := rfl
@[simp] theorem State.wf_taiSec (s : State) (o : Nat) (f : Fld) (v : Nat) : (s.wf o f v).taiSec = s.taiSec := rfl
@[simp] theorem State.wf_taiNs (s : State) (o : Nat) (f : Fld) (v : Nat) : (s.wf o f v).taiNs = s.taiNs := rfl
@[simp] theorem State.wf_taiFrac (s : State) (o : Nat) (f : Fld) (v : Nat) : (s.wf o f v).taiFrac = s.taiFrac := rfl
@[simp] theorem State.wf_taiRate (s : State) (o : Nat) (f : Fld) (v : Nat) : (s.wf o f v).taiRate = s.taiRate := rfl
@[simp] theorem State.wf_taiValid (s : State) (o : Nat) (f : Fld) (v : Nat) : (s.wf o f v).taiValid = s.taiValid := rfl
@[simp] theorem State.wf_taiOp (s : State) (o : Nat) (f : Fld) (v : Nat) : (s.wf o f v).taiOp = s.taiOp := rfl
@[simp] theorem State.wf_snapPending (s : State) (o : Nat) (f : Fld) (v : Nat) : (s.wf o f v).snapPending = s.snapPending := rfl
@[simp] theorem State.wf_staged (s : State) (o : Nat) (f : Fld) (v : Nat) : (s.wf o f v).staged = s.staged := rfl
@[simp] theorem State.wf_sections (s : State) (o : Nat) (f : Fld) (v : Nat) : (s.wf o f v).sections = s.sections := rfl
@[simp] theorem State.wf_checker (s : State) (o : Nat) (f : Fld) (v : Nat) : (s.wf o f v).checker = s.checker := rfl
@[simp] theorem State.wf_claims (s : State) (o : Nat) (f : Fld) (v : Nat) : (s.wf o f v).claims = s.claims := rfl
@[simp] theorem State.wf_events (s : State) (o : Nat) (f : Fld) (v : Nat) : (s.wf o f v).events = s.events := rfl
@[simp] theorem State.wf_devRing (s : State) (o : Nat) (f : Fld) (v : Nat) : (s.wf o f v).devRing = s.devRing := rfl
@[simp] theorem State.wf_ctxs (s : State) (o : Nat) (f : Fld) (v : Nat) : (s.wf o f v).ctxs = s.ctxs := rfl
@[simp] theorem State.wf_vectors (s : State) (o : Nat) (f : Fld) (v : Nat) : (s.wf o f v).vectors = s.vectors := rfl
@[simp] theorem State.wf_msixVecs (s : State) (o : Nat) (f : Fld) (v : Nat) : (s.wf o f v).msixVecs = s.msixVecs := rfl
@[simp] theorem State.wf_tcmp (s : State) (o : Nat) (f : Fld) (v : Nat) : (s.wf o f v).tcmp = s.tcmp := rfl
@[simp] theorem State.wf_pcmp (s : State) (o : Nat) (f : Fld) (v : Nat) : (s.wf o f v).pcmp = s.pcmp := rfl
@[simp] theorem State.wf_phases (s : State) (o : Nat) (f : Fld) (v : Nat) : (s.wf o f v).phases = s.phases := rfl
@[simp] theorem State.wf_fsyncs (s : State) (o : Nat) (f : Fld) (v : Nat) : (s.wf o f v).fsyncs = s.fsyncs := rfl
@[simp] theorem State.wf_eth (s : State) (o : Nat) (f : Fld) (v : Nat) : (s.wf o f v).eth = s.eth := rfl
@[simp] theorem State.wf_integ (s : State) (o : Nat) (f : Fld) (v : Nat) : (s.wf o f v).integ = s.integ := rfl
@[simp] theorem State.wf_pairs (s : State) (o : Nat) (f : Fld) (v : Nat) : (s.wf o f v).pairs = s.pairs := rfl
@[simp] theorem State.wf_clk (s : State) (o : Nat) (f : Fld) (v : Nat) : (s.wf o f v).clk = s.clk := rfl
@[simp] theorem State.wf_pwr (s : State) (o : Nat) (f : Fld) (v : Nat) : (s.wf o f v).pwr = s.pwr := rfl
@[simp] theorem State.wf_pins (s : State) (o : Nat) (f : Fld) (v : Nat) : (s.wf o f v).pins = s.pins := rfl
@[simp] theorem State.wf_pcieUp (s : State) (o : Nat) (f : Fld) (v : Nat) : (s.wf o f v).pcieUp = s.pcieUp := rfl
@[simp] theorem State.wf_weir (s : State) (o : Nat) (f : Fld) (v : Nat) : (s.wf o f v).weir = s.weir := rfl
@[simp] theorem State.wf_dram (s : State) (o : Nat) (f : Fld) (v : Nat) : (s.wf o f v).dram = s.dram := rfl
@[simp] theorem State.wf_cistern (s : State) (o : Nat) (f : Fld) (v : Nat) : (s.wf o f v).cistern = s.cistern := rfl
@[simp] theorem State.wf_pages (s : State) (o : Nat) (f : Fld) (v : Nat) : (s.wf o f v).pages = s.pages := rfl
@[simp] theorem State.wf_freeSeq (s : State) (o : Nat) (f : Fld) (v : Nat) : (s.wf o f v).freeSeq = s.freeSeq := rfl
@[simp] theorem State.wf_ftns (s : State) (o : Nat) (f : Fld) (v : Nat) : (s.wf o f v).ftns = s.ftns := rfl
@[simp] theorem State.wf_cores (s : State) (o : Nat) (f : Fld) (v : Nat) : (s.wf o f v).cores = s.cores := rfl
@[simp] theorem State.wf_skim (s : State) (o : Nat) (f : Fld) (v : Nat) : (s.wf o f v).skim = s.skim := rfl
@[simp] theorem State.wf_ddr (s : State) (o : Nat) (f : Fld) (v : Nat) : (s.wf o f v).ddr = s.ddr := rfl
@[simp] theorem State.wf_fwp (s : State) (o : Nat) (f : Fld) (v : Nat) : (s.wf o f v).fwp = s.fwp := rfl
@[simp] theorem State.wf_tok (s : State) (o : Nat) (f : Fld) (v : Nat) : (s.wf o f v).tok = s.tok := rfl
@[simp] theorem State.wf_tokEnd (s : State) (o : Nat) (f : Fld) (v : Nat) : (s.wf o f v).tokEnd = s.tokEnd := rfl
@[simp] theorem State.wf_streams (s : State) (o : Nat) (f : Fld) (v : Nat) : (s.wf o f v).streams = s.streams := rfl
@[simp] theorem State.wf_pipes (s : State) (o : Nat) (f : Fld) (v : Nat) : (s.wf o f v).pipes = s.pipes := rfl
@[simp] theorem State.wf_spout (s : State) (o : Nat) (f : Fld) (v : Nat) : (s.wf o f v).spout = s.spout := rfl
@[simp] theorem State.wf_decs (s : State) (o : Nat) (f : Fld) (v : Nat) : (s.wf o f v).decs = s.decs := rfl
@[simp] theorem State.wf_encs (s : State) (o : Nat) (f : Fld) (v : Nat) : (s.wf o f v).encs = s.encs := rfl
@[simp] theorem State.wf_boot (s : State) (o : Nat) (f : Fld) (v : Nat) : (s.wf o f v).boot = s.boot := rfl
@[simp] theorem State.wf_up (s : State) (o : Nat) (f : Fld) (v : Nat) : (s.wf o f v).up = s.up := rfl
@[simp] theorem State.wf_clockOn (s : State) (o : Nat) (f : Fld) (v : Nat) : (s.wf o f v).clockOn = s.clockOn := rfl
/-! wn changes live alone. -/
@[simp] theorem State.wn_pending (s : State) (o v : Nat) : (s.wn o v).pending = s.pending := rfl
@[simp] theorem State.wn_freeCount (s : State) (o v : Nat) : (s.wn o v).freeCount = s.freeCount := rfl
@[simp] theorem State.wn_gts (s : State) (o v : Nat) : (s.wn o v).gts = s.gts := rfl
@[simp] theorem State.wn_taiSec (s : State) (o v : Nat) : (s.wn o v).taiSec = s.taiSec := rfl
@[simp] theorem State.wn_taiNs (s : State) (o v : Nat) : (s.wn o v).taiNs = s.taiNs := rfl
@[simp] theorem State.wn_taiFrac (s : State) (o v : Nat) : (s.wn o v).taiFrac = s.taiFrac := rfl
@[simp] theorem State.wn_taiRate (s : State) (o v : Nat) : (s.wn o v).taiRate = s.taiRate := rfl
@[simp] theorem State.wn_taiValid (s : State) (o v : Nat) : (s.wn o v).taiValid = s.taiValid := rfl
@[simp] theorem State.wn_taiOp (s : State) (o v : Nat) : (s.wn o v).taiOp = s.taiOp := rfl
@[simp] theorem State.wn_snapPending (s : State) (o v : Nat) : (s.wn o v).snapPending = s.snapPending := rfl
@[simp] theorem State.wn_staged (s : State) (o v : Nat) : (s.wn o v).staged = s.staged := rfl
@[simp] theorem State.wn_sections (s : State) (o v : Nat) : (s.wn o v).sections = s.sections := rfl
@[simp] theorem State.wn_checker (s : State) (o v : Nat) : (s.wn o v).checker = s.checker := rfl
@[simp] theorem State.wn_claims (s : State) (o v : Nat) : (s.wn o v).claims = s.claims := rfl
@[simp] theorem State.wn_events (s : State) (o v : Nat) : (s.wn o v).events = s.events := rfl
@[simp] theorem State.wn_devRing (s : State) (o v : Nat) : (s.wn o v).devRing = s.devRing := rfl
@[simp] theorem State.wn_ctxs (s : State) (o v : Nat) : (s.wn o v).ctxs = s.ctxs := rfl
@[simp] theorem State.wn_vectors (s : State) (o v : Nat) : (s.wn o v).vectors = s.vectors := rfl
@[simp] theorem State.wn_msixVecs (s : State) (o v : Nat) : (s.wn o v).msixVecs = s.msixVecs := rfl
@[simp] theorem State.wn_tcmp (s : State) (o v : Nat) : (s.wn o v).tcmp = s.tcmp := rfl
@[simp] theorem State.wn_pcmp (s : State) (o v : Nat) : (s.wn o v).pcmp = s.pcmp := rfl
@[simp] theorem State.wn_phases (s : State) (o v : Nat) : (s.wn o v).phases = s.phases := rfl
@[simp] theorem State.wn_fsyncs (s : State) (o v : Nat) : (s.wn o v).fsyncs = s.fsyncs := rfl
@[simp] theorem State.wn_eth (s : State) (o v : Nat) : (s.wn o v).eth = s.eth := rfl
@[simp] theorem State.wn_integ (s : State) (o v : Nat) : (s.wn o v).integ = s.integ := rfl
@[simp] theorem State.wn_pairs (s : State) (o v : Nat) : (s.wn o v).pairs = s.pairs := rfl
@[simp] theorem State.wn_clk (s : State) (o v : Nat) : (s.wn o v).clk = s.clk := rfl
@[simp] theorem State.wn_pwr (s : State) (o v : Nat) : (s.wn o v).pwr = s.pwr := rfl
@[simp] theorem State.wn_pins (s : State) (o v : Nat) : (s.wn o v).pins = s.pins := rfl
@[simp] theorem State.wn_pcieUp (s : State) (o v : Nat) : (s.wn o v).pcieUp = s.pcieUp := rfl
@[simp] theorem State.wn_weir (s : State) (o v : Nat) : (s.wn o v).weir = s.weir := rfl
@[simp] theorem State.wn_dram (s : State) (o v : Nat) : (s.wn o v).dram = s.dram := rfl
@[simp] theorem State.wn_cistern (s : State) (o v : Nat) : (s.wn o v).cistern = s.cistern := rfl
@[simp] theorem State.wn_pages (s : State) (o v : Nat) : (s.wn o v).pages = s.pages := rfl
@[simp] theorem State.wn_freeSeq (s : State) (o v : Nat) : (s.wn o v).freeSeq = s.freeSeq := rfl
@[simp] theorem State.wn_ftns (s : State) (o v : Nat) : (s.wn o v).ftns = s.ftns := rfl
@[simp] theorem State.wn_cores (s : State) (o v : Nat) : (s.wn o v).cores = s.cores := rfl
@[simp] theorem State.wn_skim (s : State) (o v : Nat) : (s.wn o v).skim = s.skim := rfl
@[simp] theorem State.wn_ddr (s : State) (o v : Nat) : (s.wn o v).ddr = s.ddr := rfl
@[simp] theorem State.wn_fwp (s : State) (o v : Nat) : (s.wn o v).fwp = s.fwp := rfl
@[simp] theorem State.wn_tok (s : State) (o v : Nat) : (s.wn o v).tok = s.tok := rfl
@[simp] theorem State.wn_tokEnd (s : State) (o v : Nat) : (s.wn o v).tokEnd = s.tokEnd := rfl
@[simp] theorem State.wn_streams (s : State) (o v : Nat) : (s.wn o v).streams = s.streams := rfl
@[simp] theorem State.wn_pipes (s : State) (o v : Nat) : (s.wn o v).pipes = s.pipes := rfl
@[simp] theorem State.wn_spout (s : State) (o v : Nat) : (s.wn o v).spout = s.spout := rfl
@[simp] theorem State.wn_decs (s : State) (o v : Nat) : (s.wn o v).decs = s.decs := rfl
@[simp] theorem State.wn_encs (s : State) (o v : Nat) : (s.wn o v).encs = s.encs := rfl
@[simp] theorem State.wn_boot (s : State) (o v : Nat) : (s.wn o v).boot = s.boot := rfl
@[simp] theorem State.wn_up (s : State) (o v : Nat) : (s.wn o v).up = s.up := rfl
@[simp] theorem State.wn_clockOn (s : State) (o v : Nat) : (s.wn o v).clockOn = s.clockOn := rfl
/-! stage changes staged alone. -/
@[simp] theorem State.stage_pending (s : State) (o : Nat) (v : Option W32) : (s.stage o v).pending = s.pending := rfl
@[simp] theorem State.stage_freeCount (s : State) (o : Nat) (v : Option W32) : (s.stage o v).freeCount = s.freeCount := rfl
@[simp] theorem State.stage_gts (s : State) (o : Nat) (v : Option W32) : (s.stage o v).gts = s.gts := rfl
@[simp] theorem State.stage_taiSec (s : State) (o : Nat) (v : Option W32) : (s.stage o v).taiSec = s.taiSec := rfl
@[simp] theorem State.stage_taiNs (s : State) (o : Nat) (v : Option W32) : (s.stage o v).taiNs = s.taiNs := rfl
@[simp] theorem State.stage_taiFrac (s : State) (o : Nat) (v : Option W32) : (s.stage o v).taiFrac = s.taiFrac := rfl
@[simp] theorem State.stage_taiRate (s : State) (o : Nat) (v : Option W32) : (s.stage o v).taiRate = s.taiRate := rfl
@[simp] theorem State.stage_taiValid (s : State) (o : Nat) (v : Option W32) : (s.stage o v).taiValid = s.taiValid := rfl
@[simp] theorem State.stage_taiOp (s : State) (o : Nat) (v : Option W32) : (s.stage o v).taiOp = s.taiOp := rfl
@[simp] theorem State.stage_snapPending (s : State) (o : Nat) (v : Option W32) : (s.stage o v).snapPending = s.snapPending := rfl
@[simp] theorem State.stage_live (s : State) (o : Nat) (v : Option W32) : (s.stage o v).live = s.live := rfl
@[simp] theorem State.stage_sections (s : State) (o : Nat) (v : Option W32) : (s.stage o v).sections = s.sections := rfl
@[simp] theorem State.stage_checker (s : State) (o : Nat) (v : Option W32) : (s.stage o v).checker = s.checker := rfl
@[simp] theorem State.stage_claims (s : State) (o : Nat) (v : Option W32) : (s.stage o v).claims = s.claims := rfl
@[simp] theorem State.stage_events (s : State) (o : Nat) (v : Option W32) : (s.stage o v).events = s.events := rfl
@[simp] theorem State.stage_devRing (s : State) (o : Nat) (v : Option W32) : (s.stage o v).devRing = s.devRing := rfl
@[simp] theorem State.stage_ctxs (s : State) (o : Nat) (v : Option W32) : (s.stage o v).ctxs = s.ctxs := rfl
@[simp] theorem State.stage_vectors (s : State) (o : Nat) (v : Option W32) : (s.stage o v).vectors = s.vectors := rfl
@[simp] theorem State.stage_msixVecs (s : State) (o : Nat) (v : Option W32) : (s.stage o v).msixVecs = s.msixVecs := rfl
@[simp] theorem State.stage_tcmp (s : State) (o : Nat) (v : Option W32) : (s.stage o v).tcmp = s.tcmp := rfl
@[simp] theorem State.stage_pcmp (s : State) (o : Nat) (v : Option W32) : (s.stage o v).pcmp = s.pcmp := rfl
@[simp] theorem State.stage_phases (s : State) (o : Nat) (v : Option W32) : (s.stage o v).phases = s.phases := rfl
@[simp] theorem State.stage_fsyncs (s : State) (o : Nat) (v : Option W32) : (s.stage o v).fsyncs = s.fsyncs := rfl
@[simp] theorem State.stage_eth (s : State) (o : Nat) (v : Option W32) : (s.stage o v).eth = s.eth := rfl
@[simp] theorem State.stage_integ (s : State) (o : Nat) (v : Option W32) : (s.stage o v).integ = s.integ := rfl
@[simp] theorem State.stage_pairs (s : State) (o : Nat) (v : Option W32) : (s.stage o v).pairs = s.pairs := rfl
@[simp] theorem State.stage_clk (s : State) (o : Nat) (v : Option W32) : (s.stage o v).clk = s.clk := rfl
@[simp] theorem State.stage_pwr (s : State) (o : Nat) (v : Option W32) : (s.stage o v).pwr = s.pwr := rfl
@[simp] theorem State.stage_pins (s : State) (o : Nat) (v : Option W32) : (s.stage o v).pins = s.pins := rfl
@[simp] theorem State.stage_pcieUp (s : State) (o : Nat) (v : Option W32) : (s.stage o v).pcieUp = s.pcieUp := rfl
@[simp] theorem State.stage_weir (s : State) (o : Nat) (v : Option W32) : (s.stage o v).weir = s.weir := rfl
@[simp] theorem State.stage_dram (s : State) (o : Nat) (v : Option W32) : (s.stage o v).dram = s.dram := rfl
@[simp] theorem State.stage_cistern (s : State) (o : Nat) (v : Option W32) : (s.stage o v).cistern = s.cistern := rfl
@[simp] theorem State.stage_pages (s : State) (o : Nat) (v : Option W32) : (s.stage o v).pages = s.pages := rfl
@[simp] theorem State.stage_freeSeq (s : State) (o : Nat) (v : Option W32) : (s.stage o v).freeSeq = s.freeSeq := rfl
@[simp] theorem State.stage_ftns (s : State) (o : Nat) (v : Option W32) : (s.stage o v).ftns = s.ftns := rfl
@[simp] theorem State.stage_cores (s : State) (o : Nat) (v : Option W32) : (s.stage o v).cores = s.cores := rfl
@[simp] theorem State.stage_skim (s : State) (o : Nat) (v : Option W32) : (s.stage o v).skim = s.skim := rfl
@[simp] theorem State.stage_ddr (s : State) (o : Nat) (v : Option W32) : (s.stage o v).ddr = s.ddr := rfl
@[simp] theorem State.stage_fwp (s : State) (o : Nat) (v : Option W32) : (s.stage o v).fwp = s.fwp := rfl
@[simp] theorem State.stage_tok (s : State) (o : Nat) (v : Option W32) : (s.stage o v).tok = s.tok := rfl
@[simp] theorem State.stage_tokEnd (s : State) (o : Nat) (v : Option W32) : (s.stage o v).tokEnd = s.tokEnd := rfl
@[simp] theorem State.stage_streams (s : State) (o : Nat) (v : Option W32) : (s.stage o v).streams = s.streams := rfl
@[simp] theorem State.stage_pipes (s : State) (o : Nat) (v : Option W32) : (s.stage o v).pipes = s.pipes := rfl
@[simp] theorem State.stage_spout (s : State) (o : Nat) (v : Option W32) : (s.stage o v).spout = s.spout := rfl
@[simp] theorem State.stage_decs (s : State) (o : Nat) (v : Option W32) : (s.stage o v).decs = s.decs := rfl
@[simp] theorem State.stage_encs (s : State) (o : Nat) (v : Option W32) : (s.stage o v).encs = s.encs := rfl
@[simp] theorem State.stage_boot (s : State) (o : Nat) (v : Option W32) : (s.stage o v).boot = s.boot := rfl
@[simp] theorem State.stage_rd (s : State) (o : Nat) (v : Option W32) (off : Nat) : (s.stage o v).rd off = s.rd off := rfl
@[simp] theorem State.stage_rf (s : State) (o : Nat) (v : Option W32) (off : Nat) (g : Fld) : (s.stage o v).rf off g = s.rf off g := rfl
@[simp] theorem State.stage_rn (s : State) (o : Nat) (v : Option W32) (off : Nat) : (s.stage o v).rn off = s.rn off := rfl
@[simp] theorem State.stage_legacy (s : State) (o : Nat) (v : Option W32) : (s.stage o v).legacy = s.legacy := rfl
@[simp] theorem State.stage_up (s : State) (o : Nat) (v : Option W32) : (s.stage o v).up = s.up := rfl
@[simp] theorem State.stage_clockOn (s : State) (o : Nat) (v : Option W32) : (s.stage o v).clockOn = s.clockOn := rfl
/-! raise changes events alone. -/
@[simp] theorem State.raise_pending (s : State) (e : Event) : (s.raise e).pending = s.pending := rfl
@[simp] theorem State.raise_freeCount (s : State) (e : Event) : (s.raise e).freeCount = s.freeCount := rfl
@[simp] theorem State.raise_gts (s : State) (e : Event) : (s.raise e).gts = s.gts := rfl
@[simp] theorem State.raise_taiSec (s : State) (e : Event) : (s.raise e).taiSec = s.taiSec := rfl
@[simp] theorem State.raise_taiNs (s : State) (e : Event) : (s.raise e).taiNs = s.taiNs := rfl
@[simp] theorem State.raise_taiFrac (s : State) (e : Event) : (s.raise e).taiFrac = s.taiFrac := rfl
@[simp] theorem State.raise_taiRate (s : State) (e : Event) : (s.raise e).taiRate = s.taiRate := rfl
@[simp] theorem State.raise_taiValid (s : State) (e : Event) : (s.raise e).taiValid = s.taiValid := rfl
@[simp] theorem State.raise_taiOp (s : State) (e : Event) : (s.raise e).taiOp = s.taiOp := rfl
@[simp] theorem State.raise_snapPending (s : State) (e : Event) : (s.raise e).snapPending = s.snapPending := rfl
@[simp] theorem State.raise_live (s : State) (e : Event) : (s.raise e).live = s.live := rfl
@[simp] theorem State.raise_staged (s : State) (e : Event) : (s.raise e).staged = s.staged := rfl
@[simp] theorem State.raise_sections (s : State) (e : Event) : (s.raise e).sections = s.sections := rfl
@[simp] theorem State.raise_checker (s : State) (e : Event) : (s.raise e).checker = s.checker := rfl
@[simp] theorem State.raise_claims (s : State) (e : Event) : (s.raise e).claims = s.claims := rfl
@[simp] theorem State.raise_devRing (s : State) (e : Event) : (s.raise e).devRing = s.devRing := rfl
@[simp] theorem State.raise_ctxs (s : State) (e : Event) : (s.raise e).ctxs = s.ctxs := rfl
@[simp] theorem State.raise_vectors (s : State) (e : Event) : (s.raise e).vectors = s.vectors := rfl
@[simp] theorem State.raise_msixVecs (s : State) (e : Event) : (s.raise e).msixVecs = s.msixVecs := rfl
@[simp] theorem State.raise_tcmp (s : State) (e : Event) : (s.raise e).tcmp = s.tcmp := rfl
@[simp] theorem State.raise_pcmp (s : State) (e : Event) : (s.raise e).pcmp = s.pcmp := rfl
@[simp] theorem State.raise_phases (s : State) (e : Event) : (s.raise e).phases = s.phases := rfl
@[simp] theorem State.raise_fsyncs (s : State) (e : Event) : (s.raise e).fsyncs = s.fsyncs := rfl
@[simp] theorem State.raise_eth (s : State) (e : Event) : (s.raise e).eth = s.eth := rfl
@[simp] theorem State.raise_integ (s : State) (e : Event) : (s.raise e).integ = s.integ := rfl
@[simp] theorem State.raise_pairs (s : State) (e : Event) : (s.raise e).pairs = s.pairs := rfl
@[simp] theorem State.raise_clk (s : State) (e : Event) : (s.raise e).clk = s.clk := rfl
@[simp] theorem State.raise_pwr (s : State) (e : Event) : (s.raise e).pwr = s.pwr := rfl
@[simp] theorem State.raise_pins (s : State) (e : Event) : (s.raise e).pins = s.pins := rfl
@[simp] theorem State.raise_pcieUp (s : State) (e : Event) : (s.raise e).pcieUp = s.pcieUp := rfl
@[simp] theorem State.raise_weir (s : State) (e : Event) : (s.raise e).weir = s.weir := rfl
@[simp] theorem State.raise_dram (s : State) (e : Event) : (s.raise e).dram = s.dram := rfl
@[simp] theorem State.raise_cistern (s : State) (e : Event) : (s.raise e).cistern = s.cistern := rfl
@[simp] theorem State.raise_pages (s : State) (e : Event) : (s.raise e).pages = s.pages := rfl
@[simp] theorem State.raise_freeSeq (s : State) (e : Event) : (s.raise e).freeSeq = s.freeSeq := rfl
@[simp] theorem State.raise_ftns (s : State) (e : Event) : (s.raise e).ftns = s.ftns := rfl
@[simp] theorem State.raise_cores (s : State) (e : Event) : (s.raise e).cores = s.cores := rfl
@[simp] theorem State.raise_skim (s : State) (e : Event) : (s.raise e).skim = s.skim := rfl
@[simp] theorem State.raise_ddr (s : State) (e : Event) : (s.raise e).ddr = s.ddr := rfl
@[simp] theorem State.raise_fwp (s : State) (e : Event) : (s.raise e).fwp = s.fwp := rfl
@[simp] theorem State.raise_tok (s : State) (e : Event) : (s.raise e).tok = s.tok := rfl
@[simp] theorem State.raise_tokEnd (s : State) (e : Event) : (s.raise e).tokEnd = s.tokEnd := rfl
@[simp] theorem State.raise_streams (s : State) (e : Event) : (s.raise e).streams = s.streams := rfl
@[simp] theorem State.raise_pipes (s : State) (e : Event) : (s.raise e).pipes = s.pipes := rfl
@[simp] theorem State.raise_spout (s : State) (e : Event) : (s.raise e).spout = s.spout := rfl
@[simp] theorem State.raise_decs (s : State) (e : Event) : (s.raise e).decs = s.decs := rfl
@[simp] theorem State.raise_encs (s : State) (e : Event) : (s.raise e).encs = s.encs := rfl
@[simp] theorem State.raise_boot (s : State) (e : Event) : (s.raise e).boot = s.boot := rfl
@[simp] theorem State.raise_rd (s : State) (e : Event) (off : Nat) : (s.raise e).rd off = s.rd off := rfl
@[simp] theorem State.raise_rf (s : State) (e : Event) (off : Nat) (g : Fld) : (s.raise e).rf off g = s.rf off g := rfl
@[simp] theorem State.raise_rn (s : State) (e : Event) (off : Nat) : (s.raise e).rn off = s.rn off := rfl
@[simp] theorem State.raise_legacy (s : State) (e : Event) : (s.raise e).legacy = s.legacy := rfl
@[simp] theorem State.raise_up (s : State) (e : Event) : (s.raise e).up = s.up := rfl
@[simp] theorem State.raise_clockOn (s : State) (e : Event) : (s.raise e).clockOn = s.clockOn := rfl
/-! raiseDev changes events alone. -/
@[simp] theorem State.raiseDev_pending (s : State) (a b c : Nat) : (s.raiseDev a b c).pending = s.pending := rfl
@[simp] theorem State.raiseDev_freeCount (s : State) (a b c : Nat) : (s.raiseDev a b c).freeCount = s.freeCount := rfl
@[simp] theorem State.raiseDev_gts (s : State) (a b c : Nat) : (s.raiseDev a b c).gts = s.gts := rfl
@[simp] theorem State.raiseDev_taiSec (s : State) (a b c : Nat) : (s.raiseDev a b c).taiSec = s.taiSec := rfl
@[simp] theorem State.raiseDev_taiNs (s : State) (a b c : Nat) : (s.raiseDev a b c).taiNs = s.taiNs := rfl
@[simp] theorem State.raiseDev_taiFrac (s : State) (a b c : Nat) : (s.raiseDev a b c).taiFrac = s.taiFrac := rfl
@[simp] theorem State.raiseDev_taiRate (s : State) (a b c : Nat) : (s.raiseDev a b c).taiRate = s.taiRate := rfl
@[simp] theorem State.raiseDev_taiValid (s : State) (a b c : Nat) : (s.raiseDev a b c).taiValid = s.taiValid := rfl
@[simp] theorem State.raiseDev_taiOp (s : State) (a b c : Nat) : (s.raiseDev a b c).taiOp = s.taiOp := rfl
@[simp] theorem State.raiseDev_snapPending (s : State) (a b c : Nat) : (s.raiseDev a b c).snapPending = s.snapPending := rfl
@[simp] theorem State.raiseDev_live (s : State) (a b c : Nat) : (s.raiseDev a b c).live = s.live := rfl
@[simp] theorem State.raiseDev_staged (s : State) (a b c : Nat) : (s.raiseDev a b c).staged = s.staged := rfl
@[simp] theorem State.raiseDev_sections (s : State) (a b c : Nat) : (s.raiseDev a b c).sections = s.sections := rfl
@[simp] theorem State.raiseDev_checker (s : State) (a b c : Nat) : (s.raiseDev a b c).checker = s.checker := rfl
@[simp] theorem State.raiseDev_claims (s : State) (a b c : Nat) : (s.raiseDev a b c).claims = s.claims := rfl
@[simp] theorem State.raiseDev_devRing (s : State) (a b c : Nat) : (s.raiseDev a b c).devRing = s.devRing := rfl
@[simp] theorem State.raiseDev_ctxs (s : State) (a b c : Nat) : (s.raiseDev a b c).ctxs = s.ctxs := rfl
@[simp] theorem State.raiseDev_vectors (s : State) (a b c : Nat) : (s.raiseDev a b c).vectors = s.vectors := rfl
@[simp] theorem State.raiseDev_msixVecs (s : State) (a b c : Nat) : (s.raiseDev a b c).msixVecs = s.msixVecs := rfl
@[simp] theorem State.raiseDev_tcmp (s : State) (a b c : Nat) : (s.raiseDev a b c).tcmp = s.tcmp := rfl
@[simp] theorem State.raiseDev_pcmp (s : State) (a b c : Nat) : (s.raiseDev a b c).pcmp = s.pcmp := rfl
@[simp] theorem State.raiseDev_phases (s : State) (a b c : Nat) : (s.raiseDev a b c).phases = s.phases := rfl
@[simp] theorem State.raiseDev_fsyncs (s : State) (a b c : Nat) : (s.raiseDev a b c).fsyncs = s.fsyncs := rfl
@[simp] theorem State.raiseDev_eth (s : State) (a b c : Nat) : (s.raiseDev a b c).eth = s.eth := rfl
@[simp] theorem State.raiseDev_integ (s : State) (a b c : Nat) : (s.raiseDev a b c).integ = s.integ := rfl
@[simp] theorem State.raiseDev_pairs (s : State) (a b c : Nat) : (s.raiseDev a b c).pairs = s.pairs := rfl
@[simp] theorem State.raiseDev_clk (s : State) (a b c : Nat) : (s.raiseDev a b c).clk = s.clk := rfl
@[simp] theorem State.raiseDev_pwr (s : State) (a b c : Nat) : (s.raiseDev a b c).pwr = s.pwr := rfl
@[simp] theorem State.raiseDev_pins (s : State) (a b c : Nat) : (s.raiseDev a b c).pins = s.pins := rfl
@[simp] theorem State.raiseDev_pcieUp (s : State) (a b c : Nat) : (s.raiseDev a b c).pcieUp = s.pcieUp := rfl
@[simp] theorem State.raiseDev_weir (s : State) (a b c : Nat) : (s.raiseDev a b c).weir = s.weir := rfl
@[simp] theorem State.raiseDev_dram (s : State) (a b c : Nat) : (s.raiseDev a b c).dram = s.dram := rfl
@[simp] theorem State.raiseDev_cistern (s : State) (a b c : Nat) : (s.raiseDev a b c).cistern = s.cistern := rfl
@[simp] theorem State.raiseDev_pages (s : State) (a b c : Nat) : (s.raiseDev a b c).pages = s.pages := rfl
@[simp] theorem State.raiseDev_freeSeq (s : State) (a b c : Nat) : (s.raiseDev a b c).freeSeq = s.freeSeq := rfl
@[simp] theorem State.raiseDev_ftns (s : State) (a b c : Nat) : (s.raiseDev a b c).ftns = s.ftns := rfl
@[simp] theorem State.raiseDev_cores (s : State) (a b c : Nat) : (s.raiseDev a b c).cores = s.cores := rfl
@[simp] theorem State.raiseDev_skim (s : State) (a b c : Nat) : (s.raiseDev a b c).skim = s.skim := rfl
@[simp] theorem State.raiseDev_ddr (s : State) (a b c : Nat) : (s.raiseDev a b c).ddr = s.ddr := rfl
@[simp] theorem State.raiseDev_fwp (s : State) (a b c : Nat) : (s.raiseDev a b c).fwp = s.fwp := rfl
@[simp] theorem State.raiseDev_tok (s : State) (a b c : Nat) : (s.raiseDev a b c).tok = s.tok := rfl
@[simp] theorem State.raiseDev_tokEnd (s : State) (a b c : Nat) : (s.raiseDev a b c).tokEnd = s.tokEnd := rfl
@[simp] theorem State.raiseDev_streams (s : State) (a b c : Nat) : (s.raiseDev a b c).streams = s.streams := rfl
@[simp] theorem State.raiseDev_pipes (s : State) (a b c : Nat) : (s.raiseDev a b c).pipes = s.pipes := rfl
@[simp] theorem State.raiseDev_spout (s : State) (a b c : Nat) : (s.raiseDev a b c).spout = s.spout := rfl
@[simp] theorem State.raiseDev_decs (s : State) (a b c : Nat) : (s.raiseDev a b c).decs = s.decs := rfl
@[simp] theorem State.raiseDev_encs (s : State) (a b c : Nat) : (s.raiseDev a b c).encs = s.encs := rfl
@[simp] theorem State.raiseDev_boot (s : State) (a b c : Nat) : (s.raiseDev a b c).boot = s.boot := rfl
@[simp] theorem State.raiseDev_rd (s : State) (a b c : Nat) (off : Nat) : (s.raiseDev a b c).rd off = s.rd off := rfl
@[simp] theorem State.raiseDev_rf (s : State) (a b c : Nat) (off : Nat) (g : Fld) : (s.raiseDev a b c).rf off g = s.rf off g := rfl
@[simp] theorem State.raiseDev_rn (s : State) (a b c : Nat) (off : Nat) : (s.raiseDev a b c).rn off = s.rn off := rfl
@[simp] theorem State.raiseDev_legacy (s : State) (a b c : Nat) : (s.raiseDev a b c).legacy = s.legacy := rfl
@[simp] theorem State.raiseDev_up (s : State) (a b c : Nat) : (s.raiseDev a b c).up = s.up := rfl
@[simp] theorem State.raiseDev_clockOn (s : State) (a b c : Nat) : (s.raiseDev a b c).clockOn = s.clockOn := rfl
/-! setPair changes pairs alone. -/
@[simp] theorem State.setPair_pending (s : State) (k : Nat) (p : Pair) : (s.setPair k p).pending = s.pending := rfl
@[simp] theorem State.setPair_freeCount (s : State) (k : Nat) (p : Pair) : (s.setPair k p).freeCount = s.freeCount := rfl
@[simp] theorem State.setPair_gts (s : State) (k : Nat) (p : Pair) : (s.setPair k p).gts = s.gts := rfl
@[simp] theorem State.setPair_taiSec (s : State) (k : Nat) (p : Pair) : (s.setPair k p).taiSec = s.taiSec := rfl
@[simp] theorem State.setPair_taiNs (s : State) (k : Nat) (p : Pair) : (s.setPair k p).taiNs = s.taiNs := rfl
@[simp] theorem State.setPair_taiFrac (s : State) (k : Nat) (p : Pair) : (s.setPair k p).taiFrac = s.taiFrac := rfl
@[simp] theorem State.setPair_taiRate (s : State) (k : Nat) (p : Pair) : (s.setPair k p).taiRate = s.taiRate := rfl
@[simp] theorem State.setPair_taiValid (s : State) (k : Nat) (p : Pair) : (s.setPair k p).taiValid = s.taiValid := rfl
@[simp] theorem State.setPair_taiOp (s : State) (k : Nat) (p : Pair) : (s.setPair k p).taiOp = s.taiOp := rfl
@[simp] theorem State.setPair_snapPending (s : State) (k : Nat) (p : Pair) : (s.setPair k p).snapPending = s.snapPending := rfl
@[simp] theorem State.setPair_live (s : State) (k : Nat) (p : Pair) : (s.setPair k p).live = s.live := rfl
@[simp] theorem State.setPair_staged (s : State) (k : Nat) (p : Pair) : (s.setPair k p).staged = s.staged := rfl
@[simp] theorem State.setPair_sections (s : State) (k : Nat) (p : Pair) : (s.setPair k p).sections = s.sections := rfl
@[simp] theorem State.setPair_checker (s : State) (k : Nat) (p : Pair) : (s.setPair k p).checker = s.checker := rfl
@[simp] theorem State.setPair_claims (s : State) (k : Nat) (p : Pair) : (s.setPair k p).claims = s.claims := rfl
@[simp] theorem State.setPair_events (s : State) (k : Nat) (p : Pair) : (s.setPair k p).events = s.events := rfl
@[simp] theorem State.setPair_devRing (s : State) (k : Nat) (p : Pair) : (s.setPair k p).devRing = s.devRing := rfl
@[simp] theorem State.setPair_ctxs (s : State) (k : Nat) (p : Pair) : (s.setPair k p).ctxs = s.ctxs := rfl
@[simp] theorem State.setPair_vectors (s : State) (k : Nat) (p : Pair) : (s.setPair k p).vectors = s.vectors := rfl
@[simp] theorem State.setPair_msixVecs (s : State) (k : Nat) (p : Pair) : (s.setPair k p).msixVecs = s.msixVecs := rfl
@[simp] theorem State.setPair_tcmp (s : State) (k : Nat) (p : Pair) : (s.setPair k p).tcmp = s.tcmp := rfl
@[simp] theorem State.setPair_pcmp (s : State) (k : Nat) (p : Pair) : (s.setPair k p).pcmp = s.pcmp := rfl
@[simp] theorem State.setPair_phases (s : State) (k : Nat) (p : Pair) : (s.setPair k p).phases = s.phases := rfl
@[simp] theorem State.setPair_fsyncs (s : State) (k : Nat) (p : Pair) : (s.setPair k p).fsyncs = s.fsyncs := rfl
@[simp] theorem State.setPair_eth (s : State) (k : Nat) (p : Pair) : (s.setPair k p).eth = s.eth := rfl
@[simp] theorem State.setPair_integ (s : State) (k : Nat) (p : Pair) : (s.setPair k p).integ = s.integ := rfl
@[simp] theorem State.setPair_clk (s : State) (k : Nat) (p : Pair) : (s.setPair k p).clk = s.clk := rfl
@[simp] theorem State.setPair_pwr (s : State) (k : Nat) (p : Pair) : (s.setPair k p).pwr = s.pwr := rfl
@[simp] theorem State.setPair_pins (s : State) (k : Nat) (p : Pair) : (s.setPair k p).pins = s.pins := rfl
@[simp] theorem State.setPair_pcieUp (s : State) (k : Nat) (p : Pair) : (s.setPair k p).pcieUp = s.pcieUp := rfl
@[simp] theorem State.setPair_weir (s : State) (k : Nat) (p : Pair) : (s.setPair k p).weir = s.weir := rfl
@[simp] theorem State.setPair_dram (s : State) (k : Nat) (p : Pair) : (s.setPair k p).dram = s.dram := rfl
@[simp] theorem State.setPair_cistern (s : State) (k : Nat) (p : Pair) : (s.setPair k p).cistern = s.cistern := rfl
@[simp] theorem State.setPair_pages (s : State) (k : Nat) (p : Pair) : (s.setPair k p).pages = s.pages := rfl
@[simp] theorem State.setPair_freeSeq (s : State) (k : Nat) (p : Pair) : (s.setPair k p).freeSeq = s.freeSeq := rfl
@[simp] theorem State.setPair_ftns (s : State) (k : Nat) (p : Pair) : (s.setPair k p).ftns = s.ftns := rfl
@[simp] theorem State.setPair_cores (s : State) (k : Nat) (p : Pair) : (s.setPair k p).cores = s.cores := rfl
@[simp] theorem State.setPair_skim (s : State) (k : Nat) (p : Pair) : (s.setPair k p).skim = s.skim := rfl
@[simp] theorem State.setPair_ddr (s : State) (k : Nat) (p : Pair) : (s.setPair k p).ddr = s.ddr := rfl
@[simp] theorem State.setPair_fwp (s : State) (k : Nat) (p : Pair) : (s.setPair k p).fwp = s.fwp := rfl
@[simp] theorem State.setPair_tok (s : State) (k : Nat) (p : Pair) : (s.setPair k p).tok = s.tok := rfl
@[simp] theorem State.setPair_tokEnd (s : State) (k : Nat) (p : Pair) : (s.setPair k p).tokEnd = s.tokEnd := rfl
@[simp] theorem State.setPair_streams (s : State) (k : Nat) (p : Pair) : (s.setPair k p).streams = s.streams := rfl
@[simp] theorem State.setPair_pipes (s : State) (k : Nat) (p : Pair) : (s.setPair k p).pipes = s.pipes := rfl
@[simp] theorem State.setPair_spout (s : State) (k : Nat) (p : Pair) : (s.setPair k p).spout = s.spout := rfl
@[simp] theorem State.setPair_decs (s : State) (k : Nat) (p : Pair) : (s.setPair k p).decs = s.decs := rfl
@[simp] theorem State.setPair_encs (s : State) (k : Nat) (p : Pair) : (s.setPair k p).encs = s.encs := rfl
@[simp] theorem State.setPair_boot (s : State) (k : Nat) (p : Pair) : (s.setPair k p).boot = s.boot := rfl
@[simp] theorem State.setPair_rd (s : State) (k : Nat) (p : Pair) (off : Nat) : (s.setPair k p).rd off = s.rd off := rfl
@[simp] theorem State.setPair_rf (s : State) (k : Nat) (p : Pair) (off : Nat) (g : Fld) : (s.setPair k p).rf off g = s.rf off g := rfl
@[simp] theorem State.setPair_rn (s : State) (k : Nat) (p : Pair) (off : Nat) : (s.setPair k p).rn off = s.rn off := rfl
@[simp] theorem State.setPair_legacy (s : State) (k : Nat) (p : Pair) : (s.setPair k p).legacy = s.legacy := rfl
@[simp] theorem State.setPair_up (s : State) (k : Nat) (p : Pair) : (s.setPair k p).up = s.up := rfl
@[simp] theorem State.setPair_clockOn (s : State) (k : Nat) (p : Pair) : (s.setPair k p).clockOn = s.clockOn := rfl
/-! setInj changes integ alone. -/
@[simp] theorem State.setInj_pending (s : State) (b i : Nat) (j : Inj) : (s.setInj b i j).pending = s.pending := rfl
@[simp] theorem State.setInj_freeCount (s : State) (b i : Nat) (j : Inj) : (s.setInj b i j).freeCount = s.freeCount := rfl
@[simp] theorem State.setInj_gts (s : State) (b i : Nat) (j : Inj) : (s.setInj b i j).gts = s.gts := rfl
@[simp] theorem State.setInj_taiSec (s : State) (b i : Nat) (j : Inj) : (s.setInj b i j).taiSec = s.taiSec := rfl
@[simp] theorem State.setInj_taiNs (s : State) (b i : Nat) (j : Inj) : (s.setInj b i j).taiNs = s.taiNs := rfl
@[simp] theorem State.setInj_taiFrac (s : State) (b i : Nat) (j : Inj) : (s.setInj b i j).taiFrac = s.taiFrac := rfl
@[simp] theorem State.setInj_taiRate (s : State) (b i : Nat) (j : Inj) : (s.setInj b i j).taiRate = s.taiRate := rfl
@[simp] theorem State.setInj_taiValid (s : State) (b i : Nat) (j : Inj) : (s.setInj b i j).taiValid = s.taiValid := rfl
@[simp] theorem State.setInj_taiOp (s : State) (b i : Nat) (j : Inj) : (s.setInj b i j).taiOp = s.taiOp := rfl
@[simp] theorem State.setInj_snapPending (s : State) (b i : Nat) (j : Inj) : (s.setInj b i j).snapPending = s.snapPending := rfl
@[simp] theorem State.setInj_live (s : State) (b i : Nat) (j : Inj) : (s.setInj b i j).live = s.live := rfl
@[simp] theorem State.setInj_staged (s : State) (b i : Nat) (j : Inj) : (s.setInj b i j).staged = s.staged := rfl
@[simp] theorem State.setInj_sections (s : State) (b i : Nat) (j : Inj) : (s.setInj b i j).sections = s.sections := rfl
@[simp] theorem State.setInj_checker (s : State) (b i : Nat) (j : Inj) : (s.setInj b i j).checker = s.checker := rfl
@[simp] theorem State.setInj_claims (s : State) (b i : Nat) (j : Inj) : (s.setInj b i j).claims = s.claims := rfl
@[simp] theorem State.setInj_events (s : State) (b i : Nat) (j : Inj) : (s.setInj b i j).events = s.events := rfl
@[simp] theorem State.setInj_devRing (s : State) (b i : Nat) (j : Inj) : (s.setInj b i j).devRing = s.devRing := rfl
@[simp] theorem State.setInj_ctxs (s : State) (b i : Nat) (j : Inj) : (s.setInj b i j).ctxs = s.ctxs := rfl
@[simp] theorem State.setInj_vectors (s : State) (b i : Nat) (j : Inj) : (s.setInj b i j).vectors = s.vectors := rfl
@[simp] theorem State.setInj_msixVecs (s : State) (b i : Nat) (j : Inj) : (s.setInj b i j).msixVecs = s.msixVecs := rfl
@[simp] theorem State.setInj_tcmp (s : State) (b i : Nat) (j : Inj) : (s.setInj b i j).tcmp = s.tcmp := rfl
@[simp] theorem State.setInj_pcmp (s : State) (b i : Nat) (j : Inj) : (s.setInj b i j).pcmp = s.pcmp := rfl
@[simp] theorem State.setInj_phases (s : State) (b i : Nat) (j : Inj) : (s.setInj b i j).phases = s.phases := rfl
@[simp] theorem State.setInj_fsyncs (s : State) (b i : Nat) (j : Inj) : (s.setInj b i j).fsyncs = s.fsyncs := rfl
@[simp] theorem State.setInj_eth (s : State) (b i : Nat) (j : Inj) : (s.setInj b i j).eth = s.eth := rfl
@[simp] theorem State.setInj_pairs (s : State) (b i : Nat) (j : Inj) : (s.setInj b i j).pairs = s.pairs := rfl
@[simp] theorem State.setInj_clk (s : State) (b i : Nat) (j : Inj) : (s.setInj b i j).clk = s.clk := rfl
@[simp] theorem State.setInj_pwr (s : State) (b i : Nat) (j : Inj) : (s.setInj b i j).pwr = s.pwr := rfl
@[simp] theorem State.setInj_pins (s : State) (b i : Nat) (j : Inj) : (s.setInj b i j).pins = s.pins := rfl
@[simp] theorem State.setInj_pcieUp (s : State) (b i : Nat) (j : Inj) : (s.setInj b i j).pcieUp = s.pcieUp := rfl
@[simp] theorem State.setInj_weir (s : State) (b i : Nat) (j : Inj) : (s.setInj b i j).weir = s.weir := rfl
@[simp] theorem State.setInj_dram (s : State) (b i : Nat) (j : Inj) : (s.setInj b i j).dram = s.dram := rfl
@[simp] theorem State.setInj_cistern (s : State) (b i : Nat) (j : Inj) : (s.setInj b i j).cistern = s.cistern := rfl
@[simp] theorem State.setInj_pages (s : State) (b i : Nat) (j : Inj) : (s.setInj b i j).pages = s.pages := rfl
@[simp] theorem State.setInj_freeSeq (s : State) (b i : Nat) (j : Inj) : (s.setInj b i j).freeSeq = s.freeSeq := rfl
@[simp] theorem State.setInj_ftns (s : State) (b i : Nat) (j : Inj) : (s.setInj b i j).ftns = s.ftns := rfl
@[simp] theorem State.setInj_cores (s : State) (b i : Nat) (j : Inj) : (s.setInj b i j).cores = s.cores := rfl
@[simp] theorem State.setInj_skim (s : State) (b i : Nat) (j : Inj) : (s.setInj b i j).skim = s.skim := rfl
@[simp] theorem State.setInj_ddr (s : State) (b i : Nat) (j : Inj) : (s.setInj b i j).ddr = s.ddr := rfl
@[simp] theorem State.setInj_fwp (s : State) (b i : Nat) (j : Inj) : (s.setInj b i j).fwp = s.fwp := rfl
@[simp] theorem State.setInj_tok (s : State) (b i : Nat) (j : Inj) : (s.setInj b i j).tok = s.tok := rfl
@[simp] theorem State.setInj_tokEnd (s : State) (b i : Nat) (j : Inj) : (s.setInj b i j).tokEnd = s.tokEnd := rfl
@[simp] theorem State.setInj_streams (s : State) (b i : Nat) (j : Inj) : (s.setInj b i j).streams = s.streams := rfl
@[simp] theorem State.setInj_pipes (s : State) (b i : Nat) (j : Inj) : (s.setInj b i j).pipes = s.pipes := rfl
@[simp] theorem State.setInj_spout (s : State) (b i : Nat) (j : Inj) : (s.setInj b i j).spout = s.spout := rfl
@[simp] theorem State.setInj_decs (s : State) (b i : Nat) (j : Inj) : (s.setInj b i j).decs = s.decs := rfl
@[simp] theorem State.setInj_encs (s : State) (b i : Nat) (j : Inj) : (s.setInj b i j).encs = s.encs := rfl
@[simp] theorem State.setInj_boot (s : State) (b i : Nat) (j : Inj) : (s.setInj b i j).boot = s.boot := rfl
@[simp] theorem State.setInj_rd (s : State) (b i : Nat) (j : Inj) (off : Nat) : (s.setInj b i j).rd off = s.rd off := rfl
@[simp] theorem State.setInj_rf (s : State) (b i : Nat) (j : Inj) (off : Nat) (g : Fld) : (s.setInj b i j).rf off g = s.rf off g := rfl
@[simp] theorem State.setInj_rn (s : State) (b i : Nat) (j : Inj) (off : Nat) : (s.setInj b i j).rn off = s.rn off := rfl
@[simp] theorem State.setInj_legacy (s : State) (b i : Nat) (j : Inj) : (s.setInj b i j).legacy = s.legacy := rfl
@[simp] theorem State.setInj_up (s : State) (b i : Nat) (j : Inj) : (s.setInj b i j).up = s.up := rfl
@[simp] theorem State.setInj_clockOn (s : State) (b i : Nat) (j : Inj) : (s.setInj b i j).clockOn = s.clockOn := rfl
/-! touch changes integ alone. -/
@[simp] theorem State.touch_pending (s : State) (b : Nat) : (s.touch b).pending = s.pending := rfl
@[simp] theorem State.touch_freeCount (s : State) (b : Nat) : (s.touch b).freeCount = s.freeCount := rfl
@[simp] theorem State.touch_gts (s : State) (b : Nat) : (s.touch b).gts = s.gts := rfl
@[simp] theorem State.touch_taiSec (s : State) (b : Nat) : (s.touch b).taiSec = s.taiSec := rfl
@[simp] theorem State.touch_taiNs (s : State) (b : Nat) : (s.touch b).taiNs = s.taiNs := rfl
@[simp] theorem State.touch_taiFrac (s : State) (b : Nat) : (s.touch b).taiFrac = s.taiFrac := rfl
@[simp] theorem State.touch_taiRate (s : State) (b : Nat) : (s.touch b).taiRate = s.taiRate := rfl
@[simp] theorem State.touch_taiValid (s : State) (b : Nat) : (s.touch b).taiValid = s.taiValid := rfl
@[simp] theorem State.touch_taiOp (s : State) (b : Nat) : (s.touch b).taiOp = s.taiOp := rfl
@[simp] theorem State.touch_snapPending (s : State) (b : Nat) : (s.touch b).snapPending = s.snapPending := rfl
@[simp] theorem State.touch_live (s : State) (b : Nat) : (s.touch b).live = s.live := rfl
@[simp] theorem State.touch_staged (s : State) (b : Nat) : (s.touch b).staged = s.staged := rfl
@[simp] theorem State.touch_sections (s : State) (b : Nat) : (s.touch b).sections = s.sections := rfl
@[simp] theorem State.touch_checker (s : State) (b : Nat) : (s.touch b).checker = s.checker := rfl
@[simp] theorem State.touch_claims (s : State) (b : Nat) : (s.touch b).claims = s.claims := rfl
@[simp] theorem State.touch_events (s : State) (b : Nat) : (s.touch b).events = s.events := rfl
@[simp] theorem State.touch_devRing (s : State) (b : Nat) : (s.touch b).devRing = s.devRing := rfl
@[simp] theorem State.touch_ctxs (s : State) (b : Nat) : (s.touch b).ctxs = s.ctxs := rfl
@[simp] theorem State.touch_vectors (s : State) (b : Nat) : (s.touch b).vectors = s.vectors := rfl
@[simp] theorem State.touch_msixVecs (s : State) (b : Nat) : (s.touch b).msixVecs = s.msixVecs := rfl
@[simp] theorem State.touch_tcmp (s : State) (b : Nat) : (s.touch b).tcmp = s.tcmp := rfl
@[simp] theorem State.touch_pcmp (s : State) (b : Nat) : (s.touch b).pcmp = s.pcmp := rfl
@[simp] theorem State.touch_phases (s : State) (b : Nat) : (s.touch b).phases = s.phases := rfl
@[simp] theorem State.touch_fsyncs (s : State) (b : Nat) : (s.touch b).fsyncs = s.fsyncs := rfl
@[simp] theorem State.touch_eth (s : State) (b : Nat) : (s.touch b).eth = s.eth := rfl
@[simp] theorem State.touch_pairs (s : State) (b : Nat) : (s.touch b).pairs = s.pairs := rfl
@[simp] theorem State.touch_clk (s : State) (b : Nat) : (s.touch b).clk = s.clk := rfl
@[simp] theorem State.touch_pwr (s : State) (b : Nat) : (s.touch b).pwr = s.pwr := rfl
@[simp] theorem State.touch_pins (s : State) (b : Nat) : (s.touch b).pins = s.pins := rfl
@[simp] theorem State.touch_pcieUp (s : State) (b : Nat) : (s.touch b).pcieUp = s.pcieUp := rfl
@[simp] theorem State.touch_weir (s : State) (b : Nat) : (s.touch b).weir = s.weir := rfl
@[simp] theorem State.touch_dram (s : State) (b : Nat) : (s.touch b).dram = s.dram := rfl
@[simp] theorem State.touch_cistern (s : State) (b : Nat) : (s.touch b).cistern = s.cistern := rfl
@[simp] theorem State.touch_pages (s : State) (b : Nat) : (s.touch b).pages = s.pages := rfl
@[simp] theorem State.touch_freeSeq (s : State) (b : Nat) : (s.touch b).freeSeq = s.freeSeq := rfl
@[simp] theorem State.touch_ftns (s : State) (b : Nat) : (s.touch b).ftns = s.ftns := rfl
@[simp] theorem State.touch_cores (s : State) (b : Nat) : (s.touch b).cores = s.cores := rfl
@[simp] theorem State.touch_skim (s : State) (b : Nat) : (s.touch b).skim = s.skim := rfl
@[simp] theorem State.touch_ddr (s : State) (b : Nat) : (s.touch b).ddr = s.ddr := rfl
@[simp] theorem State.touch_fwp (s : State) (b : Nat) : (s.touch b).fwp = s.fwp := rfl
@[simp] theorem State.touch_tok (s : State) (b : Nat) : (s.touch b).tok = s.tok := rfl
@[simp] theorem State.touch_tokEnd (s : State) (b : Nat) : (s.touch b).tokEnd = s.tokEnd := rfl
@[simp] theorem State.touch_streams (s : State) (b : Nat) : (s.touch b).streams = s.streams := rfl
@[simp] theorem State.touch_pipes (s : State) (b : Nat) : (s.touch b).pipes = s.pipes := rfl
@[simp] theorem State.touch_spout (s : State) (b : Nat) : (s.touch b).spout = s.spout := rfl
@[simp] theorem State.touch_decs (s : State) (b : Nat) : (s.touch b).decs = s.decs := rfl
@[simp] theorem State.touch_encs (s : State) (b : Nat) : (s.touch b).encs = s.encs := rfl
@[simp] theorem State.touch_boot (s : State) (b : Nat) : (s.touch b).boot = s.boot := rfl
@[simp] theorem State.touch_rd (s : State) (b : Nat) (off : Nat) : (s.touch b).rd off = s.rd off := rfl
@[simp] theorem State.touch_rf (s : State) (b : Nat) (off : Nat) (g : Fld) : (s.touch b).rf off g = s.rf off g := rfl
@[simp] theorem State.touch_rn (s : State) (b : Nat) (off : Nat) : (s.touch b).rn off = s.rn off := rfl
@[simp] theorem State.touch_legacy (s : State) (b : Nat) : (s.touch b).legacy = s.legacy := rfl
@[simp] theorem State.touch_up (s : State) (b : Nat) : (s.touch b).up = s.up := rfl
@[simp] theorem State.touch_clockOn (s : State) (b : Nat) : (s.touch b).clockOn = s.clockOn := rfl
/-! setMark changes integ alone. -/
@[simp] theorem State.setMark_pending (s : State) (k : Nat) (m : Mark) : (s.setMark k m).pending = s.pending := rfl
@[simp] theorem State.setMark_freeCount (s : State) (k : Nat) (m : Mark) : (s.setMark k m).freeCount = s.freeCount := rfl
@[simp] theorem State.setMark_gts (s : State) (k : Nat) (m : Mark) : (s.setMark k m).gts = s.gts := rfl
@[simp] theorem State.setMark_taiSec (s : State) (k : Nat) (m : Mark) : (s.setMark k m).taiSec = s.taiSec := rfl
@[simp] theorem State.setMark_taiNs (s : State) (k : Nat) (m : Mark) : (s.setMark k m).taiNs = s.taiNs := rfl
@[simp] theorem State.setMark_taiFrac (s : State) (k : Nat) (m : Mark) : (s.setMark k m).taiFrac = s.taiFrac := rfl
@[simp] theorem State.setMark_taiRate (s : State) (k : Nat) (m : Mark) : (s.setMark k m).taiRate = s.taiRate := rfl
@[simp] theorem State.setMark_taiValid (s : State) (k : Nat) (m : Mark) : (s.setMark k m).taiValid = s.taiValid := rfl
@[simp] theorem State.setMark_taiOp (s : State) (k : Nat) (m : Mark) : (s.setMark k m).taiOp = s.taiOp := rfl
@[simp] theorem State.setMark_snapPending (s : State) (k : Nat) (m : Mark) : (s.setMark k m).snapPending = s.snapPending := rfl
@[simp] theorem State.setMark_live (s : State) (k : Nat) (m : Mark) : (s.setMark k m).live = s.live := rfl
@[simp] theorem State.setMark_staged (s : State) (k : Nat) (m : Mark) : (s.setMark k m).staged = s.staged := rfl
@[simp] theorem State.setMark_sections (s : State) (k : Nat) (m : Mark) : (s.setMark k m).sections = s.sections := rfl
@[simp] theorem State.setMark_checker (s : State) (k : Nat) (m : Mark) : (s.setMark k m).checker = s.checker := rfl
@[simp] theorem State.setMark_claims (s : State) (k : Nat) (m : Mark) : (s.setMark k m).claims = s.claims := rfl
@[simp] theorem State.setMark_events (s : State) (k : Nat) (m : Mark) : (s.setMark k m).events = s.events := rfl
@[simp] theorem State.setMark_devRing (s : State) (k : Nat) (m : Mark) : (s.setMark k m).devRing = s.devRing := rfl
@[simp] theorem State.setMark_ctxs (s : State) (k : Nat) (m : Mark) : (s.setMark k m).ctxs = s.ctxs := rfl
@[simp] theorem State.setMark_vectors (s : State) (k : Nat) (m : Mark) : (s.setMark k m).vectors = s.vectors := rfl
@[simp] theorem State.setMark_msixVecs (s : State) (k : Nat) (m : Mark) : (s.setMark k m).msixVecs = s.msixVecs := rfl
@[simp] theorem State.setMark_tcmp (s : State) (k : Nat) (m : Mark) : (s.setMark k m).tcmp = s.tcmp := rfl
@[simp] theorem State.setMark_pcmp (s : State) (k : Nat) (m : Mark) : (s.setMark k m).pcmp = s.pcmp := rfl
@[simp] theorem State.setMark_phases (s : State) (k : Nat) (m : Mark) : (s.setMark k m).phases = s.phases := rfl
@[simp] theorem State.setMark_fsyncs (s : State) (k : Nat) (m : Mark) : (s.setMark k m).fsyncs = s.fsyncs := rfl
@[simp] theorem State.setMark_eth (s : State) (k : Nat) (m : Mark) : (s.setMark k m).eth = s.eth := rfl
@[simp] theorem State.setMark_pairs (s : State) (k : Nat) (m : Mark) : (s.setMark k m).pairs = s.pairs := rfl
@[simp] theorem State.setMark_clk (s : State) (k : Nat) (m : Mark) : (s.setMark k m).clk = s.clk := rfl
@[simp] theorem State.setMark_pwr (s : State) (k : Nat) (m : Mark) : (s.setMark k m).pwr = s.pwr := rfl
@[simp] theorem State.setMark_pins (s : State) (k : Nat) (m : Mark) : (s.setMark k m).pins = s.pins := rfl
@[simp] theorem State.setMark_pcieUp (s : State) (k : Nat) (m : Mark) : (s.setMark k m).pcieUp = s.pcieUp := rfl
@[simp] theorem State.setMark_weir (s : State) (k : Nat) (m : Mark) : (s.setMark k m).weir = s.weir := rfl
@[simp] theorem State.setMark_dram (s : State) (k : Nat) (m : Mark) : (s.setMark k m).dram = s.dram := rfl
@[simp] theorem State.setMark_cistern (s : State) (k : Nat) (m : Mark) : (s.setMark k m).cistern = s.cistern := rfl
@[simp] theorem State.setMark_pages (s : State) (k : Nat) (m : Mark) : (s.setMark k m).pages = s.pages := rfl
@[simp] theorem State.setMark_freeSeq (s : State) (k : Nat) (m : Mark) : (s.setMark k m).freeSeq = s.freeSeq := rfl
@[simp] theorem State.setMark_ftns (s : State) (k : Nat) (m : Mark) : (s.setMark k m).ftns = s.ftns := rfl
@[simp] theorem State.setMark_cores (s : State) (k : Nat) (m : Mark) : (s.setMark k m).cores = s.cores := rfl
@[simp] theorem State.setMark_skim (s : State) (k : Nat) (m : Mark) : (s.setMark k m).skim = s.skim := rfl
@[simp] theorem State.setMark_ddr (s : State) (k : Nat) (m : Mark) : (s.setMark k m).ddr = s.ddr := rfl
@[simp] theorem State.setMark_fwp (s : State) (k : Nat) (m : Mark) : (s.setMark k m).fwp = s.fwp := rfl
@[simp] theorem State.setMark_tok (s : State) (k : Nat) (m : Mark) : (s.setMark k m).tok = s.tok := rfl
@[simp] theorem State.setMark_tokEnd (s : State) (k : Nat) (m : Mark) : (s.setMark k m).tokEnd = s.tokEnd := rfl
@[simp] theorem State.setMark_streams (s : State) (k : Nat) (m : Mark) : (s.setMark k m).streams = s.streams := rfl
@[simp] theorem State.setMark_pipes (s : State) (k : Nat) (m : Mark) : (s.setMark k m).pipes = s.pipes := rfl
@[simp] theorem State.setMark_spout (s : State) (k : Nat) (m : Mark) : (s.setMark k m).spout = s.spout := rfl
@[simp] theorem State.setMark_decs (s : State) (k : Nat) (m : Mark) : (s.setMark k m).decs = s.decs := rfl
@[simp] theorem State.setMark_encs (s : State) (k : Nat) (m : Mark) : (s.setMark k m).encs = s.encs := rfl
@[simp] theorem State.setMark_boot (s : State) (k : Nat) (m : Mark) : (s.setMark k m).boot = s.boot := rfl
@[simp] theorem State.setMark_rd (s : State) (k : Nat) (m : Mark) (off : Nat) : (s.setMark k m).rd off = s.rd off := rfl
@[simp] theorem State.setMark_rf (s : State) (k : Nat) (m : Mark) (off : Nat) (g : Fld) : (s.setMark k m).rf off g = s.rf off g := rfl
@[simp] theorem State.setMark_rn (s : State) (k : Nat) (m : Mark) (off : Nat) : (s.setMark k m).rn off = s.rn off := rfl
@[simp] theorem State.setMark_legacy (s : State) (k : Nat) (m : Mark) : (s.setMark k m).legacy = s.legacy := rfl
@[simp] theorem State.setMark_up (s : State) (k : Nat) (m : Mark) : (s.setMark k m).up = s.up := rfl
@[simp] theorem State.setMark_clockOn (s : State) (k : Nat) (m : Mark) : (s.setMark k m).clockOn = s.clockOn := rfl
/-! setClaim changes claims alone. -/
@[simp] theorem State.setClaim_pending (s : State) (c u o : Nat) : (s.setClaim c u o).pending = s.pending := rfl
@[simp] theorem State.setClaim_freeCount (s : State) (c u o : Nat) : (s.setClaim c u o).freeCount = s.freeCount := rfl
@[simp] theorem State.setClaim_gts (s : State) (c u o : Nat) : (s.setClaim c u o).gts = s.gts := rfl
@[simp] theorem State.setClaim_taiSec (s : State) (c u o : Nat) : (s.setClaim c u o).taiSec = s.taiSec := rfl
@[simp] theorem State.setClaim_taiNs (s : State) (c u o : Nat) : (s.setClaim c u o).taiNs = s.taiNs := rfl
@[simp] theorem State.setClaim_taiFrac (s : State) (c u o : Nat) : (s.setClaim c u o).taiFrac = s.taiFrac := rfl
@[simp] theorem State.setClaim_taiRate (s : State) (c u o : Nat) : (s.setClaim c u o).taiRate = s.taiRate := rfl
@[simp] theorem State.setClaim_taiValid (s : State) (c u o : Nat) : (s.setClaim c u o).taiValid = s.taiValid := rfl
@[simp] theorem State.setClaim_taiOp (s : State) (c u o : Nat) : (s.setClaim c u o).taiOp = s.taiOp := rfl
@[simp] theorem State.setClaim_snapPending (s : State) (c u o : Nat) : (s.setClaim c u o).snapPending = s.snapPending := rfl
@[simp] theorem State.setClaim_live (s : State) (c u o : Nat) : (s.setClaim c u o).live = s.live := rfl
@[simp] theorem State.setClaim_staged (s : State) (c u o : Nat) : (s.setClaim c u o).staged = s.staged := rfl
@[simp] theorem State.setClaim_sections (s : State) (c u o : Nat) : (s.setClaim c u o).sections = s.sections := rfl
@[simp] theorem State.setClaim_checker (s : State) (c u o : Nat) : (s.setClaim c u o).checker = s.checker := rfl
@[simp] theorem State.setClaim_events (s : State) (c u o : Nat) : (s.setClaim c u o).events = s.events := rfl
@[simp] theorem State.setClaim_devRing (s : State) (c u o : Nat) : (s.setClaim c u o).devRing = s.devRing := rfl
@[simp] theorem State.setClaim_ctxs (s : State) (c u o : Nat) : (s.setClaim c u o).ctxs = s.ctxs := rfl
@[simp] theorem State.setClaim_vectors (s : State) (c u o : Nat) : (s.setClaim c u o).vectors = s.vectors := rfl
@[simp] theorem State.setClaim_msixVecs (s : State) (c u o : Nat) : (s.setClaim c u o).msixVecs = s.msixVecs := rfl
@[simp] theorem State.setClaim_tcmp (s : State) (c u o : Nat) : (s.setClaim c u o).tcmp = s.tcmp := rfl
@[simp] theorem State.setClaim_pcmp (s : State) (c u o : Nat) : (s.setClaim c u o).pcmp = s.pcmp := rfl
@[simp] theorem State.setClaim_phases (s : State) (c u o : Nat) : (s.setClaim c u o).phases = s.phases := rfl
@[simp] theorem State.setClaim_fsyncs (s : State) (c u o : Nat) : (s.setClaim c u o).fsyncs = s.fsyncs := rfl
@[simp] theorem State.setClaim_eth (s : State) (c u o : Nat) : (s.setClaim c u o).eth = s.eth := rfl
@[simp] theorem State.setClaim_integ (s : State) (c u o : Nat) : (s.setClaim c u o).integ = s.integ := rfl
@[simp] theorem State.setClaim_pairs (s : State) (c u o : Nat) : (s.setClaim c u o).pairs = s.pairs := rfl
@[simp] theorem State.setClaim_clk (s : State) (c u o : Nat) : (s.setClaim c u o).clk = s.clk := rfl
@[simp] theorem State.setClaim_pwr (s : State) (c u o : Nat) : (s.setClaim c u o).pwr = s.pwr := rfl
@[simp] theorem State.setClaim_pins (s : State) (c u o : Nat) : (s.setClaim c u o).pins = s.pins := rfl
@[simp] theorem State.setClaim_pcieUp (s : State) (c u o : Nat) : (s.setClaim c u o).pcieUp = s.pcieUp := rfl
@[simp] theorem State.setClaim_weir (s : State) (c u o : Nat) : (s.setClaim c u o).weir = s.weir := rfl
@[simp] theorem State.setClaim_dram (s : State) (c u o : Nat) : (s.setClaim c u o).dram = s.dram := rfl
@[simp] theorem State.setClaim_cistern (s : State) (c u o : Nat) : (s.setClaim c u o).cistern = s.cistern := rfl
@[simp] theorem State.setClaim_pages (s : State) (c u o : Nat) : (s.setClaim c u o).pages = s.pages := rfl
@[simp] theorem State.setClaim_freeSeq (s : State) (c u o : Nat) : (s.setClaim c u o).freeSeq = s.freeSeq := rfl
@[simp] theorem State.setClaim_ftns (s : State) (c u o : Nat) : (s.setClaim c u o).ftns = s.ftns := rfl
@[simp] theorem State.setClaim_cores (s : State) (c u o : Nat) : (s.setClaim c u o).cores = s.cores := rfl
@[simp] theorem State.setClaim_skim (s : State) (c u o : Nat) : (s.setClaim c u o).skim = s.skim := rfl
@[simp] theorem State.setClaim_ddr (s : State) (c u o : Nat) : (s.setClaim c u o).ddr = s.ddr := rfl
@[simp] theorem State.setClaim_fwp (s : State) (c u o : Nat) : (s.setClaim c u o).fwp = s.fwp := rfl
@[simp] theorem State.setClaim_tok (s : State) (c u o : Nat) : (s.setClaim c u o).tok = s.tok := rfl
@[simp] theorem State.setClaim_tokEnd (s : State) (c u o : Nat) : (s.setClaim c u o).tokEnd = s.tokEnd := rfl
@[simp] theorem State.setClaim_streams (s : State) (c u o : Nat) : (s.setClaim c u o).streams = s.streams := rfl
@[simp] theorem State.setClaim_pipes (s : State) (c u o : Nat) : (s.setClaim c u o).pipes = s.pipes := rfl
@[simp] theorem State.setClaim_spout (s : State) (c u o : Nat) : (s.setClaim c u o).spout = s.spout := rfl
@[simp] theorem State.setClaim_decs (s : State) (c u o : Nat) : (s.setClaim c u o).decs = s.decs := rfl
@[simp] theorem State.setClaim_encs (s : State) (c u o : Nat) : (s.setClaim c u o).encs = s.encs := rfl
@[simp] theorem State.setClaim_boot (s : State) (c u o : Nat) : (s.setClaim c u o).boot = s.boot := rfl
@[simp] theorem State.setClaim_rd (s : State) (c u o : Nat) (off : Nat) : (s.setClaim c u o).rd off = s.rd off := rfl
@[simp] theorem State.setClaim_rf (s : State) (c u o : Nat) (off : Nat) (g : Fld) : (s.setClaim c u o).rf off g = s.rf off g := rfl
@[simp] theorem State.setClaim_rn (s : State) (c u o : Nat) (off : Nat) : (s.setClaim c u o).rn off = s.rn off := rfl
@[simp] theorem State.setClaim_legacy (s : State) (c u o : Nat) : (s.setClaim c u o).legacy = s.legacy := rfl
@[simp] theorem State.setClaim_up (s : State) (c u o : Nat) : (s.setClaim c u o).up = s.up := rfl
@[simp] theorem State.setClaim_clockOn (s : State) (c u o : Nat) : (s.setClaim c u o).clockOn = s.clockOn := rfl
/-! setCtx changes ctxs alone. -/
@[simp] theorem State.setCtx_pending (s : State) (k : Nat) (c : Ctx) : (s.setCtx k c).pending = s.pending := rfl
@[simp] theorem State.setCtx_freeCount (s : State) (k : Nat) (c : Ctx) : (s.setCtx k c).freeCount = s.freeCount := rfl
@[simp] theorem State.setCtx_gts (s : State) (k : Nat) (c : Ctx) : (s.setCtx k c).gts = s.gts := rfl
@[simp] theorem State.setCtx_taiSec (s : State) (k : Nat) (c : Ctx) : (s.setCtx k c).taiSec = s.taiSec := rfl
@[simp] theorem State.setCtx_taiNs (s : State) (k : Nat) (c : Ctx) : (s.setCtx k c).taiNs = s.taiNs := rfl
@[simp] theorem State.setCtx_taiFrac (s : State) (k : Nat) (c : Ctx) : (s.setCtx k c).taiFrac = s.taiFrac := rfl
@[simp] theorem State.setCtx_taiRate (s : State) (k : Nat) (c : Ctx) : (s.setCtx k c).taiRate = s.taiRate := rfl
@[simp] theorem State.setCtx_taiValid (s : State) (k : Nat) (c : Ctx) : (s.setCtx k c).taiValid = s.taiValid := rfl
@[simp] theorem State.setCtx_taiOp (s : State) (k : Nat) (c : Ctx) : (s.setCtx k c).taiOp = s.taiOp := rfl
@[simp] theorem State.setCtx_snapPending (s : State) (k : Nat) (c : Ctx) : (s.setCtx k c).snapPending = s.snapPending := rfl
@[simp] theorem State.setCtx_live (s : State) (k : Nat) (c : Ctx) : (s.setCtx k c).live = s.live := rfl
@[simp] theorem State.setCtx_staged (s : State) (k : Nat) (c : Ctx) : (s.setCtx k c).staged = s.staged := rfl
@[simp] theorem State.setCtx_sections (s : State) (k : Nat) (c : Ctx) : (s.setCtx k c).sections = s.sections := rfl
@[simp] theorem State.setCtx_checker (s : State) (k : Nat) (c : Ctx) : (s.setCtx k c).checker = s.checker := rfl
@[simp] theorem State.setCtx_claims (s : State) (k : Nat) (c : Ctx) : (s.setCtx k c).claims = s.claims := rfl
@[simp] theorem State.setCtx_events (s : State) (k : Nat) (c : Ctx) : (s.setCtx k c).events = s.events := rfl
@[simp] theorem State.setCtx_devRing (s : State) (k : Nat) (c : Ctx) : (s.setCtx k c).devRing = s.devRing := rfl
@[simp] theorem State.setCtx_vectors (s : State) (k : Nat) (c : Ctx) : (s.setCtx k c).vectors = s.vectors := rfl
@[simp] theorem State.setCtx_msixVecs (s : State) (k : Nat) (c : Ctx) : (s.setCtx k c).msixVecs = s.msixVecs := rfl
@[simp] theorem State.setCtx_tcmp (s : State) (k : Nat) (c : Ctx) : (s.setCtx k c).tcmp = s.tcmp := rfl
@[simp] theorem State.setCtx_pcmp (s : State) (k : Nat) (c : Ctx) : (s.setCtx k c).pcmp = s.pcmp := rfl
@[simp] theorem State.setCtx_phases (s : State) (k : Nat) (c : Ctx) : (s.setCtx k c).phases = s.phases := rfl
@[simp] theorem State.setCtx_fsyncs (s : State) (k : Nat) (c : Ctx) : (s.setCtx k c).fsyncs = s.fsyncs := rfl
@[simp] theorem State.setCtx_eth (s : State) (k : Nat) (c : Ctx) : (s.setCtx k c).eth = s.eth := rfl
@[simp] theorem State.setCtx_integ (s : State) (k : Nat) (c : Ctx) : (s.setCtx k c).integ = s.integ := rfl
@[simp] theorem State.setCtx_pairs (s : State) (k : Nat) (c : Ctx) : (s.setCtx k c).pairs = s.pairs := rfl
@[simp] theorem State.setCtx_clk (s : State) (k : Nat) (c : Ctx) : (s.setCtx k c).clk = s.clk := rfl
@[simp] theorem State.setCtx_pwr (s : State) (k : Nat) (c : Ctx) : (s.setCtx k c).pwr = s.pwr := rfl
@[simp] theorem State.setCtx_pins (s : State) (k : Nat) (c : Ctx) : (s.setCtx k c).pins = s.pins := rfl
@[simp] theorem State.setCtx_pcieUp (s : State) (k : Nat) (c : Ctx) : (s.setCtx k c).pcieUp = s.pcieUp := rfl
@[simp] theorem State.setCtx_weir (s : State) (k : Nat) (c : Ctx) : (s.setCtx k c).weir = s.weir := rfl
@[simp] theorem State.setCtx_dram (s : State) (k : Nat) (c : Ctx) : (s.setCtx k c).dram = s.dram := rfl
@[simp] theorem State.setCtx_cistern (s : State) (k : Nat) (c : Ctx) : (s.setCtx k c).cistern = s.cistern := rfl
@[simp] theorem State.setCtx_pages (s : State) (k : Nat) (c : Ctx) : (s.setCtx k c).pages = s.pages := rfl
@[simp] theorem State.setCtx_freeSeq (s : State) (k : Nat) (c : Ctx) : (s.setCtx k c).freeSeq = s.freeSeq := rfl
@[simp] theorem State.setCtx_ftns (s : State) (k : Nat) (c : Ctx) : (s.setCtx k c).ftns = s.ftns := rfl
@[simp] theorem State.setCtx_cores (s : State) (k : Nat) (c : Ctx) : (s.setCtx k c).cores = s.cores := rfl
@[simp] theorem State.setCtx_skim (s : State) (k : Nat) (c : Ctx) : (s.setCtx k c).skim = s.skim := rfl
@[simp] theorem State.setCtx_ddr (s : State) (k : Nat) (c : Ctx) : (s.setCtx k c).ddr = s.ddr := rfl
@[simp] theorem State.setCtx_fwp (s : State) (k : Nat) (c : Ctx) : (s.setCtx k c).fwp = s.fwp := rfl
@[simp] theorem State.setCtx_tok (s : State) (k : Nat) (c : Ctx) : (s.setCtx k c).tok = s.tok := rfl
@[simp] theorem State.setCtx_tokEnd (s : State) (k : Nat) (c : Ctx) : (s.setCtx k c).tokEnd = s.tokEnd := rfl
@[simp] theorem State.setCtx_streams (s : State) (k : Nat) (c : Ctx) : (s.setCtx k c).streams = s.streams := rfl
@[simp] theorem State.setCtx_pipes (s : State) (k : Nat) (c : Ctx) : (s.setCtx k c).pipes = s.pipes := rfl
@[simp] theorem State.setCtx_spout (s : State) (k : Nat) (c : Ctx) : (s.setCtx k c).spout = s.spout := rfl
@[simp] theorem State.setCtx_decs (s : State) (k : Nat) (c : Ctx) : (s.setCtx k c).decs = s.decs := rfl
@[simp] theorem State.setCtx_encs (s : State) (k : Nat) (c : Ctx) : (s.setCtx k c).encs = s.encs := rfl
@[simp] theorem State.setCtx_boot (s : State) (k : Nat) (c : Ctx) : (s.setCtx k c).boot = s.boot := rfl
@[simp] theorem State.setCtx_rd (s : State) (k : Nat) (c : Ctx) (off : Nat) : (s.setCtx k c).rd off = s.rd off := rfl
@[simp] theorem State.setCtx_rf (s : State) (k : Nat) (c : Ctx) (off : Nat) (g : Fld) : (s.setCtx k c).rf off g = s.rf off g := rfl
@[simp] theorem State.setCtx_rn (s : State) (k : Nat) (c : Ctx) (off : Nat) : (s.setCtx k c).rn off = s.rn off := rfl
@[simp] theorem State.setCtx_legacy (s : State) (k : Nat) (c : Ctx) : (s.setCtx k c).legacy = s.legacy := rfl
@[simp] theorem State.setCtx_up (s : State) (k : Nat) (c : Ctx) : (s.setCtx k c).up = s.up := rfl
@[simp] theorem State.setCtx_clockOn (s : State) (k : Nat) (c : Ctx) : (s.setCtx k c).clockOn = s.clockOn := rfl
/-! setQueue changes ctxs alone. -/
@[simp] theorem State.setQueue_pending (s : State) (k q : Nat) (x : Queue) : (s.setQueue k q x).pending = s.pending := rfl
@[simp] theorem State.setQueue_freeCount (s : State) (k q : Nat) (x : Queue) : (s.setQueue k q x).freeCount = s.freeCount := rfl
@[simp] theorem State.setQueue_gts (s : State) (k q : Nat) (x : Queue) : (s.setQueue k q x).gts = s.gts := rfl
@[simp] theorem State.setQueue_taiSec (s : State) (k q : Nat) (x : Queue) : (s.setQueue k q x).taiSec = s.taiSec := rfl
@[simp] theorem State.setQueue_taiNs (s : State) (k q : Nat) (x : Queue) : (s.setQueue k q x).taiNs = s.taiNs := rfl
@[simp] theorem State.setQueue_taiFrac (s : State) (k q : Nat) (x : Queue) : (s.setQueue k q x).taiFrac = s.taiFrac := rfl
@[simp] theorem State.setQueue_taiRate (s : State) (k q : Nat) (x : Queue) : (s.setQueue k q x).taiRate = s.taiRate := rfl
@[simp] theorem State.setQueue_taiValid (s : State) (k q : Nat) (x : Queue) : (s.setQueue k q x).taiValid = s.taiValid := rfl
@[simp] theorem State.setQueue_taiOp (s : State) (k q : Nat) (x : Queue) : (s.setQueue k q x).taiOp = s.taiOp := rfl
@[simp] theorem State.setQueue_snapPending (s : State) (k q : Nat) (x : Queue) : (s.setQueue k q x).snapPending = s.snapPending := rfl
@[simp] theorem State.setQueue_live (s : State) (k q : Nat) (x : Queue) : (s.setQueue k q x).live = s.live := rfl
@[simp] theorem State.setQueue_staged (s : State) (k q : Nat) (x : Queue) : (s.setQueue k q x).staged = s.staged := rfl
@[simp] theorem State.setQueue_sections (s : State) (k q : Nat) (x : Queue) : (s.setQueue k q x).sections = s.sections := rfl
@[simp] theorem State.setQueue_checker (s : State) (k q : Nat) (x : Queue) : (s.setQueue k q x).checker = s.checker := rfl
@[simp] theorem State.setQueue_claims (s : State) (k q : Nat) (x : Queue) : (s.setQueue k q x).claims = s.claims := rfl
@[simp] theorem State.setQueue_events (s : State) (k q : Nat) (x : Queue) : (s.setQueue k q x).events = s.events := rfl
@[simp] theorem State.setQueue_devRing (s : State) (k q : Nat) (x : Queue) : (s.setQueue k q x).devRing = s.devRing := rfl
@[simp] theorem State.setQueue_vectors (s : State) (k q : Nat) (x : Queue) : (s.setQueue k q x).vectors = s.vectors := rfl
@[simp] theorem State.setQueue_msixVecs (s : State) (k q : Nat) (x : Queue) : (s.setQueue k q x).msixVecs = s.msixVecs := rfl
@[simp] theorem State.setQueue_tcmp (s : State) (k q : Nat) (x : Queue) : (s.setQueue k q x).tcmp = s.tcmp := rfl
@[simp] theorem State.setQueue_pcmp (s : State) (k q : Nat) (x : Queue) : (s.setQueue k q x).pcmp = s.pcmp := rfl
@[simp] theorem State.setQueue_phases (s : State) (k q : Nat) (x : Queue) : (s.setQueue k q x).phases = s.phases := rfl
@[simp] theorem State.setQueue_fsyncs (s : State) (k q : Nat) (x : Queue) : (s.setQueue k q x).fsyncs = s.fsyncs := rfl
@[simp] theorem State.setQueue_eth (s : State) (k q : Nat) (x : Queue) : (s.setQueue k q x).eth = s.eth := rfl
@[simp] theorem State.setQueue_integ (s : State) (k q : Nat) (x : Queue) : (s.setQueue k q x).integ = s.integ := rfl
@[simp] theorem State.setQueue_pairs (s : State) (k q : Nat) (x : Queue) : (s.setQueue k q x).pairs = s.pairs := rfl
@[simp] theorem State.setQueue_clk (s : State) (k q : Nat) (x : Queue) : (s.setQueue k q x).clk = s.clk := rfl
@[simp] theorem State.setQueue_pwr (s : State) (k q : Nat) (x : Queue) : (s.setQueue k q x).pwr = s.pwr := rfl
@[simp] theorem State.setQueue_pins (s : State) (k q : Nat) (x : Queue) : (s.setQueue k q x).pins = s.pins := rfl
@[simp] theorem State.setQueue_pcieUp (s : State) (k q : Nat) (x : Queue) : (s.setQueue k q x).pcieUp = s.pcieUp := rfl
@[simp] theorem State.setQueue_weir (s : State) (k q : Nat) (x : Queue) : (s.setQueue k q x).weir = s.weir := rfl
@[simp] theorem State.setQueue_dram (s : State) (k q : Nat) (x : Queue) : (s.setQueue k q x).dram = s.dram := rfl
@[simp] theorem State.setQueue_cistern (s : State) (k q : Nat) (x : Queue) : (s.setQueue k q x).cistern = s.cistern := rfl
@[simp] theorem State.setQueue_pages (s : State) (k q : Nat) (x : Queue) : (s.setQueue k q x).pages = s.pages := rfl
@[simp] theorem State.setQueue_freeSeq (s : State) (k q : Nat) (x : Queue) : (s.setQueue k q x).freeSeq = s.freeSeq := rfl
@[simp] theorem State.setQueue_ftns (s : State) (k q : Nat) (x : Queue) : (s.setQueue k q x).ftns = s.ftns := rfl
@[simp] theorem State.setQueue_cores (s : State) (k q : Nat) (x : Queue) : (s.setQueue k q x).cores = s.cores := rfl
@[simp] theorem State.setQueue_skim (s : State) (k q : Nat) (x : Queue) : (s.setQueue k q x).skim = s.skim := rfl
@[simp] theorem State.setQueue_ddr (s : State) (k q : Nat) (x : Queue) : (s.setQueue k q x).ddr = s.ddr := rfl
@[simp] theorem State.setQueue_fwp (s : State) (k q : Nat) (x : Queue) : (s.setQueue k q x).fwp = s.fwp := rfl
@[simp] theorem State.setQueue_tok (s : State) (k q : Nat) (x : Queue) : (s.setQueue k q x).tok = s.tok := rfl
@[simp] theorem State.setQueue_tokEnd (s : State) (k q : Nat) (x : Queue) : (s.setQueue k q x).tokEnd = s.tokEnd := rfl
@[simp] theorem State.setQueue_streams (s : State) (k q : Nat) (x : Queue) : (s.setQueue k q x).streams = s.streams := rfl
@[simp] theorem State.setQueue_pipes (s : State) (k q : Nat) (x : Queue) : (s.setQueue k q x).pipes = s.pipes := rfl
@[simp] theorem State.setQueue_spout (s : State) (k q : Nat) (x : Queue) : (s.setQueue k q x).spout = s.spout := rfl
@[simp] theorem State.setQueue_decs (s : State) (k q : Nat) (x : Queue) : (s.setQueue k q x).decs = s.decs := rfl
@[simp] theorem State.setQueue_encs (s : State) (k q : Nat) (x : Queue) : (s.setQueue k q x).encs = s.encs := rfl
@[simp] theorem State.setQueue_boot (s : State) (k q : Nat) (x : Queue) : (s.setQueue k q x).boot = s.boot := rfl
@[simp] theorem State.setQueue_rd (s : State) (k q : Nat) (x : Queue) (off : Nat) : (s.setQueue k q x).rd off = s.rd off := rfl
@[simp] theorem State.setQueue_rf (s : State) (k q : Nat) (x : Queue) (off : Nat) (g : Fld) : (s.setQueue k q x).rf off g = s.rf off g := rfl
@[simp] theorem State.setQueue_rn (s : State) (k q : Nat) (x : Queue) (off : Nat) : (s.setQueue k q x).rn off = s.rn off := rfl
@[simp] theorem State.setQueue_legacy (s : State) (k q : Nat) (x : Queue) : (s.setQueue k q x).legacy = s.legacy := rfl
@[simp] theorem State.setQueue_up (s : State) (k q : Nat) (x : Queue) : (s.setQueue k q x).up = s.up := rfl
@[simp] theorem State.setQueue_clockOn (s : State) (k q : Nat) (x : Queue) : (s.setQueue k q x).clockOn = s.clockOn := rfl
/-! setFtn changes ftns alone. -/
@[simp] theorem State.setFtn_pending (s : State) (f : Nat) (x : Fountain) : (s.setFtn f x).pending = s.pending := rfl
@[simp] theorem State.setFtn_freeCount (s : State) (f : Nat) (x : Fountain) : (s.setFtn f x).freeCount = s.freeCount := rfl
@[simp] theorem State.setFtn_gts (s : State) (f : Nat) (x : Fountain) : (s.setFtn f x).gts = s.gts := rfl
@[simp] theorem State.setFtn_taiSec (s : State) (f : Nat) (x : Fountain) : (s.setFtn f x).taiSec = s.taiSec := rfl
@[simp] theorem State.setFtn_taiNs (s : State) (f : Nat) (x : Fountain) : (s.setFtn f x).taiNs = s.taiNs := rfl
@[simp] theorem State.setFtn_taiFrac (s : State) (f : Nat) (x : Fountain) : (s.setFtn f x).taiFrac = s.taiFrac := rfl
@[simp] theorem State.setFtn_taiRate (s : State) (f : Nat) (x : Fountain) : (s.setFtn f x).taiRate = s.taiRate := rfl
@[simp] theorem State.setFtn_taiValid (s : State) (f : Nat) (x : Fountain) : (s.setFtn f x).taiValid = s.taiValid := rfl
@[simp] theorem State.setFtn_taiOp (s : State) (f : Nat) (x : Fountain) : (s.setFtn f x).taiOp = s.taiOp := rfl
@[simp] theorem State.setFtn_snapPending (s : State) (f : Nat) (x : Fountain) : (s.setFtn f x).snapPending = s.snapPending := rfl
@[simp] theorem State.setFtn_live (s : State) (f : Nat) (x : Fountain) : (s.setFtn f x).live = s.live := rfl
@[simp] theorem State.setFtn_staged (s : State) (f : Nat) (x : Fountain) : (s.setFtn f x).staged = s.staged := rfl
@[simp] theorem State.setFtn_sections (s : State) (f : Nat) (x : Fountain) : (s.setFtn f x).sections = s.sections := rfl
@[simp] theorem State.setFtn_checker (s : State) (f : Nat) (x : Fountain) : (s.setFtn f x).checker = s.checker := rfl
@[simp] theorem State.setFtn_claims (s : State) (f : Nat) (x : Fountain) : (s.setFtn f x).claims = s.claims := rfl
@[simp] theorem State.setFtn_events (s : State) (f : Nat) (x : Fountain) : (s.setFtn f x).events = s.events := rfl
@[simp] theorem State.setFtn_devRing (s : State) (f : Nat) (x : Fountain) : (s.setFtn f x).devRing = s.devRing := rfl
@[simp] theorem State.setFtn_ctxs (s : State) (f : Nat) (x : Fountain) : (s.setFtn f x).ctxs = s.ctxs := rfl
@[simp] theorem State.setFtn_vectors (s : State) (f : Nat) (x : Fountain) : (s.setFtn f x).vectors = s.vectors := rfl
@[simp] theorem State.setFtn_msixVecs (s : State) (f : Nat) (x : Fountain) : (s.setFtn f x).msixVecs = s.msixVecs := rfl
@[simp] theorem State.setFtn_tcmp (s : State) (f : Nat) (x : Fountain) : (s.setFtn f x).tcmp = s.tcmp := rfl
@[simp] theorem State.setFtn_pcmp (s : State) (f : Nat) (x : Fountain) : (s.setFtn f x).pcmp = s.pcmp := rfl
@[simp] theorem State.setFtn_phases (s : State) (f : Nat) (x : Fountain) : (s.setFtn f x).phases = s.phases := rfl
@[simp] theorem State.setFtn_fsyncs (s : State) (f : Nat) (x : Fountain) : (s.setFtn f x).fsyncs = s.fsyncs := rfl
@[simp] theorem State.setFtn_eth (s : State) (f : Nat) (x : Fountain) : (s.setFtn f x).eth = s.eth := rfl
@[simp] theorem State.setFtn_integ (s : State) (f : Nat) (x : Fountain) : (s.setFtn f x).integ = s.integ := rfl
@[simp] theorem State.setFtn_pairs (s : State) (f : Nat) (x : Fountain) : (s.setFtn f x).pairs = s.pairs := rfl
@[simp] theorem State.setFtn_clk (s : State) (f : Nat) (x : Fountain) : (s.setFtn f x).clk = s.clk := rfl
@[simp] theorem State.setFtn_pwr (s : State) (f : Nat) (x : Fountain) : (s.setFtn f x).pwr = s.pwr := rfl
@[simp] theorem State.setFtn_pins (s : State) (f : Nat) (x : Fountain) : (s.setFtn f x).pins = s.pins := rfl
@[simp] theorem State.setFtn_pcieUp (s : State) (f : Nat) (x : Fountain) : (s.setFtn f x).pcieUp = s.pcieUp := rfl
@[simp] theorem State.setFtn_weir (s : State) (f : Nat) (x : Fountain) : (s.setFtn f x).weir = s.weir := rfl
@[simp] theorem State.setFtn_dram (s : State) (f : Nat) (x : Fountain) : (s.setFtn f x).dram = s.dram := rfl
@[simp] theorem State.setFtn_cistern (s : State) (f : Nat) (x : Fountain) : (s.setFtn f x).cistern = s.cistern := rfl
@[simp] theorem State.setFtn_pages (s : State) (f : Nat) (x : Fountain) : (s.setFtn f x).pages = s.pages := rfl
@[simp] theorem State.setFtn_freeSeq (s : State) (f : Nat) (x : Fountain) : (s.setFtn f x).freeSeq = s.freeSeq := rfl
@[simp] theorem State.setFtn_cores (s : State) (f : Nat) (x : Fountain) : (s.setFtn f x).cores = s.cores := rfl
@[simp] theorem State.setFtn_skim (s : State) (f : Nat) (x : Fountain) : (s.setFtn f x).skim = s.skim := rfl
@[simp] theorem State.setFtn_ddr (s : State) (f : Nat) (x : Fountain) : (s.setFtn f x).ddr = s.ddr := rfl
@[simp] theorem State.setFtn_fwp (s : State) (f : Nat) (x : Fountain) : (s.setFtn f x).fwp = s.fwp := rfl
@[simp] theorem State.setFtn_tok (s : State) (f : Nat) (x : Fountain) : (s.setFtn f x).tok = s.tok := rfl
@[simp] theorem State.setFtn_tokEnd (s : State) (f : Nat) (x : Fountain) : (s.setFtn f x).tokEnd = s.tokEnd := rfl
@[simp] theorem State.setFtn_streams (s : State) (f : Nat) (x : Fountain) : (s.setFtn f x).streams = s.streams := rfl
@[simp] theorem State.setFtn_pipes (s : State) (f : Nat) (x : Fountain) : (s.setFtn f x).pipes = s.pipes := rfl
@[simp] theorem State.setFtn_spout (s : State) (f : Nat) (x : Fountain) : (s.setFtn f x).spout = s.spout := rfl
@[simp] theorem State.setFtn_decs (s : State) (f : Nat) (x : Fountain) : (s.setFtn f x).decs = s.decs := rfl
@[simp] theorem State.setFtn_encs (s : State) (f : Nat) (x : Fountain) : (s.setFtn f x).encs = s.encs := rfl
@[simp] theorem State.setFtn_boot (s : State) (f : Nat) (x : Fountain) : (s.setFtn f x).boot = s.boot := rfl
@[simp] theorem State.setFtn_rd (s : State) (f : Nat) (x : Fountain) (off : Nat) : (s.setFtn f x).rd off = s.rd off := rfl
@[simp] theorem State.setFtn_rf (s : State) (f : Nat) (x : Fountain) (off : Nat) (g : Fld) : (s.setFtn f x).rf off g = s.rf off g := rfl
@[simp] theorem State.setFtn_rn (s : State) (f : Nat) (x : Fountain) (off : Nat) : (s.setFtn f x).rn off = s.rn off := rfl
@[simp] theorem State.setFtn_legacy (s : State) (f : Nat) (x : Fountain) : (s.setFtn f x).legacy = s.legacy := rfl
@[simp] theorem State.setFtn_up (s : State) (f : Nat) (x : Fountain) : (s.setFtn f x).up = s.up := rfl
@[simp] theorem State.setFtn_clockOn (s : State) (f : Nat) (x : Fountain) : (s.setFtn f x).clockOn = s.clockOn := rfl
/-! setCore changes cores alone. -/
@[simp] theorem State.setCore_pending (s : State) (c : Nat) (x : Core) : (s.setCore c x).pending = s.pending := rfl
@[simp] theorem State.setCore_freeCount (s : State) (c : Nat) (x : Core) : (s.setCore c x).freeCount = s.freeCount := rfl
@[simp] theorem State.setCore_gts (s : State) (c : Nat) (x : Core) : (s.setCore c x).gts = s.gts := rfl
@[simp] theorem State.setCore_taiSec (s : State) (c : Nat) (x : Core) : (s.setCore c x).taiSec = s.taiSec := rfl
@[simp] theorem State.setCore_taiNs (s : State) (c : Nat) (x : Core) : (s.setCore c x).taiNs = s.taiNs := rfl
@[simp] theorem State.setCore_taiFrac (s : State) (c : Nat) (x : Core) : (s.setCore c x).taiFrac = s.taiFrac := rfl
@[simp] theorem State.setCore_taiRate (s : State) (c : Nat) (x : Core) : (s.setCore c x).taiRate = s.taiRate := rfl
@[simp] theorem State.setCore_taiValid (s : State) (c : Nat) (x : Core) : (s.setCore c x).taiValid = s.taiValid := rfl
@[simp] theorem State.setCore_taiOp (s : State) (c : Nat) (x : Core) : (s.setCore c x).taiOp = s.taiOp := rfl
@[simp] theorem State.setCore_snapPending (s : State) (c : Nat) (x : Core) : (s.setCore c x).snapPending = s.snapPending := rfl
@[simp] theorem State.setCore_live (s : State) (c : Nat) (x : Core) : (s.setCore c x).live = s.live := rfl
@[simp] theorem State.setCore_staged (s : State) (c : Nat) (x : Core) : (s.setCore c x).staged = s.staged := rfl
@[simp] theorem State.setCore_sections (s : State) (c : Nat) (x : Core) : (s.setCore c x).sections = s.sections := rfl
@[simp] theorem State.setCore_checker (s : State) (c : Nat) (x : Core) : (s.setCore c x).checker = s.checker := rfl
@[simp] theorem State.setCore_claims (s : State) (c : Nat) (x : Core) : (s.setCore c x).claims = s.claims := rfl
@[simp] theorem State.setCore_events (s : State) (c : Nat) (x : Core) : (s.setCore c x).events = s.events := rfl
@[simp] theorem State.setCore_devRing (s : State) (c : Nat) (x : Core) : (s.setCore c x).devRing = s.devRing := rfl
@[simp] theorem State.setCore_ctxs (s : State) (c : Nat) (x : Core) : (s.setCore c x).ctxs = s.ctxs := rfl
@[simp] theorem State.setCore_vectors (s : State) (c : Nat) (x : Core) : (s.setCore c x).vectors = s.vectors := rfl
@[simp] theorem State.setCore_msixVecs (s : State) (c : Nat) (x : Core) : (s.setCore c x).msixVecs = s.msixVecs := rfl
@[simp] theorem State.setCore_tcmp (s : State) (c : Nat) (x : Core) : (s.setCore c x).tcmp = s.tcmp := rfl
@[simp] theorem State.setCore_pcmp (s : State) (c : Nat) (x : Core) : (s.setCore c x).pcmp = s.pcmp := rfl
@[simp] theorem State.setCore_phases (s : State) (c : Nat) (x : Core) : (s.setCore c x).phases = s.phases := rfl
@[simp] theorem State.setCore_fsyncs (s : State) (c : Nat) (x : Core) : (s.setCore c x).fsyncs = s.fsyncs := rfl
@[simp] theorem State.setCore_eth (s : State) (c : Nat) (x : Core) : (s.setCore c x).eth = s.eth := rfl
@[simp] theorem State.setCore_integ (s : State) (c : Nat) (x : Core) : (s.setCore c x).integ = s.integ := rfl
@[simp] theorem State.setCore_pairs (s : State) (c : Nat) (x : Core) : (s.setCore c x).pairs = s.pairs := rfl
@[simp] theorem State.setCore_clk (s : State) (c : Nat) (x : Core) : (s.setCore c x).clk = s.clk := rfl
@[simp] theorem State.setCore_pwr (s : State) (c : Nat) (x : Core) : (s.setCore c x).pwr = s.pwr := rfl
@[simp] theorem State.setCore_pins (s : State) (c : Nat) (x : Core) : (s.setCore c x).pins = s.pins := rfl
@[simp] theorem State.setCore_pcieUp (s : State) (c : Nat) (x : Core) : (s.setCore c x).pcieUp = s.pcieUp := rfl
@[simp] theorem State.setCore_weir (s : State) (c : Nat) (x : Core) : (s.setCore c x).weir = s.weir := rfl
@[simp] theorem State.setCore_dram (s : State) (c : Nat) (x : Core) : (s.setCore c x).dram = s.dram := rfl
@[simp] theorem State.setCore_cistern (s : State) (c : Nat) (x : Core) : (s.setCore c x).cistern = s.cistern := rfl
@[simp] theorem State.setCore_pages (s : State) (c : Nat) (x : Core) : (s.setCore c x).pages = s.pages := rfl
@[simp] theorem State.setCore_freeSeq (s : State) (c : Nat) (x : Core) : (s.setCore c x).freeSeq = s.freeSeq := rfl
@[simp] theorem State.setCore_ftns (s : State) (c : Nat) (x : Core) : (s.setCore c x).ftns = s.ftns := rfl
@[simp] theorem State.setCore_skim (s : State) (c : Nat) (x : Core) : (s.setCore c x).skim = s.skim := rfl
@[simp] theorem State.setCore_ddr (s : State) (c : Nat) (x : Core) : (s.setCore c x).ddr = s.ddr := rfl
@[simp] theorem State.setCore_fwp (s : State) (c : Nat) (x : Core) : (s.setCore c x).fwp = s.fwp := rfl
@[simp] theorem State.setCore_tok (s : State) (c : Nat) (x : Core) : (s.setCore c x).tok = s.tok := rfl
@[simp] theorem State.setCore_tokEnd (s : State) (c : Nat) (x : Core) : (s.setCore c x).tokEnd = s.tokEnd := rfl
@[simp] theorem State.setCore_streams (s : State) (c : Nat) (x : Core) : (s.setCore c x).streams = s.streams := rfl
@[simp] theorem State.setCore_pipes (s : State) (c : Nat) (x : Core) : (s.setCore c x).pipes = s.pipes := rfl
@[simp] theorem State.setCore_spout (s : State) (c : Nat) (x : Core) : (s.setCore c x).spout = s.spout := rfl
@[simp] theorem State.setCore_decs (s : State) (c : Nat) (x : Core) : (s.setCore c x).decs = s.decs := rfl
@[simp] theorem State.setCore_encs (s : State) (c : Nat) (x : Core) : (s.setCore c x).encs = s.encs := rfl
@[simp] theorem State.setCore_boot (s : State) (c : Nat) (x : Core) : (s.setCore c x).boot = s.boot := rfl
@[simp] theorem State.setCore_rd (s : State) (c : Nat) (x : Core) (off : Nat) : (s.setCore c x).rd off = s.rd off := rfl
@[simp] theorem State.setCore_rf (s : State) (c : Nat) (x : Core) (off : Nat) (g : Fld) : (s.setCore c x).rf off g = s.rf off g := rfl
@[simp] theorem State.setCore_rn (s : State) (c : Nat) (x : Core) (off : Nat) : (s.setCore c x).rn off = s.rn off := rfl
@[simp] theorem State.setCore_legacy (s : State) (c : Nat) (x : Core) : (s.setCore c x).legacy = s.legacy := rfl
@[simp] theorem State.setCore_up (s : State) (c : Nat) (x : Core) : (s.setCore c x).up = s.up := rfl
@[simp] theorem State.setCore_clockOn (s : State) (c : Nat) (x : Core) : (s.setCore c x).clockOn = s.clockOn := rfl
/-! setRill changes cores alone. -/
@[simp] theorem State.setRill_pending (s : State) (c r : Nat) (q : Rill) : (s.setRill c r q).pending = s.pending := rfl
@[simp] theorem State.setRill_freeCount (s : State) (c r : Nat) (q : Rill) : (s.setRill c r q).freeCount = s.freeCount := rfl
@[simp] theorem State.setRill_gts (s : State) (c r : Nat) (q : Rill) : (s.setRill c r q).gts = s.gts := rfl
@[simp] theorem State.setRill_taiSec (s : State) (c r : Nat) (q : Rill) : (s.setRill c r q).taiSec = s.taiSec := rfl
@[simp] theorem State.setRill_taiNs (s : State) (c r : Nat) (q : Rill) : (s.setRill c r q).taiNs = s.taiNs := rfl
@[simp] theorem State.setRill_taiFrac (s : State) (c r : Nat) (q : Rill) : (s.setRill c r q).taiFrac = s.taiFrac := rfl
@[simp] theorem State.setRill_taiRate (s : State) (c r : Nat) (q : Rill) : (s.setRill c r q).taiRate = s.taiRate := rfl
@[simp] theorem State.setRill_taiValid (s : State) (c r : Nat) (q : Rill) : (s.setRill c r q).taiValid = s.taiValid := rfl
@[simp] theorem State.setRill_taiOp (s : State) (c r : Nat) (q : Rill) : (s.setRill c r q).taiOp = s.taiOp := rfl
@[simp] theorem State.setRill_snapPending (s : State) (c r : Nat) (q : Rill) : (s.setRill c r q).snapPending = s.snapPending := rfl
@[simp] theorem State.setRill_live (s : State) (c r : Nat) (q : Rill) : (s.setRill c r q).live = s.live := rfl
@[simp] theorem State.setRill_staged (s : State) (c r : Nat) (q : Rill) : (s.setRill c r q).staged = s.staged := rfl
@[simp] theorem State.setRill_sections (s : State) (c r : Nat) (q : Rill) : (s.setRill c r q).sections = s.sections := rfl
@[simp] theorem State.setRill_checker (s : State) (c r : Nat) (q : Rill) : (s.setRill c r q).checker = s.checker := rfl
@[simp] theorem State.setRill_claims (s : State) (c r : Nat) (q : Rill) : (s.setRill c r q).claims = s.claims := rfl
@[simp] theorem State.setRill_events (s : State) (c r : Nat) (q : Rill) : (s.setRill c r q).events = s.events := rfl
@[simp] theorem State.setRill_devRing (s : State) (c r : Nat) (q : Rill) : (s.setRill c r q).devRing = s.devRing := rfl
@[simp] theorem State.setRill_ctxs (s : State) (c r : Nat) (q : Rill) : (s.setRill c r q).ctxs = s.ctxs := rfl
@[simp] theorem State.setRill_vectors (s : State) (c r : Nat) (q : Rill) : (s.setRill c r q).vectors = s.vectors := rfl
@[simp] theorem State.setRill_msixVecs (s : State) (c r : Nat) (q : Rill) : (s.setRill c r q).msixVecs = s.msixVecs := rfl
@[simp] theorem State.setRill_tcmp (s : State) (c r : Nat) (q : Rill) : (s.setRill c r q).tcmp = s.tcmp := rfl
@[simp] theorem State.setRill_pcmp (s : State) (c r : Nat) (q : Rill) : (s.setRill c r q).pcmp = s.pcmp := rfl
@[simp] theorem State.setRill_phases (s : State) (c r : Nat) (q : Rill) : (s.setRill c r q).phases = s.phases := rfl
@[simp] theorem State.setRill_fsyncs (s : State) (c r : Nat) (q : Rill) : (s.setRill c r q).fsyncs = s.fsyncs := rfl
@[simp] theorem State.setRill_eth (s : State) (c r : Nat) (q : Rill) : (s.setRill c r q).eth = s.eth := rfl
@[simp] theorem State.setRill_integ (s : State) (c r : Nat) (q : Rill) : (s.setRill c r q).integ = s.integ := rfl
@[simp] theorem State.setRill_pairs (s : State) (c r : Nat) (q : Rill) : (s.setRill c r q).pairs = s.pairs := rfl
@[simp] theorem State.setRill_clk (s : State) (c r : Nat) (q : Rill) : (s.setRill c r q).clk = s.clk := rfl
@[simp] theorem State.setRill_pwr (s : State) (c r : Nat) (q : Rill) : (s.setRill c r q).pwr = s.pwr := rfl
@[simp] theorem State.setRill_pins (s : State) (c r : Nat) (q : Rill) : (s.setRill c r q).pins = s.pins := rfl
@[simp] theorem State.setRill_pcieUp (s : State) (c r : Nat) (q : Rill) : (s.setRill c r q).pcieUp = s.pcieUp := rfl
@[simp] theorem State.setRill_weir (s : State) (c r : Nat) (q : Rill) : (s.setRill c r q).weir = s.weir := rfl
@[simp] theorem State.setRill_dram (s : State) (c r : Nat) (q : Rill) : (s.setRill c r q).dram = s.dram := rfl
@[simp] theorem State.setRill_cistern (s : State) (c r : Nat) (q : Rill) : (s.setRill c r q).cistern = s.cistern := rfl
@[simp] theorem State.setRill_pages (s : State) (c r : Nat) (q : Rill) : (s.setRill c r q).pages = s.pages := rfl
@[simp] theorem State.setRill_freeSeq (s : State) (c r : Nat) (q : Rill) : (s.setRill c r q).freeSeq = s.freeSeq := rfl
@[simp] theorem State.setRill_ftns (s : State) (c r : Nat) (q : Rill) : (s.setRill c r q).ftns = s.ftns := rfl
@[simp] theorem State.setRill_skim (s : State) (c r : Nat) (q : Rill) : (s.setRill c r q).skim = s.skim := rfl
@[simp] theorem State.setRill_ddr (s : State) (c r : Nat) (q : Rill) : (s.setRill c r q).ddr = s.ddr := rfl
@[simp] theorem State.setRill_fwp (s : State) (c r : Nat) (q : Rill) : (s.setRill c r q).fwp = s.fwp := rfl
@[simp] theorem State.setRill_tok (s : State) (c r : Nat) (q : Rill) : (s.setRill c r q).tok = s.tok := rfl
@[simp] theorem State.setRill_tokEnd (s : State) (c r : Nat) (q : Rill) : (s.setRill c r q).tokEnd = s.tokEnd := rfl
@[simp] theorem State.setRill_streams (s : State) (c r : Nat) (q : Rill) : (s.setRill c r q).streams = s.streams := rfl
@[simp] theorem State.setRill_pipes (s : State) (c r : Nat) (q : Rill) : (s.setRill c r q).pipes = s.pipes := rfl
@[simp] theorem State.setRill_spout (s : State) (c r : Nat) (q : Rill) : (s.setRill c r q).spout = s.spout := rfl
@[simp] theorem State.setRill_decs (s : State) (c r : Nat) (q : Rill) : (s.setRill c r q).decs = s.decs := rfl
@[simp] theorem State.setRill_encs (s : State) (c r : Nat) (q : Rill) : (s.setRill c r q).encs = s.encs := rfl
@[simp] theorem State.setRill_boot (s : State) (c r : Nat) (q : Rill) : (s.setRill c r q).boot = s.boot := rfl
@[simp] theorem State.setRill_rd (s : State) (c r : Nat) (q : Rill) (off : Nat) : (s.setRill c r q).rd off = s.rd off := rfl
@[simp] theorem State.setRill_rf (s : State) (c r : Nat) (q : Rill) (off : Nat) (g : Fld) : (s.setRill c r q).rf off g = s.rf off g := rfl
@[simp] theorem State.setRill_rn (s : State) (c r : Nat) (q : Rill) (off : Nat) : (s.setRill c r q).rn off = s.rn off := rfl
@[simp] theorem State.setRill_legacy (s : State) (c r : Nat) (q : Rill) : (s.setRill c r q).legacy = s.legacy := rfl
@[simp] theorem State.setRill_up (s : State) (c r : Nat) (q : Rill) : (s.setRill c r q).up = s.up := rfl
@[simp] theorem State.setRill_clockOn (s : State) (c r : Nat) (q : Rill) : (s.setRill c r q).clockOn = s.clockOn := rfl
/-! setPage changes pages alone. -/
@[simp] theorem State.setPage_pending (s : State) (n : Nat) (p : Page) : (s.setPage n p).pending = s.pending := rfl
@[simp] theorem State.setPage_freeCount (s : State) (n : Nat) (p : Page) : (s.setPage n p).freeCount = s.freeCount := rfl
@[simp] theorem State.setPage_gts (s : State) (n : Nat) (p : Page) : (s.setPage n p).gts = s.gts := rfl
@[simp] theorem State.setPage_taiSec (s : State) (n : Nat) (p : Page) : (s.setPage n p).taiSec = s.taiSec := rfl
@[simp] theorem State.setPage_taiNs (s : State) (n : Nat) (p : Page) : (s.setPage n p).taiNs = s.taiNs := rfl
@[simp] theorem State.setPage_taiFrac (s : State) (n : Nat) (p : Page) : (s.setPage n p).taiFrac = s.taiFrac := rfl
@[simp] theorem State.setPage_taiRate (s : State) (n : Nat) (p : Page) : (s.setPage n p).taiRate = s.taiRate := rfl
@[simp] theorem State.setPage_taiValid (s : State) (n : Nat) (p : Page) : (s.setPage n p).taiValid = s.taiValid := rfl
@[simp] theorem State.setPage_taiOp (s : State) (n : Nat) (p : Page) : (s.setPage n p).taiOp = s.taiOp := rfl
@[simp] theorem State.setPage_snapPending (s : State) (n : Nat) (p : Page) : (s.setPage n p).snapPending = s.snapPending := rfl
@[simp] theorem State.setPage_live (s : State) (n : Nat) (p : Page) : (s.setPage n p).live = s.live := rfl
@[simp] theorem State.setPage_staged (s : State) (n : Nat) (p : Page) : (s.setPage n p).staged = s.staged := rfl
@[simp] theorem State.setPage_sections (s : State) (n : Nat) (p : Page) : (s.setPage n p).sections = s.sections := rfl
@[simp] theorem State.setPage_checker (s : State) (n : Nat) (p : Page) : (s.setPage n p).checker = s.checker := rfl
@[simp] theorem State.setPage_claims (s : State) (n : Nat) (p : Page) : (s.setPage n p).claims = s.claims := rfl
@[simp] theorem State.setPage_events (s : State) (n : Nat) (p : Page) : (s.setPage n p).events = s.events := rfl
@[simp] theorem State.setPage_devRing (s : State) (n : Nat) (p : Page) : (s.setPage n p).devRing = s.devRing := rfl
@[simp] theorem State.setPage_ctxs (s : State) (n : Nat) (p : Page) : (s.setPage n p).ctxs = s.ctxs := rfl
@[simp] theorem State.setPage_vectors (s : State) (n : Nat) (p : Page) : (s.setPage n p).vectors = s.vectors := rfl
@[simp] theorem State.setPage_msixVecs (s : State) (n : Nat) (p : Page) : (s.setPage n p).msixVecs = s.msixVecs := rfl
@[simp] theorem State.setPage_tcmp (s : State) (n : Nat) (p : Page) : (s.setPage n p).tcmp = s.tcmp := rfl
@[simp] theorem State.setPage_pcmp (s : State) (n : Nat) (p : Page) : (s.setPage n p).pcmp = s.pcmp := rfl
@[simp] theorem State.setPage_phases (s : State) (n : Nat) (p : Page) : (s.setPage n p).phases = s.phases := rfl
@[simp] theorem State.setPage_fsyncs (s : State) (n : Nat) (p : Page) : (s.setPage n p).fsyncs = s.fsyncs := rfl
@[simp] theorem State.setPage_eth (s : State) (n : Nat) (p : Page) : (s.setPage n p).eth = s.eth := rfl
@[simp] theorem State.setPage_integ (s : State) (n : Nat) (p : Page) : (s.setPage n p).integ = s.integ := rfl
@[simp] theorem State.setPage_pairs (s : State) (n : Nat) (p : Page) : (s.setPage n p).pairs = s.pairs := rfl
@[simp] theorem State.setPage_clk (s : State) (n : Nat) (p : Page) : (s.setPage n p).clk = s.clk := rfl
@[simp] theorem State.setPage_pwr (s : State) (n : Nat) (p : Page) : (s.setPage n p).pwr = s.pwr := rfl
@[simp] theorem State.setPage_pins (s : State) (n : Nat) (p : Page) : (s.setPage n p).pins = s.pins := rfl
@[simp] theorem State.setPage_pcieUp (s : State) (n : Nat) (p : Page) : (s.setPage n p).pcieUp = s.pcieUp := rfl
@[simp] theorem State.setPage_weir (s : State) (n : Nat) (p : Page) : (s.setPage n p).weir = s.weir := rfl
@[simp] theorem State.setPage_dram (s : State) (n : Nat) (p : Page) : (s.setPage n p).dram = s.dram := rfl
@[simp] theorem State.setPage_cistern (s : State) (n : Nat) (p : Page) : (s.setPage n p).cistern = s.cistern := rfl
@[simp] theorem State.setPage_freeSeq (s : State) (n : Nat) (p : Page) : (s.setPage n p).freeSeq = s.freeSeq := rfl
@[simp] theorem State.setPage_ftns (s : State) (n : Nat) (p : Page) : (s.setPage n p).ftns = s.ftns := rfl
@[simp] theorem State.setPage_cores (s : State) (n : Nat) (p : Page) : (s.setPage n p).cores = s.cores := rfl
@[simp] theorem State.setPage_skim (s : State) (n : Nat) (p : Page) : (s.setPage n p).skim = s.skim := rfl
@[simp] theorem State.setPage_ddr (s : State) (n : Nat) (p : Page) : (s.setPage n p).ddr = s.ddr := rfl
@[simp] theorem State.setPage_fwp (s : State) (n : Nat) (p : Page) : (s.setPage n p).fwp = s.fwp := rfl
@[simp] theorem State.setPage_tok (s : State) (n : Nat) (p : Page) : (s.setPage n p).tok = s.tok := rfl
@[simp] theorem State.setPage_tokEnd (s : State) (n : Nat) (p : Page) : (s.setPage n p).tokEnd = s.tokEnd := rfl
@[simp] theorem State.setPage_streams (s : State) (n : Nat) (p : Page) : (s.setPage n p).streams = s.streams := rfl
@[simp] theorem State.setPage_pipes (s : State) (n : Nat) (p : Page) : (s.setPage n p).pipes = s.pipes := rfl
@[simp] theorem State.setPage_spout (s : State) (n : Nat) (p : Page) : (s.setPage n p).spout = s.spout := rfl
@[simp] theorem State.setPage_decs (s : State) (n : Nat) (p : Page) : (s.setPage n p).decs = s.decs := rfl
@[simp] theorem State.setPage_encs (s : State) (n : Nat) (p : Page) : (s.setPage n p).encs = s.encs := rfl
@[simp] theorem State.setPage_boot (s : State) (n : Nat) (p : Page) : (s.setPage n p).boot = s.boot := rfl
@[simp] theorem State.setPage_rd (s : State) (n : Nat) (p : Page) (off : Nat) : (s.setPage n p).rd off = s.rd off := rfl
@[simp] theorem State.setPage_rf (s : State) (n : Nat) (p : Page) (off : Nat) (g : Fld) : (s.setPage n p).rf off g = s.rf off g := rfl
@[simp] theorem State.setPage_rn (s : State) (n : Nat) (p : Page) (off : Nat) : (s.setPage n p).rn off = s.rn off := rfl
@[simp] theorem State.setPage_legacy (s : State) (n : Nat) (p : Page) : (s.setPage n p).legacy = s.legacy := rfl
@[simp] theorem State.setPage_up (s : State) (n : Nat) (p : Page) : (s.setPage n p).up = s.up := rfl
@[simp] theorem State.setPage_clockOn (s : State) (n : Nat) (p : Page) : (s.setPage n p).clockOn = s.clockOn := rfl
/-! setPhase changes phases alone. -/
@[simp] theorem State.setPhase_pending (s : State) (n : Nat) (p : Phase) : (s.setPhase n p).pending = s.pending := rfl
@[simp] theorem State.setPhase_freeCount (s : State) (n : Nat) (p : Phase) : (s.setPhase n p).freeCount = s.freeCount := rfl
@[simp] theorem State.setPhase_gts (s : State) (n : Nat) (p : Phase) : (s.setPhase n p).gts = s.gts := rfl
@[simp] theorem State.setPhase_taiSec (s : State) (n : Nat) (p : Phase) : (s.setPhase n p).taiSec = s.taiSec := rfl
@[simp] theorem State.setPhase_taiNs (s : State) (n : Nat) (p : Phase) : (s.setPhase n p).taiNs = s.taiNs := rfl
@[simp] theorem State.setPhase_taiFrac (s : State) (n : Nat) (p : Phase) : (s.setPhase n p).taiFrac = s.taiFrac := rfl
@[simp] theorem State.setPhase_taiRate (s : State) (n : Nat) (p : Phase) : (s.setPhase n p).taiRate = s.taiRate := rfl
@[simp] theorem State.setPhase_taiValid (s : State) (n : Nat) (p : Phase) : (s.setPhase n p).taiValid = s.taiValid := rfl
@[simp] theorem State.setPhase_taiOp (s : State) (n : Nat) (p : Phase) : (s.setPhase n p).taiOp = s.taiOp := rfl
@[simp] theorem State.setPhase_snapPending (s : State) (n : Nat) (p : Phase) : (s.setPhase n p).snapPending = s.snapPending := rfl
@[simp] theorem State.setPhase_live (s : State) (n : Nat) (p : Phase) : (s.setPhase n p).live = s.live := rfl
@[simp] theorem State.setPhase_staged (s : State) (n : Nat) (p : Phase) : (s.setPhase n p).staged = s.staged := rfl
@[simp] theorem State.setPhase_sections (s : State) (n : Nat) (p : Phase) : (s.setPhase n p).sections = s.sections := rfl
@[simp] theorem State.setPhase_checker (s : State) (n : Nat) (p : Phase) : (s.setPhase n p).checker = s.checker := rfl
@[simp] theorem State.setPhase_claims (s : State) (n : Nat) (p : Phase) : (s.setPhase n p).claims = s.claims := rfl
@[simp] theorem State.setPhase_events (s : State) (n : Nat) (p : Phase) : (s.setPhase n p).events = s.events := rfl
@[simp] theorem State.setPhase_devRing (s : State) (n : Nat) (p : Phase) : (s.setPhase n p).devRing = s.devRing := rfl
@[simp] theorem State.setPhase_ctxs (s : State) (n : Nat) (p : Phase) : (s.setPhase n p).ctxs = s.ctxs := rfl
@[simp] theorem State.setPhase_vectors (s : State) (n : Nat) (p : Phase) : (s.setPhase n p).vectors = s.vectors := rfl
@[simp] theorem State.setPhase_msixVecs (s : State) (n : Nat) (p : Phase) : (s.setPhase n p).msixVecs = s.msixVecs := rfl
@[simp] theorem State.setPhase_tcmp (s : State) (n : Nat) (p : Phase) : (s.setPhase n p).tcmp = s.tcmp := rfl
@[simp] theorem State.setPhase_pcmp (s : State) (n : Nat) (p : Phase) : (s.setPhase n p).pcmp = s.pcmp := rfl
@[simp] theorem State.setPhase_fsyncs (s : State) (n : Nat) (p : Phase) : (s.setPhase n p).fsyncs = s.fsyncs := rfl
@[simp] theorem State.setPhase_eth (s : State) (n : Nat) (p : Phase) : (s.setPhase n p).eth = s.eth := rfl
@[simp] theorem State.setPhase_integ (s : State) (n : Nat) (p : Phase) : (s.setPhase n p).integ = s.integ := rfl
@[simp] theorem State.setPhase_pairs (s : State) (n : Nat) (p : Phase) : (s.setPhase n p).pairs = s.pairs := rfl
@[simp] theorem State.setPhase_clk (s : State) (n : Nat) (p : Phase) : (s.setPhase n p).clk = s.clk := rfl
@[simp] theorem State.setPhase_pwr (s : State) (n : Nat) (p : Phase) : (s.setPhase n p).pwr = s.pwr := rfl
@[simp] theorem State.setPhase_pins (s : State) (n : Nat) (p : Phase) : (s.setPhase n p).pins = s.pins := rfl
@[simp] theorem State.setPhase_pcieUp (s : State) (n : Nat) (p : Phase) : (s.setPhase n p).pcieUp = s.pcieUp := rfl
@[simp] theorem State.setPhase_weir (s : State) (n : Nat) (p : Phase) : (s.setPhase n p).weir = s.weir := rfl
@[simp] theorem State.setPhase_dram (s : State) (n : Nat) (p : Phase) : (s.setPhase n p).dram = s.dram := rfl
@[simp] theorem State.setPhase_cistern (s : State) (n : Nat) (p : Phase) : (s.setPhase n p).cistern = s.cistern := rfl
@[simp] theorem State.setPhase_pages (s : State) (n : Nat) (p : Phase) : (s.setPhase n p).pages = s.pages := rfl
@[simp] theorem State.setPhase_freeSeq (s : State) (n : Nat) (p : Phase) : (s.setPhase n p).freeSeq = s.freeSeq := rfl
@[simp] theorem State.setPhase_ftns (s : State) (n : Nat) (p : Phase) : (s.setPhase n p).ftns = s.ftns := rfl
@[simp] theorem State.setPhase_cores (s : State) (n : Nat) (p : Phase) : (s.setPhase n p).cores = s.cores := rfl
@[simp] theorem State.setPhase_skim (s : State) (n : Nat) (p : Phase) : (s.setPhase n p).skim = s.skim := rfl
@[simp] theorem State.setPhase_ddr (s : State) (n : Nat) (p : Phase) : (s.setPhase n p).ddr = s.ddr := rfl
@[simp] theorem State.setPhase_fwp (s : State) (n : Nat) (p : Phase) : (s.setPhase n p).fwp = s.fwp := rfl
@[simp] theorem State.setPhase_tok (s : State) (n : Nat) (p : Phase) : (s.setPhase n p).tok = s.tok := rfl
@[simp] theorem State.setPhase_tokEnd (s : State) (n : Nat) (p : Phase) : (s.setPhase n p).tokEnd = s.tokEnd := rfl
@[simp] theorem State.setPhase_streams (s : State) (n : Nat) (p : Phase) : (s.setPhase n p).streams = s.streams := rfl
@[simp] theorem State.setPhase_pipes (s : State) (n : Nat) (p : Phase) : (s.setPhase n p).pipes = s.pipes := rfl
@[simp] theorem State.setPhase_spout (s : State) (n : Nat) (p : Phase) : (s.setPhase n p).spout = s.spout := rfl
@[simp] theorem State.setPhase_decs (s : State) (n : Nat) (p : Phase) : (s.setPhase n p).decs = s.decs := rfl
@[simp] theorem State.setPhase_encs (s : State) (n : Nat) (p : Phase) : (s.setPhase n p).encs = s.encs := rfl
@[simp] theorem State.setPhase_boot (s : State) (n : Nat) (p : Phase) : (s.setPhase n p).boot = s.boot := rfl
@[simp] theorem State.setPhase_rd (s : State) (n : Nat) (p : Phase) (off : Nat) : (s.setPhase n p).rd off = s.rd off := rfl
@[simp] theorem State.setPhase_rf (s : State) (n : Nat) (p : Phase) (off : Nat) (g : Fld) : (s.setPhase n p).rf off g = s.rf off g := rfl
@[simp] theorem State.setPhase_rn (s : State) (n : Nat) (p : Phase) (off : Nat) : (s.setPhase n p).rn off = s.rn off := rfl
@[simp] theorem State.setPhase_legacy (s : State) (n : Nat) (p : Phase) : (s.setPhase n p).legacy = s.legacy := rfl
@[simp] theorem State.setPhase_up (s : State) (n : Nat) (p : Phase) : (s.setPhase n p).up = s.up := rfl
@[simp] theorem State.setPhase_clockOn (s : State) (n : Nat) (p : Phase) : (s.setPhase n p).clockOn = s.clockOn := rfl
/-! setPort changes eth alone. -/
@[simp] theorem State.setPort_pending (s : State) (n : Nat) (p : EthPort) : (s.setPort n p).pending = s.pending := rfl
@[simp] theorem State.setPort_freeCount (s : State) (n : Nat) (p : EthPort) : (s.setPort n p).freeCount = s.freeCount := rfl
@[simp] theorem State.setPort_gts (s : State) (n : Nat) (p : EthPort) : (s.setPort n p).gts = s.gts := rfl
@[simp] theorem State.setPort_taiSec (s : State) (n : Nat) (p : EthPort) : (s.setPort n p).taiSec = s.taiSec := rfl
@[simp] theorem State.setPort_taiNs (s : State) (n : Nat) (p : EthPort) : (s.setPort n p).taiNs = s.taiNs := rfl
@[simp] theorem State.setPort_taiFrac (s : State) (n : Nat) (p : EthPort) : (s.setPort n p).taiFrac = s.taiFrac := rfl
@[simp] theorem State.setPort_taiRate (s : State) (n : Nat) (p : EthPort) : (s.setPort n p).taiRate = s.taiRate := rfl
@[simp] theorem State.setPort_taiValid (s : State) (n : Nat) (p : EthPort) : (s.setPort n p).taiValid = s.taiValid := rfl
@[simp] theorem State.setPort_taiOp (s : State) (n : Nat) (p : EthPort) : (s.setPort n p).taiOp = s.taiOp := rfl
@[simp] theorem State.setPort_snapPending (s : State) (n : Nat) (p : EthPort) : (s.setPort n p).snapPending = s.snapPending := rfl
@[simp] theorem State.setPort_live (s : State) (n : Nat) (p : EthPort) : (s.setPort n p).live = s.live := rfl
@[simp] theorem State.setPort_staged (s : State) (n : Nat) (p : EthPort) : (s.setPort n p).staged = s.staged := rfl
@[simp] theorem State.setPort_sections (s : State) (n : Nat) (p : EthPort) : (s.setPort n p).sections = s.sections := rfl
@[simp] theorem State.setPort_checker (s : State) (n : Nat) (p : EthPort) : (s.setPort n p).checker = s.checker := rfl
@[simp] theorem State.setPort_claims (s : State) (n : Nat) (p : EthPort) : (s.setPort n p).claims = s.claims := rfl
@[simp] theorem State.setPort_events (s : State) (n : Nat) (p : EthPort) : (s.setPort n p).events = s.events := rfl
@[simp] theorem State.setPort_devRing (s : State) (n : Nat) (p : EthPort) : (s.setPort n p).devRing = s.devRing := rfl
@[simp] theorem State.setPort_ctxs (s : State) (n : Nat) (p : EthPort) : (s.setPort n p).ctxs = s.ctxs := rfl
@[simp] theorem State.setPort_vectors (s : State) (n : Nat) (p : EthPort) : (s.setPort n p).vectors = s.vectors := rfl
@[simp] theorem State.setPort_msixVecs (s : State) (n : Nat) (p : EthPort) : (s.setPort n p).msixVecs = s.msixVecs := rfl
@[simp] theorem State.setPort_tcmp (s : State) (n : Nat) (p : EthPort) : (s.setPort n p).tcmp = s.tcmp := rfl
@[simp] theorem State.setPort_pcmp (s : State) (n : Nat) (p : EthPort) : (s.setPort n p).pcmp = s.pcmp := rfl
@[simp] theorem State.setPort_phases (s : State) (n : Nat) (p : EthPort) : (s.setPort n p).phases = s.phases := rfl
@[simp] theorem State.setPort_fsyncs (s : State) (n : Nat) (p : EthPort) : (s.setPort n p).fsyncs = s.fsyncs := rfl
@[simp] theorem State.setPort_integ (s : State) (n : Nat) (p : EthPort) : (s.setPort n p).integ = s.integ := rfl
@[simp] theorem State.setPort_pairs (s : State) (n : Nat) (p : EthPort) : (s.setPort n p).pairs = s.pairs := rfl
@[simp] theorem State.setPort_clk (s : State) (n : Nat) (p : EthPort) : (s.setPort n p).clk = s.clk := rfl
@[simp] theorem State.setPort_pwr (s : State) (n : Nat) (p : EthPort) : (s.setPort n p).pwr = s.pwr := rfl
@[simp] theorem State.setPort_pins (s : State) (n : Nat) (p : EthPort) : (s.setPort n p).pins = s.pins := rfl
@[simp] theorem State.setPort_pcieUp (s : State) (n : Nat) (p : EthPort) : (s.setPort n p).pcieUp = s.pcieUp := rfl
@[simp] theorem State.setPort_weir (s : State) (n : Nat) (p : EthPort) : (s.setPort n p).weir = s.weir := rfl
@[simp] theorem State.setPort_dram (s : State) (n : Nat) (p : EthPort) : (s.setPort n p).dram = s.dram := rfl
@[simp] theorem State.setPort_cistern (s : State) (n : Nat) (p : EthPort) : (s.setPort n p).cistern = s.cistern := rfl
@[simp] theorem State.setPort_pages (s : State) (n : Nat) (p : EthPort) : (s.setPort n p).pages = s.pages := rfl
@[simp] theorem State.setPort_freeSeq (s : State) (n : Nat) (p : EthPort) : (s.setPort n p).freeSeq = s.freeSeq := rfl
@[simp] theorem State.setPort_ftns (s : State) (n : Nat) (p : EthPort) : (s.setPort n p).ftns = s.ftns := rfl
@[simp] theorem State.setPort_cores (s : State) (n : Nat) (p : EthPort) : (s.setPort n p).cores = s.cores := rfl
@[simp] theorem State.setPort_skim (s : State) (n : Nat) (p : EthPort) : (s.setPort n p).skim = s.skim := rfl
@[simp] theorem State.setPort_ddr (s : State) (n : Nat) (p : EthPort) : (s.setPort n p).ddr = s.ddr := rfl
@[simp] theorem State.setPort_fwp (s : State) (n : Nat) (p : EthPort) : (s.setPort n p).fwp = s.fwp := rfl
@[simp] theorem State.setPort_tok (s : State) (n : Nat) (p : EthPort) : (s.setPort n p).tok = s.tok := rfl
@[simp] theorem State.setPort_tokEnd (s : State) (n : Nat) (p : EthPort) : (s.setPort n p).tokEnd = s.tokEnd := rfl
@[simp] theorem State.setPort_streams (s : State) (n : Nat) (p : EthPort) : (s.setPort n p).streams = s.streams := rfl
@[simp] theorem State.setPort_pipes (s : State) (n : Nat) (p : EthPort) : (s.setPort n p).pipes = s.pipes := rfl
@[simp] theorem State.setPort_spout (s : State) (n : Nat) (p : EthPort) : (s.setPort n p).spout = s.spout := rfl
@[simp] theorem State.setPort_decs (s : State) (n : Nat) (p : EthPort) : (s.setPort n p).decs = s.decs := rfl
@[simp] theorem State.setPort_encs (s : State) (n : Nat) (p : EthPort) : (s.setPort n p).encs = s.encs := rfl
@[simp] theorem State.setPort_boot (s : State) (n : Nat) (p : EthPort) : (s.setPort n p).boot = s.boot := rfl
@[simp] theorem State.setPort_rd (s : State) (n : Nat) (p : EthPort) (off : Nat) : (s.setPort n p).rd off = s.rd off := rfl
@[simp] theorem State.setPort_rf (s : State) (n : Nat) (p : EthPort) (off : Nat) (g : Fld) : (s.setPort n p).rf off g = s.rf off g := rfl
@[simp] theorem State.setPort_rn (s : State) (n : Nat) (p : EthPort) (off : Nat) : (s.setPort n p).rn off = s.rn off := rfl
@[simp] theorem State.setPort_legacy (s : State) (n : Nat) (p : EthPort) : (s.setPort n p).legacy = s.legacy := rfl
@[simp] theorem State.setPort_up (s : State) (n : Nat) (p : EthPort) : (s.setPort n p).up = s.up := rfl
@[simp] theorem State.setPort_clockOn (s : State) (n : Nat) (p : EthPort) : (s.setPort n p).clockOn = s.clockOn := rfl
/-! setFsync changes fsyncs alone. -/
@[simp] theorem State.setFsync_pending (s : State) (n : Nat) (x : Fsync) : (s.setFsync n x).pending = s.pending := rfl
@[simp] theorem State.setFsync_freeCount (s : State) (n : Nat) (x : Fsync) : (s.setFsync n x).freeCount = s.freeCount := rfl
@[simp] theorem State.setFsync_gts (s : State) (n : Nat) (x : Fsync) : (s.setFsync n x).gts = s.gts := rfl
@[simp] theorem State.setFsync_taiSec (s : State) (n : Nat) (x : Fsync) : (s.setFsync n x).taiSec = s.taiSec := rfl
@[simp] theorem State.setFsync_taiNs (s : State) (n : Nat) (x : Fsync) : (s.setFsync n x).taiNs = s.taiNs := rfl
@[simp] theorem State.setFsync_taiFrac (s : State) (n : Nat) (x : Fsync) : (s.setFsync n x).taiFrac = s.taiFrac := rfl
@[simp] theorem State.setFsync_taiRate (s : State) (n : Nat) (x : Fsync) : (s.setFsync n x).taiRate = s.taiRate := rfl
@[simp] theorem State.setFsync_taiValid (s : State) (n : Nat) (x : Fsync) : (s.setFsync n x).taiValid = s.taiValid := rfl
@[simp] theorem State.setFsync_taiOp (s : State) (n : Nat) (x : Fsync) : (s.setFsync n x).taiOp = s.taiOp := rfl
@[simp] theorem State.setFsync_snapPending (s : State) (n : Nat) (x : Fsync) : (s.setFsync n x).snapPending = s.snapPending := rfl
@[simp] theorem State.setFsync_live (s : State) (n : Nat) (x : Fsync) : (s.setFsync n x).live = s.live := rfl
@[simp] theorem State.setFsync_staged (s : State) (n : Nat) (x : Fsync) : (s.setFsync n x).staged = s.staged := rfl
@[simp] theorem State.setFsync_sections (s : State) (n : Nat) (x : Fsync) : (s.setFsync n x).sections = s.sections := rfl
@[simp] theorem State.setFsync_checker (s : State) (n : Nat) (x : Fsync) : (s.setFsync n x).checker = s.checker := rfl
@[simp] theorem State.setFsync_claims (s : State) (n : Nat) (x : Fsync) : (s.setFsync n x).claims = s.claims := rfl
@[simp] theorem State.setFsync_events (s : State) (n : Nat) (x : Fsync) : (s.setFsync n x).events = s.events := rfl
@[simp] theorem State.setFsync_devRing (s : State) (n : Nat) (x : Fsync) : (s.setFsync n x).devRing = s.devRing := rfl
@[simp] theorem State.setFsync_ctxs (s : State) (n : Nat) (x : Fsync) : (s.setFsync n x).ctxs = s.ctxs := rfl
@[simp] theorem State.setFsync_vectors (s : State) (n : Nat) (x : Fsync) : (s.setFsync n x).vectors = s.vectors := rfl
@[simp] theorem State.setFsync_msixVecs (s : State) (n : Nat) (x : Fsync) : (s.setFsync n x).msixVecs = s.msixVecs := rfl
@[simp] theorem State.setFsync_tcmp (s : State) (n : Nat) (x : Fsync) : (s.setFsync n x).tcmp = s.tcmp := rfl
@[simp] theorem State.setFsync_pcmp (s : State) (n : Nat) (x : Fsync) : (s.setFsync n x).pcmp = s.pcmp := rfl
@[simp] theorem State.setFsync_phases (s : State) (n : Nat) (x : Fsync) : (s.setFsync n x).phases = s.phases := rfl
@[simp] theorem State.setFsync_eth (s : State) (n : Nat) (x : Fsync) : (s.setFsync n x).eth = s.eth := rfl
@[simp] theorem State.setFsync_integ (s : State) (n : Nat) (x : Fsync) : (s.setFsync n x).integ = s.integ := rfl
@[simp] theorem State.setFsync_pairs (s : State) (n : Nat) (x : Fsync) : (s.setFsync n x).pairs = s.pairs := rfl
@[simp] theorem State.setFsync_clk (s : State) (n : Nat) (x : Fsync) : (s.setFsync n x).clk = s.clk := rfl
@[simp] theorem State.setFsync_pwr (s : State) (n : Nat) (x : Fsync) : (s.setFsync n x).pwr = s.pwr := rfl
@[simp] theorem State.setFsync_pins (s : State) (n : Nat) (x : Fsync) : (s.setFsync n x).pins = s.pins := rfl
@[simp] theorem State.setFsync_pcieUp (s : State) (n : Nat) (x : Fsync) : (s.setFsync n x).pcieUp = s.pcieUp := rfl
@[simp] theorem State.setFsync_weir (s : State) (n : Nat) (x : Fsync) : (s.setFsync n x).weir = s.weir := rfl
@[simp] theorem State.setFsync_dram (s : State) (n : Nat) (x : Fsync) : (s.setFsync n x).dram = s.dram := rfl
@[simp] theorem State.setFsync_cistern (s : State) (n : Nat) (x : Fsync) : (s.setFsync n x).cistern = s.cistern := rfl
@[simp] theorem State.setFsync_pages (s : State) (n : Nat) (x : Fsync) : (s.setFsync n x).pages = s.pages := rfl
@[simp] theorem State.setFsync_freeSeq (s : State) (n : Nat) (x : Fsync) : (s.setFsync n x).freeSeq = s.freeSeq := rfl
@[simp] theorem State.setFsync_ftns (s : State) (n : Nat) (x : Fsync) : (s.setFsync n x).ftns = s.ftns := rfl
@[simp] theorem State.setFsync_cores (s : State) (n : Nat) (x : Fsync) : (s.setFsync n x).cores = s.cores := rfl
@[simp] theorem State.setFsync_skim (s : State) (n : Nat) (x : Fsync) : (s.setFsync n x).skim = s.skim := rfl
@[simp] theorem State.setFsync_ddr (s : State) (n : Nat) (x : Fsync) : (s.setFsync n x).ddr = s.ddr := rfl
@[simp] theorem State.setFsync_fwp (s : State) (n : Nat) (x : Fsync) : (s.setFsync n x).fwp = s.fwp := rfl
@[simp] theorem State.setFsync_tok (s : State) (n : Nat) (x : Fsync) : (s.setFsync n x).tok = s.tok := rfl
@[simp] theorem State.setFsync_tokEnd (s : State) (n : Nat) (x : Fsync) : (s.setFsync n x).tokEnd = s.tokEnd := rfl
@[simp] theorem State.setFsync_streams (s : State) (n : Nat) (x : Fsync) : (s.setFsync n x).streams = s.streams := rfl
@[simp] theorem State.setFsync_pipes (s : State) (n : Nat) (x : Fsync) : (s.setFsync n x).pipes = s.pipes := rfl
@[simp] theorem State.setFsync_spout (s : State) (n : Nat) (x : Fsync) : (s.setFsync n x).spout = s.spout := rfl
@[simp] theorem State.setFsync_decs (s : State) (n : Nat) (x : Fsync) : (s.setFsync n x).decs = s.decs := rfl
@[simp] theorem State.setFsync_encs (s : State) (n : Nat) (x : Fsync) : (s.setFsync n x).encs = s.encs := rfl
@[simp] theorem State.setFsync_boot (s : State) (n : Nat) (x : Fsync) : (s.setFsync n x).boot = s.boot := rfl
@[simp] theorem State.setFsync_rd (s : State) (n : Nat) (x : Fsync) (off : Nat) : (s.setFsync n x).rd off = s.rd off := rfl
@[simp] theorem State.setFsync_rf (s : State) (n : Nat) (x : Fsync) (off : Nat) (g : Fld) : (s.setFsync n x).rf off g = s.rf off g := rfl
@[simp] theorem State.setFsync_rn (s : State) (n : Nat) (x : Fsync) (off : Nat) : (s.setFsync n x).rn off = s.rn off := rfl
@[simp] theorem State.setFsync_legacy (s : State) (n : Nat) (x : Fsync) : (s.setFsync n x).legacy = s.legacy := rfl
@[simp] theorem State.setFsync_up (s : State) (n : Nat) (x : Fsync) : (s.setFsync n x).up = s.up := rfl
@[simp] theorem State.setFsync_clockOn (s : State) (n : Nat) (x : Fsync) : (s.setFsync n x).clockOn = s.clockOn := rfl
/-! setTc changes tcmp alone. -/
@[simp] theorem State.setTc_pending (s : State) (n : Nat) (x : Cmp) : (s.setTc n x).pending = s.pending := rfl
@[simp] theorem State.setTc_freeCount (s : State) (n : Nat) (x : Cmp) : (s.setTc n x).freeCount = s.freeCount := rfl
@[simp] theorem State.setTc_gts (s : State) (n : Nat) (x : Cmp) : (s.setTc n x).gts = s.gts := rfl
@[simp] theorem State.setTc_taiSec (s : State) (n : Nat) (x : Cmp) : (s.setTc n x).taiSec = s.taiSec := rfl
@[simp] theorem State.setTc_taiNs (s : State) (n : Nat) (x : Cmp) : (s.setTc n x).taiNs = s.taiNs := rfl
@[simp] theorem State.setTc_taiFrac (s : State) (n : Nat) (x : Cmp) : (s.setTc n x).taiFrac = s.taiFrac := rfl
@[simp] theorem State.setTc_taiRate (s : State) (n : Nat) (x : Cmp) : (s.setTc n x).taiRate = s.taiRate := rfl
@[simp] theorem State.setTc_taiValid (s : State) (n : Nat) (x : Cmp) : (s.setTc n x).taiValid = s.taiValid := rfl
@[simp] theorem State.setTc_taiOp (s : State) (n : Nat) (x : Cmp) : (s.setTc n x).taiOp = s.taiOp := rfl
@[simp] theorem State.setTc_snapPending (s : State) (n : Nat) (x : Cmp) : (s.setTc n x).snapPending = s.snapPending := rfl
@[simp] theorem State.setTc_live (s : State) (n : Nat) (x : Cmp) : (s.setTc n x).live = s.live := rfl
@[simp] theorem State.setTc_staged (s : State) (n : Nat) (x : Cmp) : (s.setTc n x).staged = s.staged := rfl
@[simp] theorem State.setTc_sections (s : State) (n : Nat) (x : Cmp) : (s.setTc n x).sections = s.sections := rfl
@[simp] theorem State.setTc_checker (s : State) (n : Nat) (x : Cmp) : (s.setTc n x).checker = s.checker := rfl
@[simp] theorem State.setTc_claims (s : State) (n : Nat) (x : Cmp) : (s.setTc n x).claims = s.claims := rfl
@[simp] theorem State.setTc_events (s : State) (n : Nat) (x : Cmp) : (s.setTc n x).events = s.events := rfl
@[simp] theorem State.setTc_devRing (s : State) (n : Nat) (x : Cmp) : (s.setTc n x).devRing = s.devRing := rfl
@[simp] theorem State.setTc_ctxs (s : State) (n : Nat) (x : Cmp) : (s.setTc n x).ctxs = s.ctxs := rfl
@[simp] theorem State.setTc_vectors (s : State) (n : Nat) (x : Cmp) : (s.setTc n x).vectors = s.vectors := rfl
@[simp] theorem State.setTc_msixVecs (s : State) (n : Nat) (x : Cmp) : (s.setTc n x).msixVecs = s.msixVecs := rfl
@[simp] theorem State.setTc_pcmp (s : State) (n : Nat) (x : Cmp) : (s.setTc n x).pcmp = s.pcmp := rfl
@[simp] theorem State.setTc_phases (s : State) (n : Nat) (x : Cmp) : (s.setTc n x).phases = s.phases := rfl
@[simp] theorem State.setTc_fsyncs (s : State) (n : Nat) (x : Cmp) : (s.setTc n x).fsyncs = s.fsyncs := rfl
@[simp] theorem State.setTc_eth (s : State) (n : Nat) (x : Cmp) : (s.setTc n x).eth = s.eth := rfl
@[simp] theorem State.setTc_integ (s : State) (n : Nat) (x : Cmp) : (s.setTc n x).integ = s.integ := rfl
@[simp] theorem State.setTc_pairs (s : State) (n : Nat) (x : Cmp) : (s.setTc n x).pairs = s.pairs := rfl
@[simp] theorem State.setTc_clk (s : State) (n : Nat) (x : Cmp) : (s.setTc n x).clk = s.clk := rfl
@[simp] theorem State.setTc_pwr (s : State) (n : Nat) (x : Cmp) : (s.setTc n x).pwr = s.pwr := rfl
@[simp] theorem State.setTc_pins (s : State) (n : Nat) (x : Cmp) : (s.setTc n x).pins = s.pins := rfl
@[simp] theorem State.setTc_pcieUp (s : State) (n : Nat) (x : Cmp) : (s.setTc n x).pcieUp = s.pcieUp := rfl
@[simp] theorem State.setTc_weir (s : State) (n : Nat) (x : Cmp) : (s.setTc n x).weir = s.weir := rfl
@[simp] theorem State.setTc_dram (s : State) (n : Nat) (x : Cmp) : (s.setTc n x).dram = s.dram := rfl
@[simp] theorem State.setTc_cistern (s : State) (n : Nat) (x : Cmp) : (s.setTc n x).cistern = s.cistern := rfl
@[simp] theorem State.setTc_pages (s : State) (n : Nat) (x : Cmp) : (s.setTc n x).pages = s.pages := rfl
@[simp] theorem State.setTc_freeSeq (s : State) (n : Nat) (x : Cmp) : (s.setTc n x).freeSeq = s.freeSeq := rfl
@[simp] theorem State.setTc_ftns (s : State) (n : Nat) (x : Cmp) : (s.setTc n x).ftns = s.ftns := rfl
@[simp] theorem State.setTc_cores (s : State) (n : Nat) (x : Cmp) : (s.setTc n x).cores = s.cores := rfl
@[simp] theorem State.setTc_skim (s : State) (n : Nat) (x : Cmp) : (s.setTc n x).skim = s.skim := rfl
@[simp] theorem State.setTc_ddr (s : State) (n : Nat) (x : Cmp) : (s.setTc n x).ddr = s.ddr := rfl
@[simp] theorem State.setTc_fwp (s : State) (n : Nat) (x : Cmp) : (s.setTc n x).fwp = s.fwp := rfl
@[simp] theorem State.setTc_tok (s : State) (n : Nat) (x : Cmp) : (s.setTc n x).tok = s.tok := rfl
@[simp] theorem State.setTc_tokEnd (s : State) (n : Nat) (x : Cmp) : (s.setTc n x).tokEnd = s.tokEnd := rfl
@[simp] theorem State.setTc_streams (s : State) (n : Nat) (x : Cmp) : (s.setTc n x).streams = s.streams := rfl
@[simp] theorem State.setTc_pipes (s : State) (n : Nat) (x : Cmp) : (s.setTc n x).pipes = s.pipes := rfl
@[simp] theorem State.setTc_spout (s : State) (n : Nat) (x : Cmp) : (s.setTc n x).spout = s.spout := rfl
@[simp] theorem State.setTc_decs (s : State) (n : Nat) (x : Cmp) : (s.setTc n x).decs = s.decs := rfl
@[simp] theorem State.setTc_encs (s : State) (n : Nat) (x : Cmp) : (s.setTc n x).encs = s.encs := rfl
@[simp] theorem State.setTc_boot (s : State) (n : Nat) (x : Cmp) : (s.setTc n x).boot = s.boot := rfl
@[simp] theorem State.setTc_rd (s : State) (n : Nat) (x : Cmp) (off : Nat) : (s.setTc n x).rd off = s.rd off := rfl
@[simp] theorem State.setTc_rf (s : State) (n : Nat) (x : Cmp) (off : Nat) (g : Fld) : (s.setTc n x).rf off g = s.rf off g := rfl
@[simp] theorem State.setTc_rn (s : State) (n : Nat) (x : Cmp) (off : Nat) : (s.setTc n x).rn off = s.rn off := rfl
@[simp] theorem State.setTc_legacy (s : State) (n : Nat) (x : Cmp) : (s.setTc n x).legacy = s.legacy := rfl
@[simp] theorem State.setTc_up (s : State) (n : Nat) (x : Cmp) : (s.setTc n x).up = s.up := rfl
@[simp] theorem State.setTc_clockOn (s : State) (n : Nat) (x : Cmp) : (s.setTc n x).clockOn = s.clockOn := rfl
/-! setPc changes pcmp alone. -/
@[simp] theorem State.setPc_pending (s : State) (n : Nat) (x : Cmp) : (s.setPc n x).pending = s.pending := rfl
@[simp] theorem State.setPc_freeCount (s : State) (n : Nat) (x : Cmp) : (s.setPc n x).freeCount = s.freeCount := rfl
@[simp] theorem State.setPc_gts (s : State) (n : Nat) (x : Cmp) : (s.setPc n x).gts = s.gts := rfl
@[simp] theorem State.setPc_taiSec (s : State) (n : Nat) (x : Cmp) : (s.setPc n x).taiSec = s.taiSec := rfl
@[simp] theorem State.setPc_taiNs (s : State) (n : Nat) (x : Cmp) : (s.setPc n x).taiNs = s.taiNs := rfl
@[simp] theorem State.setPc_taiFrac (s : State) (n : Nat) (x : Cmp) : (s.setPc n x).taiFrac = s.taiFrac := rfl
@[simp] theorem State.setPc_taiRate (s : State) (n : Nat) (x : Cmp) : (s.setPc n x).taiRate = s.taiRate := rfl
@[simp] theorem State.setPc_taiValid (s : State) (n : Nat) (x : Cmp) : (s.setPc n x).taiValid = s.taiValid := rfl
@[simp] theorem State.setPc_taiOp (s : State) (n : Nat) (x : Cmp) : (s.setPc n x).taiOp = s.taiOp := rfl
@[simp] theorem State.setPc_snapPending (s : State) (n : Nat) (x : Cmp) : (s.setPc n x).snapPending = s.snapPending := rfl
@[simp] theorem State.setPc_live (s : State) (n : Nat) (x : Cmp) : (s.setPc n x).live = s.live := rfl
@[simp] theorem State.setPc_staged (s : State) (n : Nat) (x : Cmp) : (s.setPc n x).staged = s.staged := rfl
@[simp] theorem State.setPc_sections (s : State) (n : Nat) (x : Cmp) : (s.setPc n x).sections = s.sections := rfl
@[simp] theorem State.setPc_checker (s : State) (n : Nat) (x : Cmp) : (s.setPc n x).checker = s.checker := rfl
@[simp] theorem State.setPc_claims (s : State) (n : Nat) (x : Cmp) : (s.setPc n x).claims = s.claims := rfl
@[simp] theorem State.setPc_events (s : State) (n : Nat) (x : Cmp) : (s.setPc n x).events = s.events := rfl
@[simp] theorem State.setPc_devRing (s : State) (n : Nat) (x : Cmp) : (s.setPc n x).devRing = s.devRing := rfl
@[simp] theorem State.setPc_ctxs (s : State) (n : Nat) (x : Cmp) : (s.setPc n x).ctxs = s.ctxs := rfl
@[simp] theorem State.setPc_vectors (s : State) (n : Nat) (x : Cmp) : (s.setPc n x).vectors = s.vectors := rfl
@[simp] theorem State.setPc_msixVecs (s : State) (n : Nat) (x : Cmp) : (s.setPc n x).msixVecs = s.msixVecs := rfl
@[simp] theorem State.setPc_tcmp (s : State) (n : Nat) (x : Cmp) : (s.setPc n x).tcmp = s.tcmp := rfl
@[simp] theorem State.setPc_phases (s : State) (n : Nat) (x : Cmp) : (s.setPc n x).phases = s.phases := rfl
@[simp] theorem State.setPc_fsyncs (s : State) (n : Nat) (x : Cmp) : (s.setPc n x).fsyncs = s.fsyncs := rfl
@[simp] theorem State.setPc_eth (s : State) (n : Nat) (x : Cmp) : (s.setPc n x).eth = s.eth := rfl
@[simp] theorem State.setPc_integ (s : State) (n : Nat) (x : Cmp) : (s.setPc n x).integ = s.integ := rfl
@[simp] theorem State.setPc_pairs (s : State) (n : Nat) (x : Cmp) : (s.setPc n x).pairs = s.pairs := rfl
@[simp] theorem State.setPc_clk (s : State) (n : Nat) (x : Cmp) : (s.setPc n x).clk = s.clk := rfl
@[simp] theorem State.setPc_pwr (s : State) (n : Nat) (x : Cmp) : (s.setPc n x).pwr = s.pwr := rfl
@[simp] theorem State.setPc_pins (s : State) (n : Nat) (x : Cmp) : (s.setPc n x).pins = s.pins := rfl
@[simp] theorem State.setPc_pcieUp (s : State) (n : Nat) (x : Cmp) : (s.setPc n x).pcieUp = s.pcieUp := rfl
@[simp] theorem State.setPc_weir (s : State) (n : Nat) (x : Cmp) : (s.setPc n x).weir = s.weir := rfl
@[simp] theorem State.setPc_dram (s : State) (n : Nat) (x : Cmp) : (s.setPc n x).dram = s.dram := rfl
@[simp] theorem State.setPc_cistern (s : State) (n : Nat) (x : Cmp) : (s.setPc n x).cistern = s.cistern := rfl
@[simp] theorem State.setPc_pages (s : State) (n : Nat) (x : Cmp) : (s.setPc n x).pages = s.pages := rfl
@[simp] theorem State.setPc_freeSeq (s : State) (n : Nat) (x : Cmp) : (s.setPc n x).freeSeq = s.freeSeq := rfl
@[simp] theorem State.setPc_ftns (s : State) (n : Nat) (x : Cmp) : (s.setPc n x).ftns = s.ftns := rfl
@[simp] theorem State.setPc_cores (s : State) (n : Nat) (x : Cmp) : (s.setPc n x).cores = s.cores := rfl
@[simp] theorem State.setPc_skim (s : State) (n : Nat) (x : Cmp) : (s.setPc n x).skim = s.skim := rfl
@[simp] theorem State.setPc_ddr (s : State) (n : Nat) (x : Cmp) : (s.setPc n x).ddr = s.ddr := rfl
@[simp] theorem State.setPc_fwp (s : State) (n : Nat) (x : Cmp) : (s.setPc n x).fwp = s.fwp := rfl
@[simp] theorem State.setPc_tok (s : State) (n : Nat) (x : Cmp) : (s.setPc n x).tok = s.tok := rfl
@[simp] theorem State.setPc_tokEnd (s : State) (n : Nat) (x : Cmp) : (s.setPc n x).tokEnd = s.tokEnd := rfl
@[simp] theorem State.setPc_streams (s : State) (n : Nat) (x : Cmp) : (s.setPc n x).streams = s.streams := rfl
@[simp] theorem State.setPc_pipes (s : State) (n : Nat) (x : Cmp) : (s.setPc n x).pipes = s.pipes := rfl
@[simp] theorem State.setPc_spout (s : State) (n : Nat) (x : Cmp) : (s.setPc n x).spout = s.spout := rfl
@[simp] theorem State.setPc_decs (s : State) (n : Nat) (x : Cmp) : (s.setPc n x).decs = s.decs := rfl
@[simp] theorem State.setPc_encs (s : State) (n : Nat) (x : Cmp) : (s.setPc n x).encs = s.encs := rfl
@[simp] theorem State.setPc_boot (s : State) (n : Nat) (x : Cmp) : (s.setPc n x).boot = s.boot := rfl
@[simp] theorem State.setPc_rd (s : State) (n : Nat) (x : Cmp) (off : Nat) : (s.setPc n x).rd off = s.rd off := rfl
@[simp] theorem State.setPc_rf (s : State) (n : Nat) (x : Cmp) (off : Nat) (g : Fld) : (s.setPc n x).rf off g = s.rf off g := rfl
@[simp] theorem State.setPc_rn (s : State) (n : Nat) (x : Cmp) (off : Nat) : (s.setPc n x).rn off = s.rn off := rfl
@[simp] theorem State.setPc_legacy (s : State) (n : Nat) (x : Cmp) : (s.setPc n x).legacy = s.legacy := rfl
@[simp] theorem State.setPc_up (s : State) (n : Nat) (x : Cmp) : (s.setPc n x).up = s.up := rfl
@[simp] theorem State.setPc_clockOn (s : State) (n : Nat) (x : Cmp) : (s.setPc n x).clockOn = s.clockOn := rfl
/-! setDec changes decs alone. -/
@[simp] theorem State.setDec_pending (s : State) (n : Nat) (x : DecS) : (s.setDec n x).pending = s.pending := rfl
@[simp] theorem State.setDec_freeCount (s : State) (n : Nat) (x : DecS) : (s.setDec n x).freeCount = s.freeCount := rfl
@[simp] theorem State.setDec_gts (s : State) (n : Nat) (x : DecS) : (s.setDec n x).gts = s.gts := rfl
@[simp] theorem State.setDec_taiSec (s : State) (n : Nat) (x : DecS) : (s.setDec n x).taiSec = s.taiSec := rfl
@[simp] theorem State.setDec_taiNs (s : State) (n : Nat) (x : DecS) : (s.setDec n x).taiNs = s.taiNs := rfl
@[simp] theorem State.setDec_taiFrac (s : State) (n : Nat) (x : DecS) : (s.setDec n x).taiFrac = s.taiFrac := rfl
@[simp] theorem State.setDec_taiRate (s : State) (n : Nat) (x : DecS) : (s.setDec n x).taiRate = s.taiRate := rfl
@[simp] theorem State.setDec_taiValid (s : State) (n : Nat) (x : DecS) : (s.setDec n x).taiValid = s.taiValid := rfl
@[simp] theorem State.setDec_taiOp (s : State) (n : Nat) (x : DecS) : (s.setDec n x).taiOp = s.taiOp := rfl
@[simp] theorem State.setDec_snapPending (s : State) (n : Nat) (x : DecS) : (s.setDec n x).snapPending = s.snapPending := rfl
@[simp] theorem State.setDec_live (s : State) (n : Nat) (x : DecS) : (s.setDec n x).live = s.live := rfl
@[simp] theorem State.setDec_staged (s : State) (n : Nat) (x : DecS) : (s.setDec n x).staged = s.staged := rfl
@[simp] theorem State.setDec_sections (s : State) (n : Nat) (x : DecS) : (s.setDec n x).sections = s.sections := rfl
@[simp] theorem State.setDec_checker (s : State) (n : Nat) (x : DecS) : (s.setDec n x).checker = s.checker := rfl
@[simp] theorem State.setDec_claims (s : State) (n : Nat) (x : DecS) : (s.setDec n x).claims = s.claims := rfl
@[simp] theorem State.setDec_events (s : State) (n : Nat) (x : DecS) : (s.setDec n x).events = s.events := rfl
@[simp] theorem State.setDec_devRing (s : State) (n : Nat) (x : DecS) : (s.setDec n x).devRing = s.devRing := rfl
@[simp] theorem State.setDec_ctxs (s : State) (n : Nat) (x : DecS) : (s.setDec n x).ctxs = s.ctxs := rfl
@[simp] theorem State.setDec_vectors (s : State) (n : Nat) (x : DecS) : (s.setDec n x).vectors = s.vectors := rfl
@[simp] theorem State.setDec_msixVecs (s : State) (n : Nat) (x : DecS) : (s.setDec n x).msixVecs = s.msixVecs := rfl
@[simp] theorem State.setDec_tcmp (s : State) (n : Nat) (x : DecS) : (s.setDec n x).tcmp = s.tcmp := rfl
@[simp] theorem State.setDec_pcmp (s : State) (n : Nat) (x : DecS) : (s.setDec n x).pcmp = s.pcmp := rfl
@[simp] theorem State.setDec_phases (s : State) (n : Nat) (x : DecS) : (s.setDec n x).phases = s.phases := rfl
@[simp] theorem State.setDec_fsyncs (s : State) (n : Nat) (x : DecS) : (s.setDec n x).fsyncs = s.fsyncs := rfl
@[simp] theorem State.setDec_eth (s : State) (n : Nat) (x : DecS) : (s.setDec n x).eth = s.eth := rfl
@[simp] theorem State.setDec_integ (s : State) (n : Nat) (x : DecS) : (s.setDec n x).integ = s.integ := rfl
@[simp] theorem State.setDec_pairs (s : State) (n : Nat) (x : DecS) : (s.setDec n x).pairs = s.pairs := rfl
@[simp] theorem State.setDec_clk (s : State) (n : Nat) (x : DecS) : (s.setDec n x).clk = s.clk := rfl
@[simp] theorem State.setDec_pwr (s : State) (n : Nat) (x : DecS) : (s.setDec n x).pwr = s.pwr := rfl
@[simp] theorem State.setDec_pins (s : State) (n : Nat) (x : DecS) : (s.setDec n x).pins = s.pins := rfl
@[simp] theorem State.setDec_pcieUp (s : State) (n : Nat) (x : DecS) : (s.setDec n x).pcieUp = s.pcieUp := rfl
@[simp] theorem State.setDec_weir (s : State) (n : Nat) (x : DecS) : (s.setDec n x).weir = s.weir := rfl
@[simp] theorem State.setDec_dram (s : State) (n : Nat) (x : DecS) : (s.setDec n x).dram = s.dram := rfl
@[simp] theorem State.setDec_cistern (s : State) (n : Nat) (x : DecS) : (s.setDec n x).cistern = s.cistern := rfl
@[simp] theorem State.setDec_pages (s : State) (n : Nat) (x : DecS) : (s.setDec n x).pages = s.pages := rfl
@[simp] theorem State.setDec_freeSeq (s : State) (n : Nat) (x : DecS) : (s.setDec n x).freeSeq = s.freeSeq := rfl
@[simp] theorem State.setDec_ftns (s : State) (n : Nat) (x : DecS) : (s.setDec n x).ftns = s.ftns := rfl
@[simp] theorem State.setDec_cores (s : State) (n : Nat) (x : DecS) : (s.setDec n x).cores = s.cores := rfl
@[simp] theorem State.setDec_skim (s : State) (n : Nat) (x : DecS) : (s.setDec n x).skim = s.skim := rfl
@[simp] theorem State.setDec_ddr (s : State) (n : Nat) (x : DecS) : (s.setDec n x).ddr = s.ddr := rfl
@[simp] theorem State.setDec_fwp (s : State) (n : Nat) (x : DecS) : (s.setDec n x).fwp = s.fwp := rfl
@[simp] theorem State.setDec_tok (s : State) (n : Nat) (x : DecS) : (s.setDec n x).tok = s.tok := rfl
@[simp] theorem State.setDec_tokEnd (s : State) (n : Nat) (x : DecS) : (s.setDec n x).tokEnd = s.tokEnd := rfl
@[simp] theorem State.setDec_streams (s : State) (n : Nat) (x : DecS) : (s.setDec n x).streams = s.streams := rfl
@[simp] theorem State.setDec_pipes (s : State) (n : Nat) (x : DecS) : (s.setDec n x).pipes = s.pipes := rfl
@[simp] theorem State.setDec_spout (s : State) (n : Nat) (x : DecS) : (s.setDec n x).spout = s.spout := rfl
@[simp] theorem State.setDec_encs (s : State) (n : Nat) (x : DecS) : (s.setDec n x).encs = s.encs := rfl
@[simp] theorem State.setDec_boot (s : State) (n : Nat) (x : DecS) : (s.setDec n x).boot = s.boot := rfl
@[simp] theorem State.setDec_rd (s : State) (n : Nat) (x : DecS) (off : Nat) : (s.setDec n x).rd off = s.rd off := rfl
@[simp] theorem State.setDec_rf (s : State) (n : Nat) (x : DecS) (off : Nat) (g : Fld) : (s.setDec n x).rf off g = s.rf off g := rfl
@[simp] theorem State.setDec_rn (s : State) (n : Nat) (x : DecS) (off : Nat) : (s.setDec n x).rn off = s.rn off := rfl
@[simp] theorem State.setDec_legacy (s : State) (n : Nat) (x : DecS) : (s.setDec n x).legacy = s.legacy := rfl
@[simp] theorem State.setDec_up (s : State) (n : Nat) (x : DecS) : (s.setDec n x).up = s.up := rfl
@[simp] theorem State.setDec_clockOn (s : State) (n : Nat) (x : DecS) : (s.setDec n x).clockOn = s.clockOn := rfl
/-! setEnc changes encs alone. -/
@[simp] theorem State.setEnc_pending (s : State) (n : Nat) (x : EncS) : (s.setEnc n x).pending = s.pending := rfl
@[simp] theorem State.setEnc_freeCount (s : State) (n : Nat) (x : EncS) : (s.setEnc n x).freeCount = s.freeCount := rfl
@[simp] theorem State.setEnc_gts (s : State) (n : Nat) (x : EncS) : (s.setEnc n x).gts = s.gts := rfl
@[simp] theorem State.setEnc_taiSec (s : State) (n : Nat) (x : EncS) : (s.setEnc n x).taiSec = s.taiSec := rfl
@[simp] theorem State.setEnc_taiNs (s : State) (n : Nat) (x : EncS) : (s.setEnc n x).taiNs = s.taiNs := rfl
@[simp] theorem State.setEnc_taiFrac (s : State) (n : Nat) (x : EncS) : (s.setEnc n x).taiFrac = s.taiFrac := rfl
@[simp] theorem State.setEnc_taiRate (s : State) (n : Nat) (x : EncS) : (s.setEnc n x).taiRate = s.taiRate := rfl
@[simp] theorem State.setEnc_taiValid (s : State) (n : Nat) (x : EncS) : (s.setEnc n x).taiValid = s.taiValid := rfl
@[simp] theorem State.setEnc_taiOp (s : State) (n : Nat) (x : EncS) : (s.setEnc n x).taiOp = s.taiOp := rfl
@[simp] theorem State.setEnc_snapPending (s : State) (n : Nat) (x : EncS) : (s.setEnc n x).snapPending = s.snapPending := rfl
@[simp] theorem State.setEnc_live (s : State) (n : Nat) (x : EncS) : (s.setEnc n x).live = s.live := rfl
@[simp] theorem State.setEnc_staged (s : State) (n : Nat) (x : EncS) : (s.setEnc n x).staged = s.staged := rfl
@[simp] theorem State.setEnc_sections (s : State) (n : Nat) (x : EncS) : (s.setEnc n x).sections = s.sections := rfl
@[simp] theorem State.setEnc_checker (s : State) (n : Nat) (x : EncS) : (s.setEnc n x).checker = s.checker := rfl
@[simp] theorem State.setEnc_claims (s : State) (n : Nat) (x : EncS) : (s.setEnc n x).claims = s.claims := rfl
@[simp] theorem State.setEnc_events (s : State) (n : Nat) (x : EncS) : (s.setEnc n x).events = s.events := rfl
@[simp] theorem State.setEnc_devRing (s : State) (n : Nat) (x : EncS) : (s.setEnc n x).devRing = s.devRing := rfl
@[simp] theorem State.setEnc_ctxs (s : State) (n : Nat) (x : EncS) : (s.setEnc n x).ctxs = s.ctxs := rfl
@[simp] theorem State.setEnc_vectors (s : State) (n : Nat) (x : EncS) : (s.setEnc n x).vectors = s.vectors := rfl
@[simp] theorem State.setEnc_msixVecs (s : State) (n : Nat) (x : EncS) : (s.setEnc n x).msixVecs = s.msixVecs := rfl
@[simp] theorem State.setEnc_tcmp (s : State) (n : Nat) (x : EncS) : (s.setEnc n x).tcmp = s.tcmp := rfl
@[simp] theorem State.setEnc_pcmp (s : State) (n : Nat) (x : EncS) : (s.setEnc n x).pcmp = s.pcmp := rfl
@[simp] theorem State.setEnc_phases (s : State) (n : Nat) (x : EncS) : (s.setEnc n x).phases = s.phases := rfl
@[simp] theorem State.setEnc_fsyncs (s : State) (n : Nat) (x : EncS) : (s.setEnc n x).fsyncs = s.fsyncs := rfl
@[simp] theorem State.setEnc_eth (s : State) (n : Nat) (x : EncS) : (s.setEnc n x).eth = s.eth := rfl
@[simp] theorem State.setEnc_integ (s : State) (n : Nat) (x : EncS) : (s.setEnc n x).integ = s.integ := rfl
@[simp] theorem State.setEnc_pairs (s : State) (n : Nat) (x : EncS) : (s.setEnc n x).pairs = s.pairs := rfl
@[simp] theorem State.setEnc_clk (s : State) (n : Nat) (x : EncS) : (s.setEnc n x).clk = s.clk := rfl
@[simp] theorem State.setEnc_pwr (s : State) (n : Nat) (x : EncS) : (s.setEnc n x).pwr = s.pwr := rfl
@[simp] theorem State.setEnc_pins (s : State) (n : Nat) (x : EncS) : (s.setEnc n x).pins = s.pins := rfl
@[simp] theorem State.setEnc_pcieUp (s : State) (n : Nat) (x : EncS) : (s.setEnc n x).pcieUp = s.pcieUp := rfl
@[simp] theorem State.setEnc_weir (s : State) (n : Nat) (x : EncS) : (s.setEnc n x).weir = s.weir := rfl
@[simp] theorem State.setEnc_dram (s : State) (n : Nat) (x : EncS) : (s.setEnc n x).dram = s.dram := rfl
@[simp] theorem State.setEnc_cistern (s : State) (n : Nat) (x : EncS) : (s.setEnc n x).cistern = s.cistern := rfl
@[simp] theorem State.setEnc_pages (s : State) (n : Nat) (x : EncS) : (s.setEnc n x).pages = s.pages := rfl
@[simp] theorem State.setEnc_freeSeq (s : State) (n : Nat) (x : EncS) : (s.setEnc n x).freeSeq = s.freeSeq := rfl
@[simp] theorem State.setEnc_ftns (s : State) (n : Nat) (x : EncS) : (s.setEnc n x).ftns = s.ftns := rfl
@[simp] theorem State.setEnc_cores (s : State) (n : Nat) (x : EncS) : (s.setEnc n x).cores = s.cores := rfl
@[simp] theorem State.setEnc_skim (s : State) (n : Nat) (x : EncS) : (s.setEnc n x).skim = s.skim := rfl
@[simp] theorem State.setEnc_ddr (s : State) (n : Nat) (x : EncS) : (s.setEnc n x).ddr = s.ddr := rfl
@[simp] theorem State.setEnc_fwp (s : State) (n : Nat) (x : EncS) : (s.setEnc n x).fwp = s.fwp := rfl
@[simp] theorem State.setEnc_tok (s : State) (n : Nat) (x : EncS) : (s.setEnc n x).tok = s.tok := rfl
@[simp] theorem State.setEnc_tokEnd (s : State) (n : Nat) (x : EncS) : (s.setEnc n x).tokEnd = s.tokEnd := rfl
@[simp] theorem State.setEnc_streams (s : State) (n : Nat) (x : EncS) : (s.setEnc n x).streams = s.streams := rfl
@[simp] theorem State.setEnc_pipes (s : State) (n : Nat) (x : EncS) : (s.setEnc n x).pipes = s.pipes := rfl
@[simp] theorem State.setEnc_spout (s : State) (n : Nat) (x : EncS) : (s.setEnc n x).spout = s.spout := rfl
@[simp] theorem State.setEnc_decs (s : State) (n : Nat) (x : EncS) : (s.setEnc n x).decs = s.decs := rfl
@[simp] theorem State.setEnc_boot (s : State) (n : Nat) (x : EncS) : (s.setEnc n x).boot = s.boot := rfl
@[simp] theorem State.setEnc_rd (s : State) (n : Nat) (x : EncS) (off : Nat) : (s.setEnc n x).rd off = s.rd off := rfl
@[simp] theorem State.setEnc_rf (s : State) (n : Nat) (x : EncS) (off : Nat) (g : Fld) : (s.setEnc n x).rf off g = s.rf off g := rfl
@[simp] theorem State.setEnc_rn (s : State) (n : Nat) (x : EncS) (off : Nat) : (s.setEnc n x).rn off = s.rn off := rfl
@[simp] theorem State.setEnc_legacy (s : State) (n : Nat) (x : EncS) : (s.setEnc n x).legacy = s.legacy := rfl
@[simp] theorem State.setEnc_up (s : State) (n : Nat) (x : EncS) : (s.setEnc n x).up = s.up := rfl
@[simp] theorem State.setEnc_clockOn (s : State) (n : Nat) (x : EncS) : (s.setEnc n x).clockOn = s.clockOn := rfl
/-! setStream changes streams alone. -/
@[simp] theorem State.setStream_pending (s : State) (n : Nat) (x : StreamS) : (s.setStream n x).pending = s.pending := rfl
@[simp] theorem State.setStream_freeCount (s : State) (n : Nat) (x : StreamS) : (s.setStream n x).freeCount = s.freeCount := rfl
@[simp] theorem State.setStream_gts (s : State) (n : Nat) (x : StreamS) : (s.setStream n x).gts = s.gts := rfl
@[simp] theorem State.setStream_taiSec (s : State) (n : Nat) (x : StreamS) : (s.setStream n x).taiSec = s.taiSec := rfl
@[simp] theorem State.setStream_taiNs (s : State) (n : Nat) (x : StreamS) : (s.setStream n x).taiNs = s.taiNs := rfl
@[simp] theorem State.setStream_taiFrac (s : State) (n : Nat) (x : StreamS) : (s.setStream n x).taiFrac = s.taiFrac := rfl
@[simp] theorem State.setStream_taiRate (s : State) (n : Nat) (x : StreamS) : (s.setStream n x).taiRate = s.taiRate := rfl
@[simp] theorem State.setStream_taiValid (s : State) (n : Nat) (x : StreamS) : (s.setStream n x).taiValid = s.taiValid := rfl
@[simp] theorem State.setStream_taiOp (s : State) (n : Nat) (x : StreamS) : (s.setStream n x).taiOp = s.taiOp := rfl
@[simp] theorem State.setStream_snapPending (s : State) (n : Nat) (x : StreamS) : (s.setStream n x).snapPending = s.snapPending := rfl
@[simp] theorem State.setStream_live (s : State) (n : Nat) (x : StreamS) : (s.setStream n x).live = s.live := rfl
@[simp] theorem State.setStream_staged (s : State) (n : Nat) (x : StreamS) : (s.setStream n x).staged = s.staged := rfl
@[simp] theorem State.setStream_sections (s : State) (n : Nat) (x : StreamS) : (s.setStream n x).sections = s.sections := rfl
@[simp] theorem State.setStream_checker (s : State) (n : Nat) (x : StreamS) : (s.setStream n x).checker = s.checker := rfl
@[simp] theorem State.setStream_claims (s : State) (n : Nat) (x : StreamS) : (s.setStream n x).claims = s.claims := rfl
@[simp] theorem State.setStream_events (s : State) (n : Nat) (x : StreamS) : (s.setStream n x).events = s.events := rfl
@[simp] theorem State.setStream_devRing (s : State) (n : Nat) (x : StreamS) : (s.setStream n x).devRing = s.devRing := rfl
@[simp] theorem State.setStream_ctxs (s : State) (n : Nat) (x : StreamS) : (s.setStream n x).ctxs = s.ctxs := rfl
@[simp] theorem State.setStream_vectors (s : State) (n : Nat) (x : StreamS) : (s.setStream n x).vectors = s.vectors := rfl
@[simp] theorem State.setStream_msixVecs (s : State) (n : Nat) (x : StreamS) : (s.setStream n x).msixVecs = s.msixVecs := rfl
@[simp] theorem State.setStream_tcmp (s : State) (n : Nat) (x : StreamS) : (s.setStream n x).tcmp = s.tcmp := rfl
@[simp] theorem State.setStream_pcmp (s : State) (n : Nat) (x : StreamS) : (s.setStream n x).pcmp = s.pcmp := rfl
@[simp] theorem State.setStream_phases (s : State) (n : Nat) (x : StreamS) : (s.setStream n x).phases = s.phases := rfl
@[simp] theorem State.setStream_fsyncs (s : State) (n : Nat) (x : StreamS) : (s.setStream n x).fsyncs = s.fsyncs := rfl
@[simp] theorem State.setStream_eth (s : State) (n : Nat) (x : StreamS) : (s.setStream n x).eth = s.eth := rfl
@[simp] theorem State.setStream_integ (s : State) (n : Nat) (x : StreamS) : (s.setStream n x).integ = s.integ := rfl
@[simp] theorem State.setStream_pairs (s : State) (n : Nat) (x : StreamS) : (s.setStream n x).pairs = s.pairs := rfl
@[simp] theorem State.setStream_clk (s : State) (n : Nat) (x : StreamS) : (s.setStream n x).clk = s.clk := rfl
@[simp] theorem State.setStream_pwr (s : State) (n : Nat) (x : StreamS) : (s.setStream n x).pwr = s.pwr := rfl
@[simp] theorem State.setStream_pins (s : State) (n : Nat) (x : StreamS) : (s.setStream n x).pins = s.pins := rfl
@[simp] theorem State.setStream_pcieUp (s : State) (n : Nat) (x : StreamS) : (s.setStream n x).pcieUp = s.pcieUp := rfl
@[simp] theorem State.setStream_weir (s : State) (n : Nat) (x : StreamS) : (s.setStream n x).weir = s.weir := rfl
@[simp] theorem State.setStream_dram (s : State) (n : Nat) (x : StreamS) : (s.setStream n x).dram = s.dram := rfl
@[simp] theorem State.setStream_cistern (s : State) (n : Nat) (x : StreamS) : (s.setStream n x).cistern = s.cistern := rfl
@[simp] theorem State.setStream_pages (s : State) (n : Nat) (x : StreamS) : (s.setStream n x).pages = s.pages := rfl
@[simp] theorem State.setStream_freeSeq (s : State) (n : Nat) (x : StreamS) : (s.setStream n x).freeSeq = s.freeSeq := rfl
@[simp] theorem State.setStream_ftns (s : State) (n : Nat) (x : StreamS) : (s.setStream n x).ftns = s.ftns := rfl
@[simp] theorem State.setStream_cores (s : State) (n : Nat) (x : StreamS) : (s.setStream n x).cores = s.cores := rfl
@[simp] theorem State.setStream_skim (s : State) (n : Nat) (x : StreamS) : (s.setStream n x).skim = s.skim := rfl
@[simp] theorem State.setStream_ddr (s : State) (n : Nat) (x : StreamS) : (s.setStream n x).ddr = s.ddr := rfl
@[simp] theorem State.setStream_fwp (s : State) (n : Nat) (x : StreamS) : (s.setStream n x).fwp = s.fwp := rfl
@[simp] theorem State.setStream_tok (s : State) (n : Nat) (x : StreamS) : (s.setStream n x).tok = s.tok := rfl
@[simp] theorem State.setStream_tokEnd (s : State) (n : Nat) (x : StreamS) : (s.setStream n x).tokEnd = s.tokEnd := rfl
@[simp] theorem State.setStream_pipes (s : State) (n : Nat) (x : StreamS) : (s.setStream n x).pipes = s.pipes := rfl
@[simp] theorem State.setStream_spout (s : State) (n : Nat) (x : StreamS) : (s.setStream n x).spout = s.spout := rfl
@[simp] theorem State.setStream_decs (s : State) (n : Nat) (x : StreamS) : (s.setStream n x).decs = s.decs := rfl
@[simp] theorem State.setStream_encs (s : State) (n : Nat) (x : StreamS) : (s.setStream n x).encs = s.encs := rfl
@[simp] theorem State.setStream_boot (s : State) (n : Nat) (x : StreamS) : (s.setStream n x).boot = s.boot := rfl
@[simp] theorem State.setStream_rd (s : State) (n : Nat) (x : StreamS) (off : Nat) : (s.setStream n x).rd off = s.rd off := rfl
@[simp] theorem State.setStream_rf (s : State) (n : Nat) (x : StreamS) (off : Nat) (g : Fld) : (s.setStream n x).rf off g = s.rf off g := rfl
@[simp] theorem State.setStream_rn (s : State) (n : Nat) (x : StreamS) (off : Nat) : (s.setStream n x).rn off = s.rn off := rfl
@[simp] theorem State.setStream_legacy (s : State) (n : Nat) (x : StreamS) : (s.setStream n x).legacy = s.legacy := rfl
@[simp] theorem State.setStream_up (s : State) (n : Nat) (x : StreamS) : (s.setStream n x).up = s.up := rfl
@[simp] theorem State.setStream_clockOn (s : State) (n : Nat) (x : StreamS) : (s.setStream n x).clockOn = s.clockOn := rfl
/-! setPipe changes pipes alone. -/
@[simp] theorem State.setPipe_pending (s : State) (n : Nat) (x : PipeS) : (s.setPipe n x).pending = s.pending := rfl
@[simp] theorem State.setPipe_freeCount (s : State) (n : Nat) (x : PipeS) : (s.setPipe n x).freeCount = s.freeCount := rfl
@[simp] theorem State.setPipe_gts (s : State) (n : Nat) (x : PipeS) : (s.setPipe n x).gts = s.gts := rfl
@[simp] theorem State.setPipe_taiSec (s : State) (n : Nat) (x : PipeS) : (s.setPipe n x).taiSec = s.taiSec := rfl
@[simp] theorem State.setPipe_taiNs (s : State) (n : Nat) (x : PipeS) : (s.setPipe n x).taiNs = s.taiNs := rfl
@[simp] theorem State.setPipe_taiFrac (s : State) (n : Nat) (x : PipeS) : (s.setPipe n x).taiFrac = s.taiFrac := rfl
@[simp] theorem State.setPipe_taiRate (s : State) (n : Nat) (x : PipeS) : (s.setPipe n x).taiRate = s.taiRate := rfl
@[simp] theorem State.setPipe_taiValid (s : State) (n : Nat) (x : PipeS) : (s.setPipe n x).taiValid = s.taiValid := rfl
@[simp] theorem State.setPipe_taiOp (s : State) (n : Nat) (x : PipeS) : (s.setPipe n x).taiOp = s.taiOp := rfl
@[simp] theorem State.setPipe_snapPending (s : State) (n : Nat) (x : PipeS) : (s.setPipe n x).snapPending = s.snapPending := rfl
@[simp] theorem State.setPipe_live (s : State) (n : Nat) (x : PipeS) : (s.setPipe n x).live = s.live := rfl
@[simp] theorem State.setPipe_staged (s : State) (n : Nat) (x : PipeS) : (s.setPipe n x).staged = s.staged := rfl
@[simp] theorem State.setPipe_sections (s : State) (n : Nat) (x : PipeS) : (s.setPipe n x).sections = s.sections := rfl
@[simp] theorem State.setPipe_checker (s : State) (n : Nat) (x : PipeS) : (s.setPipe n x).checker = s.checker := rfl
@[simp] theorem State.setPipe_claims (s : State) (n : Nat) (x : PipeS) : (s.setPipe n x).claims = s.claims := rfl
@[simp] theorem State.setPipe_events (s : State) (n : Nat) (x : PipeS) : (s.setPipe n x).events = s.events := rfl
@[simp] theorem State.setPipe_devRing (s : State) (n : Nat) (x : PipeS) : (s.setPipe n x).devRing = s.devRing := rfl
@[simp] theorem State.setPipe_ctxs (s : State) (n : Nat) (x : PipeS) : (s.setPipe n x).ctxs = s.ctxs := rfl
@[simp] theorem State.setPipe_vectors (s : State) (n : Nat) (x : PipeS) : (s.setPipe n x).vectors = s.vectors := rfl
@[simp] theorem State.setPipe_msixVecs (s : State) (n : Nat) (x : PipeS) : (s.setPipe n x).msixVecs = s.msixVecs := rfl
@[simp] theorem State.setPipe_tcmp (s : State) (n : Nat) (x : PipeS) : (s.setPipe n x).tcmp = s.tcmp := rfl
@[simp] theorem State.setPipe_pcmp (s : State) (n : Nat) (x : PipeS) : (s.setPipe n x).pcmp = s.pcmp := rfl
@[simp] theorem State.setPipe_phases (s : State) (n : Nat) (x : PipeS) : (s.setPipe n x).phases = s.phases := rfl
@[simp] theorem State.setPipe_fsyncs (s : State) (n : Nat) (x : PipeS) : (s.setPipe n x).fsyncs = s.fsyncs := rfl
@[simp] theorem State.setPipe_eth (s : State) (n : Nat) (x : PipeS) : (s.setPipe n x).eth = s.eth := rfl
@[simp] theorem State.setPipe_integ (s : State) (n : Nat) (x : PipeS) : (s.setPipe n x).integ = s.integ := rfl
@[simp] theorem State.setPipe_pairs (s : State) (n : Nat) (x : PipeS) : (s.setPipe n x).pairs = s.pairs := rfl
@[simp] theorem State.setPipe_clk (s : State) (n : Nat) (x : PipeS) : (s.setPipe n x).clk = s.clk := rfl
@[simp] theorem State.setPipe_pwr (s : State) (n : Nat) (x : PipeS) : (s.setPipe n x).pwr = s.pwr := rfl
@[simp] theorem State.setPipe_pins (s : State) (n : Nat) (x : PipeS) : (s.setPipe n x).pins = s.pins := rfl
@[simp] theorem State.setPipe_pcieUp (s : State) (n : Nat) (x : PipeS) : (s.setPipe n x).pcieUp = s.pcieUp := rfl
@[simp] theorem State.setPipe_weir (s : State) (n : Nat) (x : PipeS) : (s.setPipe n x).weir = s.weir := rfl
@[simp] theorem State.setPipe_dram (s : State) (n : Nat) (x : PipeS) : (s.setPipe n x).dram = s.dram := rfl
@[simp] theorem State.setPipe_cistern (s : State) (n : Nat) (x : PipeS) : (s.setPipe n x).cistern = s.cistern := rfl
@[simp] theorem State.setPipe_pages (s : State) (n : Nat) (x : PipeS) : (s.setPipe n x).pages = s.pages := rfl
@[simp] theorem State.setPipe_freeSeq (s : State) (n : Nat) (x : PipeS) : (s.setPipe n x).freeSeq = s.freeSeq := rfl
@[simp] theorem State.setPipe_ftns (s : State) (n : Nat) (x : PipeS) : (s.setPipe n x).ftns = s.ftns := rfl
@[simp] theorem State.setPipe_cores (s : State) (n : Nat) (x : PipeS) : (s.setPipe n x).cores = s.cores := rfl
@[simp] theorem State.setPipe_skim (s : State) (n : Nat) (x : PipeS) : (s.setPipe n x).skim = s.skim := rfl
@[simp] theorem State.setPipe_ddr (s : State) (n : Nat) (x : PipeS) : (s.setPipe n x).ddr = s.ddr := rfl
@[simp] theorem State.setPipe_fwp (s : State) (n : Nat) (x : PipeS) : (s.setPipe n x).fwp = s.fwp := rfl
@[simp] theorem State.setPipe_tok (s : State) (n : Nat) (x : PipeS) : (s.setPipe n x).tok = s.tok := rfl
@[simp] theorem State.setPipe_tokEnd (s : State) (n : Nat) (x : PipeS) : (s.setPipe n x).tokEnd = s.tokEnd := rfl
@[simp] theorem State.setPipe_streams (s : State) (n : Nat) (x : PipeS) : (s.setPipe n x).streams = s.streams := rfl
@[simp] theorem State.setPipe_spout (s : State) (n : Nat) (x : PipeS) : (s.setPipe n x).spout = s.spout := rfl
@[simp] theorem State.setPipe_decs (s : State) (n : Nat) (x : PipeS) : (s.setPipe n x).decs = s.decs := rfl
@[simp] theorem State.setPipe_encs (s : State) (n : Nat) (x : PipeS) : (s.setPipe n x).encs = s.encs := rfl
@[simp] theorem State.setPipe_boot (s : State) (n : Nat) (x : PipeS) : (s.setPipe n x).boot = s.boot := rfl
@[simp] theorem State.setPipe_rd (s : State) (n : Nat) (x : PipeS) (off : Nat) : (s.setPipe n x).rd off = s.rd off := rfl
@[simp] theorem State.setPipe_rf (s : State) (n : Nat) (x : PipeS) (off : Nat) (g : Fld) : (s.setPipe n x).rf off g = s.rf off g := rfl
@[simp] theorem State.setPipe_rn (s : State) (n : Nat) (x : PipeS) (off : Nat) : (s.setPipe n x).rn off = s.rn off := rfl
@[simp] theorem State.setPipe_legacy (s : State) (n : Nat) (x : PipeS) : (s.setPipe n x).legacy = s.legacy := rfl
@[simp] theorem State.setPipe_up (s : State) (n : Nat) (x : PipeS) : (s.setPipe n x).up = s.up := rfl
@[simp] theorem State.setPipe_clockOn (s : State) (n : Nat) (x : PipeS) : (s.setPipe n x).clockOn = s.clockOn := rfl
/-! setPinGroup changes pins alone. -/
@[simp] theorem State.setPinGroup_pending (s : State) (n : Nat) (x : PinGroup) : (s.setPinGroup n x).pending = s.pending := rfl
@[simp] theorem State.setPinGroup_freeCount (s : State) (n : Nat) (x : PinGroup) : (s.setPinGroup n x).freeCount = s.freeCount := rfl
@[simp] theorem State.setPinGroup_gts (s : State) (n : Nat) (x : PinGroup) : (s.setPinGroup n x).gts = s.gts := rfl
@[simp] theorem State.setPinGroup_taiSec (s : State) (n : Nat) (x : PinGroup) : (s.setPinGroup n x).taiSec = s.taiSec := rfl
@[simp] theorem State.setPinGroup_taiNs (s : State) (n : Nat) (x : PinGroup) : (s.setPinGroup n x).taiNs = s.taiNs := rfl
@[simp] theorem State.setPinGroup_taiFrac (s : State) (n : Nat) (x : PinGroup) : (s.setPinGroup n x).taiFrac = s.taiFrac := rfl
@[simp] theorem State.setPinGroup_taiRate (s : State) (n : Nat) (x : PinGroup) : (s.setPinGroup n x).taiRate = s.taiRate := rfl
@[simp] theorem State.setPinGroup_taiValid (s : State) (n : Nat) (x : PinGroup) : (s.setPinGroup n x).taiValid = s.taiValid := rfl
@[simp] theorem State.setPinGroup_taiOp (s : State) (n : Nat) (x : PinGroup) : (s.setPinGroup n x).taiOp = s.taiOp := rfl
@[simp] theorem State.setPinGroup_snapPending (s : State) (n : Nat) (x : PinGroup) : (s.setPinGroup n x).snapPending = s.snapPending := rfl
@[simp] theorem State.setPinGroup_live (s : State) (n : Nat) (x : PinGroup) : (s.setPinGroup n x).live = s.live := rfl
@[simp] theorem State.setPinGroup_staged (s : State) (n : Nat) (x : PinGroup) : (s.setPinGroup n x).staged = s.staged := rfl
@[simp] theorem State.setPinGroup_sections (s : State) (n : Nat) (x : PinGroup) : (s.setPinGroup n x).sections = s.sections := rfl
@[simp] theorem State.setPinGroup_checker (s : State) (n : Nat) (x : PinGroup) : (s.setPinGroup n x).checker = s.checker := rfl
@[simp] theorem State.setPinGroup_claims (s : State) (n : Nat) (x : PinGroup) : (s.setPinGroup n x).claims = s.claims := rfl
@[simp] theorem State.setPinGroup_events (s : State) (n : Nat) (x : PinGroup) : (s.setPinGroup n x).events = s.events := rfl
@[simp] theorem State.setPinGroup_devRing (s : State) (n : Nat) (x : PinGroup) : (s.setPinGroup n x).devRing = s.devRing := rfl
@[simp] theorem State.setPinGroup_ctxs (s : State) (n : Nat) (x : PinGroup) : (s.setPinGroup n x).ctxs = s.ctxs := rfl
@[simp] theorem State.setPinGroup_vectors (s : State) (n : Nat) (x : PinGroup) : (s.setPinGroup n x).vectors = s.vectors := rfl
@[simp] theorem State.setPinGroup_msixVecs (s : State) (n : Nat) (x : PinGroup) : (s.setPinGroup n x).msixVecs = s.msixVecs := rfl
@[simp] theorem State.setPinGroup_tcmp (s : State) (n : Nat) (x : PinGroup) : (s.setPinGroup n x).tcmp = s.tcmp := rfl
@[simp] theorem State.setPinGroup_pcmp (s : State) (n : Nat) (x : PinGroup) : (s.setPinGroup n x).pcmp = s.pcmp := rfl
@[simp] theorem State.setPinGroup_phases (s : State) (n : Nat) (x : PinGroup) : (s.setPinGroup n x).phases = s.phases := rfl
@[simp] theorem State.setPinGroup_fsyncs (s : State) (n : Nat) (x : PinGroup) : (s.setPinGroup n x).fsyncs = s.fsyncs := rfl
@[simp] theorem State.setPinGroup_eth (s : State) (n : Nat) (x : PinGroup) : (s.setPinGroup n x).eth = s.eth := rfl
@[simp] theorem State.setPinGroup_integ (s : State) (n : Nat) (x : PinGroup) : (s.setPinGroup n x).integ = s.integ := rfl
@[simp] theorem State.setPinGroup_pairs (s : State) (n : Nat) (x : PinGroup) : (s.setPinGroup n x).pairs = s.pairs := rfl
@[simp] theorem State.setPinGroup_clk (s : State) (n : Nat) (x : PinGroup) : (s.setPinGroup n x).clk = s.clk := rfl
@[simp] theorem State.setPinGroup_pwr (s : State) (n : Nat) (x : PinGroup) : (s.setPinGroup n x).pwr = s.pwr := rfl
@[simp] theorem State.setPinGroup_pcieUp (s : State) (n : Nat) (x : PinGroup) : (s.setPinGroup n x).pcieUp = s.pcieUp := rfl
@[simp] theorem State.setPinGroup_weir (s : State) (n : Nat) (x : PinGroup) : (s.setPinGroup n x).weir = s.weir := rfl
@[simp] theorem State.setPinGroup_dram (s : State) (n : Nat) (x : PinGroup) : (s.setPinGroup n x).dram = s.dram := rfl
@[simp] theorem State.setPinGroup_cistern (s : State) (n : Nat) (x : PinGroup) : (s.setPinGroup n x).cistern = s.cistern := rfl
@[simp] theorem State.setPinGroup_pages (s : State) (n : Nat) (x : PinGroup) : (s.setPinGroup n x).pages = s.pages := rfl
@[simp] theorem State.setPinGroup_freeSeq (s : State) (n : Nat) (x : PinGroup) : (s.setPinGroup n x).freeSeq = s.freeSeq := rfl
@[simp] theorem State.setPinGroup_ftns (s : State) (n : Nat) (x : PinGroup) : (s.setPinGroup n x).ftns = s.ftns := rfl
@[simp] theorem State.setPinGroup_cores (s : State) (n : Nat) (x : PinGroup) : (s.setPinGroup n x).cores = s.cores := rfl
@[simp] theorem State.setPinGroup_skim (s : State) (n : Nat) (x : PinGroup) : (s.setPinGroup n x).skim = s.skim := rfl
@[simp] theorem State.setPinGroup_ddr (s : State) (n : Nat) (x : PinGroup) : (s.setPinGroup n x).ddr = s.ddr := rfl
@[simp] theorem State.setPinGroup_fwp (s : State) (n : Nat) (x : PinGroup) : (s.setPinGroup n x).fwp = s.fwp := rfl
@[simp] theorem State.setPinGroup_tok (s : State) (n : Nat) (x : PinGroup) : (s.setPinGroup n x).tok = s.tok := rfl
@[simp] theorem State.setPinGroup_tokEnd (s : State) (n : Nat) (x : PinGroup) : (s.setPinGroup n x).tokEnd = s.tokEnd := rfl
@[simp] theorem State.setPinGroup_streams (s : State) (n : Nat) (x : PinGroup) : (s.setPinGroup n x).streams = s.streams := rfl
@[simp] theorem State.setPinGroup_pipes (s : State) (n : Nat) (x : PinGroup) : (s.setPinGroup n x).pipes = s.pipes := rfl
@[simp] theorem State.setPinGroup_spout (s : State) (n : Nat) (x : PinGroup) : (s.setPinGroup n x).spout = s.spout := rfl
@[simp] theorem State.setPinGroup_decs (s : State) (n : Nat) (x : PinGroup) : (s.setPinGroup n x).decs = s.decs := rfl
@[simp] theorem State.setPinGroup_encs (s : State) (n : Nat) (x : PinGroup) : (s.setPinGroup n x).encs = s.encs := rfl
@[simp] theorem State.setPinGroup_boot (s : State) (n : Nat) (x : PinGroup) : (s.setPinGroup n x).boot = s.boot := rfl
@[simp] theorem State.setPinGroup_rd (s : State) (n : Nat) (x : PinGroup) (off : Nat) : (s.setPinGroup n x).rd off = s.rd off := rfl
@[simp] theorem State.setPinGroup_rf (s : State) (n : Nat) (x : PinGroup) (off : Nat) (g : Fld) : (s.setPinGroup n x).rf off g = s.rf off g := rfl
@[simp] theorem State.setPinGroup_rn (s : State) (n : Nat) (x : PinGroup) (off : Nat) : (s.setPinGroup n x).rn off = s.rn off := rfl
@[simp] theorem State.setPinGroup_legacy (s : State) (n : Nat) (x : PinGroup) : (s.setPinGroup n x).legacy = s.legacy := rfl
@[simp] theorem State.setPinGroup_up (s : State) (n : Nat) (x : PinGroup) : (s.setPinGroup n x).up = s.up := rfl
@[simp] theorem State.setPinGroup_clockOn (s : State) (n : Nat) (x : PinGroup) : (s.setPinGroup n x).clockOn = s.clockOn := rfl
/-! modJob changes weir alone. -/
@[simp] theorem State.modJob_pending (s : State) (i : Nat) (jf : Job → Job) : (s.modJob i jf).pending = s.pending := rfl
@[simp] theorem State.modJob_freeCount (s : State) (i : Nat) (jf : Job → Job) : (s.modJob i jf).freeCount = s.freeCount := rfl
@[simp] theorem State.modJob_gts (s : State) (i : Nat) (jf : Job → Job) : (s.modJob i jf).gts = s.gts := rfl
@[simp] theorem State.modJob_taiSec (s : State) (i : Nat) (jf : Job → Job) : (s.modJob i jf).taiSec = s.taiSec := rfl
@[simp] theorem State.modJob_taiNs (s : State) (i : Nat) (jf : Job → Job) : (s.modJob i jf).taiNs = s.taiNs := rfl
@[simp] theorem State.modJob_taiFrac (s : State) (i : Nat) (jf : Job → Job) : (s.modJob i jf).taiFrac = s.taiFrac := rfl
@[simp] theorem State.modJob_taiRate (s : State) (i : Nat) (jf : Job → Job) : (s.modJob i jf).taiRate = s.taiRate := rfl
@[simp] theorem State.modJob_taiValid (s : State) (i : Nat) (jf : Job → Job) : (s.modJob i jf).taiValid = s.taiValid := rfl
@[simp] theorem State.modJob_taiOp (s : State) (i : Nat) (jf : Job → Job) : (s.modJob i jf).taiOp = s.taiOp := rfl
@[simp] theorem State.modJob_snapPending (s : State) (i : Nat) (jf : Job → Job) : (s.modJob i jf).snapPending = s.snapPending := rfl
@[simp] theorem State.modJob_live (s : State) (i : Nat) (jf : Job → Job) : (s.modJob i jf).live = s.live := rfl
@[simp] theorem State.modJob_staged (s : State) (i : Nat) (jf : Job → Job) : (s.modJob i jf).staged = s.staged := rfl
@[simp] theorem State.modJob_sections (s : State) (i : Nat) (jf : Job → Job) : (s.modJob i jf).sections = s.sections := rfl
@[simp] theorem State.modJob_checker (s : State) (i : Nat) (jf : Job → Job) : (s.modJob i jf).checker = s.checker := rfl
@[simp] theorem State.modJob_claims (s : State) (i : Nat) (jf : Job → Job) : (s.modJob i jf).claims = s.claims := rfl
@[simp] theorem State.modJob_events (s : State) (i : Nat) (jf : Job → Job) : (s.modJob i jf).events = s.events := rfl
@[simp] theorem State.modJob_devRing (s : State) (i : Nat) (jf : Job → Job) : (s.modJob i jf).devRing = s.devRing := rfl
@[simp] theorem State.modJob_ctxs (s : State) (i : Nat) (jf : Job → Job) : (s.modJob i jf).ctxs = s.ctxs := rfl
@[simp] theorem State.modJob_vectors (s : State) (i : Nat) (jf : Job → Job) : (s.modJob i jf).vectors = s.vectors := rfl
@[simp] theorem State.modJob_msixVecs (s : State) (i : Nat) (jf : Job → Job) : (s.modJob i jf).msixVecs = s.msixVecs := rfl
@[simp] theorem State.modJob_tcmp (s : State) (i : Nat) (jf : Job → Job) : (s.modJob i jf).tcmp = s.tcmp := rfl
@[simp] theorem State.modJob_pcmp (s : State) (i : Nat) (jf : Job → Job) : (s.modJob i jf).pcmp = s.pcmp := rfl
@[simp] theorem State.modJob_phases (s : State) (i : Nat) (jf : Job → Job) : (s.modJob i jf).phases = s.phases := rfl
@[simp] theorem State.modJob_fsyncs (s : State) (i : Nat) (jf : Job → Job) : (s.modJob i jf).fsyncs = s.fsyncs := rfl
@[simp] theorem State.modJob_eth (s : State) (i : Nat) (jf : Job → Job) : (s.modJob i jf).eth = s.eth := rfl
@[simp] theorem State.modJob_integ (s : State) (i : Nat) (jf : Job → Job) : (s.modJob i jf).integ = s.integ := rfl
@[simp] theorem State.modJob_pairs (s : State) (i : Nat) (jf : Job → Job) : (s.modJob i jf).pairs = s.pairs := rfl
@[simp] theorem State.modJob_clk (s : State) (i : Nat) (jf : Job → Job) : (s.modJob i jf).clk = s.clk := rfl
@[simp] theorem State.modJob_pwr (s : State) (i : Nat) (jf : Job → Job) : (s.modJob i jf).pwr = s.pwr := rfl
@[simp] theorem State.modJob_pins (s : State) (i : Nat) (jf : Job → Job) : (s.modJob i jf).pins = s.pins := rfl
@[simp] theorem State.modJob_pcieUp (s : State) (i : Nat) (jf : Job → Job) : (s.modJob i jf).pcieUp = s.pcieUp := rfl
@[simp] theorem State.modJob_dram (s : State) (i : Nat) (jf : Job → Job) : (s.modJob i jf).dram = s.dram := rfl
@[simp] theorem State.modJob_cistern (s : State) (i : Nat) (jf : Job → Job) : (s.modJob i jf).cistern = s.cistern := rfl
@[simp] theorem State.modJob_pages (s : State) (i : Nat) (jf : Job → Job) : (s.modJob i jf).pages = s.pages := rfl
@[simp] theorem State.modJob_freeSeq (s : State) (i : Nat) (jf : Job → Job) : (s.modJob i jf).freeSeq = s.freeSeq := rfl
@[simp] theorem State.modJob_ftns (s : State) (i : Nat) (jf : Job → Job) : (s.modJob i jf).ftns = s.ftns := rfl
@[simp] theorem State.modJob_cores (s : State) (i : Nat) (jf : Job → Job) : (s.modJob i jf).cores = s.cores := rfl
@[simp] theorem State.modJob_skim (s : State) (i : Nat) (jf : Job → Job) : (s.modJob i jf).skim = s.skim := rfl
@[simp] theorem State.modJob_ddr (s : State) (i : Nat) (jf : Job → Job) : (s.modJob i jf).ddr = s.ddr := rfl
@[simp] theorem State.modJob_fwp (s : State) (i : Nat) (jf : Job → Job) : (s.modJob i jf).fwp = s.fwp := rfl
@[simp] theorem State.modJob_tok (s : State) (i : Nat) (jf : Job → Job) : (s.modJob i jf).tok = s.tok := rfl
@[simp] theorem State.modJob_tokEnd (s : State) (i : Nat) (jf : Job → Job) : (s.modJob i jf).tokEnd = s.tokEnd := rfl
@[simp] theorem State.modJob_streams (s : State) (i : Nat) (jf : Job → Job) : (s.modJob i jf).streams = s.streams := rfl
@[simp] theorem State.modJob_pipes (s : State) (i : Nat) (jf : Job → Job) : (s.modJob i jf).pipes = s.pipes := rfl
@[simp] theorem State.modJob_spout (s : State) (i : Nat) (jf : Job → Job) : (s.modJob i jf).spout = s.spout := rfl
@[simp] theorem State.modJob_decs (s : State) (i : Nat) (jf : Job → Job) : (s.modJob i jf).decs = s.decs := rfl
@[simp] theorem State.modJob_encs (s : State) (i : Nat) (jf : Job → Job) : (s.modJob i jf).encs = s.encs := rfl
@[simp] theorem State.modJob_boot (s : State) (i : Nat) (jf : Job → Job) : (s.modJob i jf).boot = s.boot := rfl
@[simp] theorem State.modJob_rd (s : State) (i : Nat) (jf : Job → Job) (off : Nat) : (s.modJob i jf).rd off = s.rd off := rfl
@[simp] theorem State.modJob_rf (s : State) (i : Nat) (jf : Job → Job) (off : Nat) (g : Fld) : (s.modJob i jf).rf off g = s.rf off g := rfl
@[simp] theorem State.modJob_rn (s : State) (i : Nat) (jf : Job → Job) (off : Nat) : (s.modJob i jf).rn off = s.rn off := rfl
@[simp] theorem State.modJob_legacy (s : State) (i : Nat) (jf : Job → Job) : (s.modJob i jf).legacy = s.legacy := rfl
@[simp] theorem State.modJob_up (s : State) (i : Nat) (jf : Job → Job) : (s.modJob i jf).up = s.up := rfl
@[simp] theorem State.modJob_clockOn (s : State) (i : Nat) (jf : Job → Job) : (s.modJob i jf).clockOn = s.clockOn := rfl
/-! charge changes ddr alone. -/
@[simp] theorem State.charge_pending (s : State) (w : Who) (n : Nat) : (s.charge w n).pending = s.pending := rfl
@[simp] theorem State.charge_freeCount (s : State) (w : Who) (n : Nat) : (s.charge w n).freeCount = s.freeCount := rfl
@[simp] theorem State.charge_gts (s : State) (w : Who) (n : Nat) : (s.charge w n).gts = s.gts := rfl
@[simp] theorem State.charge_taiSec (s : State) (w : Who) (n : Nat) : (s.charge w n).taiSec = s.taiSec := rfl
@[simp] theorem State.charge_taiNs (s : State) (w : Who) (n : Nat) : (s.charge w n).taiNs = s.taiNs := rfl
@[simp] theorem State.charge_taiFrac (s : State) (w : Who) (n : Nat) : (s.charge w n).taiFrac = s.taiFrac := rfl
@[simp] theorem State.charge_taiRate (s : State) (w : Who) (n : Nat) : (s.charge w n).taiRate = s.taiRate := rfl
@[simp] theorem State.charge_taiValid (s : State) (w : Who) (n : Nat) : (s.charge w n).taiValid = s.taiValid := rfl
@[simp] theorem State.charge_taiOp (s : State) (w : Who) (n : Nat) : (s.charge w n).taiOp = s.taiOp := rfl
@[simp] theorem State.charge_snapPending (s : State) (w : Who) (n : Nat) : (s.charge w n).snapPending = s.snapPending := rfl
@[simp] theorem State.charge_live (s : State) (w : Who) (n : Nat) : (s.charge w n).live = s.live := rfl
@[simp] theorem State.charge_staged (s : State) (w : Who) (n : Nat) : (s.charge w n).staged = s.staged := rfl
@[simp] theorem State.charge_sections (s : State) (w : Who) (n : Nat) : (s.charge w n).sections = s.sections := rfl
@[simp] theorem State.charge_checker (s : State) (w : Who) (n : Nat) : (s.charge w n).checker = s.checker := rfl
@[simp] theorem State.charge_claims (s : State) (w : Who) (n : Nat) : (s.charge w n).claims = s.claims := rfl
@[simp] theorem State.charge_events (s : State) (w : Who) (n : Nat) : (s.charge w n).events = s.events := rfl
@[simp] theorem State.charge_devRing (s : State) (w : Who) (n : Nat) : (s.charge w n).devRing = s.devRing := rfl
@[simp] theorem State.charge_ctxs (s : State) (w : Who) (n : Nat) : (s.charge w n).ctxs = s.ctxs := rfl
@[simp] theorem State.charge_vectors (s : State) (w : Who) (n : Nat) : (s.charge w n).vectors = s.vectors := rfl
@[simp] theorem State.charge_msixVecs (s : State) (w : Who) (n : Nat) : (s.charge w n).msixVecs = s.msixVecs := rfl
@[simp] theorem State.charge_tcmp (s : State) (w : Who) (n : Nat) : (s.charge w n).tcmp = s.tcmp := rfl
@[simp] theorem State.charge_pcmp (s : State) (w : Who) (n : Nat) : (s.charge w n).pcmp = s.pcmp := rfl
@[simp] theorem State.charge_phases (s : State) (w : Who) (n : Nat) : (s.charge w n).phases = s.phases := rfl
@[simp] theorem State.charge_fsyncs (s : State) (w : Who) (n : Nat) : (s.charge w n).fsyncs = s.fsyncs := rfl
@[simp] theorem State.charge_eth (s : State) (w : Who) (n : Nat) : (s.charge w n).eth = s.eth := rfl
@[simp] theorem State.charge_integ (s : State) (w : Who) (n : Nat) : (s.charge w n).integ = s.integ := rfl
@[simp] theorem State.charge_pairs (s : State) (w : Who) (n : Nat) : (s.charge w n).pairs = s.pairs := rfl
@[simp] theorem State.charge_clk (s : State) (w : Who) (n : Nat) : (s.charge w n).clk = s.clk := rfl
@[simp] theorem State.charge_pwr (s : State) (w : Who) (n : Nat) : (s.charge w n).pwr = s.pwr := rfl
@[simp] theorem State.charge_pins (s : State) (w : Who) (n : Nat) : (s.charge w n).pins = s.pins := rfl
@[simp] theorem State.charge_pcieUp (s : State) (w : Who) (n : Nat) : (s.charge w n).pcieUp = s.pcieUp := rfl
@[simp] theorem State.charge_weir (s : State) (w : Who) (n : Nat) : (s.charge w n).weir = s.weir := rfl
@[simp] theorem State.charge_dram (s : State) (w : Who) (n : Nat) : (s.charge w n).dram = s.dram := rfl
@[simp] theorem State.charge_cistern (s : State) (w : Who) (n : Nat) : (s.charge w n).cistern = s.cistern := rfl
@[simp] theorem State.charge_pages (s : State) (w : Who) (n : Nat) : (s.charge w n).pages = s.pages := rfl
@[simp] theorem State.charge_freeSeq (s : State) (w : Who) (n : Nat) : (s.charge w n).freeSeq = s.freeSeq := rfl
@[simp] theorem State.charge_ftns (s : State) (w : Who) (n : Nat) : (s.charge w n).ftns = s.ftns := rfl
@[simp] theorem State.charge_cores (s : State) (w : Who) (n : Nat) : (s.charge w n).cores = s.cores := rfl
@[simp] theorem State.charge_skim (s : State) (w : Who) (n : Nat) : (s.charge w n).skim = s.skim := rfl
@[simp] theorem State.charge_fwp (s : State) (w : Who) (n : Nat) : (s.charge w n).fwp = s.fwp := rfl
@[simp] theorem State.charge_tok (s : State) (w : Who) (n : Nat) : (s.charge w n).tok = s.tok := rfl
@[simp] theorem State.charge_tokEnd (s : State) (w : Who) (n : Nat) : (s.charge w n).tokEnd = s.tokEnd := rfl
@[simp] theorem State.charge_streams (s : State) (w : Who) (n : Nat) : (s.charge w n).streams = s.streams := rfl
@[simp] theorem State.charge_pipes (s : State) (w : Who) (n : Nat) : (s.charge w n).pipes = s.pipes := rfl
@[simp] theorem State.charge_spout (s : State) (w : Who) (n : Nat) : (s.charge w n).spout = s.spout := rfl
@[simp] theorem State.charge_decs (s : State) (w : Who) (n : Nat) : (s.charge w n).decs = s.decs := rfl
@[simp] theorem State.charge_encs (s : State) (w : Who) (n : Nat) : (s.charge w n).encs = s.encs := rfl
@[simp] theorem State.charge_boot (s : State) (w : Who) (n : Nat) : (s.charge w n).boot = s.boot := rfl
@[simp] theorem State.charge_rd (s : State) (w : Who) (n : Nat) (off : Nat) : (s.charge w n).rd off = s.rd off := rfl
@[simp] theorem State.charge_rf (s : State) (w : Who) (n : Nat) (off : Nat) (g : Fld) : (s.charge w n).rf off g = s.rf off g := rfl
@[simp] theorem State.charge_rn (s : State) (w : Who) (n : Nat) (off : Nat) : (s.charge w n).rn off = s.rn off := rfl
@[simp] theorem State.charge_legacy (s : State) (w : Who) (n : Nat) : (s.charge w n).legacy = s.legacy := rfl
@[simp] theorem State.charge_up (s : State) (w : Who) (n : Nat) : (s.charge w n).up = s.up := rfl
@[simp] theorem State.charge_clockOn (s : State) (w : Who) (n : Nat) : (s.charge w n).clockOn = s.clockOn := rfl

/-! Registers. -/

@[simp] theorem State.rd_wr_same (s : State) (o : Nat) (v : W32) : (s.wr o v).rd o = v := Table.get_put_same _ _ _ _

theorem State.rd_wr_ne (s : State) {o off : Nat} (v : W32) (h : off ≠ o) : (s.wr o v).rd off = s.rd off :=
  Table.get_put_ne _ _ _ _ h

@[simp] theorem State.rd_wf_same (s : State) (o : Nat) (f : Fld) (v : Nat) : (s.wf o f v).rd o = (s.rd o).setFld f v :=
  State.rd_wr_same _ _ _

theorem State.rd_wf_ne (s : State) {o off : Nat} (f : Fld) (v : Nat) (h : off ≠ o) : (s.wf o f v).rd off = s.rd off :=
  State.rd_wr_ne _ _ h

theorem State.rf_wf_ne (s : State) {o off : Nat} (f g : Fld) (v : Nat) (h : off ≠ o) : (s.wf o f v).rf off g = s.rf off g := by
  unfold State.rf
  rw [State.rd_wf_ne _ _ _ h]

theorem State.rf_wf_same (s : State) (o : Nat) (f : Fld) (v : Nat) (h : f.lo ≤ f.hi) (hf : f.hi < 32) :
    (s.wf o f v).rf o f = v % 2 ^ f.width := by
  unfold State.rf
  rw [State.rd_wf_same, W32.fld_setFld_same _ _ _ h hf]

theorem State.rf_wf_apart (s : State) (o : Nat) (f g : Fld) (v : Nat) (hg : g.hi < 32)
    (h : f.hi < g.lo ∨ g.hi < f.lo) : (s.wf o f v).rf o g = s.rf o g := by
  unfold State.rf
  rw [State.rd_wf_same, W32.fld_setFld_apart _ _ _ _ hg h]

@[simp] theorem State.rd_wn_same (s : State) (o v : Nat) : (s.wn o v).rd o = BitVec.ofNat 32 v := State.rd_wr_same _ _ _

theorem State.rd_wn_ne (s : State) {o off : Nat} (v : Nat) (h : off ≠ o) : (s.wn o v).rd off = s.rd off :=
  State.rd_wr_ne _ _ h

@[simp] theorem State.stagedAt_stage_same (s : State) (o : Nat) (v : Option W32) : (s.stage o v).stagedAt o = v :=
  Table.get_put_same _ _ _ _

theorem State.stagedAt_stage_ne (s : State) {o off : Nat} (v : Option W32) (h : off ≠ o) :
    (s.stage o v).stagedAt off = s.stagedAt off := Table.get_put_ne _ _ _ _ h

/-! Entries of the tables of State. -/

@[simp] theorem State.pair_setPair_same (s : State) (k : Nat) (x : Pair) : (s.setPair k x).pair k = x := Table.get_put_same _ _ _ _
theorem State.pair_setPair_ne (s : State) {k n : Nat} (x : Pair) (h : n ≠ k) : (s.setPair k x).pair n = s.pair n := Table.get_put_ne _ _ _ _ h
@[simp] theorem State.ctx_setCtx_same (s : State) (k : Nat) (x : Ctx) : (s.setCtx k x).ctx k = x := Table.get_put_same _ _ _ _
theorem State.ctx_setCtx_ne (s : State) {k n : Nat} (x : Ctx) (h : n ≠ k) : (s.setCtx k x).ctx n = s.ctx n := Table.get_put_ne _ _ _ _ h
@[simp] theorem State.ftn_setFtn_same (s : State) (k : Nat) (x : Fountain) : (s.setFtn k x).ftn k = x := Table.get_put_same _ _ _ _
theorem State.ftn_setFtn_ne (s : State) {k n : Nat} (x : Fountain) (h : n ≠ k) : (s.setFtn k x).ftn n = s.ftn n := Table.get_put_ne _ _ _ _ h
@[simp] theorem State.core_setCore_same (s : State) (k : Nat) (x : Core) : (s.setCore k x).core k = x := Table.get_put_same _ _ _ _
theorem State.core_setCore_ne (s : State) {k n : Nat} (x : Core) (h : n ≠ k) : (s.setCore k x).core n = s.core n := Table.get_put_ne _ _ _ _ h
@[simp] theorem State.page_setPage_same (s : State) (k : Nat) (x : Page) : (s.setPage k x).page k = x := Table.get_put_same _ _ _ _
theorem State.page_setPage_ne (s : State) {k n : Nat} (x : Page) (h : n ≠ k) : (s.setPage k x).page n = s.page n := Table.get_put_ne _ _ _ _ h
@[simp] theorem State.phase_setPhase_same (s : State) (k : Nat) (x : Phase) : (s.setPhase k x).phase k = x := Table.get_put_same _ _ _ _
theorem State.phase_setPhase_ne (s : State) {k n : Nat} (x : Phase) (h : n ≠ k) : (s.setPhase k x).phase n = s.phase n := Table.get_put_ne _ _ _ _ h
@[simp] theorem State.port_setPort_same (s : State) (k : Nat) (x : EthPort) : (s.setPort k x).port k = x := Table.get_put_same _ _ _ _
theorem State.port_setPort_ne (s : State) {k n : Nat} (x : EthPort) (h : n ≠ k) : (s.setPort k x).port n = s.port n := Table.get_put_ne _ _ _ _ h
@[simp] theorem State.fsync_setFsync_same (s : State) (k : Nat) (x : Fsync) : (s.setFsync k x).fsync k = x := Table.get_put_same _ _ _ _
theorem State.fsync_setFsync_ne (s : State) {k n : Nat} (x : Fsync) (h : n ≠ k) : (s.setFsync k x).fsync n = s.fsync n := Table.get_put_ne _ _ _ _ h
@[simp] theorem State.tc_setTc_same (s : State) (k : Nat) (x : Cmp) : (s.setTc k x).tc k = x := Table.get_put_same _ _ _ _
theorem State.tc_setTc_ne (s : State) {k n : Nat} (x : Cmp) (h : n ≠ k) : (s.setTc k x).tc n = s.tc n := Table.get_put_ne _ _ _ _ h
@[simp] theorem State.pc_setPc_same (s : State) (k : Nat) (x : Cmp) : (s.setPc k x).pc k = x := Table.get_put_same _ _ _ _
theorem State.pc_setPc_ne (s : State) {k n : Nat} (x : Cmp) (h : n ≠ k) : (s.setPc k x).pc n = s.pc n := Table.get_put_ne _ _ _ _ h
@[simp] theorem State.dec_setDec_same (s : State) (k : Nat) (x : DecS) : (s.setDec k x).dec k = x := Table.get_put_same _ _ _ _
theorem State.dec_setDec_ne (s : State) {k n : Nat} (x : DecS) (h : n ≠ k) : (s.setDec k x).dec n = s.dec n := Table.get_put_ne _ _ _ _ h
@[simp] theorem State.enc_setEnc_same (s : State) (k : Nat) (x : EncS) : (s.setEnc k x).enc k = x := Table.get_put_same _ _ _ _
theorem State.enc_setEnc_ne (s : State) {k n : Nat} (x : EncS) (h : n ≠ k) : (s.setEnc k x).enc n = s.enc n := Table.get_put_ne _ _ _ _ h
@[simp] theorem State.stream_setStream_same (s : State) (k : Nat) (x : StreamS) : (s.setStream k x).stream k = x := Table.get_put_same _ _ _ _
theorem State.stream_setStream_ne (s : State) {k n : Nat} (x : StreamS) (h : n ≠ k) : (s.setStream k x).stream n = s.stream n := Table.get_put_ne _ _ _ _ h
@[simp] theorem State.pipe_setPipe_same (s : State) (k : Nat) (x : PipeS) : (s.setPipe k x).pipe k = x := Table.get_put_same _ _ _ _
theorem State.pipe_setPipe_ne (s : State) {k n : Nat} (x : PipeS) (h : n ≠ k) : (s.setPipe k x).pipe n = s.pipe n := Table.get_put_ne _ _ _ _ h
@[simp] theorem State.pinGroup_setPinGroup_same (s : State) (k : Nat) (x : PinGroup) : (s.setPinGroup k x).pinGroup k = x := Table.get_put_same _ _ _ _
theorem State.pinGroup_setPinGroup_ne (s : State) {k n : Nat} (x : PinGroup) (h : n ≠ k) : (s.setPinGroup k x).pinGroup n = s.pinGroup n := Table.get_put_ne _ _ _ _ h

end Sys2Proof.Machine
end

