-- ==== Sys2Proof/Laws/Ops.lean ====
section
/-! SUPPORT. Sys2Proof/Laws/Ops.lean: what the shared operations do, one lemma for each, so that a proof need not unfold them. -/
namespace Sys2Proof.Machine

/-! A change of registers alone. -/

/-- The states differ in the values in force of registers alone. -/
def OnlyRegs (s t : State) : Prop := ∃ l, t = { s with live := l }

theorem OnlyRegs.refl (s : State) : OnlyRegs s s := ⟨s.live, rfl⟩
theorem OnlyRegs.trans {s t u : State} : OnlyRegs s t → OnlyRegs t u → OnlyRegs s u := by
  rintro ⟨a, rfl⟩ ⟨b, rfl⟩; exact ⟨b, rfl⟩
theorem OnlyRegs.wr (s : State) (o : Nat) (v : W32) : OnlyRegs s (s.wr o v) := ⟨_, rfl⟩
theorem OnlyRegs.wf (s : State) (o : Nat) (f : Fld) (v : Nat) : OnlyRegs s (s.wf o f v) := ⟨_, rfl⟩
theorem OnlyRegs.wn (s : State) (o v : Nat) : OnlyRegs s (s.wn o v) := ⟨_, rfl⟩
theorem OnlyRegs.bump (s : State) (o : Nat) (f : Fld) : OnlyRegs s (s.bump o f) := ⟨_, rfl⟩
theorem OnlyRegs.bumpSat (s : State) (o : Nat) (f : Fld) : OnlyRegs s (s.bumpSat o f) := ⟨_, rfl⟩
theorem OnlyRegs.ite {s t u : State} (c : Prop) [Decidable c] (ht : OnlyRegs s t) (hu : OnlyRegs s u) :
    OnlyRegs s (if c then t else u) := by split <;> assumption
theorem OnlyRegs.foldl {α : Type} (f : State → α → State) (h : ∀ s x, OnlyRegs s (f s x)) :
    ∀ (l : List α) (s : State), OnlyRegs s (l.foldl f s)
  | [], s => .refl s
  | x :: l, s => (h s x).trans (OnlyRegs.foldl f h l (f s x))
theorem OnlyRegs.sameMem {s t : State} : OnlyRegs s t → sameMem s t := by rintro ⟨l, rfl⟩ a; exact ⟨rfl, rfl, rfl, rfl⟩

/-- A change that keeps a register keeps it over a list of changes. -/
theorem rd_foldl {α : Type} (f : State → α → State) (off : Nat) :
    ∀ (l : List α) (s : State), (∀ s, ∀ x ∈ l, (f s x).rd off = s.rd off) → (l.foldl f s).rd off = s.rd off
  | [], _, _ => rfl
  | x :: l, s, h => by
    rw [List.foldl_cons, rd_foldl f off l _ fun s y hy => h s y (List.mem_cons_of_mem _ hy)]
    exact h s x List.mem_cons_self

/-- A field holds a number of its width. -/
theorem W32.fld_lt (w : W32) (f : Fld) : w.fld f < 2 ^ f.width := by
  unfold W32.fld; exact Nat.mod_lt _ (Nat.two_pow_pos _)

theorem State.draw_rd (s : State) (n off : Nat) : (s.draw n).2.rd off = s.rd off := rfl

/-! Reports: detectors, warnings, events and the safety pairs. -/

/-- A report changes registers, the Clepsydra's events, the integrity unit and the pairs. -/
def OnlyReports (s t : State) : Prop := ∃ l e i p, t = { s with live := l, events := e, integ := i, pairs := p }

theorem OnlyReports.refl (s : State) : OnlyReports s s := ⟨_, _, _, _, rfl⟩
theorem OnlyReports.trans {s t u : State} : OnlyReports s t → OnlyReports t u → OnlyReports s u := by
  rintro ⟨a, b, c, d, rfl⟩ ⟨a', b', c', d', rfl⟩; exact ⟨a', b', c', d', rfl⟩
theorem OnlyRegs.reports {s t : State} : OnlyRegs s t → OnlyReports s t := by rintro ⟨l, rfl⟩; exact ⟨l, _, _, _, rfl⟩
theorem OnlyReports.ite {s t u : State} (c : Prop) [Decidable c] (ht : OnlyReports s t) (hu : OnlyReports s u) :
    OnlyReports s (if c then t else u) := by split <;> assumption
theorem OnlyReports.foldl {α : Type} (f : State → α → State) (h : ∀ s x, OnlyReports s (f s x)) :
    ∀ (l : List α) (s : State), OnlyReports s (l.foldl f s)
  | [], s => .refl s
  | x :: l, s => (h s x).trans (OnlyReports.foldl f h l (f s x))
theorem OnlyReports.sameMem {s t : State} : OnlyReports s t → sameMem s t := by
  rintro ⟨a, b, c, d, rfl⟩ _; exact ⟨rfl, rfl, rfl, rfl⟩
theorem OnlyReports.raise (s : State) (e : Event) : OnlyReports s (s.raise e) := ⟨_, _, _, _, rfl⟩
theorem OnlyReports.raiseDev (s : State) (a b c : Nat) : OnlyReports s (s.raiseDev a b c) := ⟨_, _, _, _, rfl⟩
theorem OnlyReports.setPair (s : State) (k : Nat) (p : Pair) : OnlyReports s (s.setPair k p) := ⟨_, _, _, _, rfl⟩
theorem OnlyReports.integ (s : State) (i : IntegS) : OnlyReports s { s with integ := i } := ⟨_, _, _, _, rfl⟩

/-- A warning is counted, kept and raised. -/
theorem State.warn_frame (s : State) (d u i : Nat) : ∃ l e, s.warn d u i = { s with live := l, events := e } := by
  unfold State.warn
  dsimp only
  obtain ⟨l, h⟩ := (OnlyRegs.bumpSat s (Reg.detCount d) F.whole).trans (OnlyRegs.wn _ (Reg.detLast d) (Occ.detail ⟨d, Kind.warning, u, i, false⟩))
  rw [h]
  exact ⟨_, _, rfl⟩
theorem State.warn_rd (s : State) (d u i off : Nat) (h1 : off ≠ Reg.detCount d) (h2 : off ≠ Reg.detLast d) :
    (s.warn d u i).rd off = s.rd off := by
  unfold State.warn State.bumpSat
  rw [State.raiseDev_rd, State.rd_wn_ne _ _ h2, State.rd_wf_ne _ _ _ h1]

theorem State.detCount_reports (s : State) (o : Occ) : OnlyReports s (s.detCount o) := by
  have h := ((OnlyRegs.bumpSat s (Reg.detCount o.det) F.whole).trans (OnlyRegs.wn _ (Reg.detLast o.det) o.detail)).reports
  unfold State.detCount
  dsimp only
  generalize (s.bumpSat (Reg.detCount o.det) F.whole).wn (Reg.detLast o.det) o.detail = u at h ⊢
  split
  · exact .refl s
  · split
    · exact h.trans (.integ _ _)
    · exact h

theorem State.rd_integ (s : State) (i : IntegS) (off : Nat) : ({ s with integ := i } : State).rd off = s.rd off := rfl

/-- An occurrence writes no register but its detector's count and detail. -/
theorem State.detCount_rd (s : State) (o : Occ) (off : Nat) (h1 : off ≠ Reg.detCount o.det) (h2 : off ≠ Reg.detLast o.det) :
    (s.detCount o).rd off = s.rd off := by
  have h : ((s.bumpSat (Reg.detCount o.det) F.whole).wn (Reg.detLast o.det) o.detail).rd off = s.rd off := by
    unfold State.bumpSat
    rw [State.rd_wn_ne _ _ h2, State.rd_wf_ne _ _ _ h1]
  unfold State.detCount
  dsimp only
  generalize (s.bumpSat (Reg.detCount o.det) F.whole).wn (Reg.detLast o.det) o.detail = u at h ⊢
  split
  · rfl
  · split
    · rw [State.rd_integ]; exact h
    · exact h

theorem State.detRaise_reports (s : State) (o : Occ) (b : Bool) : OnlyReports s (s.detRaise o b) := by
  unfold State.detRaise; split
  · exact .raiseDev ..
  · exact .raiseDev ..

theorem State.occur_reports (s : State) (o : Occ) (b : Bool) : OnlyReports s (s.occur o b) := by
  unfold State.occur
  have h := s.detCount_reports o
  dsimp only
  split
  · exact h.trans (State.detRaise_reports _ _ _)
  · exact h

theorem State.occur_rd (s : State) (o : Occ) (b : Bool) (off : Nat) (h1 : off ≠ Reg.detCount o.det) (h2 : off ≠ Reg.detLast o.det) :
    (s.occur o b).rd off = s.rd off := by
  have h := s.detCount_rd o off h1 h2
  unfold State.occur State.detRaise
  dsimp only
  split
  · split
    · rw [State.raiseDev_rd]; exact h
    · rw [State.raiseDev_rd]; exact h
  · exact h

theorem State.stopPair_reports (s : State) (k c : Nat) : OnlyReports s (s.stopPair k c) := by
  unfold State.stopPair
  exact (((OnlyReports.setPair s k _).trans ((OnlyRegs.bump _ _ _).trans ((OnlyRegs.wf _ _ _ _).trans (OnlyRegs.wn _ _ _))).reports)).trans
    (.raiseDev ..)

/-- A lower cause of the same cycle changes the status of its pair and the pair's event, and nothing else. -/
theorem State.lowerCause_reports (s : State) (k c : Nat) : OnlyReports s (s.lowerCause k c) := by
  unfold State.lowerCause; split
  · exact (OnlyRegs.wf s _ _ _).reports.trans ⟨_, _, _, _, rfl⟩
  · exact .refl s
theorem State.lowerCause_rd (s : State) (k c off : Nat) (h : off ≠ Reg.safePairStatus k) :
    (s.lowerCause k c).rd off = s.rd off := by
  unfold State.lowerCause; split
  · exact State.rd_wf_ne _ _ _ h
  · rfl
theorem State.lowerCause_pair (s : State) (k c n : Nat) : (s.lowerCause k c).pair n = s.pair n := by
  unfold State.lowerCause; split <;> rfl

theorem State.drivePair_reports (s : State) (c k : Nat) : OnlyReports s (s.drivePair c k) := by
  unfold State.drivePair
  have h := ((OnlyRegs.wr s (Reg.safeCause k) (s.rd (Reg.safeCause k) ||| BitVec.ofNat 32 (2 ^ c))).reports).trans (.setPair _ k
    { (State.wr s (Reg.safeCause k) (s.rd (Reg.safeCause k) ||| BitVec.ofNat 32 (2 ^ c))).pair k with
      occAt := Table.put none ((State.wr s (Reg.safeCause k) (s.rd (Reg.safeCause k) ||| BitVec.ofNat 32 (2 ^ c))).pair k).occAt c (some s.gts) })
  dsimp only
  split
  · exact h.trans (State.stopPair_reports _ _ _)
  · exact h.trans (.trans (.setPair ..) (State.lowerCause_reports _ _ _))

/-- A cause of the safety pairs changes what a report changes. -/
theorem State.cause_reports (s : State) (c : Nat) : OnlyReports s (s.cause c) := by
  unfold State.cause
  exact OnlyReports.foldl _ (fun s k => .ite _ (s.drivePair_reports c k) (.refl s)) _ _

/-- The registers that a cause writes. -/
def safeRegs : List Nat :=
  [0, 1, 2, 3].flatMap fun k => [Reg.safeCause k, Reg.safePairStatus k, Reg.safeStopGts k]

theorem State.drivePair_rd (s : State) (c k off : Nat) (hk : k < 4) (h : off ∉ safeRegs) : (s.drivePair c k).rd off = s.rd off := by
  have h1 : off ≠ Reg.safeCause k ∧ off ≠ Reg.safePairStatus k ∧ off ≠ Reg.safeStopGts k := by
    refine ⟨?_, ?_, ?_⟩ <;> (intro he; apply h; subst he; unfold safeRegs; rw [List.mem_flatMap]; exact ⟨k, by simp; omega, by simp⟩)
  unfold State.drivePair State.stopPair State.bump
  dsimp only
  split
  · rw [State.raiseDev_rd, State.rd_wn_ne _ _ h1.2.2, State.rd_wf_ne _ _ _ h1.2.1, State.rd_wf_ne _ _ _ h1.2.1, State.setPair_rd, State.setPair_rd,
      State.rd_wr_ne _ _ h1.1]
  · rw [State.lowerCause_rd _ _ _ _ h1.2.1, State.setPair_rd, State.setPair_rd, State.rd_wr_ne _ _ h1.1]

theorem State.cause_rd (s : State) (c off : Nat) (h : off ∉ safeRegs) : (s.cause c).rd off = s.rd off := by
  unfold State.cause
  refine rd_foldl _ _ _ _ fun s k hk => ?_
  split
  · exact s.drivePair_rd c k off (by simp at hk; omega) h
  · rfl

theorem Reg.safeCause_ne {k n : Nat} (h : n ≠ k) : Reg.safeCause n ≠ Reg.safeCause k := by unfold Reg.safeCause; omega

/-- A pair that a cause drives does not run, and has the cause latched. -/
theorem State.drivePair_same (s : State) (c k : Nat) : ((s.drivePair c k).pair k).run = false ∧
    ((s.drivePair c k).pair k).mask = (s.pair k).mask ∧
    (s.drivePair c k).rd (Reg.safeCause k) = (s.rd (Reg.safeCause k) ||| BitVec.ofNat 32 (2 ^ c)) := by
  have e : ∀ k, Reg.safeCause k ≠ Reg.safePairStatus k ∧ Reg.safeCause k ≠ Reg.safeStopGts k := by
    intro k; unfold Reg.safeCause Reg.safePairStatus Reg.safeStopGts; omega
  have hp : ∀ (s : State) o v n, (s.wr o v).pair n = s.pair n := fun _ _ _ _ => rfl
  have hf : ∀ (s : State) o f v n, (s.wf o f v).pair n = s.pair n := fun _ _ _ _ _ => rfl
  have hn : ∀ (s : State) o v n, (s.wn o v).pair n = s.pair n := fun _ _ _ _ => rfl
  have hr : ∀ (s : State) a b c n, (s.raiseDev a b c).pair n = s.pair n := fun _ _ _ _ _ => rfl
  unfold State.drivePair State.stopPair State.bump
  dsimp only
  split
  · refine ⟨?_, ?_, ?_⟩
    · rw [hr, hn, hf, hf, State.pair_setPair_same]
    · rw [hr, hn, hf, hf, State.pair_setPair_same, State.pair_setPair_same, hp]
    · rw [State.raiseDev_rd, State.rd_wn_ne _ _ (e k).2, State.rd_wf_ne _ _ _ (e k).1, State.rd_wf_ne _ _ _ (e k).1, State.setPair_rd,
        State.setPair_rd, State.rd_wr_same]
  · next h =>
    have h' := h
    rw [Bool.not_eq_true] at h'
    refine ⟨?_, ?_, ?_⟩
    · rw [State.lowerCause_pair, State.pair_setPair_same]; exact h'
    · rw [State.lowerCause_pair, State.pair_setPair_same, State.pair_setPair_same, hp]
    · rw [State.lowerCause_rd _ _ _ _ (e k).1, State.setPair_rd, State.setPair_rd, State.rd_wr_same]

/-- Driving a pair leaves the other pairs and their causes alone. -/
theorem State.drivePair_other (s : State) (c : Nat) {k n : Nat} (h : n ≠ k) :
    (s.drivePair c k).pair n = s.pair n ∧ (s.drivePair c k).rd (Reg.safeCause n) = s.rd (Reg.safeCause n) := by
  have e : Reg.safeCause n ≠ Reg.safePairStatus k ∧ Reg.safeCause n ≠ Reg.safeStopGts k := by
    unfold Reg.safeCause Reg.safePairStatus Reg.safeStopGts; omega
  have e' := Reg.safeCause_ne h
  have hp : ∀ (s : State) o v n, (s.wr o v).pair n = s.pair n := fun _ _ _ _ => rfl
  have hf : ∀ (s : State) o f v n, (s.wf o f v).pair n = s.pair n := fun _ _ _ _ _ => rfl
  have hn : ∀ (s : State) o v n, (s.wn o v).pair n = s.pair n := fun _ _ _ _ => rfl
  have hr : ∀ (s : State) a b c n, (s.raiseDev a b c).pair n = s.pair n := fun _ _ _ _ _ => rfl
  unfold State.drivePair State.stopPair State.bump
  dsimp only
  split
  · refine ⟨?_, ?_⟩
    · rw [hr, hn, hf, hf, State.pair_setPair_ne _ _ h, State.pair_setPair_ne _ _ h, hp]
    · rw [State.raiseDev_rd, State.rd_wn_ne _ _ e.2, State.rd_wf_ne _ _ _ e.1, State.rd_wf_ne _ _ _ e.1, State.setPair_rd,
        State.setPair_rd, State.rd_wr_ne _ _ e']
  · refine ⟨?_, ?_⟩
    · rw [State.lowerCause_pair, State.pair_setPair_ne _ _ h, State.pair_setPair_ne _ _ h, hp]
    · rw [State.lowerCause_rd _ _ _ _ e.1, State.setPair_rd, State.setPair_rd, State.rd_wr_ne _ _ e']

/-- Pairs that a list of drives does not name keep their state and their causes. -/
theorem State.drives_other (c : Nat) (p : State → Nat → Bool) (l : List Nat) (n : Nat) (h : n ∉ l) (s : State) :
    (l.foldl (fun s k => if p s k then s.drivePair c k else s) s).pair n = s.pair n ∧
    (l.foldl (fun s k => if p s k then s.drivePair c k else s) s).rd (Reg.safeCause n) = s.rd (Reg.safeCause n) := by
  induction l generalizing s with
  | nil => exact ⟨rfl, rfl⟩
  | cons k l ih =>
    rw [List.foldl_cons]
    have hl := ih (fun x => h (List.mem_cons_of_mem _ x)) (if p s k then s.drivePair c k else s)
    rw [hl.1, hl.2]
    split
    · exact s.drivePair_other c fun x => h (x ▸ List.mem_cons_self)
    · exact ⟨rfl, rfl⟩

/-- A cause stops a pair whose mask names it, and latches its bit; the bits that were latched stay. -/
theorem State.cause_does (s : State) (c k : Nat) (hk : k < 4) (h : (s.pair k).mask.testBit c = true) :
    ((s.cause c).pair k).run = false ∧ (s.cause c).rd (Reg.safeCause k) = (s.rd (Reg.safeCause k) ||| BitVec.ofNat 32 (2 ^ c)) := by
  have : ∀ (l : List Nat) (s : State), l.Nodup → k ∈ l → (s.pair k).mask.testBit c = true →
      ((l.foldl (fun s k => if (s.pair k).mask.testBit c then s.drivePair c k else s) s).pair k).run = false ∧
      (l.foldl (fun s k => if (s.pair k).mask.testBit c then s.drivePair c k else s) s).rd (Reg.safeCause k) =
        (s.rd (Reg.safeCause k) ||| BitVec.ofNat 32 (2 ^ c)) := by
    intro l
    induction l with
    | nil => intro s _ hm; cases hm
    | cons n l ih =>
      intro s hn hm hb
      have hn := List.nodup_cons.1 hn
      rw [List.foldl_cons]
      by_cases he : k = n
      · subst he
        have ho := State.drives_other c (fun s k => (s.pair k).mask.testBit c) l k hn.1 (if (s.pair k).mask.testBit c = true then s.drivePair c k else s)
        rw [ho.1, ho.2, if_pos hb]
        exact ⟨(s.drivePair_same c k).1, (s.drivePair_same c k).2.2⟩
      · have hm' : k ∈ l := by simpa [he] using hm
        have hstep : (if (s.pair n).mask.testBit c = true then s.drivePair c n else s).pair k = s.pair k ∧
            (if (s.pair n).mask.testBit c = true then s.drivePair c n else s).rd (Reg.safeCause k) = s.rd (Reg.safeCause k) := by
          split
          · exact s.drivePair_other c he
          · exact ⟨rfl, rfl⟩
        have hi := ih (if (s.pair n).mask.testBit c = true then s.drivePair c n else s) hn.2 hm' (by rw [hstep.1]; exact hb)
        rw [hstep.2] at hi
        exact hi
  unfold State.cause
  exact this _ s (by decide) (by simp; omega) h

/-! Gates. -/

theorem Reg.gateState_ne {g n : Nat} (h : n ≠ g) : Reg.gateState n ≠ Reg.gateState g := by unfold Reg.gateState; omega

/-- A Gate that breaks is free and marked; its flag and every other register stay. -/
theorem State.breakGate_does (s : State) (g : Nat) :
    (∀ off, off ≠ Reg.gateState g → (s.breakGate g).rd off = s.rd off) ∧
    (s.breakGate g).rf (Reg.gateState g) F.gateState_LOCKED = 0 ∧ (s.breakGate g).rf (Reg.gateState g) F.gateState_BROKEN = 1 ∧
    (s.breakGate g).rf (Reg.gateState g) F.gateState_FLAG = s.rf (Reg.gateState g) F.gateState_FLAG := by
  unfold State.breakGate State.setOwner
  refine ⟨fun off h => ?_, ?_, ?_, ?_⟩
  · simp [State.rd_wf_ne _ _ _ h]
  · simp only [State.raiseDev_rf]
    rw [State.rf_wf_apart _ _ _ _ _ (by decide) (by decide), State.rf_wf_same _ _ _ _ (by decide) (by decide)]; rfl
  · simp only [State.raiseDev_rf]
    rw [State.rf_wf_same _ _ _ _ (by decide) (by decide)]; rfl
  · simp only [State.raiseDev_rf]
    rw [State.rf_wf_apart _ _ _ _ _ (by decide) (by decide), State.rf_wf_apart _ _ _ _ _ (by decide) (by decide), State.rf_wf_apart _ _ _ _ _ (by decide) (by decide)]

theorem State.breakGate_reports (s : State) (g : Nat) : OnlyReports s (s.breakGate g) := by
  unfold State.breakGate State.setOwner
  exact ((OnlyRegs.wf _ _ _ _).trans ((OnlyRegs.wf _ _ _ _).trans (OnlyRegs.wf _ _ _ _))).reports.trans (.raiseDev ..)

theorem State.breakGates_reports (s : State) (o : Nat) : OnlyReports s (s.breakGates o) := by
  unfold State.breakGates
  exact OnlyReports.foldl _ (fun s k => .ite _ (s.breakGate_reports k) (.refl s)) _ _

/-- The Gates of a list that an owner holds break, and no other. -/
theorem State.breakGates_list (o : Nat) (l : List Nat) (s : State) (hl : l.Nodup) (n : Nat) :
    let t := l.foldl (fun s g => if s.rf (Reg.gateState g) F.gateState_LOCKED = 1 ∧ s.gateOwner g = o then s.breakGate g else s) s
    (n ∈ l ∧ s.rf (Reg.gateState n) F.gateState_LOCKED = 1 ∧ s.gateOwner n = o →
      t.rf (Reg.gateState n) F.gateState_LOCKED = 0 ∧ t.rf (Reg.gateState n) F.gateState_BROKEN = 1 ∧
      t.gateFlag n = s.gateFlag n) ∧
    (¬ (n ∈ l ∧ s.rf (Reg.gateState n) F.gateState_LOCKED = 1 ∧ s.gateOwner n = o) →
      t.rd (Reg.gateState n) = s.rd (Reg.gateState n)) := by
  induction l generalizing s with
  | nil => simp
  | cons g l ih =>
    dsimp only
    rw [List.foldl_cons]
    have hn' := List.nodup_cons.1 hl
    generalize hs1 : (if s.rf (Reg.gateState g) F.gateState_LOCKED = 1 ∧ s.gateOwner g = o then s.breakGate g else s) = s1
    have ih := ih s1 hn'.2
    dsimp only at ih
    generalize (List.foldl _ s1 l) = t at ih ⊢
    obtain ⟨b1, b2, b3, b4⟩ := s.breakGate_does g
    have same : n ≠ g → s1.rd (Reg.gateState n) = s.rd (Reg.gateState n) := by
      intro h; rw [← hs1]; split
      · exact b1 _ (Reg.gateState_ne h)
      · rfl
    by_cases hng : n = g
    · subst hng
      have hnl := hn'.1
      have keep := ih.2 (fun h => hnl h.1)
      constructor
      · rintro ⟨_, h⟩
        have hs : s1 = s.breakGate n := by rw [← hs1, if_pos h]
        unfold State.gateFlag
        unfold State.rf at b2 b3 b4 ⊢
        rw [keep, hs]
        exact ⟨b2, b3, by rw [b4]⟩
      · intro h
        have : s1 = s := by rw [← hs1, if_neg (fun x => h ⟨List.mem_cons_self .., x⟩)]
        rw [keep, this]
    · have hsame := same hng
      have e1 : s1.rf (Reg.gateState n) F.gateState_LOCKED = s.rf (Reg.gateState n) F.gateState_LOCKED := by simp [State.rf, hsame]
      have e2 : s1.gateOwner n = s.gateOwner n := by simp [State.gateOwner, State.rf, hsame]
      have e3 : s1.gateFlag n = s.gateFlag n := by simp [State.gateFlag, State.rf, hsame]
      rw [e1, e2, e3, hsame] at ih
      simpa [hng] using ih

/-- The Gates of an owner break, and no other. -/
theorem State.breakGates_does (s : State) (o n : Nat) (hn : n < 64) :
    (s.rf (Reg.gateState n) F.gateState_LOCKED = 1 ∧ s.gateOwner n = o →
      (s.breakGates o).rf (Reg.gateState n) F.gateState_LOCKED = 0 ∧ (s.breakGates o).rf (Reg.gateState n) F.gateState_BROKEN = 1 ∧
      (s.breakGates o).gateFlag n = s.gateFlag n) ∧
    (¬ (s.rf (Reg.gateState n) F.gateState_LOCKED = 1 ∧ s.gateOwner n = o) →
      (s.breakGates o).rd (Reg.gateState n) = s.rd (Reg.gateState n)) := by
  have h := State.breakGates_list o (List.range 64) s List.nodup_range n
  unfold State.breakGates
  exact ⟨fun x => h.1 ⟨List.mem_range.2 hn, x⟩, fun x => h.2 fun y => x y.2⟩

/-! Settling: what grants and ready contexts change. -/

/-- A change of the Weir, of the contexts' virtual times and of the states of the Cistern's pages alone. -/
def OnlyWeir (s t : State) : Prop := ∃ w c p q, t = { s with weir := w, ctxs := c, pages := p, freeSeq := q }

theorem OnlyWeir.refl (s : State) : OnlyWeir s s := ⟨_, _, _, _, rfl⟩
theorem OnlyWeir.trans {s t u : State} : OnlyWeir s t → OnlyWeir t u → OnlyWeir s u := by
  rintro ⟨a, b, p, q, rfl⟩ ⟨a', b', p', q', rfl⟩; exact ⟨a', b', p', q', rfl⟩
theorem OnlyWeir.ite {s t u : State} (c : Prop) [Decidable c] (ht : OnlyWeir s t) (hu : OnlyWeir s u) :
    OnlyWeir s (if c then t else u) := by split <;> assumption
theorem OnlyWeir.foldl {α : Type} (f : State → α → State) (h : ∀ s x, OnlyWeir s (f s x)) :
    ∀ (l : List α) (s : State), OnlyWeir s (l.foldl f s)
  | [], s => .refl s
  | x :: l, s => (h s x).trans (OnlyWeir.foldl f h l (f s x))
theorem OnlyWeir.sameMem {s t : State} : OnlyWeir s t → sameMem s t := by rintro ⟨w, c, p, q, rfl⟩ a; exact ⟨rfl, rfl, rfl, rfl⟩
theorem OnlyWeir.rd {s t : State} (h : OnlyWeir s t) (off : Nat) : t.rd off = s.rd off := by obtain ⟨w, c, p, q, rfl⟩ := h; rfl
theorem OnlyWeir.modJob (s : State) (i : Nat) (g : Job → Job) : OnlyWeir s (s.modJob i g) := ⟨_, _, _, _, rfl⟩
theorem OnlyWeir.weir (s : State) (w : WeirS) : OnlyWeir s { s with weir := w } := ⟨_, _, _, _, rfl⟩
theorem OnlyWeir.setCtx (s : State) (k : Nat) (c : Ctx) : OnlyWeir s (s.setCtx k c) := ⟨_, _, _, _, rfl⟩
theorem OnlyWeir.setPage (s : State) (n : Nat) (p : Page) : OnlyWeir s (s.setPage n p) := ⟨_, _, _, _, rfl⟩
theorem OnlyWeir.freePage (s : State) (n : Nat) : OnlyWeir s (s.freePage n) := ⟨_, _, _, _, rfl⟩

theorem State.grantStep_weir (r : List Job × State) (j : Job) : OnlyWeir r.2 (State.grantStep r j).2 := by
  unfold State.grantStep
  obtain ⟨b, s⟩ := r
  dsimp only
  split
  · exact .refl s
  · exact .ite _ (.modJob ..) (.refl s)

theorem State.grantAll_weir (s : State) : OnlyWeir s s.grantAll := by
  have : ∀ (l : List Job) (r : List Job × State), OnlyWeir r.2 (l.foldl State.grantStep r).2 := by
    intro l
    induction l with
    | nil => intro r; exact .refl r.2
    | cons j l ih => intro r; rw [List.foldl_cons]; exact (State.grantStep_weir r j).trans (ih _)
  unfold State.grantAll
  exact this _ ([], s)

theorem State.raiseVt_weir (s : State) (e k : Nat) (l : List Nat) : OnlyWeir s (s.raiseVt e k l) := by
  unfold State.raiseVt
  split
  · exact .refl s
  · exact .ite _ (.setCtx ..) (.refl s)

theorem State.noteEngine_weir (s : State) (e : Nat) : OnlyWeir s (s.noteEngine e) := by
  unfold State.noteEngine
  dsimp only
  exact (OnlyWeir.foldl _ (fun s k => State.raiseVt_weir s e k _) _ s).trans (.weir ..)

/-- Trimming the best-effort pages changes the states of the Cistern's pages alone. -/
theorem State.trimBe_weir (n : Nat) (s : State) : OnlyWeir s (State.trimBe n s) := by
  induction n generalizing s with
  | zero => exact .refl s
  | succ n ih =>
    unfold State.trimBe
    refine .ite _ (.refl s) ?_
    split
    · refine .trans ?_ (ih _)
      unfold State.evict
      exact .ite _ (.setPage ..) (.freePage ..)
    · exact .refl s

/-- Settling changes the Weir, the contexts' virtual times and the states of the Cistern's pages alone. -/
theorem State.settle_weir (s : State) : OnlyWeir s s.settle := by
  unfold State.settle State.noteReady
  exact ((State.grantAll_weir s).trans (State.trimBe_weir ..)).trans (OnlyWeir.foldl _ (fun s e => s.noteEngine_weir e) _ _)

/-! Firmware processors. -/

theorem Reg.fwpState_ne {p n : Nat} (h : p ≠ n) : Reg.fwpState p ≠ Reg.fwpState n := by unfold Reg.fwpState; omega

theorem State.fwState_setFw (s : State) (n st : Nat) : (s.setFw n st).fwState n = st % 2 ^ F.fwpState_STATE.width := by
  unfold State.setFw State.fwState; rw [State.rf_wf_same _ _ _ _ (by decide) (by decide)]
theorem State.fwState_setFw_ne (s : State) {n p : Nat} (st : Nat) (h : p ≠ n) : (s.setFw n st).fwState p = s.fwState p := by
  unfold State.setFw State.fwState; rw [State.rf_wf_ne _ _ _ _ (Reg.fwpState_ne h)]
theorem State.rd_setFw_ne (s : State) {n off : Nat} (st : Nat) (h : off ≠ Reg.fwpState n) : (s.setFw n st).rd off = s.rd off :=
  State.rd_wf_ne _ _ _ h

/-- A processor that a list of settings does not name keeps its state. -/
theorem State.fwState_setFw_others (st : Nat) (l : List Nat) (p : Nat) (h : p ∉ l) (s : State) :
    (l.foldl (fun s n => s.setFw n st) s).fwState p = s.fwState p := by
  induction l generalizing s with
  | nil => rfl
  | cons m l ih =>
    rw [List.foldl_cons, ih fun x => h (List.mem_cons_of_mem _ x)]
    exact State.fwState_setFw_ne _ _ fun x => h (x ▸ List.mem_cons_self)

/-- A processor that a list of settings names has the state set. -/
theorem State.fwState_setFw_all (st : Nat) (l : List Nat) (p : Nat) (h : p ∈ l) (s : State) :
    (l.foldl (fun s n => s.setFw n st) s).fwState p = st % 2 ^ F.fwpState_STATE.width := by
  induction l generalizing s with
  | nil => cases h
  | cons m l ih =>
    rw [List.foldl_cons]
    by_cases hp : p ∈ l
    · exact ih hp _
    · have hm : p = m := by simpa [hp] using h
      rw [State.fwState_setFw_others _ _ _ hp, hm, State.fwState_setFw]

/-! Resets. -/

theorem State.drawNonce_rd (s : State) (off : Nat) (h : ∀ i < 4, off ≠ Reg.bootDebugNonce i) : s.drawNonce.rd off = s.rd off :=
  rd_foldl _ off _ _ fun s i hi => by
    have : i < 4 := by simp at hi; omega
    show (((s.draw 24).2).wn (Reg.bootDebugNonce i) _).rd off = _
    rw [State.rd_wn_ne _ _ (h i this), State.draw_rd]

theorem State.drawNonce_frame (s : State) : ∃ l n, s.drawNonce = { s with live := l, freeCount := n } := by
  have : ∀ (k : List Nat) (s : State), ∃ l n,
      k.foldl (fun s i => let d := s.draw 24; d.2.wn (Reg.bootDebugNonce i) d.1) s = { s with live := l, freeCount := n } := by
    intro k
    induction k with
    | nil => intro s; exact ⟨_, _, rfl⟩
    | cons i k ih => intro s; obtain ⟨l, n, h⟩ := ih (let d := s.draw 24; d.2.wn (Reg.bootDebugNonce i) d.1); exact ⟨l, n, h⟩
  exact this _ s

theorem State.sampleModes_frame (s : State) (m : ModePins) : OnlyRegs s (s.sampleModes m) :=
  (((OnlyRegs.wf _ _ _ _).trans (OnlyRegs.wf _ _ _ _)).trans (OnlyRegs.wf _ _ _ _)).trans (OnlyRegs.wf _ _ _ _)

theorem State.keepFields_frame (s o : State) : OnlyRegs s (s.keepFields o) :=
  ((OnlyRegs.wf _ _ _ _).trans (OnlyRegs.wf _ _ _ _)).trans (OnlyRegs.foldl _ (fun _ _ => OnlyRegs.wf _ _ _ _) _ _)

/-- A reset other than POWER_ON leaves what it keeps, and registers. -/
theorem State.resetFor_frame (s : State) (c : Nat) (m : Option ModePins) :
    ∃ l n, s.resetFor c m = { s.survivors (c == Rc.standbyWake) with live := l, freeCount := n } := by
  obtain ⟨a, ha⟩ := ((s.survivors (c == Rc.standbyWake)).keepFields_frame s)
  cases m with
  | none =>
    obtain ⟨l, n, h⟩ := State.drawNonce_frame ((((s.survivors (c == Rc.standbyWake)).keepFields s).wr Reg.chipMode
      (s.rd Reg.chipMode)).wf Reg.bootCause F.bootCause_CAUSE c)
    obtain ⟨b, hb⟩ := (OnlyRegs.wr ((s.survivors (c == Rc.standbyWake)).keepFields s) Reg.chipMode (s.rd Reg.chipMode)).trans
      (OnlyRegs.wf _ Reg.bootCause F.bootCause_CAUSE c)
    refine ⟨l, n, ?_⟩
    show State.drawNonce _ = _
    rw [h, hb, ha]
  | some m =>
    obtain ⟨l, n, h⟩ := State.drawNonce_frame ((((s.survivors (c == Rc.standbyWake)).keepFields s).sampleModes m).wf
      Reg.bootCause F.bootCause_CAUSE c)
    obtain ⟨b, hb⟩ := (State.sampleModes_frame ((s.survivors (c == Rc.standbyWake)).keepFields s) m).trans
      (OnlyRegs.wf _ Reg.bootCause F.bootCause_CAUSE c)
    refine ⟨l, n, ?_⟩
    show State.drawNonce _ = _
    rw [h, hb, ha]

/-- Entering TAMPER_HOLD stops the fabric and the firmware. -/
theorem State.tamperHold_frame (s : State) :
    ∃ l, s.tamperHold = { s with live := l, boot := { s.boot with hold := true }, pcieUp := true } := by
  obtain ⟨a, ha⟩ := OnlyRegs.foldl (fun (s : State) n => s.setFw n Fw.down) (fun s n => OnlyRegs.wf _ _ _ _) [0, 1, 2, 3, 4] s
  unfold State.tamperHold
  rw [ha]
  exact ⟨_, rfl⟩

theorem State.tamperHold_bootStatus (s : State) : s.tamperHold.rf Reg.bootStatus F.bootStatus_STATE = 4 := by
  unfold State.tamperHold
  rw [State.rf_wf_same _ _ _ _ (by decide) (by decide)]; rfl

theorem State.rd_boot (s : State) (b : BootS) (off : Nat) : ({ s with boot := b, pcieUp := true } : State).rd off = s.rd off := rfl

theorem State.tamperHold_rd (s : State) (off : Nat) (h : ∀ p < 5, off ≠ Reg.fwpState p) (hb : off ≠ Reg.bootStatus) :
    s.tamperHold.rd off = s.rd off := by
  unfold State.tamperHold
  rw [State.rd_wf_ne _ _ _ hb, State.rd_boot]
  exact rd_foldl _ _ _ _ fun s n hn => State.rd_setFw_ne _ _ (h n (by simp at hn; omega))

theorem State.tamperHold_up (s : State) : s.tamperHold.up = false := by
  obtain ⟨l, h⟩ := s.tamperHold_frame
  rw [h]; exact Bool.and_false _

theorem State.tamperHold_fwUp (s : State) (p : Nat) (h : p < 5) : s.tamperHold.fwUp p = false := by
  have he : s.tamperHold.rd (Reg.fwpState p) = ([0, 1, 2, 3, 4].foldl (fun s n => s.setFw n Fw.down) s).rd (Reg.fwpState p) := by
    unfold State.tamperHold
    rw [State.rd_wf_ne _ _ _ (by unfold Reg.fwpState Reg.bootStatus; omega), State.rd_boot]
  have hf := State.fwState_setFw_all Fw.down [0, 1, 2, 3, 4] p (by simp; omega) s
  unfold State.fwUp
  unfold State.fwState State.rf at hf ⊢
  rw [he, hf]; rfl

end Sys2Proof.Machine
end

