-- ==== Sys2Proof/Laws/Access.lean ====
section
/-! SUPPORT. Sys2Proof/Laws/Access.lean: what an access to device-virtual memory can change beside the memory itself. -/
namespace Sys2Proof.Machine

/-- The registers that an access to DRAM may write: the records of errors, the injection point of the DRAM, and the causes. -/
def accessRegs : List Nat :=
  [Reg.detCount 2, Reg.detLast 2, Reg.intUeLo, Reg.intUeHi, Reg.intPmCount, Reg.ddrCeCount, Reg.ddrUeCount, Reg.ddrLinkCeCount,
   injBase 16 0 + 8, injBase 16 0 + 12] ++ (List.range 16).map Reg.intPmLo ++ (List.range 16).map Reg.intPmHi ++ safeRegs

/-- What an access to DRAM may change. -/
def DramAccess (s t : State) : Prop :=
  (∃ l e i p d c w m, t = { s with live := l, events := e, integ := i, pairs := p, ddr := d, freeCount := c,
                                   weir := { s.weir with cache := w }, dram := m }) ∧
  ∀ off, off ∉ accessRegs → t.rd off = s.rd off

theorem DramAccess.refl (s : State) : DramAccess s s := ⟨⟨_, _, _, _, _, _, _, _, rfl⟩, fun _ _ => rfl⟩
theorem DramAccess.trans {s t u : State} : DramAccess s t → DramAccess t u → DramAccess s u := by
  rintro ⟨⟨a, b, c, d, e, f, g, h, rfl⟩, h1⟩ ⟨⟨a', b', c', d', e', f', g', h', rfl⟩, h2⟩
  exact ⟨⟨a', b', c', d', e', f', g', h', rfl⟩, fun o ho => (h2 o ho).trans (h1 o ho)⟩
theorem DramAccess.ite {s t u : State} (c : Prop) [Decidable c] (ht : DramAccess s t) (hu : DramAccess s u) :
    DramAccess s (if c then t else u) := by split <;> assumption
theorem DramAccess.foldl {α : Type} (f : State → α → State) (h : ∀ s x, DramAccess s (f s x)) :
    ∀ (l : List α) (s : State), DramAccess s (l.foldl f s)
  | [], s => .refl s
  | x :: l, s => (h s x).trans (DramAccess.foldl f h l (f s x))
theorem DramAccess.pair {α β : Type} (f : β × State → α → β × State) (h : ∀ r x, DramAccess r.2 (f r x).2) (l : List α)
    (r : β × State) : DramAccess r.2 (l.foldl f r).2 := by
  induction l generalizing r with
  | nil => exact .refl r.2
  | cons x l ih => rw [List.foldl_cons]; exact (h r x).trans (ih _)

theorem DramAccess.of_reports {s t : State} (h : OnlyReports s t) (hr : ∀ off, off ∉ accessRegs → t.rd off = s.rd off) :
    DramAccess s t := by
  obtain ⟨l, e, i, p, rfl⟩ := h
  exact ⟨⟨l, e, i, p, _, _, _, _, rfl⟩, hr⟩

theorem DramAccess.wr {s : State} {o : Nat} (v : W32) (ho : o ∈ accessRegs) : DramAccess s (s.wr o v) :=
  .of_reports (OnlyRegs.wr ..).reports fun _ h => State.rd_wr_ne _ _ fun e => h (e ▸ ho)
theorem DramAccess.wf {s : State} {o : Nat} (f : Fld) (v : Nat) (ho : o ∈ accessRegs) : DramAccess s (s.wf o f v) := .wr _ ho
theorem DramAccess.wn {s : State} {o : Nat} (v : Nat) (ho : o ∈ accessRegs) : DramAccess s (s.wn o v) := .wr _ ho
theorem DramAccess.bumpSat {s : State} {o : Nat} (f : Fld) (ho : o ∈ accessRegs) : DramAccess s (s.bumpSat o f) := .wr _ ho

theorem DramAccess.occur (s : State) (o : Occ) (b : Bool) (h : o.det = 2) : DramAccess s (s.occur o b) :=
  .of_reports (s.occur_reports o b) fun off ho => State.occur_rd _ _ _ _
    (by rw [h]; intro e; subst e; exact ho (by decide)) (by rw [h]; intro e; subst e; exact ho (by decide))
theorem DramAccess.cause (s : State) (c : Nat) : DramAccess s (s.cause c) :=
  .of_reports (s.cause_reports c) fun off ho => State.cause_rd _ _ _ fun h => ho (by unfold accessRegs; simp [h])
theorem DramAccess.charge (s : State) (w : Who) (n : Nat) : DramAccess s (s.charge w n) :=
  ⟨⟨_, _, _, _, _, _, _, _, rfl⟩, fun _ _ => rfl⟩
theorem DramAccess.setMark (s : State) (k : Nat) (m : Mark) : DramAccess s (s.setMark k m) :=
  .of_reports (.integ ..) fun _ _ => rfl
theorem DramAccess.setInj (s : State) (b i : Nat) (j : Inj) : DramAccess s (s.setInj b i j) :=
  .of_reports (.integ ..) fun _ _ => rfl
theorem DramAccess.draw (s : State) (n : Nat) : DramAccess s (s.draw n).2 := ⟨⟨_, _, _, _, _, _, _, _, rfl⟩, fun _ _ => rfl⟩
theorem DramAccess.cache (s : State) (c : Table Nat) : DramAccess s { s with weir := { s.weir with cache := c } } :=
  ⟨⟨_, _, _, _, _, _, _, _, rfl⟩, fun _ _ => rfl⟩
theorem DramAccess.dram (s : State) (m : Mem) : DramAccess s { s with dram := m } := ⟨⟨_, _, _, _, _, _, _, _, rfl⟩, fun _ _ => rfl⟩

theorem State.logUe_access (s : State) (u a : Nat) : DramAccess s (s.logUe u a) := by
  unfold State.logUe; dsimp only
  exact .ite _ (.refl s) ((DramAccess.wn _ (by decide)).trans (.wn _ (by decide)))

theorem State.ceBump_dram (s : State) (i : Nat) : DramAccess s (s.ceBump 16 i) := DramAccess.bumpSat _ (by decide)

theorem State.ueNote_dram (s : State) (a : Nat) : DramAccess s (s.ueNote 16 a) := by
  unfold State.ueNote; dsimp only
  rw [if_pos (show 16 = Mc.dram from rfl)]
  exact (s.logUe_access _ _).trans (.bumpSat _ (by decide))

theorem State.logPoison_access (s : State) (u a : Nat) : DramAccess s (s.logPoison u a) := by
  have h : ∀ n, n % 16 < 16 := fun n => Nat.mod_lt _ (by decide)
  have h1 : ∀ n, Reg.intPmLo (n % 16) ∈ accessRegs := fun n => by
    unfold accessRegs; simp only [List.mem_append, List.mem_map]; exact .inl (.inl (.inr ⟨n % 16, List.mem_range.2 (h n), rfl⟩))
  have h2 : ∀ n, Reg.intPmHi (n % 16) ∈ accessRegs := fun n => by
    unfold accessRegs; simp only [List.mem_append, List.mem_map]; exact .inl (.inr ⟨n % 16, List.mem_range.2 (h n), rfl⟩)
  unfold State.logPoison; dsimp only
  exact (DramAccess.ite _ (.refl s) ((DramAccess.wn _ (h1 _)).trans (.wn _ (h2 _)))).trans (.wn _ (by decide))

theorem State.inject_dram (s : State) (site t : Nat) : DramAccess s (s.inject 16 0 site t).2 := by
  unfold State.inject; dsimp only
  split
  · exact .refl s
  · split
    · exact .setInj ..
    · exact ((DramAccess.setInj ..).trans (.wf _ _ (by decide))).trans (.ite _ (.wf _ _ (by decide)) (.refl _))

theorem State.readMark_dram (r : Bool × State) (e : Nat × Mark) : DramAccess r.2 (State.readMark 16 0 r e).2 := by
  unfold State.readMark; dsimp only
  split
  · exact .refl _
  · exact (DramAccess.occur _ _ _ rfl).trans (State.ceBump_dram _ 0)
  · exact (DramAccess.occur _ _ _ rfl).trans (State.ueNote_dram ..)
  · exact (DramAccess.occur _ _ _ rfl).trans (State.ueNote_dram ..)

theorem State.readEcc_dram (s : State) (lo n : Nat) : DramAccess s (s.readEcc 16 0 lo n).2 := by
  unfold State.readEcc
  split
  · exact .refl s
  · exact DramAccess.pair _ (fun r e => State.readMark_dram r e) _ (false, s)

theorem State.writeMark_dram (s : State) (lo n : Nat) (e : Nat × Mark) : DramAccess s (State.writeMark 16 0 lo n s e) := by
  unfold State.writeMark; dsimp only
  split
  · exact .setMark ..
  · split
    · exact .refl s
    · exact ((DramAccess.occur _ _ _ rfl).trans (State.ceBump_dram _ 0)).trans (.setMark ..)
    · exact ((DramAccess.occur _ _ _ rfl).trans (State.logPoison_access ..)).trans (.setMark ..)
    · exact ((DramAccess.occur _ _ _ rfl).trans (State.logPoison_access ..)).trans (.setMark ..)

theorem State.injectWord_dram (s : State) (a : Nat) : DramAccess s (State.injectWord 16 0 s a) := by
  unfold State.injectWord; dsimp only
  have h := s.inject_dram 1 (dramChannel a)
  show DramAccess s (match s.inject 16 0 1 (dramChannel a) with
    | (none, s) => s
    | (some err, s) => s.setMark (markKey 16 0 a) (if err = 1 then .single true else .double true))
  generalize s.inject 16 0 1 (dramChannel a) = r at h
  obtain ⟨_ | e, u⟩ := r
  · exact h
  · exact h.trans (.setMark ..)

theorem State.writeEcc_dram (s : State) (lo n : Nat) : DramAccess s (s.writeEcc 16 0 lo n) := by
  unfold State.writeEcc; dsimp only
  have h := DramAccess.foldl (State.writeMark 16 0 lo n) (fun s e => s.writeMark_dram lo n e) (s.marksIn 16 0 lo n) s
  split
  · exact .refl s
  · split
    · exact h.trans (DramAccess.foldl _ (fun s a => s.injectWord_dram a) _ _)
    · exact h

theorem State.linkRead_access (r : Bool × State) (off : Nat) : DramAccess r.2 (State.linkRead r off).2 := by
  unfold State.linkRead
  have h := r.2.inject_dram 2 (dramChannel off)
  generalize r.2.inject 16 0 2 (dramChannel off) = q at h
  obtain ⟨_ | e, u⟩ := q
  · exact h
  · dsimp only
    split
    · exact h.trans ((DramAccess.occur _ _ _ rfl).trans (.bumpSat _ (by decide)))
    · exact h.trans ((DramAccess.occur _ _ _ rfl).trans (State.ueNote_dram ..))

theorem State.dramCheck_access (s : State) (off n : Nat) : DramAccess s (s.dramCheck off n).2 := by
  unfold State.dramCheck
  have h := s.readEcc_dram off n
  generalize hr : s.readEcc Mc.dram 0 off n = r
  rw [show s.readEcc 16 0 off n = r from hr] at h
  dsimp only
  have h2 : DramAccess s (if r.2.rf (injBase 16 0 + 8) F.inj_ARM == 1 && r.2.rf (injBase 16 0 + 4) F.inj_SITE == 2 then
      ((List.range (linesOf off n)).map (fun i => (off / 64 + i) * 64)).foldl State.linkRead (r.1, r.2)
    else (r.1, r.2)).2 := by
    split
    · exact h.trans (DramAccess.pair _ State.linkRead_access _ (r.1, r.2))
    · exact h
  generalize (if r.2.rf (injBase 16 0 + 8) F.inj_ARM == 1 && r.2.rf (injBase 16 0 + 4) F.inj_SITE == 2 then
      ((List.range (linesOf off n)).map (fun i => (off / 64 + i) * 64)).foldl State.linkRead (r.1, r.2)
    else (r.1, r.2)) = q at h2 ⊢
  exact .ite _ (h2.trans (.cause ..)) h2

theorem State.dramRd_access (s : State) (w : Who) (pa n : Nat) : DramAccess s (s.dramRd w pa n).2.2 :=
  (DramAccess.charge s w (linesOf pa n)).trans (State.dramCheck_access _ _ n)

theorem State.dramWr_access (s : State) (w : Who) (pa : Nat) (b : List Byte) : DramAccess s (s.dramWr w pa b) := by
  unfold State.dramWr; dsimp only
  exact ((DramAccess.charge ..).trans (State.writeEcc_dram ..)).trans (.dram ..)

theorem State.xfill_access (s : State) (w : Who) (va : Nat) : DramAccess s (s.xfill w va) := by
  unfold State.xfill; dsimp only
  split
  · exact .refl s
  · split
    · exact .charge ..
    · split
      · exact (DramAccess.charge ..).trans (.cache ..)
      · exact (DramAccess.charge ..).trans ((DramAccess.draw _ 1).trans (.cache ..))

/-! Reads change no memory. -/

theorem OnlyReports.dram {s t : State} (h : OnlyReports s t) : t.dram = s.dram := by obtain ⟨_, _, _, _, rfl⟩ := h; rfl

theorem State.ceBump_reports (s : State) (c i : Nat) : OnlyReports s (s.ceBump c i) := by
  unfold State.ceBump
  split <;> first | exact (OnlyRegs.bumpSat ..).reports | exact .refl s

theorem State.logUe_reports (s : State) (u a : Nat) : OnlyReports s (s.logUe u a) := by
  unfold State.logUe; dsimp only
  exact .ite _ (.refl s) ((OnlyRegs.wn ..).trans (OnlyRegs.wn ..)).reports

theorem State.ueNote_reports (s : State) (c a : Nat) : OnlyReports s (s.ueNote c a) := by
  unfold State.ueNote; dsimp only
  have h := s.logUe_reports c (if c = Mc.dram then 0x1000000000 + a else if c = Mc.cistern then a else a / Mc.word c)
  generalize s.logUe c (if c = Mc.dram then 0x1000000000 + a else if c = Mc.cistern then a else a / Mc.word c) = u at h ⊢
  split
  · exact h.trans (OnlyRegs.bumpSat ..).reports
  · exact .ite _ (h.trans ((OnlyRegs.wf ..).trans (OnlyRegs.wf ..)).reports) h

theorem State.inject_reports (s : State) (b i x t : Nat) : OnlyReports s (s.inject b i x t).2 := by
  unfold State.inject; dsimp only
  split
  · exact .refl s
  · split
    · exact .integ ..
    · exact ((OnlyReports.integ ..).trans (OnlyRegs.wf ..).reports).trans (.ite _ (OnlyRegs.wf ..).reports (.refl _))

theorem State.readMark_reports (c i : Nat) (r : Bool × State) (e : Nat × Mark) : OnlyReports r.2 (State.readMark c i r e).2 := by
  unfold State.readMark; dsimp only
  split
  · exact .refl _
  · exact (State.occur_reports ..).trans (State.ceBump_reports ..)
  · exact (State.occur_reports ..).trans (State.ueNote_reports ..)
  · exact (State.occur_reports ..).trans (State.ueNote_reports ..)

/-- A read of a memory's words changes what a report changes. -/
theorem State.readEcc_reports (s : State) (c i lo n : Nat) : OnlyReports s (s.readEcc c i lo n).2 := by
  unfold State.readEcc
  split
  · exact .refl s
  · have : ∀ (l : List (Nat × Mark)) (r : Bool × State), OnlyReports r.2 (l.foldl (State.readMark c i) r).2 := by
      intro l
      induction l with
      | nil => intro r; exact .refl _
      | cons e l ih => intro r; rw [List.foldl_cons]; exact (State.readMark_reports c i r e).trans (ih _)
    exact this _ (false, s)

theorem State.linkRead_reports (r : Bool × State) (off : Nat) : OnlyReports r.2 (State.linkRead r off).2 := by
  unfold State.linkRead
  have h := r.2.inject_reports 16 0 2 (dramChannel off)
  generalize r.2.inject 16 0 2 (dramChannel off) = q at h
  obtain ⟨_ | e, u⟩ := q
  · exact h
  · dsimp only
    split
    · exact h.trans ((State.occur_reports u _ _).trans (OnlyRegs.bumpSat ..).reports)
    · exact h.trans ((State.occur_reports u ⟨2, Kind.uncorrectable, Mc.dram, dramChannel off, true⟩ false).trans
        (State.ueNote_reports _ Mc.dram off))

theorem State.dramCheck_reports (s : State) (off n : Nat) : OnlyReports s (s.dramCheck off n).2 := by
  unfold State.dramCheck
  have h := s.readEcc_reports Mc.dram 0 off n
  generalize s.readEcc Mc.dram 0 off n = r at h ⊢
  dsimp only
  have h2 : OnlyReports s (if r.2.rf (injBase 16 0 + 8) F.inj_ARM == 1 && r.2.rf (injBase 16 0 + 4) F.inj_SITE == 2 then
      ((List.range (linesOf off n)).map (fun i => (off / 64 + i) * 64)).foldl State.linkRead (r.1, r.2)
    else (r.1, r.2)).2 := by
    have : ∀ (l : List Nat) (q : Bool × State), OnlyReports q.2 (l.foldl State.linkRead q).2 := by
      intro l
      induction l with
      | nil => intro q; exact .refl _
      | cons e l ih => intro q; rw [List.foldl_cons]; exact (State.linkRead_reports q e).trans (ih _)
    split
    · exact h.trans (this _ (r.1, r.2))
    · exact h
  generalize (if r.2.rf (injBase 16 0 + 8) F.inj_ARM == 1 && r.2.rf (injBase 16 0 + 4) F.inj_SITE == 2 then
      ((List.range (linesOf off n)).map (fun i => (off / 64 + i) * 64)).foldl State.linkRead (r.1, r.2)
    else (r.1, r.2)) = q at h2 ⊢
  exact .ite _ (h2.trans (q.2.cause_reports 8)) h2

theorem State.dramRd_dram (s : State) (w : Who) (pa n : Nat) : (s.dramRd w pa n).2.2.dram = s.dram :=
  (State.dramCheck_reports (s.charge w (linesOf pa n)) (pa - dramBase) n).dram

theorem State.xfill_dram (s : State) (w : Who) (va : Nat) : (s.xfill w va).dram = s.dram := by
  unfold State.xfill; dsimp only
  split
  · rfl
  · split
    · rfl
    · split
      · rfl
      · rfl

/-- The walks of an access that faults change no more than an access may, and leave DRAM alone. -/
theorem State.xfaulted_walks (s : State) (w : Who) (wr : Bool) (va n : Nat) :
    DramAccess s (s.xfaulted w wr va n) ∧ (s.xfaulted w wr va n).dram = s.dram := by
  have : ∀ (l : List Nat) (r : Bool × State),
      let t := (l.foldl (fun (r : Bool × State) p =>
        if r.1 then r else ((r.2.xlateFor w wr (p * 0x10000)).1.isNone, (r.2.xlateFor w wr (p * 0x10000)).2)) r).2
      DramAccess r.2 t ∧ t.dram = r.2.dram := by
    intro l
    induction l with
    | nil => intro r; exact ⟨.refl _, rfl⟩
    | cons p l ih =>
      intro r
      dsimp only at ih ⊢
      rw [List.foldl_cons]
      split
      · exact ih r
      · have h := ih ((r.2.xlateFor w wr (p * 0x10000)).1.isNone, (r.2.xlateFor w wr (p * 0x10000)).2)
        exact ⟨(State.xfill_access ..).trans h.1, h.2.trans (State.xfill_dram ..)⟩
  exact this _ (false, s)

/-- A read of device-virtual memory leaves DRAM alone. -/
theorem State.vread_dram (s : State) (w : Who) (va n : Nat) : (s.vread w va n).2.dram = s.dram := by
  unfold State.vread; dsimp only
  split
  · exact (s.xfaulted_walks ..).2
  · have : ∀ (l : List (Nat × Nat)) (r : List Byte × Bool × State),
        (l.foldl (fun (r : List Byte × Bool × State) pc =>
          match (r.2.2.xfill w pc.1).xlate false pc.1 with
          | some pa => (r.1 ++ ((r.2.2.xfill w pc.1).dramRd w pa pc.2).1, r.2.1 || ((r.2.2.xfill w pc.1).dramRd w pa pc.2).2.1,
              ((r.2.2.xfill w pc.1).dramRd w pa pc.2).2.2)
          | none => (r.1, r.2.1, r.2.2.xfill w pc.1)) r).2.2.dram = r.2.2.dram := by
      intro l
      induction l with
      | nil => intro r; rfl
      | cons x l ih =>
        intro r
        rw [List.foldl_cons, ih]
        split
        · exact (State.dramRd_dram ..).trans (State.xfill_dram ..)
        · exact State.xfill_dram ..
    exact this _ ([], false, s)

/-- A read of device-virtual memory changes no more than an access may. -/
theorem State.vread_access (s : State) (w : Who) (va n : Nat) : DramAccess s (s.vread w va n).2 := by
  unfold State.vread; dsimp only
  split
  · exact (s.xfaulted_walks ..).1
  · have : ∀ (l : List (Nat × Nat)) (r : List Byte × Bool × State), DramAccess r.2.2
        (l.foldl (fun (r : List Byte × Bool × State) pc =>
          match (r.2.2.xfill w pc.1).xlate false pc.1 with
          | some pa => (r.1 ++ ((r.2.2.xfill w pc.1).dramRd w pa pc.2).1, r.2.1 || ((r.2.2.xfill w pc.1).dramRd w pa pc.2).2.1,
              ((r.2.2.xfill w pc.1).dramRd w pa pc.2).2.2)
          | none => (r.1, r.2.1, r.2.2.xfill w pc.1)) r).2.2 := by
      intro l
      induction l with
      | nil => intro r; exact .refl _
      | cons x l ih =>
        intro r
        rw [List.foldl_cons]
        refine DramAccess.trans ?_ (ih _)
        split
        · exact (State.xfill_access ..).trans (State.dramRd_access ..)
        · exact State.xfill_access ..
    exact this _ ([], false, s)

/-- A write of device-virtual memory changes no more than an access may. -/
theorem State.vwrite_access (s : State) (w : Who) (va : Nat) (b : List Byte) : DramAccess s (s.vwrite w va b).2 := by
  unfold State.vwrite; dsimp only
  split
  · exact (s.xfaulted_walks ..).1
  · refine DramAccess.pair (β := List Byte) _ (fun r pc => ?_) _ (b, s)
    split
    · exact (State.xfill_access ..).trans (State.dramWr_access ..)
    · exact State.xfill_access ..

end Sys2Proof.Machine
end

