-- ==== Sys2Proof/Machine/Windows.lean ====
section
/-! DEFINITION. Sys2Proof/Machine/Windows.lean: what the host reads through the PCIe function: the doorbell pages of BAR2
(spec/09 R480, R482, R483, R488, R500, R512, R517), the place in the Cistern that an offset of BAR4 maps (spec/17 R803), and
the identity of the function (spec/09 R520). No row of the table reads, so no command uses these (log entry 12). -/
namespace Sys2Proof.Machine

/-- DB_STATUS of a queue that is resident and enabled: LATCHED, CANCEL_IGNORED, TWIN_BAD, COALESCED and ENABLED. -/
def Queue.dbStatus (x : Queue) : W32 :=
  BitVec.ofNat 32 (65536 * x.doorbells.length + 8 * b2n x.cancelIgnored + 4 * b2n x.twinBad + 2 * b2n x.coalesced + 1)

/-- What an offset of the doorbell page of a queue reads: write-only registers read 0, and the registers from 0x100 up exist
in the page of queue 0 only. -/
def State.readDoorbell (s : State) (slot q x : Nat) : W32 :=
  let c := s.ctx slot
  if !s.pageOpen slot q then 0
  else if x = 0x004 then BitVec.ofNat 32 (s.queue slot q).head
  else if x = 0x00C then (s.queue slot q).dbStatus
  else if q ≠ 0 then 0
  else if x = 0x100 then BitVec.ofNat 32 c.cpl.read
  else if x = 0x104 then BitVec.ofNat 32 c.cpl.written
  else if x = 0x108 then BitVec.ofNat 32 c.evt.read
  else if x = 0x10C then BitVec.ofNat 32 c.evt.written
  else if x = 0x110 then BitVec.ofNat 32 c.evt.lost
  else 0

/-- The low or the high half of a virtual address. -/
def vaHalf (va x : Nat) : W32 := BitVec.ofNat 32 (if x / 4 % 2 = 0 then va else va / 2 ^ 32)

/-- What an offset of BAR2 page 0 reads in the LPL-3020 profile (R517). -/
def State.readLegacy (s : State) (x : Nat) : W32 :=
  if x = 0x004 then BitVec.ofNat 32 (s.queue 0 0).head
  else if x = 0x008 then BitVec.ofNat 32 (s.ctx 0).cpl.read
  else if x = 0x00C then BitVec.ofNat 32 (s.ctx 0).evt.read
  else if x / 8 = 2 then vaHalf (s.queue 0 0).ringVa x
  else if x / 8 = 3 then vaHalf (s.ctx 0).cplVa x
  else if x / 8 = 4 then vaHalf (s.ctx 0).evtVa x
  else 0

/-- What the 32-bit word at an aligned offset of BAR2 reads. -/
def State.readBar2 (s : State) (x : Nat) : W32 :=
  if x = 384 * 4096 + 4 then BitVec.ofNat 32 s.tok.head
  else if s.legacy then (if x < 4096 then s.readLegacy x else 0)
  else if x < 384 * 4096 then s.readDoorbell (x / 4096 / 8) (x / 4096 % 8) (x % 4096)
  else 0

/-- The byte of the Cistern that an offset of BAR4 maps: page n of the HOST_WINDOW pool at 64 KiB × n, for n below its
PAGE_COUNT. Any other offset completes with Unsupported Request. -/
def State.bar4Addr (s : State) (x : Nat) : Option Nat :=
  match s.pool Pool.hostWindow with
  | some (first, count) => if x / 65536 < count then some (65536 * first + x) else none
  | none => none

/-- The device ID, subsystem vendor ID and subsystem ID that the endpoint reports in the LPL-3020 profile, and the device ID
in native mode, whose subsystem IDs the spec does not give. -/
def State.pciIds (s : State) : Nat × Option (Nat × Nat) :=
  let l := s.sec Tag.legacy
  if !s.legacy then (0x7160, none)
  else if l.isEmpty then (0x3020, some (0, 0))
  else (u16 l 0, some (u16 l 2, u16 l 4))

/-- The vendor ID that the function reports in both modes: Gloastand's, which the spec does not give. -/
def State.pciVendor (_ : State) : Nat := Config.pciVendor

end Sys2Proof.Machine
end

