-- ==== Sys2Proof/Tests/Slice0.lean ====
section
/-! SUPPORT. Sys2Proof/Tests/Slice0.lean: small checks of the model: commands that no sender can send are refused by WellFormed, and,
for each statement of Certificates/Slice0/Obligations.lean, states and operands that meet its hypotheses, clause by clause, with the
part of the conclusion that is a closed comparison. Every expected value is computed by hand from the spec's rules. -/
namespace Sys2Proof.Tests
open Sys2Proof Sys2Proof.Machine
set_option Elab.async false

/-- A device that works: its root PLL is locked to REF_CLK and its start-up is over; the shared translation cache holds two
device-virtual pages, page 0 at DRAM's first page and page 1 at its second, readable and writable. -/
def on : State := { State.reset with
  clk := { locked := true, src := .refClk, refClk := { good := true } }
  boot := { starting := false }
  weir := { cache := [(0, 0x1000000003), (1, 0x1000010003)] } }

/-- The state a command leaves; the state itself where the command answers none. -/
def after (c : Instr) (s : State) : State :=
  match exec c s with
  | .next t => t
  | _ => s

/-- A firmware request that waits for its answer, with every firmware processor running. -/
def asked (code a0 : Nat) (a1 : Nat := 0) (a2 : Nat := 0) : State :=
  [0, 1, 2, 3, 4].foldl (fun s p => s.setFw p Fw.running) { on with fwp := { taken := [⟨code, 7, a0, a1, a2⟩] } }

/-- A word with some of its fields set. -/
def word (l : List (Fld × Nat)) : W32 := l.foldl (fun a p => a.setFld p.1 p.2) 0

/-- The payload of a CLOCKS section: FLOOR_OP, BOOT_OP, and strobe entries of GROUP, TRIGGER, COMPARATOR and BLOCK_MASK. -/
def clocks (floor boot : Nat) (l : List (Nat × Nat × Nat × Nat)) : List Byte :=
  leBytes (floor * 256 + boot * 65536) 4 ++ leBytes (l.length * 2 ^ 24) 4 ++
    l.flatMap fun e => leBytes (e.1 + e.2.1 * 256 + e.2.2.1 * 65536) 4 ++ leBytes e.2.2.2 4

/-- A best-effort job of slot 0 without a certificate. -/
def job0 : Job := { id := 1, slot := 0, queue := 0, ringCount := 5, ctxId := 3, cookie := 77, guar := false, fountain := 0, deadline := 0 }

/-! Commands that no sender can send (WellFormed). -/

theorem test_wf_queues : ([.sqTailWrite 384 0, .cancelWrite 384 0, .eventRingWrite (.ctx 48), .overflow (.ctx 48),
    .interruptSignal (.evt (.ctx 48)), .interruptSignal (.cpl 48), .cplReadWrite 48 0, .evtReadWrite 48 0,
    .gateAcquire 64 0, .gateAcquire 0 65536, .gateRelease 64 0, .gateRelease 0 65536, .gateFlag 64 true true,
    .xlateInvalidate 4096 0, .pin 4096 0, .unpin 4096 0, .parterreGo 4096 [] 0, .parterreGo 0 [25] 0, .parterreCheck [25],
    .parterreLock 4096 0, .strobeCfgWrite 4096 1 0, .strobeCfgWrite 0 0 0, .strobeCfgWrite 0 16 0] : List Instr).all
    (fun c => !c.wf) = true := by decide +kernel

theorem test_wf_jobs : ([.layerDispatch 4, .layerCommit 4, .tileCommit 4, .faultCharged 5 0 1 0 0 false, .faultCharged 0 16 1 0 0 false,
    .faultCharged 0 0 0 0 0 false, .faultCharged 0 0 18 0 0 false, .replayRestart 5, .budgetExhausted 4, .waitfTimeout 4,
    .beWaitfPreempt 4, .maintWindowEnd 65536, .pageFillStart 0 32, .pageFillDone 768, .pageWritebackDone 768, .bistStart 16 0,
    .bistDone 16 0 0 [] [] [] [] [], .bistDone 0 16 0 [] [] [] [] [], .bistDone 0 0 65536 [] [] [] [] [], .hostImemWrite 4 0,
    .imemWrite 4 0 0, .imemWrite 0 0x40000 0, .imemWrite 0 2 0, .segmentLoaded 4 0 0 0, .matrixStep 4, .preloadDrainBegin 4,
    .drainRow 16, .rillGroup 16 0, .rillGroup 0 6, .dropLanded 16 0, .dropLanded 0 6, .rillFinished 16 0, .rillFinished 0 6,
    .cisternScrub 786432, .busTimeout 28 0, .jetRowComplete 4, .jetRowTransfer 4] : List Instr).all (fun c => !c.wf) = true := by
  decide +kernel

/-- Every bound of a slot's fields (R198, R208, R211, R216, R224, R227 to R234, R237). -/
theorem test_wf_fields : ([.setc 8 0, .setc 0 65536, .incc 8 0, .incc 0 65536, .decc 8 0, .decc 0 65536, .loop 8 0, .loop 0 4096,
    .cmpset 4 0 0 false 0 0, .cmpset 0 8 0 false 0 0, .cmpset 0 0 8 false 0 0, .cmpset 0 0 0 false 8 0, .cmpset 0 0 0 false 0 65536,
    .pset 4 true, .jmp 4096, .vec 0 {}, .vec 64 {}, .vec 1 { g := 8 }, .vec 1 { ty := 8 }, .vec 1 { vd := 32 }, .vec 1 { va := 32 },
    .vec 1 { vb := 32 }, .vec 1 { vc := 32 }, .vec 1 { imm := 2 ^ 14 }, .mst { g := 8 }, .mst { mode := 8 }, .mst { fmt := 16 },
    .mst { amask := 16 }, .mst { acc := 4 }, .mst { pls := 8 }, .mst { ar := 4 }, .mst { wp := 4 }, .mst { steps := 1024 },
    .mst { batch := 16 }, .mst { arot := 4 }, .mpl { g := 8 }, .rstart { g := 8 }, .rstart { r := 4 }, .rstart { prog := 16 },
    .rstart { possh := 16 }, .rstart { base := 2 ^ 21 }, .rstart { lc := 8 }, .rstart { lcsh := 16 }, .rstop 8 0, .rstop 0 4,
    .sstart { g := 8 }, .sstart { r := 2 }, .sstart { prog := 16 }, .sstart { possh := 16 }, .sstart { base := 2 ^ 21 },
    .sstart { lc := 8 }, .sstart { lcsh := 16 }, .sstop 8 0, .sstop 0 2, .vld { g := 8 }, .vld { v := 32 }, .vld { addr := 2 ^ 13 },
    .vld { lc := 8 }, .vld { stride := 256 }, .vst { g := 8 }, .vst { v := 32 }, .wset 8 0 0 0 0, .wset 0 4 0 0 0,
    .wset 0 0 (2 ^ 14) 0 0, .wset 0 0 0 256 0, .wset 0 0 0 0 (2 ^ 14), .ppset 8 0, .ppset 0 (2 ^ 13), .dsel 8 0 0, .dsel 0 8 0,
    .dsel 0 0 2, .drn 8 0 0 0 0, .drn 0 16 0 0 0, .drn 0 0 8 0 0, .drn 0 0 0 8 0, .drn 0 0 0 0 2, .bar 8 true, .commit 8 true,
    .setf 8 0 true, .setf 0 64 true, .waitf 8 0 true, .waitf 0 64 true, .evt 8 0, .evt 0 (2 ^ 20), .crd 8 0 0 0, .crd 0 4 0 0,
    .crd 0 0 8 0, .crd 0 0 0 1024] : List SlotOp).all (fun o => !slotFits o) = true := by decide +kernel

/-- A slot is for one of the four Fountains and keeps its bounds. -/
theorem test_wf_slots : ([fun f _ => .nop f .sync true, fun f l => .setc f l 0 true, fun f l => .incc f l 0 true,
    fun f l => .decc f l 0 true, fun f l => .loop f l 0 true, fun f l => .cmpset f 0 l 0 false 0 0 true, fun f l => .pset f (l / 2) true true,
    fun f l => .jmp f (l * 512) true, fun f l => .mst f { g := l } true, fun f l => .mpl f { g := l } true,
    fun f l => .rstart f { g := l } true, fun f l => .rstop f l 0 true, fun f l => .vld f { g := l } true, fun f l => .wset f l 0 0 0 0 true,
    fun f l => .ppset f l 0 true, fun f l => .dsel f l 0 0 true, fun f l => .drn f l 0 0 0 0 true, fun f l => .vst f { g := l } true,
    fun f l => .sstart f { g := l } true, fun f l => .sstop f l 0 true, fun f l => .bar f l true true, fun f l => .setf f l 0 true true,
    fun f l => .waitf f l 0 true true, fun f l => .evt f l 0 true, fun f l => .crdTake f l 0 0 true, fun f l => .crdGive f l 0 0 true,
    fun f l => .crdInit f l 0 0 true, fun f l => .commitLayer f l true, fun f l => .commitTile f l true] : List (Nat → Nat → Instr)).all
    (fun c => (c 3 0).wf && !(c 4 0).wf && (!(c 0 8).wf || c 0 8 == .nop 0 .sync true)) = true := by decide +kernel

theorem test_wf_vector : ([.vadd, .vsub, .vand, .vor, .vxor, .vshl, .vshr, .vsra, .vmin, .vmax, .vcmpeq, .vcmplt, .vcmple, .vsel, .vmov,
    .vmul, .vcvt, .vrshr, .vperm, .vbcast, .vidx, .vfma, .vexp2, .vrecip, .vrsqrt, .vrsum, .vrmax, .vrmin] :
    List (Nat → VSlot → Bool → Instr)).all (fun c => (c 3 {} true).wf && !(c 4 {} true).wf && !(c 0 { g := 8 } true).wf) = true := by
  decide +kernel

theorem test_wf_time : ([.snapshotRequest 4096 0 0, .snapshotRequest 0 4 0, .snapshotCapture 4, .taiCancel 4096 0, .taiSet 4096 0,
    .taiAdd 4096 0, .taiRate 4096 0, .ptpStamp 6 true {} 0 0 0, .ptpStamp 0 true { transport := 3 } 0 0 0, .ptpStamp 0 true {} 16 0 0,
    .ptpStamp 0 true {} 0 256 0, .ptpStamp 0 true {} 0 0 65536, .ethTsqPop 4096 0 0, .ethTsqPop 0 6 0, .quadEdge 4 true true, .zCapture 4 true, .linePulse 5,
    .ssiFrameStart 3, .ssiFrameEnd 6 0 false false, .ssiStale 3, .overspeedClear 4096 0 0, .overspeedClear 0 9 0, .tcmpCtrlWrite 64 0,
    .pcmpCtrlWrite 64 0, .tcmpMatch 64, .pcmpMatch 64, .fsyncAssert 16, .fsyncDeassert 16] : List Instr).all (fun c => !c.wf) = true := by
  decide +kernel

theorem test_wf_streams : ([.csiFrameStart 16 0 0 0, .csiFrameStart 0 4 0 0, .csiFrameStart 0 0 65536 0, .csiFrameStart 0 0 0 3,
    .csiLine 16 0 false 0 0 true [], .csiLine 0 4 false 0 0 true [], .csiLine 0 0 false 64 0 true [], .csiLine 0 0 false 0 3 true [],
    .csiFrameEnd 16 0 0, .csiFrameEnd 0 4 0, .csiFrameEnd 0 0 3, .frameRecord 128, .csiRestart 4096 0 0 0, .csiRestart 0 16 0 0,
    .csiRestart 0 0 4 0, .csiVcRelWrite 4096 0 0, .csiVcRelWrite 0 128 0, .linkDown 16, .streamTimeout 64, .linkUp 16 true,
    .pipeMemoryFrame 4, .pipeInlineLine 4 false, .pipeTuneSelWrite 4096 0 0, .pipeTuneSelWrite 0 4 0, .camProbeCycle 16 [],
    .codecDecTailWrite 64 0, .accessUnitDecode 64 false false none [], .decodedPictureOutput 64, .codecDecRestart 4096 0 0,
    .codecDecRestart 0 64 0, .codecEncTailWrite 32 0, .pictureEncode 32 {} 0, .codecEncReadWrite 32 0] : List Instr).all
    (fun c => !c.wf) = true := by decide +kernel

theorem test_wf_system : ([.injUnlock 1 0 0, .injUnlock 8 16 0, .injModeWrite 4096 2 0 0, .injModeWrite 0 1 0 0, .clockMonFinding true 6 0 false,
    .clockMonFinding false 9 0 false, .domainResume true 6, .domainResume false 9, .fwWatchdogExpiry 5 true, .safeCauseClear 4096 0 0,
    .safeCauseClear 0 4 0, .pairReturnToRun 4, .safeSwStopWrite 4096 0, .powerOn { bootSrc := 4 } none, .pinReset { avsAddr := 4 } 0,
    .trialExpired { bootSrc := 4 } 0, .pcieReset { bootSrc := 4 }, .reset { avsAddr := 4 }, .fwProcessorRestart 5 0,
    .fwLogWrite 5 0 0 0 0 0, .fwLogWrite 0 4 0 0 0 0, .fwLogWrite 0 0 (2 ^ 32) 0 0 0, .fwLogWrite 0 0 0 (2 ^ 32) 0 0,
    .fwLogWrite 0 0 0 0 (2 ^ 32) 0, .fwLogWrite 0 0 0 0 0 (2 ^ 32), .powerOpReqWrite 4096 0, .floorLockWrite 4096 0, .thermalReading [],
    .pmxSwitchApply 25 true, .pmxSwitchDone 25, .registerWrite 4096 0 0, .registerWrite 0 0x4200000 0, .unassignedAccess 4096 0 4 true,
    .unassignedAccess 0 (2 ^ 40) 4 true, .unassignedAccess 0 0 3 true, .hostCoreReset 8, .safetyTwinMismatch (.pairCommand 4) true,
    .pcieAerError 3] : List Instr).all (fun c => !c.wf) = true := by decide +kernel

/-! Witnesses of the statements' hypotheses. -/

/-- The device in the LPL-3020 profile. -/
def legacy : State := on.wf Reg.chipMode F.chipMode_LEGACY_1CTX 1

/-- A context in slot 0 with rings in page 0, three event records, not yet signalled, and no completion record to consume. -/
def ctx0 : Ctx := { resident := true, ctxId := 3, evtVa := 0x1000, evtLog2 := 5, cplVa := 0x2000, cplLog2 := 4, guarMax := 2, beMax := 2,
                    evtVector := 1, evt := { written := 5, read := 2, unsig := 3, oldest := some 100 }, cpl := { written := 9, read := 9 },
                    queues := [(0, { log2 := 4, enable := true })] }

theorem wit_StepRunsTheFrontCommand :
    (match step { on with pending := [.safeKick 0x5A3CA5C3#32, .ping] } with
      | .next t => decide (t.pending = [.ping] ∧ t.integ.swKick = 0)
      | _ => false) = true := by decide +kernel

/-- A count at each end of what R827 accepts, and one past each end. -/
theorem wit_ConsumedCountsAreAccepted :
    let s := on.setCtx 0 ctx0
    let l := legacy.setCtx 0 ctx0
    let shut := on.setCtx 0 { ctx0 with queues := [] }
    (s.up = true ∧ s.legacy = false ∧ s.pageOpen 0 0 = true ∧ l.up = true ∧ l.legacy = true ∧ l.pageOpen 0 0 = true ∧
      shut.pageOpen 0 0 = false) ∧
    ([2, 5, 6, 1].map fun v => ((after (.evtReadWrite 0 v) s).ctx 0).evt.read) = [2, 5, 2, 2] ∧
    ([9, 10].map fun v => ((after (.cplReadWrite 0 v) s).ctx 0).cpl.read) = [9, 9] ∧
    ([5, 6].map fun v => ((after (.leqReadWrite v) l).ctx 0).evt.read) = [5, 2] ∧
    ([0, 1].map fun v => ((after (.lcqReadWrite v) l).ctx 0).cpl.read) = [9, 9] ∧
    ([4, 5].map fun v => (after (.weirDevringReadWrite v) { s with devRing := { written := 4 } }).devRing.read) = [4, 0] ∧
    ([4, 5].map fun v => (after (.spoutHostReadWrite v) { s with spout := { written := 4 } }).spout.read) = [4, 0] ∧
    ([4, 5].map fun v => (after (.fwpRspReadWrite v) { s with fwp := { written := 4 } }).fwp.read) = [4, 0] := by decide +kernel

/-- An event of TYPE 4 of context 0's ring. -/
def event0 : Event := { ring := .ctx 0, gts := 100, source := 32, type := 4, detail := 9, ctxId := 3 }

/-- A ring with 512 ns gone since its event, one a nanosecond short of it, one with 16 free records, one with 17; a vector whose time has
come with MOD_US 0, by MOD_US and by a safety event, and one whose entry is masked; a final record that has waited for the event. -/
theorem wit_EventsReachTheirRingAndSignal :
    let s := { (on.setCtx 0 ctx0) with gts := 612, events := [event0] }
    let full := { (on.setCtx 0 { ctx0 with evt := { written := 18, read := 2 } }) with gts := 612, events := [event0] }
    let drops : State := { (on.setCtx 0 { ctx0 with evt := { written := 17, read := 2, unreported := 4 } }) with gts := 700 }
    let mod := ({ s with gts := 1100 } : State).setCtx 0 { ctx0 with modUs := 1 }
    let safe := ({ s with gts := 1 } : State).setCtx 0 { ctx0 with modUs := 1, evt := { written := 5, read := 2, unsig := 1, oldest := some 0, safetyNew := true } }
    let mask : State := { s with msixVecs := [(1, { masked := true })] }
    let last : CplRec := { status := 0x10, kind := 1, ringCount := 5, queue := 0, fountain := 0, cookie := 77, gts := 100 }
    let fin := { (on.setCtx 0 { ctx0 with finals := [last], cplHeld := 1 }) with gts := 612, events := [event0] }
    (s.up = true ∧ s.dramServes = true ∧ s.nextEvent (.ctx 0) = some event0 ∧ event0.gts + 512 ≤ s.gts ∧ s.behindOverflow event0 = false ∧
      (s.checkEvent event0).1 = true ∧ (s.checkEvent event0).2.room event0 = true ∧
      (((s.checkEvent event0).2.takeEvent event0).ringGeom (.ctx 0)) = some (0x1000, 5) ∧
      (((s.checkEvent event0).2.takeEvent event0).vwrite Who.walker (0x1000 + 32 * 5) (event0.bytes 6)).1 = true ∧
      ((after (.eventRingWrite (.ctx 0)) s).ctx 0).evt.written = 6 ∧ (after (.eventRingWrite (.ctx 0)) s).events = [] ∧
      Mem.rdBytes (after (.eventRingWrite (.ctx 0)) s).dram 0x10000010B0 8 = [0x20#8, 0, 4, 0, 9, 0, 0, 0] ∧
      ((after (.eventRingWrite (.ctx 0)) s).ctx 0).evt.unsig = 4 ∧
      ((after (.eventRingWrite (.ctx 0)) fin).ctx 0).finals = [] ∧ ((after (.eventRingWrite (.ctx 0)) fin).ctx 0).cpl.written = 10 ∧
      after (.eventRingWrite (.ctx 0)) { s with gts := 611 } = { s with gts := 611 }) ∧
    ((full.checkEvent event0).2.room event0 = false ∧ full.nextEvent (.ctx 0) = some event0 ∧ full.behindOverflow event0 = false ∧
      ((after (.eventRingWrite (.ctx 0)) full).ctx 0).evt.lost = 1) ∧
    (0 < (drops.ringSt (.ctx 0)).unreported ∧ 17 ≤ drops.ringFree (.ctx 0) ∧ drops.ringGeom (.ctx 0) = some (0x1000, 5) ∧
      (drops.vwrite Who.walker (0x1000 + 32 * 17) ((drops.overflowEvent (.ctx 0)).bytes 18)).1 = true ∧
      ((after (.overflow (.ctx 0)) drops).ringSt (.ctx 0)).unreported = 0 ∧
      Mem.rdN (after (.overflow (.ctx 0)) drops).dram 0x1000001234 4 = 4) ∧
    ((s.ringSel (.evt (.ctx 0))).2 = (0, 1) ∧ (s.ringSel (.evt (.ctx 0))).1.unsig = 3 ∧ s.msix = true ∧
      s.rf Reg.weirIrqRoute F.weirIrqRoute_MODE = 0 ∧ Table.get 0 (after (.interruptSignal (.evt (.ctx 0))) s).vectors 1 = 3 ∧
      (mod.ringSel (.evt (.ctx 0))).2.1 = 1 ∧ (mod.ringSel (.evt (.ctx 0))).1.read < (mod.ringSel (.evt (.ctx 0))).1.written ∧
      (mod.ringSel (.evt (.ctx 0))).1.oldest = some 100 ∧ 100 + 1000 * 1 ≤ mod.gts ∧
      Table.get 0 (after (.interruptSignal (.evt (.ctx 0))) mod).vectors 1 = 1 ∧
      Table.get 0 (after (.interruptSignal (.evt (.ctx 0))) safe).vectors 1 = 1 ∧
      after (.interruptSignal (.evt (.ctx 0))) { safe with gts := 0, ctxs := mod.ctxs } = { safe with gts := 0, ctxs := mod.ctxs } ∧
      (Table.get {} (after (.interruptSignal (.evt (.ctx 0))) mask).msixVecs 1).pending = true ∧
      (after (.interruptSignal (.evt (.ctx 0))) mask).vectors = []) := by decide +kernel

/-- Gates 0 and 63: free, held by its owner, and held by host core 7, whose reset breaks it. -/
theorem wit_GatesAreTakenAndGivenUp :
    let s := on.setOwner 63 0x3007
    let t := s.wf (Reg.gateState 63) F.gateState_BROKEN 1
    (s.up = true ∧ s.rf (Reg.gateState 0) F.gateState_LOCKED = 0 ∧ (after (.gateAcquire 0 0xFFFF) s).gateOwner 0 = 0xFFFF) ∧
    (t.rf (Reg.gateState 63) F.gateState_LOCKED = 1 ∧ t.gateOwner 63 = 0x3007 ∧ after (.gateAcquire 63 1) t = t ∧
      (after (.gateRelease 63 0x3007) t).rd (Reg.gateState 63) = 0 ∧ after (.gateRelease 63 0x3006) t = t) ∧
    (s.injArmed 2 0 4 63 = false ∧ s.flagLater 63 4 = false ∧ (after (.gateFlag 63 true true) s).gateFlag 63 = true) ∧
    ((after (.hostCoreReset 7) s).rf (Reg.gateState 63) F.gateState_BROKEN = 1 ∧ (after (.hostCoreReset 7) s).gateOwner 63 = 0 ∧
      (after (.hostCoreReset 6) s).rd (Reg.gateState 63) = s.rd (Reg.gateState 63)) := by decide +kernel

/-- A context in slot 47 whose queue 7 is enabled, with a ring of 16 descriptors at page 0. -/
def queued : State := on.setCtx 47 { ctx0 with queues := [(7, { log2 := 4, enable := true, ringVa := 0 })] }

theorem wit_DoorbellsLatchTheirTail :
    let l := legacy.setCtx 0 { ctx0 with queues := [(0, { log2 := 4, enable := true })] }
    (queued.up = true ∧ queued.legacy = false ∧ queued.pageOpen 47 7 = true ∧ (16 + 65536 - (queued.queue 47 7).head) % 65536 = 16 ∧
      ((after (.sqTailWrite 383 0xFFEF0010) queued).queue 47 7).tail = 16 ∧
      (queued.queue 47 7).stopped = false ∧ queued.injArmed 2 0 3 (47 * 256 + 7) = false ∧ (queued.queue 47 7).twinOk = true ∧
      ((after (.sqTailWrite 383 0xFFEE0011) queued).queue 47 7).tail = 0 ∧
      ((after (.sqTailWrite 383 0xFFEE0011) queued).queue 47 7).twinBad = true) ∧
    (((after (.sqTailWrite 383 0xFFEF0011) queued).queue 47 7).twinBad = true) ∧
    (let bad := queued.setQueue 47 7 { queued.queue 47 7 with headC := 0 }
     let stop := queued.setQueue 47 7 { queued.queue 47 7 with stopped := true }
     (bad.queue 47 7).twinOk = false ∧ ((after (.sqTailWrite 383 0xFFEF0010) bad).queue 47 7).stopped = true ∧
      (stop.queue 47 7).stopped = true ∧ after (.sqTailWrite 383 0xFFEF0010) stop = stop ∧ on.pageOpen 47 7 = false) ∧
    (((after (.lsqTailWrite 0xFFEE0011) l).queue 0 0).tail = 0 ∧ ((after (.lsqTailWrite 0xFFEF0011) l).queue 0 0).twinBad = true ∧
      (l.queue 0 0).twinOk = true ∧ l.injArmed 2 0 3 0 = false) ∧
    (l.up = true ∧ l.legacy = true ∧ l.pageOpen 0 0 = true ∧ ((after (.lsqTailWrite 0xFFEF0010) l).queue 0 0).tail = 16) := by
  decide +kernel

theorem wit_DescriptorsEnterTheIntake :
    let s := (queued.setQueue 47 7 (((queued.queue 47 7).setTail 1).latch 1)).setFw 3 Fw.running
    let r := s.vread Who.fwp3 ((s.queue 47 7).nextVa) 128
    (s.queue 47 7).twinOk = true ∧ s.dramServes = true ∧ ((after .descriptorTaken s).queue 47 7).headC = 65534 ∧
      ({ s with weir := { s.weir with maintStart := some 0 } } : State).dramServes = false ∧ on.nextQueue = none ∧
    s.up = true ∧ s.fwUp 3 = true ∧ s.weir.intake.length < 64 ∧ s.queuedCount < 65536 ∧ s.nextQueue = some 383 ∧
      s.injArmed 2 0 3 (47 * 256 + 7) = false ∧ r.1 = some (List.replicate 128 0, false) ∧
      ((after .descriptorTaken s).queue 47 7).head = 1 ∧ (after .descriptorTaken s).weir.intake.map Intake.ringCount = [0] := by
  decide +kernel

theorem wit_CancelsMarkOrEndTheirJob :
    let i : Intake := { slot := 47, queue := 7, ringCount := 5, gts := 0, desc := {}, handles := [] }
    let p : State := { queued with weir := { queued.weir with jobs := [{ job0 with slot := 47, queue := 7 }] } }
    let t : State := { queued with weir := { queued.weir with intake := [i] } }
    (p.pageOpen 47 7 = true ∧ p.pendingJobs.map Job.id = [1] ∧ (after (.cancelWrite 383 0xFFFA0005) p).pendingJobs.map Job.cancelAt = [some 0] ∧
      ((after (.cancelWrite 383 0xFFFA0005) p).weir.jobs.any fun j => j.cancelAt.isSome) = true ∧
      (after (.cancelWrite 383 0xFFFA0005) p).cycleEnd.pendingJobs = []) ∧
    (t.pendingJobs = [] ∧ (after (.cancelWrite 383 0xFFFA0005) t).weir.intake = [{ i with cancelled := true }]) ∧
    (((after (.cancelWrite 383 0xFFFB0004) t).queue 47 7).cancelIgnored = true) := by decide +kernel

/-- The device with strobe group 15 open to run-time claim. -/
def claimable : State := { on with sections := [(Tag.clocks, clocks 5 5 [(15, 3, 0, 0)])] }

/-- A claim of a comparator or of a strobe group for context 3. -/
def claimWord (op cls u : Nat) : W32 := word [(F.parterreClaimReq_OP, op), (F.parterreClaimReq_RES_CLASS, cls),
  (F.parterreClaimReq_RES_NUMBER, u), (F.parterreClaimReq_CLAIMANT, 0x1003)]

theorem wit_ClaimsAreGrantedAndReleased :
    (claimable.up = true ∧ claimable.rf Reg.parterreStatus F.parterreStatus_STATE = 0 ∧ claimUnit Cls.timeComp 63 = true ∧
      claimUnit Cls.strobeGroup 15 = true ∧ claimUnit Cls.timeComp 64 = false ∧ claimable.imageHolds Cls.timeComp 63 = false ∧
      claimable.imageHolds Cls.strobeGroup 15 = false ∧ claimable.strobeOf 15 ≠ none ∧ claimable.claimOf Cls.strobeGroup 15 = 0 ∧
      (after (.claim (claimWord 1 Cls.strobeGroup 15)) claimable).claimOf Cls.strobeGroup 15 = 0x1003 ∧
      (after (.claim (claimWord 1 Cls.timeComp 63)) claimable).claimOf Cls.timeComp 63 = 0x1003) ∧
    (let s := claimable.setClaim Cls.timeComp 63 0x1003
     s.claimOf Cls.timeComp 63 = 0x1003 ∧ (after (.release (claimWord 2 Cls.timeComp 63)) s).claimOf Cls.timeComp 63 = 0) := by
  decide +kernel

theorem wit_StrobeGroupsTakeTheirTrigger :
    let s := (claimable.setClaim Cls.strobeGroup 15 0x1003).setClaim Cls.timeComp 63 0x1003
    let v := fun t c => word [(F.parterreStrobeCfg_TRIGGER, t), (F.parterreStrobeCfg_COMPARATOR, c), (F.parterreStrobeCfg_CLAIMANT, 0x1003)]
    s.up = true ∧ s.strobeOf 15 = some (15, 3, 0, 0) ∧ s.claimOf Cls.strobeGroup 15 = 0x1003 ∧ s.claimOf Cls.timeComp 63 = 0x1003 ∧
      (after (.strobeCfgWrite 0 15 (v 1 63)) s).rf (Reg.parterreStrobeCfg 15) F.parterreStrobeCfg_COMPARATOR = 63 ∧
      s.claimOf Cls.timeComp 62 ≠ 0x1003 ∧ after (.strobeCfgWrite 0 15 (v 1 62)) s = s := by decide +kernel

/-- A page table of one page: the root at DRAM's first page, and device-virtual page 2 at DRAM's fourth; handle 1 is an object of that
page, PINNED. -/
def walked : State :=
  let s := ((((on.wn Reg.ddrUsable 16).wn Reg.weirPtRootHi 0x10).wn Reg.weirHandleBaseLo 0x40000).wn Reg.weirHandleBaseHi 0x10).wn
    Reg.weirHandleCount 2
  { s with dram := Mem.wrN (Mem.wrN (Mem.wrN (Mem.wrN (Mem.wrN (Mem.wrN [] 0x1000000000 8 0x1000010001) 0x1000010000 8 0x1000020001)
    0x1000020010 8 0x1000030003) 0x1000040010 8 0x20000) 0x1000040018 4 256) 0x100004001C 4 0x11 }

theorem wit_TranslationsAreInvalidatedAndUnpinned :
    let inv : State := { walked with weir := { walked.weir with invPending := some (0, 1) } }
    let unpin := word [(F.weirPin_OP, 2), (F.weirPin_HANDLE, 1)]
    let pin := word [(F.weirPin_OP, 1), (F.weirPin_HANDLE, 1)]
    let u := walked.writeReg 0 Reg.weirPin pin
    (walked.up = true ∧ walked.weir.invPending = none ∧ (after (.xlateInvalidate 0 1) walked).weir.invPending = some (0, 1)) ∧
    ((after .xlateInvalidateDone inv).weir.cache = [(1, 0x1000010003)]) ∧
    ((after (.unpin 0 unpin) { walked with weir := { walked.weir with locked := [(1, 5, 3), (2, 6, 3)] } }).weir.locked = [(2, 6, 3)]) ∧
    ((u.readHandle 1).ok = true ∧ (u.readHandle 1).pinned = true ∧ (u.readHandle 1).vpages = [2] ∧
      (u.charge Who.walker 3).walkAll [2] = some [(2, 0x1000030003)] ∧
      (after (.pin 0 pin) walked).weir.locked = [(1, 2, 0x1000030003)]) := by decide +kernel

theorem wit_ServiceRingTailsAreTaken :
    let s := ((on.wf Reg.cisTokRingLo F.cisTokRingLo_LOG2 4).wf Reg.fwpReqRingLo F.fwpReqRingLo_LOG2 4)
    s.up = true ∧ s.tokLog2 = 4 ∧ s.fwLog2 = 4 ∧ (after (.tokTailWrite 0xFFEF0010) s).tok.tail = 16 ∧
      (after (.tokTailWrite 0xFFEE0011) s).tok.tail = 0 ∧ (after (.fwpReqTailWrite 0xFFEF0010) s).fwp.req.tail = 16 := by
  decide +kernel

theorem wit_PowerRequestsAreServed :
    let fl := fun s : State => { s with sections := [(Tag.clocks, clocks 3 5 [])] }
    ((asked 0x40 15).serves 0x40 4 ⟨0x40, 7, 15, 0, 0⟩ ∧ (asked 0x40 45).serves 0x40 4 ⟨0x40, 7, 45, 0, 0⟩ ∧
      (after .powerSetCap (asked 0x40 15)).pwr.capSet = 15 ∧ (after .powerSetCap (asked 0x40 45)).pwr.capSet = 45) ∧
    ((asked 0x40 14).serves 0x40 4 ⟨0x40, 7, 14, 0, 0⟩ ∧ (after .powerSetCap (asked 0x40 14)).pwr.capSet = 45) ∧
    (let c := (asked 0x41 5).wf Reg.powerCtrl F.powerCtrl_FLOOR_LOCK 0
     c.serves 0x41 4 ⟨0x41, 7, 5, 0, 0⟩ ∧ c.fwPump.floorLock = false ∧ c.fwPump.pwr.op = 5 ∧
      (after .powerSetCeil c).pwr.ceiling = 5 ∧
      (let s : State := { c with pwr := { op := 4 } }
       s.serves 0x41 4 ⟨0x41, 7, 5, 0, 0⟩ ∧ s.fwPump.pwr.op < 5 ∧ (after .powerSetCeil s).pwr.pending = some 5)) ∧
    (let s := (fl (asked 0x41 4)).wf Reg.powerCtrl F.powerCtrl_FLOOR_LOCK 1
     s.serves 0x41 4 ⟨0x41, 7, 4, 0, 0⟩ ∧ s.fwPump.floorLock = true ∧ s.fwPump.clocksOn = true ∧ s.fwPump.floorOp = 3 ∧
      s.fwPump.floorOp ≤ s.fwPump.pwr.op ∧ (after .powerSetCeil s).pwr.ceiling = 3) ∧
    ((asked 0x42 0).serves 0x42 4 ⟨0x42, 7, 0, 0, 0⟩ ∧ (after .powerGet (asked 0x42 0)).fwp.taken = []) ∧
    ((asked 0x43 1).serves 0x43 4 ⟨0x43, 7, 1, 0, 0⟩ ∧ (after .powerSetFloorLock (asked 0x43 1)).floorLock = true) ∧
    ((asked 0x44 0).serves 0x44 4 ⟨0x44, 7, 0, 0, 0⟩ ∧ (after .ddrRetrain (asked 0x44 0)).weir.maintPending = true) := by
  unfold State.serves
  decide +kernel

theorem wit_FirmwareRequestsAreServed :
    let locked := (asked 0x53 0).wf Reg.bootStatus F.bootStatus_KEY_LOCKED 1
    ((asked 1 0).serves 1 3 ⟨1, 7, 0, 0, 0⟩ ∧ (after .ping (asked 1 0)).fwp.written = 1) ∧
    ((asked 2 4).serves 2 0 ⟨2, 7, 4, 0, 0⟩ ∧ (after .fwRestart (asked 2 4)).fwState 4 = Fw.restarting) ∧
    ((asked 0x50 65535).serves 0x50 0 ⟨0x50, 7, 65535, 0, 0⟩ ∧ (after .slotRequest (asked 0x50 65535)).fwp.taken = []) ∧
    ((asked 0x51 0x3200000 0 4096).serves 0x51 0 ⟨0x51, 7, 0x3200000, 0, 4096⟩ ∧
      (asked 0x51 0x3200000 0 4096).fwPump.flashDenied 0x3200000 4096 = false ∧
      (asked 0x51 0xFFFFF000 0 4096).fwPump.flashDenied 0xFFFFF000 4096 = false ∧
      ((asked 0x51 0x3200000 0 4096).fwPump.vread { tag := 0x600 } 0 4096).1.isSome = true) ∧
    ((asked 0x51 0 0 4096).serves 0x51 0 ⟨0x51, 7, 0, 0, 4096⟩ ∧ (asked 0x51 0 0 4096).fwPump.flashDenied 0 4096 = true) ∧
    ((asked 0x52 0).serves 0x52 0 ⟨0x52, 7, 0, 0, 0⟩ ∧ (asked 0x52 0).fwPump.keyLocked = false ∧
      ((asked 0x52 0).fwPump.vread { tag := 0x600 } 0x10 48).1 = some (List.replicate 48 0, false)) ∧
    ((asked 0x53 0).serves 0x53 0 ⟨0x53, 7, 0, 0, 0⟩ ∧ (asked 0x53 0).fwPump.keyLocked = false ∧
      ((asked 0x53 0).fwPump.vread { tag := 0x600 } 0 128).1 = some (List.replicate 128 0, false)) ∧
    (locked.serves 0x53 0 ⟨0x53, 7, 0, 0, 0⟩ ∧ locked.fwPump.keyLocked = true) ∧
    ((asked 0x54 0).serves 0x54 0 ⟨0x54, 7, 0, 0, 0⟩ ∧
      (after .debugRevoke ((asked 0x54 0).wf Reg.intStatus F.intStatus_DEBUG_GRANT 1)).rf Reg.intStatus F.intStatus_DEBUG_GRANT = 0) := by
  unfold State.serves
  decide +kernel

/-- A record of context 3 with one queue, at device-virtual 0x400. -/
def ctxRec : Mem := [(0, 4, 0x58544E43), (4, 2, 0x100), (6, 2, 3), (8, 2, 1), (0xA, 1, 1), (0xC, 2, 1), (0x10, 4, 1), (0x28, 8, 0x1000),
  (0x30, 1, 6), (0x31, 1, 6), (0x32, 2, 0xFFFF), (0x50, 1, 4), (0x51, 1, 1)].foldl (fun m e => Mem.wrN m (0x1000000400 + e.1) e.2.1 e.2.2) []

theorem wit_ContextRequestsAreServed :
    let l : State := { asked 0x10 0x400 with dram := ctxRec }
    let r := l.fwPump.vread Who.fwp3 0x400 1024
    let b := (r.1.getD ([], true)).1
    let k := (asked 0x11 47).setCtx 47 { ctx0 with recVa := 0x400 }
    let d := (asked 0x12 47).setCtx 47 { ctx0 with recVa := 0x400 }
    let busy : State := { d with weir := { d.weir with jobs := [{ job0 with slot := 47, ended := some 1 }],
                                                       intake := [{ slot := 47, queue := 0, ringCount := 0, gts := 0, desc := {}, handles := [] }] } }
    (l.fwPump.legacy = false ∧ l.serves 0x10 3 ⟨0x10, 7, 0x400, 0, 0⟩ ∧ r.1 = some (b, false) ∧ ctxRecOk b = true ∧
      u64 b 0x18 = r.2.ptRoot ∧ (r.2.ctxs.any fun e => e.2.resident && e.2.ctxId == u16 b 6) = false ∧ r.2.freeSlot = some 0 ∧
      (after .ctxLoad l).ctx 0 = Ctx.parse 0x400 b) ∧
    (k.serves 0x11 3 ⟨0x11, 7, 47, 0, 0⟩ ∧ (k.fwPump.ctx 47).resident = true ∧ k.fwPump.slotBusy 47 = false ∧ k.fwPump.ringWaits 47 = false ∧
      k.fwPump.mapped true (k.fwPump.ctx 47).recVa 1024 = true ∧ (after .ctxUnload k).ctx 47 = {}) ∧
    (d.serves 0x12 3 ⟨0x12, 7, 47, 0, 0⟩ ∧ (d.fwPump.ctx 47).resident = true ∧ ((d.fwPump.ctxClose 47).settle).slotBusy 47 = false ∧
      ((d.fwPump.ctxClose 47).settle).ringWaits 47 = false ∧ (after .ctxDestroy d).ctx 47 = {}) ∧
    (busy.serves 0x12 3 ⟨0x12, 7, 47, 0, 0⟩ ∧ (busy.fwPump.ctx 47).resident = true ∧
      ((busy.fwPump.ctxClose 47).settle).slotBusy 47 = true ∧ ((after .ctxDestroy busy).ctx 47).closing = true) ∧
    (let w : State := { d with events := [{ event0 with ring := .ctx 47 }] }
     w.serves 0x12 3 ⟨0x12, 7, 47, 0, 0⟩ ∧ ((w.fwPump.ctxClose 47).settle).slotBusy 47 = false ∧
      ((w.fwPump.ctxClose 47).settle).ringWaits 47 = true ∧ ((after .ctxDestroy w).ctx 47).closing = true) := by
  unfold State.serves
  decide +kernel

theorem wit_OperatingPointsAreRequestedAndServed :
    let s : State := { on with pwr := { pending := some 0 } }
    let slow : State := { on with pwr := { op := 0, pending := some 5 } }
    let held := ({ slow with sections := [(Tag.clocks, clocks 3 5 [])] } : State).wf Reg.powerCtrl F.powerCtrl_FLOOR_LOCK 1
    (on.up = true ∧ (word [(F.powerOpReq_OP, 5)]).fld F.powerOpReq_OP ≤ 5 ∧
      (after (.powerOpReqWrite 0x604 (word [(F.powerOpReq_OP, 5)])) on).pwr.pending = some 5 ∧
      after (.powerOpReqWrite 0x603 (word [(F.powerOpReq_OP, 5)])) on = on) ∧
    (s.pwr.frame = none ∧ s.seqFrozen = false ∧ s.hot = false ∧ s.floorRefuses 0 = false ∧ (after .opRequestServe s).pwr.op = 5 ∧
      (after .opRequestServe s).pwr.frame = some { op := 0 }) ∧
    (slow.floorRefuses 5 = false ∧ (after .opRequestServe slow).pwr.op = 5 ∧ slow.hot = false) ∧
    (held.floorRefuses 5 = true ∧ held.seqFrozen = false ∧ held.hot = false ∧ (after .opRequestServe held).pwr.op = 0 ∧
      (after .opRequestServe held).rf Reg.powerStatus F.powerStatus_FLOOR_HELD = 1) := by decide +kernel

theorem wit_TheRailFollowsTheSequencer :
    let s : State := { on with gts := 1280, pwr := { frame := some { op := 0 }, target := 0 } }
    let again : State := { on with gts := 1280, pwr := { frame := some { op := 0, retry := true }, target := 0 } }
    let v : State := { on with gts := 6000, pwr := { slewing := true, reached := 4, sampleAt := some 5000, target := 0 } }
    let late : State := { on with gts := 200000, pwr := { slewing := true, target := 0 } }
    (s.up = true ∧ (after (.avsFrameDone true) s).pwr.slewing = true ∧ (after (.avsFrameDone false) s).pwr.frame =
      some { op := 0, retry := true, start := 1280 } ∧ (after (.avsFrameDone false) again).seqFrozen = true) ∧
    (v.gts % 1000 = 0 ∧ v.pwr.frame = none ∧ v.seqFrozen = false ∧ opVolt v.pwr.target = 850 ∧
      (after (.voltageReached 840) v).pwr.op = 0 ∧ (after (.voltageReached 839) v).pwr.op = 5) ∧
    (late.pwr.cmdGts + 200000 ≤ late.gts ∧ late.pwr.frame = none ∧ late.seqFrozen = false ∧
      (after .avsTimeout late).pwr.frame = some { op := 5, start := 200000 }) := by decide +kernel

theorem wit_ThePowerCapIsKept :
    let c : State := { on with sections := [(Tag.clocks, clocks 3 5 [])] }
    let w := word [(F.powerCtrl_FLOOR_LOCK, 1)]
    let u := c.writeReg 0x604 Reg.powerCtrl w
    let e := on.setFw 4 Fw.running
    let hot : State := { e with pwr := { op := 4, est := [4501] } }
    let cool : State := { on with gts := 1000000000, pwr := { limited := true, capLimit := 44, belowSince := some 0 } }
    (c.up = true ∧ u.floorLock = true ∧ u.clocksOn = true ∧ u.floorOp < u.pwr.op ∧
      (after (.floorLockWrite 0x604 w) c).pwr.pending = some 3 ∧ (c.writeReg 0x604 Reg.powerCtrl 0).floorLock = false) ∧
    (e.fwUp 4 = true ∧ e.pwr.estAt = none ∧ (after (.powerEstimate 300) e).pwr.est = [300]) ∧
    (hot.fwUp 4 = true ∧ hot.pwr.checkAt = none ∧ 100 * hot.effectiveCap * hot.pwr.est.length < hot.pwr.est.sum ∧
      (after .powerCapCheck hot).pwr.pending = some 5) ∧
    (cool.pwr.limited = true ∧ (after .capLimitStep cool).pwr.capLimit = 45 ∧ (after .capLimitStep cool).pwr.limited = false) := by
  decide +kernel

theorem wit_ResetsRestartTheDevice :
    let trial : State := { on with gts := 5, boot := { starting := false, trialEnd := some 5 } }
    let sleep : State := { on with gts := 5, clk := { standby := true }, boot := { starting := false, wakeAt := 1005, trialEnd := some 6 } }
    let hit : State := { on with clk := { standby := true }, boot := { starting := false, tamperWake := true } }
    (on.clk.shutdown = false) ∧
    (trial.trialOver 0 = true ∧ sleep.trialOver 1 = true ∧ trial.clk.shutdown = false) ∧
    ((asked 0x55 0).up = true ∧ (asked 0x55 0).fwPump.fwUp 0 = true ∧ ∃ r ∈ (asked 0x55 0).fwPump.fwp.taken, r.code = 0x55) ∧
    (sleep.clk.standby = true ∧ sleep.boot.wakeAt ≠ 0 ∧ sleep.boot.wakeAt ≤ sleep.gts + (1 + 999) / 1000 * 1000 ∧
      (after (.standbyWake 1 false) sleep).gts = 1005) ∧
    (hit.clk.standby = true ∧ hit.boot.tamperWake = true ∧ (after (.tamperWake 0) hit).boot.hold = true) ∧
    (let s := on.wf Reg.chipMode F.chipMode_BOOT_SRC 2
     s.clk.shutdown = false ∧ s.clk.standby = false ∧ s.rf Reg.chipMode F.chipMode_BOOT_SRC = 2) := by decide +kernel

/-- A board with a byte of flash has a list of bytes without a repeated address. -/
theorem wit_PowerOnStartsFromNothing :
    let b : Board := { flash := [(4, 0x55), (0, 0x31)] }
    b.flash.Pairwise (fun p q => p.1 ≠ q.1) ∧ (after (.powerOn {} (some b)) on).boot.flash = [(0, 0x31#8), (4, 0x55#8)] ∧
      (after (.powerOn {} (some b)) on).clk = {} ∧ (after (.powerOn {} none) { on with gts := 9 }).gts = 0 := by decide +kernel

theorem wit_TheRootPllLocksAndTransfers :
    let j : State := { State.reset with clk := { refClk := { counts := [0, 10000] } } }
    let good : State := { State.reset with clk := { refClk := { good := true } } }
    let gated : State := { on with clk := { gated := true, refClk := { good := true } } }
    let rec_ : State := { on with clk := { locked := true, src := .recovered, recov := { good := true }, refClk := { good := true } } }
    let hold : State := { on with clk := { locked := true, src := .holdover, refClk := { good := true } } }
    let named := (({ on with gts := 10000000000, sections := [(Tag.clocks, [1, 0, 0, 0, 0, 0, 0, 0])] } : State).wf Reg.clkRefCfg F.clkRefCfg_REVERT 1)
    let want : State := { named with clk := { named.clk with recov := { good := true }, recovWanted := true } }
    (State.reset.clk.src = .judging ∧ (after (.refJudgeWindow false 200001) j).clk.refClk = {} ∧
      (after (.refJudgeWindow false (-200000)) State.reset).clk.refClk = { counts := [-200000] } ∧
      (after (.refJudgeWindow false 0) j).clk.refClk.good = true ∧ (after (.refJudgeWindow false (-1)) j).clk.refClk.good = false) ∧
    (good.clk.refClk.good = true ∧ good.clk.locked = false ∧ good.clk.gated = false ∧ State.reset.clk.refClk.good = false) ∧
    (gated.clk.gated = true ∧ gated.boot.starting = false ∧ gated.boot.hold = false ∧ (after (.rootRelock 7) gated).gts = 7000 ∧
      (after (.rootRelock 7) gated).rn Reg.clkGapLast = 7) ∧
    (rec_.up = true ∧ (after .recoveredRefLoss rec_).clk.src = .holdover) ∧
    (hold.up = true ∧ (after .refTransfer hold).clk.src = .refClk ∧ (after .refTransfer hold).clk.transfers = 1) ∧
    (want.up = true ∧ want.clk.src = .refClk ∧ want.refSrcCfg = 1 ∧ (after .refTransfer want).clk.src = .recovered) ∧
    (want.rf Reg.clkRefCfg F.clkRefCfg_REVERT = 1 ∧ want.clk.recov.since + 10000000000 ≤ want.gts ∧
      (after .refRevert want).clk.src = .recovered ∧ after .refRevert { want with gts := 9999999999 } = { want with gts := 9999999999 }) := by
  decide +kernel

theorem wit_TheBootGoesItsWay :
    let w := on.wf Reg.bootStatus F.bootStatus_STATE 6
    let r : State := { ((on.wf Reg.bootStatus F.bootStatus_STATE 1).setFw 4 Fw.running) with
      cores := (List.range 16).map fun c => (c, { tested := true }) }
    let kept : State := { r with boot := { r.boot with board := { train0 := some ⟨2, 7, 80⟩ } } }
    let t : State := { on with gts := 9, boot := { starting := false, trialEnd := some 10 } }
    (w.up = true ∧ w.rf Reg.bootStatus F.bootStatus_STATE = 6 ∧ w.sramCheck.1 = 1 ∧
      (after (.bootPcieGo 1) w).rf Reg.bootStatus F.bootStatus_FAIL = 1) ∧
    (r.readyDue = true ∧ r.fwp.taken = [] ∧ r.fwp.req.waiting = 0 ∧ (after (.bootReady {} true) r).ready = true ∧
      (after (.bootReady {} true) r).rf Reg.bootStatus F.bootStatus_COLD_TRAINED = 1 ∧
      (after (.bootReady { part := 7 } true) r).boot.board.train0 = some ⟨0, 7, 0⟩ ∧
      (after (.bootReady { part := 7 } true) kept).rf Reg.bootStatus F.bootStatus_COLD_TRAINED = 0 ∧
      (after (.bootReady { part := 8 } true) kept).boot.board.train1 = some ⟨3, 8, 0⟩ ∧
      (after (.bootReady {} false) r).rf Reg.bootStatus F.bootStatus_STATE = 3) ∧
    (r.storedTraining 7 = false ∧ kept.storedTraining 7 = true ∧ kept.storedTraining 8 = false) ∧
    (t.fwUp 0 = false ∧ t.gts < 10 ∧ (after (.bootConfirm 0x0C0FF3F0#32) t).boot.confirming = true ∧
      (after (.bootConfirm 1) t).rf Reg.intStatus F.intStatus_TWIN_WRITE = 1) := by decide +kernel

theorem wit_StandbyAndTheLinkGoDown :
    let s := (({ on with pcieUp := true } : State).setOwner 0 0x4000).setOwner 63 0x4001
    ((asked 0x56 9).serves 0x56 4 ⟨0x56, 7, 9, 0, 0⟩ ∧ (after .standby (asked 0x56 9)).clk.standby = true) ∧
    (s.up = true ∧ (after .pcieLinkDown { s with pcieUp := false }).gateOwner 0 = 0 ∧ s.rf (Reg.gateState 0) F.gateState_LOCKED = 1 ∧ s.gateOwner 0 = 0x4000 ∧
      (after .pcieLinkDown s).rf (Reg.gateState 0) F.gateState_BROKEN = 1 ∧ (after .pcieLinkDown s).gateOwner 63 = 0x4001) := by
  unfold State.serves
  decide +kernel

theorem wit_FirmwareProcessorsRestartAndLog :
    let one := on.setFw 4 Fw.running
    let two : State := { one.setFw 0 Fw.running with fwp := { waiting := [(4, 1), (3, 1)] } }
    let often : State := { one with fwp := { restarts := [(4, [0, 0, 0, 0])] } }
    let log := ((((on.wf Reg.fwpLogRingLo F.fwpLogRingLo_LOG2 6).wn Reg.ddrUsable 1).setFw 4 Fw.running).wf Reg.fwpTraceMask
      F.fwpTraceMask_LEVEL 0x300)
    (one.up = true ∧ one.fwUp 4 = true ∧ one.fwp.waiting = [] ∧ one.fwUp 0 = false ∧
      (after (.fwProcessorRestart 4 3) one).fwp.waiting = [(4, 3)]) ∧
    (two.up = true ∧ two.fwp.waiting = [(4, 1), (3, 1)] ∧ two.fwUp 0 = true ∧ 7 ∉ two.integ.stopped) ∧
    ((often.recentRestarts 4).length = 4 ∧ often.fwp.taken = [] ∧ (after (.fwProcessorRestart 4 1)
      { often.setFw 0 Fw.running with fwp := { often.fwp with waiting := [(4, 1)] } }).fwState 4 = Fw.failed) ∧
    (log.logReady = true ∧ log.fwp.early = [] ∧ log.fwUp 4 = true ∧ 3 ≤ bitsOf (log.rf Reg.fwpTraceMask F.fwpTraceMask_LEVEL) 9 8 ∧
      log.logVa = 0 ∧ (log.vwrite { tag := 0x604 } 0 (List.replicate 32 0)).1 = true ∧
      (after (.fwLogWrite 4 3 9 1 2 3) log).rn Reg.fwpLogCount = 1) := by
  and_intros <;> decide +kernel

/-- The device with pair 3 running and driven by every cause. -/
def running : State := { on with pairs := [(3, { applied := true, enable := true, mask := 0x1FFFFFF, run := true })] }

theorem wit_MaintenanceWindowsAreHeld :
    let p : State := { on with weir := { on.weir with maintPending := true } }
    let g : State := { p with weir := { p.weir with jobs := [{ job0 with guar := true, deadline := 1, granted := true, cert := { layerCount := 1, sumCyc := 1000000 } }] } }
    let w : State := { on with gts := 40000, weir := { on.weir with maintStart := some 0 } }
    let r := ({ on with gts := 5, pwr := { retrainAt := some 5 } } : State).setFw 4 Fw.running
    on.up = true ∧ (after .maintWindowRequest on).weir.maintPending = true ∧
    (p.weir.maintPending = true ∧ p.weir.maintStart = none ∧ (∀ j ∈ p.guarJobs, j.twinOk = true) ∧ p.maintFits = true ∧
      (after .maintWindowTest p).weir.maintStart = some 0) ∧
    ((∀ j ∈ g.guarJobs, j.twinOk = true) ∧ g.maintFits = false ∧ (after .maintWindowTest g).weir.maintStart = none) ∧
    (w.weir.maintStart = some 0 ∧ (after (.maintWindowEnd 0) w).weir.maintStart = none ∧
      (after (.maintWindowEnd 0) { w with gts := 39999 }).weir.maintStart = some 0 ∧
      (after (.maintWindowEnd 255) w).pwr.retrainAt = some 1040000) ∧
    (r.pwr.retrainAt = some 5 ∧ r.fwUp 4 = true ∧ (after .ddrEyeFailRetry r).weir.maintPending = true) := by decide +kernel

theorem wit_TheTemperatureIsWatched :
    let at_ := fun x => List.replicate 24 (x : Int)
    let s : State := { running with pwr := { sensors := at_ 500 } }
    s.up = true ∧ (at_ 460).length = 24 ∧ s.pwr.readAt = none ∧
    s.injArmed 0x17 0 5 (s.rf (injBase 0x17 0 + 4) F.inj_TARGET) = false ∧
    ((after (.thermalReading (at_ 100)) s).rf Reg.powerTemp F.powerTemp_JUNCTION = 100 ∧ (after (.thermalReading (at_ 100)) s).pwr.prev = at_ 500) ∧
    ((∃ x ∈ (at_ 460).zip s.pwr.sensors, 460 ≤ x.1 ∧ 460 ≤ x.2) ∧ s.pwr.trip = false ∧ (s.pair 3).mask.testBit 1 = true ∧
      (after (.thermalReading (at_ 460)) s).pwr.trip = true ∧ ((after (.thermalReading (at_ 460)) s).rd (Reg.safeCause 3)).getLsbD 1 = true) ∧
    ((∃ x ∈ (at_ 500).zip s.pwr.sensors, 500 ≤ x.1 ∧ 500 ≤ x.2) ∧ (after (.thermalReading (at_ 500)) s).clk.shutdown = true ∧
      ((after (.thermalReading (at_ 500)) s).pair 3).run = false) := by decide +kernel

theorem wit_WatchdogsExpire :
    let s := (({ running with gts := 1000 } : State).setFw 4 Fw.running).wn (Reg.detThresh 0xA) 1
    (s.up = true ∧ s.fwUp 4 = true ∧ 7 ∉ s.integ.stopped ∧ s.injArmed 0x17 0 6 4 = false ∧
      (after (.fwWatchdogExpiry 4 true) s).fwState 4 = Fw.restarting ∧ after (.fwWatchdogExpiry 4 false) s = s) ∧
    (0 < s.swPeriod ∧ s.injArmed 0x17 0 6 5 = false ∧ s.integ.swKick + 1000 * s.swPeriod ≤ s.gts ∧ (s.pair 3).mask.testBit 5 = true ∧
      (after .swWatchdogExpiry s).integ.swExpired = true ∧ ((after .swWatchdogExpiry s).pair 3).run = false ∧
      (after .swWatchdogExpiry { s with gts := 999 }).integ.swExpired = false ∧ (after (.safeKick 0x5A3CA5C3#32) s).integ.swKick = 1000 ∧
      (after (.safeKick 0) s).rf Reg.intStatus F.intStatus_TWIN_WRITE = 1) := by decide +kernel

theorem wit_PairsStopAndReturn :
    let s : State := running.wn (Reg.safeCause 3) 2
    let q : State := { on with gts := 10000000, pairs := [(3, { applied := true, enable := true })] }
    let stop := fun n => word [(F.safeSwStop_STOP, n), (F.safeSwStop_STOP_C, 15 - n)]
    (s.up = true ∧ (after (.safeCauseClear 0 3 2) s).rn (Reg.safeCause 3) = 0) ∧
    (q.gts % 1000000 = 0 ∧ q.qualified 3 = true ∧ q.rf Reg.bootStatus F.bootStatus_STATE ≠ 3 ∧
      ((after (.pairReturnToRun 3) q).pair 3).run = true ∧
      after (.pairReturnToRun 3) { q with gts := 10000001 } = { q with gts := 10000001 }) ∧
    ((stop 8).fld F.safeSwStop_STOP = 8 ∧ (stop 8).fld F.safeSwStop_STOP_C = 7 ∧ (8).testBit 3 = true ∧ (s.pair 3).mask.testBit 13 = true ∧
      ((after (.safeSwStopWrite 0 (stop 8)) s).pair 3).run = false ∧ (stop 15).fld F.safeSwStop_STOP_C = 0) ∧
    ((word []).fld F.safeSwStop_STOP_C + (word []).fld F.safeSwStop_STOP ≠ 15 ∧
      (after (.safeSwStopWrite 0 0) s).rf Reg.intStatus F.intStatus_TWIN_WRITE = 1) := by decide +kernel

theorem wit_TwinMismatchesAreActedOn :
    running.up = true ∧ running.rf (injBase 0x17 0 + 8) F.inj_ARM = 0 ∧ running.integ.safetyBad = false ∧ running.weir.clocksBad = false ∧
    ((after (.safetyTwinMismatch .safetySection true) running).integ.safetyBad = true ∧
      ((after (.safetyTwinMismatch .safetySection true) running).pair 3).run = false) ∧
    ((after (.safetyTwinMismatch .clocksSection true) running).seqFrozen = true) ∧
    (((after (.safetyTwinMismatch (.pairCommand 3) true) running).pair 3).run = false ∧
      ((after (.safetyTwinMismatch (.pairCommand 3) false) running).pair 3).run = true) := by decide +kernel

theorem wit_noInjection (n : Nat) : running.injArmed 0x17 0 0xC n = false := rfl

theorem wit_MonitorsActOnTheirRows :
    let p : State := { on with gts := 100000, integ := { protective := true } }
    let d : State := { on with gts := 100000, integ := { stopped := [15] } }
    (on.up = true ∧ on.detOn 7 = true ∧ on.detOn 8 = true) ∧
    ([1, 2, 4, 8].all fun n => !on.injArmed 0x17 0 3 n && !on.integ.clkOut.testBit n &&
      on.clockOff 10000 &&
      (after (.clockMonFinding false n 10000 false) on).clk.gated && !on.clockOff 0) = true ∧
    ([0, 1, 4].all fun n => !on.injArmed 0x17 0 4 n && !on.integ.railOut.testBit n &&
      on.railOff n 0 && (after (.clockMonFinding true n 0 false) on).integ.protective) = true ∧
    ([2, 3, 5].all fun n => !on.injArmed 0x17 0 4 n && !on.integ.railOut.testBit n &&
      on.railOff n 0 && (after (.clockMonFinding true n 0 false) on).integ.stopped.contains (16 + n)) = true ∧
    (on.railOff 0 559 = true ∧ on.railOff 0 560 = false ∧
      (let w := on.wr (Reg.detThresh 8) 0x500064
       w.railOff 0 549 = true ∧ w.railOff 0 550 = false)) ∧
    (p.yesInRange = true ∧ p.integ.yesOk + 100000 ≤ p.gts ∧ (after .protectiveStopEnd p).integ.protective = false ∧
      (after .protectiveStopEnd { p with gts := 99999 }).integ.protective = true) ∧
    (15 ∈ d.integ.stopped ∧ d.rowOut 15 = false ∧ Table.get 0 d.integ.cleared 15 + 100000 ≤ d.gts) ∧
    (let e : State := { d with integ := { stopped := [3] } }
     3 ∈ e.integ.stopped ∧ e.rowOut 3 = false ∧ (after (.domainResume false 3) e).integ.stopped = []) := by decide +kernel

theorem wit_InjectionPointsUnlockAndArm :
    let s := on.wf Reg.chipMode F.chipMode_TEST_EN 1
    let half := s.setInj 8 15 { stage := 1 }
    let full := s.setInj 8 15 { stage := 2, count := 3 }
    let arm := word [(F.inj_ARM, 1), (F.inj_N, 5)]
    (s.up = true ∧ injPoint 8 15 = true ∧ injPoint 0x17 0 = true ∧ s.injAllowed = true ∧ on.injAllowed = false) ∧
    ((s.inj 8 15).stage = 0 ∧ ((after (.injUnlock 8 15 0x5EED#32) s).inj 8 15).stage = 1) ∧
    ((half.inj 8 15).stage = 1 ∧ ((after (.injUnlock 8 15 0xFA11#32) half).inj 8 15).stage = 2 ∧
      ((after (.injUnlock 8 15 1) half).inj 8 15).stage = 0) ∧
    (let h := on.setInj 8 15 { stage := 1 }
     h.injAllowed = false ∧ (after (.injUnlock 8 15 0xFA11#32) h).rf Reg.intStatus F.intStatus_INJ_REFUSED = 1) ∧
    ((full.inj 8 15).stage = 2 ∧ ((after (.injModeWrite 0 8 15 arm) full).inj 8 15) = {} ∧
      (after (.injModeWrite 0 8 15 arm) full).rf (injBase 8 15 + 8) F.inj_N = 5) ∧
    ((after (.injModeWrite 0 8 15 arm) s).live = s.live) := by decide +kernel

theorem wit_ErrorsAreDetected :
    let bad : State := { running with integ := { parBad := [Reg.powerCtrl] } }
    let hit : State := { running with integ := { tamper := [(0, 1), (2, 1)] } }
    (running.up = true ∧ ∀ b < 28, ∀ i < 16, running.rf (injBase b i + 8) F.inj_ARM = 0) ∧
    (isConfig (Reg.powerCtrl) = true ∧ Reg.powerCtrl ∉ running.integ.parBad ∧ 9 ≤ Reg.powerCtrl / 0x100000 ∧ running.detOn 3 = true ∧
      (after (.parityScan [Reg.powerCtrl] []) running).integ.parBad = [Reg.powerCtrl]) ∧
    (Reg.powerCtrl ∈ bad.integ.parBad) ∧
    (Table.get 0 hit.integ.tamper 0 = 1 ∧ Table.get 0 hit.integ.tamper 2 = 1 ∧ hit.boot.starting = false ∧
      (after (.tamperSample false true) hit).rf Reg.bootStatus F.bootStatus_KEY_LOCKED = 1) ∧
    (running.integ.tamper = [] ∧ (after (.tamperSample true true) running).live = running.live) ∧
    ((after (.pcieAerError 2) running).rn (Reg.detLast 6) = 0x06201100 ∧ after (.pcieAerError 0) running = running) := by
  decide +kernel

theorem wit_SnapshotsTakeOneCycle :
    let s : State := { on with gts := 2 ^ 32 + 5, taiSec := 7, taiNs := 9, taiValid := true, snapPending := [3], phases := [(8, { pos := 2 ^ 32 + 6 })] }
    on.up = true ∧ (word [(F.clkSnapCtrl_REQ, 1)]).fld F.clkSnapCtrl_REQ = 1 ∧
      (after (.snapshotRequest 0 3 (word [(F.clkSnapCtrl_REQ, 1)])) on).snapPending = [3] ∧
    (3 ∈ s.snapPending ∧ (let t := after (.snapshotCapture 3) s
      t.rn (Reg.snapGtsHi 3) = 1 ∧ t.rn (Reg.snapGtsLo 3) = 5 ∧ t.rn (Reg.snapPosHi 3 8) = 1 ∧ t.snapPending = [] ∧
      t.rf (Reg.clkSnapCtrl 3) F.clkSnapCtrl_VALID = 1)) ∧ 3 ∉ on.snapPending := by decide +kernel

theorem wit_TaiIsSteered :
    let op := fun n => word [(F.taiWrCtrl_OP, n)]
    let s := fun o : TaiOp => ({ on with taiOp := some o, taiNs := 999999999, taiSec := 2 ^ 48 - 1 } : State)
    let set := fun ns => s { op := 1, sec := 3, ns := ns, adj := 0, onStrobe := false, ready := true }
    let rate := s { op := 3, sec := 0, ns := 0, adj := 4294967, onStrobe := false, ready := true }
    ([1, 2, 3].map fun n => (op n).fld F.taiWrCtrl_OP) = [1, 2, 3] ∧ (op 0).fld F.taiWrCtrl_OP = 0 ∧
    ((after (.taiSet 0 (op 1)) on).taiOp.map TaiOp.op = some 1 ∧ (after (.taiAdd 0 (op 2)) on).taiOp.map TaiOp.op = some 2 ∧
      (after (.taiRate 0 (op 3)) on).taiOp.map TaiOp.op = some 3 ∧ (after (.taiCancel 0 (op 0)) rate).taiOp = none) ∧
    ((set 999999999).up = true ∧ (after .taiOpApply (set 999999999)).taiNs = 999999999 ∧ (after .taiOpApply (set 999999999)).taiSec = 3 ∧
      (after .taiOpApply (set 1000000000)).taiValid = false ∧ (after .taiOpApply (set 1000000000)).rf Reg.taiWrCtrl F.taiWrCtrl_ERR = 1) ∧
    (let add := fun adj => ({ on with taiOp := some { op := 2, sec := 0, ns := 0, adj := adj, onStrobe := false, ready := true } } : State)
     (after .taiOpApply (add 2000000000)).taiSec = 2 ∧ (after .taiOpApply (add 2000000000)).taiNs = 1 ∧
      (after .taiOpApply (add (2 ^ 32 - 2))).rf Reg.taiWrCtrl F.taiWrCtrl_ERR = 1 ∧ (add 1).taiReady = true) ∧
    ((sext 32 4294967).natAbs ≤ 4294967 ∧ (after .taiOpApply rate).taiRate = 4294967 ∧ (after .taiOpApply rate).gts = 1) ∧
    (let r : State := { on with taiNs := 999999999, taiSec := 2 ^ 48 - 1 }
     r.rollsOver = true ∧ r.cycleEnd = r ∧ r.taiReady = false ∧ 1000000000 ≤ r.taiNs + ((r.taiFrac : Int) + 2 ^ 32 + r.taiRate).toNat / 2 ^ 32 ∧
      (after .taiRollover r).taiSec = 0 ∧ (after .taiRollover r).taiNs = 0) := by decide +kernel

theorem wit_EthernetStampsAreKept :
    let x : Stamp := { sec := 7, ns := 9, seqId := 65535, domain := 255, msgType := 3 }
    let s : State := { on with taiSec := 7, taiNs := 9 }
    let full := s.setPort 5 { queue := List.replicate 64 x }
    let pop := word [(F.ethTsqCtrl_POP, 1)]
    s.up = true ∧ ((after (.ptpStamp 5 false {} 3 255 65535) s).port 5).ingress = some x ∧
    ((after (.ptpStamp 5 true { oneStep := true, transport := 1 } 0 255 65535) s).port 5).originTs = some { x with msgType := 0 } ∧
    ((after (.ptpStamp 5 true { oneStep := true, transport := 1 } 0 255 65535) s).port 5).csumCleared = true ∧
    ((after (.ptpStamp 5 true { oneStep := true, transport := 2 } 0 255 65535) s).port 5).originTs = none ∧
    ((s.port 5).queue.length < 64 ∧ ((after (.ptpStamp 5 true {} 3 255 65535) s).port 5).queue = [x]) ∧
    (64 ≤ (full.port 5).queue.length ∧ ((after (.ptpStamp 5 true {} 0 0 0) full).port 5).queue.length = 64 ∧
      (after (.ptpStamp 5 true {} 0 0 0) full).rf (Reg.ethTsqCtrl 5) F.ethTsqCtrl_OVERFLOW = 1) ∧
    (pop.fld F.ethTsqCtrl_POP = 1 ∧ (full.port 5).queue = x :: List.replicate 63 x ∧
      ((after (.ethTsqPop 0 5 pop) full).port 5).queue.length = 63 ∧ (after (.ethTsqPop 0 5 pop) full).rn (Reg.ethTsqNs 5) = 9) ∧
    ((s.port 5).queue = [] ∧ (after (.ethTsqPop 0 5 pop) s).rf (Reg.ethTsqCtrl 5) F.ethTsqCtrl_VALID = 0) := by decide +kernel

theorem wit_ComparatorsArmAndMatch :
    let s : State := ((on.setClaim Cls.timeComp 63 0x1003).setClaim Cls.phaseComp 63 0x1003).wn (Reg.tcmpT0 63) 77
    let arm := word [(F.tcmpCtrl_ARM, 1), (F.tcmpCtrl_CLAIMANT, 0x1003)]
    let up := word [(F.pcmpCtrl_ARM, 1), (F.pcmpCtrl_DIR, 1), (F.pcmpCtrl_INPUT, 8), (F.pcmpCtrl_CLAIMANT, 0x1003)]
    let off := word [(F.pcmpCtrl_CLAIMANT, 0x1003)]
    let m := fun p => ({ on with gts := 100, tcmp := [(63, { armed := true, target := 100, period := p })] } : State)
    let q : State := { on with gts := 100, pcmp := [(63, { armed := true, dir := 1 })] }
    (s.up = true ∧ s.holds Cls.timeComp 63 0x1003 = true ∧ s.holds Cls.timeComp 63 0x1004 = false ∧
      ((after (.tcmpCtrlWrite 63 arm) s).tc 63).target = 77 ∧ ((after (.tcmpCtrlWrite 63 arm) on).tc 63).armed = false) ∧
    (s.holds Cls.phaseComp 63 0x1003 = true ∧ off.fld F.pcmpCtrl_ARM = 0 ∧ up.fld F.pcmpCtrl_INPUT ≤ 8 ∧
      0 ≤ sext 32 (s.rn (Reg.pcmpPitch 63)) ∧ ((after (.pcmpCtrlWrite 63 up) s).pc 63).armed = true ∧
      ((after (.pcmpCtrlWrite 63 off) s).pc 63).armed = false) ∧
    (((m 0).tc 63).armed = true ∧ (m 0).timeMet ((m 0).tc 63) = true ∧ ((m 0).tc 63).period = 0 ∧
      ((after (.tcmpMatch 63) (m 0)).tc 63).armed = false ∧ (after (.tcmpMatch 63) (m 0)).rn (Reg.tcmpMatchGts 63) = 100) ∧
    (0 < ((m 7).tc 63).period ∧ ((after (.tcmpMatch 63) (m 7)).tc 63).target = 107) ∧
    (((m 0).tc 63).early 100 = false ∧ (q.pc 63).early 100 = false ∧ (let e : Cmp := { armed := true, fresh := true, armedAt := 100, target := 100 }
      e.early 100 = true ∧ e.early 101 = false ∧
      (after (.tcmpMatch 63) { m 0 with tcmp := [(63, e)] }).rn (Reg.tcmpMatchGts 63) = 0)) ∧
    (let w : State := { on with gts := 100, pcmp := [(63, { armed := true, dir := 1, period := 5 })] }
     (w.pc 63).period ≠ 0 ∧ w.phaseMet (w.pc 63) = true ∧ ((after (.pcmpMatch 63) w).pc 63).armed = true ∧
      ((after (.pcmpMatch 63) w).pc 63).target = 5) ∧
    (on.up = true ∧ (on.tc 63).armed = false ∧ { m 0 with gts := 99 }.timeMet ((m 0).tc 63) = false) ∧
    ((q.pc 63).armed = true ∧ q.phaseMet (q.pc 63) = true ∧ (q.pc 63).period = 0 ∧
      (after (.pcmpMatch 63) q).rf (Reg.pcmpStatus 63) F.tcmpStatus_MATCHES = 1) ∧
    (on.pc 63).armed = false := by decide +kernel

theorem wit_FrameSyncPulsesHaveTheirWidth :
    let s := fun g => ({ on with gts := g, fsyncs := [(15, { matched := some 5 })] } : State)
    let a := fun g => ({ on with gts := g, fsyncs := [(15, { asserted := some 5 })] } : State).wf (Reg.fsyncCfg 15) F.fsyncCfg_WIDTH 1
    (s 15).up = true ∧ ((s 15).fsync 15).matched = some 5 ∧ ((after (.fsyncAssert 15) (s 20)).fsync 15).asserted = some 20 ∧
      ((after (.fsyncAssert 15) (s 10)).fsync 15).asserted = none ∧ ((after (.fsyncAssert 15) (s 15)).fsync 15).asserted = none ∧
    ((a 15).fsync 15).asserted = some 5 ∧ 5 + 10 * max 1 ((a 15).rf (Reg.fsyncCfg 15) F.fsyncCfg_WIDTH) ≤ 15 ∧
      ((after (.fsyncDeassert 15) (a 15)).fsync 15).asserted = none ∧ ((after (.fsyncDeassert 15) (a 14)).fsync 15).asserted = some 5 := by
  decide +kernel

/-- The device with its nine phase inputs enabled and on their balls, the quadrature inputs in X4. -/
def moving : State := (List.range 9).foldl (fun s n => (s.wr (Reg.phaseCfg n) (word [(F.phaseCfg_ENABLE, 1), (F.phaseCfg_QMODE, 2),
  (F.phaseCfg_HOLDOFF_US, if n = 8 then 3 else 0)])).wf (Reg.pmxCfg (phasePins n).1) F.pmxCfg_FUNCTION (phasePins n).2) running

theorem wit_PhaseInputsCount :
    let at_ := fun n p => moving.setPhase n p
    let far := (moving.wf (Reg.phaseStatus 3) F.phaseStatus_OVERSPEED 1).wf (Reg.phaseErrcnt 3) F.phaseErrcnt_QERR 65534
    let m := fun g => ({ (at_ 8 { lastMains := some 10 }) with gts := g } : State)
    let slow := (moving.wf (Reg.phaseCfg 3) F.phaseCfg_FILT 1)
    let once : State := { (after (.quadEdge 3 true false) slow) with gts := 10 }
    (moving.up = true ∧ moving.phaseWired 3 = true ∧ moving.phaseOn 3 = true ∧ moving.rf (Reg.phaseCfg 3) F.phaseCfg_QMODE = 2 ∧
      ((after (.quadEdge 3 true false) moving).phase 3).pos = 1 ∧
      ((after (.quadEdge 3 true true) (at_ 3 { b := true })).phase 3).pos = 2 ^ 48 - 1 ∧
      ((after (.quadEdge 3 true false) (moving.wf (Reg.phaseCfg 3) F.phaseCfg_DIR 1)).phase 3).pos = 2 ^ 48 - 1) ∧
    (slow.filtLen 3 = 2 ∧ ((after (.quadEdge 3 true false) slow).phase 3).pos = 0 ∧ ((after (.quadEdge 3 true false) slow).phase 3).fa = 1 ∧
      once.runAt (once.phase 3).sampled (once.phase 3).fa = 1 ∧ ((after (.quadEdge 3 true false) once).phase 3).pos = 1 ∧
      (moving.phase 3).sampled ≠ some moving.gts ∧ ((after (.quadEdge 3 true false) { once with gts := 15 }).phase 3).pos = 0 ∧
      ((after (.quadEdge 3 true false) { once with gts := 20 }).phase 3).fa = 1 ∧
      (on.wf (Reg.pmxCfg 19) F.pmxCfg_FUNCTION 0).phaseWired 3 = false) ∧
    (far.rf (Reg.phaseStatus 3) F.phaseStatus_OVERSPEED = 1 ∧ far.phaseWired 3 = true ∧ far.phaseOn 3 = true ∧
      (after (.quadEdge 3 true true) far).rf (Reg.phaseErrcnt 3) F.phaseErrcnt_QERR = 65535) ∧
    (let z := at_ 3 { pos := 2 ^ 32 + 5 }
     (z.phase 3).z = false ∧ z.rf (Reg.phaseZcapHi 3) F.phaseZcapHi_VALID = 0 ∧ z.phaseWired 3 = true ∧ z.phaseOn 3 = true ∧
      (after (.zCapture 3 true) z).rf (Reg.phaseZcapHi 3) F.phaseZcapHi_POS_HI = 1 ∧
      (z.wf (Reg.phaseZcapHi 3) F.phaseZcapHi_VALID 1).rf (Reg.phaseZcapHi 3) F.phaseZcapHi_VALID = 1) ∧
    ([6, 7].all fun n => moving.phaseWired n && moving.phaseOn n && ((after (.linePulse n) moving).phase n).pos == 1 &&
      ((after (.linePulse n) (at_ n { level := true })).phase n).pos == 0) = true ∧
    ((m 3010).phaseWired 8 = true ∧ (m 3010).phaseOn 8 = true ∧ ((m 3010).phase 8).lastMains = some 10 ∧
      10 + 1000 * (m 3010).rf (Reg.phaseCfg 8) F.phaseCfg_HOLDOFF_US = 3010 ∧ ((after .mainsEdge (m 3010)).phase 8).pos = 1 ∧
      (m 3010).filtLen 8 = 1 ∧ ((after .mainsEdge (m 3000)).phase 8).pos = 0 ∧ ((after .mainsEdge (m 3000)).phase 8).level = true) := by decide +kernel

theorem wit_OverspeedIsLatched :
    let ssi := moving.wr (Reg.phaseSsi 5) (word [(F.phaseSsi_BITS, 15), (F.phaseSsi_PERIOD_US, 1)])
    let fr := { ssi with gts := 3 }.setPhase 5 { frameStart := some 2 }
    let old : State := { ssi with gts := 2001 }
    let fast := ({ moving with gts := 1000 } : State).setPhase 3 { pos := 2 }
    let was := ({ moving with gts := 1000 } : State).wf (Reg.phaseStatus 8) F.phaseStatus_OVERSPEED 1
    let v := word [(F.phaseStatus_OVERSPEED, 1)]
    (ssi.up = true ∧ ssi.phaseOn 5 = true ∧ (ssi.phase 5).lastStart = none ∧ ssi.rf (Reg.phaseStatus 5) F.phaseStatus_OVERSPEED = 0 ∧
      ((after (.ssiFrameStart 5) ssi).phase 5).frameStart = some 0) ∧
    ((fr.phase 5).frameStart = some 2 ∧ (fr.phase 5).gotFirst = false ∧ fr.phaseWired 5 = true ∧ fr.rf (Reg.phaseSsi 5) F.phaseSsi_GRAY = 0 ∧
      ((after (.ssiFrameEnd 5 0x12345 false false) fr).phase 5).pos = 0x2345 ∧ (fr.phase 5).badRun = 0 ∧
      ((after (.ssiFrameEnd 5 0 true false) fr).phase 5).badRun = 1) ∧
    (old.ssiStaleAt 5 = 2000 ∧ (after (.ssiStale 5) old).rf (Reg.phaseStatus 5) F.phaseStatus_REASON = 4 ∧
      (after (.ssiStale 5) { old with gts := 2000 }).rf (Reg.phaseStatus 5) F.phaseStatus_REASON = 0 ∧ (old.pair 3).mask.testBit 21 = true) ∧
    (fast.gts % 1000 = 0 ∧ fast.phaseOn 3 = true ∧ fast.injArmed 0x13 0 1 3 = false ∧ fast.phaseLimit 3 = 1 ∧ fast.phaseD 3 = 2 ∧
      fast.rf (Reg.phaseStatus 3) F.phaseStatus_OVERSPEED = 0 ∧ (fast.evalInput 3).rf (Reg.phaseStatus 3) F.phaseStatus_REASON = 1 ∧
      on.phaseOn 3 = false ∧ moving.phaseD 3 ≤ moving.phaseLimit 3 ∧ moving.injArmed 0x13 0 1 3 = false) ∧
    (v.fld F.phaseStatus_OVERSPEED = 1 ∧ was.rf (Reg.phaseStatus 8) F.phaseStatus_OVERSPEED = 1 ∧ was.reasonNow 8 = false ∧
      (was.phase 8).reasonGts + was.phaseWindow 8 ≤ was.gts ∧ (after (.overspeedClear 0 8 v) was).rf (Reg.phaseStatus 8) F.phaseStatus_OVERSPEED = 0) ∧
    (let n := (was.setPhase 8 { pos := 2 })
     n.reasonNow 8 = true ∧ n.rf (Reg.phaseStatus 8) F.phaseStatus_OVERSPEED = 1 ∧
      (after (.overspeedClear 0 8 v) n).rf (Reg.phaseStatus 8) F.phaseStatus_OVERSPEED = 1) := by decide +kernel

theorem wit_StrobesFireAndDrop :
    let s : State := { on with sections := [(Tag.clocks, clocks 5 5 [(15, 0, 0, 2 ^ 10), (1, 1, 0, 2 ^ 3)])], staged := [(Reg.weirMaint, none)] }
    let off := 0xA00000
    let due := fun e : Nat => ({ on with pins := [(24, { due := some (word [(F.pmxCfg_FUNCTION, 1)], e) })] } : State)
    let sw := fun g => ({ on with gts := g, pins := [(24, { switchAt := some 5 })] } : State)
    (s.up = true ∧ s.writeTrigger 15 = true ∧ s.writeTrigger 1 = false ∧
      (after (.chipStrobeFire (BitVec.ofNat 32 (2 ^ 1))) s).rn Reg.chipStrobeIgn = 2) ∧
    (let t : State := { s with staged := [(off, some 5#32)] }
     t.groupOf (unitOf off) = 15 ∧ t.integ.stagedBad = [] ∧ (t.bump (Reg.chipStrobeCount 15) F.chipStrobeCount_FIRES).weirRefused off = false ∧
      off ≠ Reg.pcieCfg ∧ pinOf off = none ∧ phaseOf off = none ∧
      (after (.chipStrobeDrop (BitVec.ofNat 32 (2 ^ 15))) t).staged = []) ∧
    (((due 0).pinGroup 24).due = some (word [(F.pmxCfg_FUNCTION, 1)], 0) ∧ pinCtrl ((due 0).pinFn 24) = false ∧
      pinCtrl ((word [(F.pmxCfg_FUNCTION, 1)]).fld F.pmxCfg_FUNCTION) = false ∧ (after (.pmxSwitchApply 24 false) (due 0)).pinFn 24 = 1) ∧
    ((after (.pmxSwitchApply 24 false) (due 1)).rf Reg.pmxStatus F.pmxStatus_LAST_GROUP = 24) ∧
    ((5 + 9) / 10 * 10 + 40 ≤ (sw 50).gts ∧ ((sw 50).pinGroup 24).switchAt = some 5 ∧
      ((after (.pmxSwitchDone 24) (sw 50)).pinGroup 24).switchAt = none ∧ ((after (.pmxSwitchDone 24) (sw 49)).pinGroup 24).switchAt = some 5) := by
  decide +kernel


/-- A stream entry of RAW8 pixels, one a line, with its height and TIMEOUT_US. -/
def entry (h us : Nat) : List Byte := leBytes 0x2A00 4 ++ leBytes 1 2 ++ leBytes h 2 ++ leBytes 0 28 ++ leBytes 0xFF0000 4 ++ leBytes us 4 ++ leBytes 0 20

/-- The device with virtual channel 3 of port 15 enabled, its stream 63 in a state, with a record. -/
def camera (st : Nat) (x : StreamS) : State :=
  (((on.wf (Reg.csiPortCfg 15) F.csiPortCfg_ENABLE 1).wf (Reg.csiVcCtrl 15 3) F.csiVcCtrl_ENABLE 1).setStreamSt 63 st).setStream 63 x

theorem wit_FramesBeginAndEnd :
    let a := camera 1 { begun := 3 }
    let r := a.readEnt (a.pipeWho 63) 63
    let f : FrameS := { stream := 63, frame := 2, slot := 0, ent := entry 1 0, got := 1 }
    let b := camera 2 { cur := some f }
    let c := camera 3 {}
    let d := fun g => ({ camera 1 { ent := entry 1 2, since := 5 } with gts := g } : State)
    (a.up = true ∧ a.portOn 15 = true ∧ a.streamOn 63 = true ∧ a.streamSt 63 = 1 ∧ a.inlinePipe 63 = none ∧
      r.1 = some (List.replicate 64 0#8) ∧ Ent.pipe (List.replicate 64 0#8) = false ∧
      (camera 1 {}).slotFree 63 0 0 = true ∧ a.slotFree 63 3 0 = false ∧
      (after (.csiFrameStart 15 3 7 0) (camera 1 {})).streamSt 63 = 2 ∧ ((after (.csiFrameStart 15 3 7 0) (camera 1 {})).stream 63).begun = 1) ∧
    (c.portOn 15 = true ∧ c.streamOn 63 = true ∧ c.streamSt 63 = 3 ∧ ((after (.csiFrameStart 15 3 7 0) c).stream 63).lateFs = some (0, 7)) ∧
    (b.streamSt 63 = 2 ∧ (b.stream 63).cur = some f ∧ Ent.height f.ent ≤ f.got ∧ b.inlinePipe 63 = none ∧ Ent.pipe f.ent = false ∧
      (after (.csiFrameEnd 15 3 0) b).streamSt 63 = 1 ∧ ((after (.csiFrameEnd 15 3 0) b).stream 63).ready.map FrameS.frame = [2]) ∧
    ((d 0).portOn 15 = true ∧ (d 0).streamSt 63 = 1 ∧ Ent.timeoutUs ((d 0).stream 63).ent = 2 ∧ (d 0).stops 63 = false ∧
      (after (.streamTimeout 63) (d 2005)).streamSt 63 = 4 ∧ (after (.streamTimeout 63) (d 2004)).streamSt 63 = 1) := by decide +kernel

theorem wit_StreamsAreRecordedAndReleased :
    let f : FrameS := { stream := 63, frame := 2, ent := entry 1 0 }
    let a := camera 1 { ready := [f] }
    let u := a.setStream 63 { a.stream 63 with ready := [], recs := 1 }
    let v := word [(F.csiVcRel_RELEASED, 65535)]
    let go := word [(F.csiVcCtrl_ENABLE, 1), (F.csiVcCtrl_RESTART, 1)]
    (a.up = true ∧ (a.stream 63).ready = [f] ∧
      (u.vwrite (u.pipeWho 63) (Ent.recVa f.ent) (f.record 1)).1 = true ∧ ((after (.frameRecord 63) a).stream 63).recs = 1 ∧
      Mem.rd (after (.frameRecord 63) a).dram (0x1000000000 + 16) = 2#8 ∧ (on.stream 127).ready = []) ∧
    (((after (.csiVcRelWrite 0 63 v) a).stream 63).relOld = 0 ∧ (after (.csiVcRelWrite 0 63 v) a).released 63 = 0 ∧
      (after (.csiVcRelWrite 0 63 v) a).rf (Reg.csiVcRel 15 3) F.csiVcRel_RELEASED = 65535 ∧
      ((after (.csiVcRelWrite 0 127 v) a).stream 127).rel = 65535 ∧ ((after (.csiVcRelWrite 0 64 v) a).stream 64).rel = 65535) ∧
    ((after (.pipeTuneSelWrite 0 3 v) a).tuneSel 3 = 0 ∧ (after (.pipeTuneSelWrite 0 3 v) a).rf (Reg.pipeTuneSel 3) F.pipeTuneSel_SEL = 65535) ∧
    (go.fld F.csiVcCtrl_RESTART = 1 ∧ (camera 3 {}).streamSt 63 = 3 ∧ ((camera 3 {}).stream 63).lateFs = none ∧
      (after (.csiRestart 0 15 3 go) (camera 3 {})).streamSt 63 = 1 ∧ (word [(F.csiVcCtrl_ENABLE, 1)]).fld F.csiVcCtrl_RESTART = 0 ∧
      (after (.csiRestart 0 15 3 (word [(F.csiVcCtrl_ENABLE, 1)])) (camera 3 {})).streamSt 63 = 3) := by decide +kernel

/-- A camera table whose candidates are sensor 0 for virtual channel 3 of port 15 and none for the rest. -/
def camTab : List Byte := leBytes 0x4D414343 4 ++ leBytes 0x100 2 ++ leBytes 1 2 ++ leBytes 0 8 ++ leBytes (2 ^ 984 - 1) 123 ++ leBytes 0 37

theorem wit_LinesAndLinks :
    let f : FrameS := { stream := 63, frame := 2, slot := 0, ent := entry 2 0 }
    let a := camera 2 { ent := entry 2 0, cur := some f }
    let b := camera 1 { ent := entry 2 0 }
    let o := on.wf (Reg.csiPortCfg 15) F.csiPortCfg_ENABLE 1
    let n := { on.setFw 1 Fw.running with boot := { starting := false, camTable := camTab } }
    let q := { (asked 0x30 15) with boot := { starting := false, camTable := camTab } }
    (a.up = true ∧ a.portOn 15 = true ∧ a.injArmed 0xE 0 1 63 = false ∧ a.injArmed 0xE 0 2 63 = false) ∧
    (o.portOn 15 = true ∧ o.streamOn 63 = false ∧ (after (.csiLine 15 3 false 0x2A 0 true []) o).rf (Reg.csiPortErr 15) F.csiPortErr_VC_OTHER = 1) ∧
    (b.streamOn 63 = true ∧ 0x2B ≠ Ent.dt (b.stream 63).ent ∧ (b.stream 63).cur = none ∧
      (after (.csiLine 15 3 false 0x2B 0 true []) b).rf (Reg.csiVcErr 15 3) F.csiVcErr_DT_OTHER = 1) ∧
    (0x2A = Ent.dt (a.stream 63).ent ∧ (a.stream 63).cur = some f ∧ f.got < Ent.height f.ent ∧ a.stops 63 = false ∧
      ((after (.csiLine 15 3 false 0x2A 0 true [9]) a).stream 63).cur.map FrameS.got = some 1 ∧
      Mem.rd (after (.csiLine 15 3 false 0x2A 0 true [9]) a).dram 0x1000000000 = 9#8) ∧
    ((after (.linkDown 15) a).streamSt 63 = 4 ∧ (after (.linkDown 15) (camera 3 {})).streamSt 63 = 3 ∧
      (after (.linkUp 15 true) (camera 4 {})).streamSt 63 = 1 ∧ (after (.linkUp 15 true) b).rf (Reg.csiPortStatus 15) F.csiPortStatus_LINK = 2) ∧
    (n.fwUp 1 = true ∧ n.probeDue 15 = true ∧ (after (.camProbeCycle 15 [0, 0, 0, 0]) n).boot.probed = [(15, 1)] ∧
      (after (.camProbeCycle 15 [0, 0, 0, 0]) n).probeDue 15 = false ∧ camTableOk n.boot.camTable = true ∧ camCand n.boot.camTable 15 3 = 0 ∧
      camCand n.boot.camTable 15 2 = 0xFF ∧ scriptUs n.boot.camTable 0 = 0 ∧
      (after (.camProbeCycle 15 [0, 0, 0, 0]) n).rf (Reg.fwpCam 63) F.fwpCam_STATE = 1 ∧
      (after (.camProbeCycle 15 [0, 0, 0, 0]) n).rf (Reg.fwpCam 62) F.fwpCam_STATE = 7) ∧
    (q.up = true ∧ q.serves 0x30 1 ⟨0x30, 7, 15, 0, 0⟩ ∧ (after (.camProbe [0, 0, 0, 1]) q).rf (Reg.fwpCam 63) F.fwpCam_STATE = 2) := by
  unfold State.serves
  decide +kernel

/-- The STREAMS section that gives pipe 3 the channel 3 of port 15 in line, with a Jet whose range is Cistern page 5. -/
def streams3 : List Byte := leBytes 0 48 ++ leBytes 0x01030F01 4 ++ leBytes 0x10005 4 ++ leBytes 0 600

theorem wit_PipesAndJetsMoveFrames :
    let f : FrameS := { stream := 63, frame := 0, ent := entry 0 0 }
    let a := (on.wf (Reg.pipeCtrl 3) F.pipeCtrl_ENABLE 1).setPipe 3 { queue := [f] }
    let g := { a with dram := Mem.wrN [] (0x1000000000 + 2048 * 15) 4 0x454E5554 }
    let il : FrameS := { stream := 63, frame := 4, ent := entry 1 0, closed := true }
    let i := { on with sections := [(Tag.streams, streams3)] }.setPipe 3 { inl := [il] }
    let j : JetRun := { frame := 4, regs := [], w := 1, h := 1, lines := [[]] }
    let jp := fun l => ({ on with sections := [(Tag.streams, l)] } : State).setPipe 3 { jet := some j }
    let r : JetRow := { addr := 0x50000, pitch := 512, dst := 0x10000, frame := 4, last := true, marks := 0 }
    let t := ({ on with weir := { on.weir with locked := [(0, 1, 0x1000010003)] } } : State).setPipe 3 { ring := [r] }
    (a.up = true ∧ a.pipesOn = true ∧ a.rf (Reg.pipeCtrl 3) F.pipeCtrl_ENABLE = 1 ∧ a.startHeld Tag.streams = false ∧
      nextFrame (a.pipe 3).queue = some f ∧
      (((a.setPipe 3 { a.pipe 3 with queue := (a.pipe 3).queue.erase f }).readTune 63).1.map Tune.ok) = some false ∧
      ((after (.pipeMemoryFrame 3) a).stream 63).ready.map FrameS.marks = [2 ^ Mk.dropped]) ∧
    ((let u := (g.setPipe 3 { g.pipe 3 with queue := (g.pipe 3).queue.erase f }).readTune 63
      u.1.map Tune.ok = some true ∧ u.2.slotFree 63 0 0 = true ∧ u.2.injArmed 0x17 0 1 (9 * 256 + 3) = false ∧ u.2.stops 63 = false) ∧
      ((after (.pipeMemoryFrame 3) g).stream 63).ready.map FrameS.marks = [2 ^ Mk.piped]) ∧
    (a.dramServes = true ∧ (let h := { (i.wf Reg.parterreStatus F.parterreStatus_STATE 1) with checker := { inForce := true, tags := [Tag.streams] } }
      h.startHeld Tag.streams = true ∧ h.inlineFrame 3 = some il ∧ il.outY = 0 ∧ after (.pipeInlineLine 3 true) h = h)) ∧
    (i.startHeld Tag.streams = false ∧ i.inlineFrame 3 = some il ∧ il.rows.length ≤ min (Ent.height il.ent - 1) (il.outY + 6) ∧
      ((after (.pipeInlineLine 3 true) i).stream 63).ready.map FrameS.marks = [2 ^ Mk.overrun] ∧
      (after (.pipeInlineLine 3 false) i).inlineFrame 3 = some il) ∧
    (((jp streams3).pipe 3).jet = some j ∧ j.oy < j.hOut 3 ∧ j.needs 3 ≤ j.lines.length ∧ j.act 3 ≠ 3 ∧
      (jp streams3).jetRowAt 3 j = some 0 ∧ (jp streams3).jetFirst 3 * 0x10000 = 0x50000 ∧ ((jp streams3).pipe 3).ring = [] ∧
      ((after (.jetRowComplete 3) (jp streams3)).pipe 3).ring = [{ r with dst := 0 }] ∧ ((after (.jetRowComplete 3) (jp streams3)).pipe 3).ringAt = 512 ∧ j.pitch 3 = 512 ∧
      (jp []).jetRowAt 3 j = none ∧ ((after (.jetRowComplete 3) (jp [])).pipe 3).jet = none) ∧
    ((t.pipe 3).ring = [r] ∧ (t.setPipe 3 {}).cisRd 0x50000 512 = (List.replicate 512 0#8, false, t.setPipe 3 {}) ∧
      (t.setPipe 3 {}).lockedRange 0x10000 512 = true ∧
      ((t.setPipe 3 {}).vwrite { tag := 0x203, holder := some (2 ^ 40 + 3) } 0x10000 (List.replicate 512 0#8)).1 = true ∧
      (after (.jetRowTransfer 3) t).rn (Reg.jetFrame 3) = 1 ∧ r.last = true ∧
      (after (.jetRowTransfer 3) (t.setPipe 3 { ring := [{ r with last := false }] })).rn (Reg.jetFrame 3) = 0) := by decide +kernel

theorem wit_TheSpoutSplitsItsRequests :
    let rq := fun fmt budget => leBytes (fmt * 2 ^ 16) 4 ++ leBytes 16 2 ++ leBytes 16 2 ++ leBytes 0x10000 8 ++ leBytes 64 4 ++ leBytes 0 4 ++
      leBytes 16 2 ++ leBytes 16 2 ++ leBytes 16 2 ++ leBytes 16 2 ++ leBytes 0x18000 8 ++ leBytes 0 4 ++ leBytes budget 4 ++ leBytes 0 16
    let sp : State := { ((on.wf Reg.spoutRingLo F.spoutRingLo_LOG2 4).wf Reg.spoutHostRingLo F.spoutHostRingLo_LOG2 1) with
      spout := { req := { tail := 1 } } }
    let s := fun fmt budget => ({ sp with dram := Mem.wrBytes [] 0x1000000000 (rq fmt budget) } : State)
    let r := SpoutReq.parse (rq 3 0)
    let u := (({ s 3 0 with spout := { sp.spout with req := sp.spout.req.next } } : State).vread Who.spout 0 64)
    let part : SpoutPart := { count := 0, req := rq 3 0, k := 0, est := 1000, start := some 0 }
    let d : State := { sp with spout := { parts := [part] } }
    (sp.up = true ∧ sp.spoutLog2 = 4 ∧ ((after (.spoutTailWrite 0xFFEF0010) sp).spout.req.tail) = 16 ∧
      ((after (.spoutTailWrite 0xFFEE0011) sp).spout.req.tail) = 1) ∧
    ((after (.spoutHostReadWrite 3) { sp with spout := { written := 3, read := 1 } }).spout.read = 3 ∧
      (after (.spoutHostReadWrite 4) { sp with spout := { written := 3, read := 1 } }).spout.read = 1) ∧
    (on.spout.req.waiting = 0 ∧ ({ sp with spout := { written := 1, req := { tail := 1 } } } : State).hostFree = 1) ∧
    ((s 3 0).spout.req.waiting = 1 ∧ (s 3 0).hostFree = 2 ∧ u.1 = some (rq 3 0, false) ∧ r.ok = true ∧ (SpoutReq.parse (rq 0 0)).ok = false ∧
      Mem.rd (after .spoutTake (s 0 0)).dram (0x1000000000 + 0x3B) = 0xC0#8 ∧
      u.2.spoutMaps r = true ∧ (on.setCtx 0 {}).dramServes = true ∧
      (let g : State := { s 3 0 with weir := { on.weir with cache := [(0, 0x1000000003)] } }
       g.spoutMaps r = false ∧ Mem.rd (after .spoutTake g).dram 0x100000003B = 0xC0#8 ∧ (after .spoutTake g).spout.parts = [] ∧
        ({ g with spout := d.spout } : State).spoutMaps r = false ∧ (after .spoutDone { g with spout := d.spout }).spout.parts = []) ∧
      r.split u.2.spoutBacklog = 16 ∧ (SpoutReq.parse (rq 3 1000)).split u.2.spoutBacklog = 0 ∧
      (after .spoutTake (s 3 0)).spout.parts.map SpoutPart.k = [16] ∧ (after .spoutTake (s 3 1000)).spout.written = 1) ∧
    (d.spout.parts = [part] ∧ part.k < r.rows ∧ d.hostFree = 2 ∧ (after .spoutDone d).spout.written = 1 ∧
      ({ d with spout := { d.spout with written := 2 } } : State).hostFree = 0 ∧
      (after .spoutDone { d with spout := { d.spout with written := 2 } }).spout.written = 2) := by decide +kernel

theorem wit_TheTokeniserEndsItsRequests :
    let rq := fun n => leBytes 3 4 ++ leBytes n 4 ++ leBytes 0x10000 8 ++ leBytes 0x10100 8 ++ leBytes 1 8 ++ leBytes 9 8 ++ leBytes 0x10200 8 ++ leBytes 0 16
    let dct := leBytes 0x54434944 4 ++ leBytes 0x100 4 ++ leBytes 256 4 ++ leBytes 1 4 ++ leBytes 0 4 ++ leBytes 0 4 ++ leBytes 32 4 ++ leBytes 40 4
    let s := fun n => ({ on with
      tok := { tail := 1 }
      dram := Mem.wrBytes (Mem.wrBytes [] 0x1000000000 (rq n)) 0x1000010000 [65#8]
      cistern := Mem.wrBytes [] 0x50000 dct
      sections := [(Tag.cistern, leBytes 1 4 ++ leBytes 0x00050003 4 ++ leBytes 1 4)] } : State)
    let s1 := fun n => (s n).wf Reg.cisTokStatus F.cisTokStatus_STATE 1
    let v := ((s1 1).vread Who.tok 0 64)
    let e : TokEnd := { ctxId := 3, cookie := 9, countVa := 0x10200, result := 0, count := 1 }
    let t := ({ (s 1) with tokEnd := some e } : State).setCtx 47 ctx0
    let t1 := ({ t with tokEnd := none, tok := t.tok.next } : State).wf Reg.cisTokStatus F.cisTokStatus_STATE 0
    ((s 0).up = true ∧ (s 0).tok.waiting = 1 ∧ (s 0).tokEnd = none ∧ (s1 0).tokVa 0 = 0 ∧ ((s1 0).vread Who.tok 0 64).1 = some (rq 0, false) ∧
      tokReqOk (rq 0) = false ∧ (after .tokeniserRequest (s 0)).tokEnd.map TokEnd.result = some 3) ∧
    (v.1 = some (rq 1, false) ∧ tokReqOk (rq 1) = true ∧ v.2.dict.1.isSome = true ∧
      (v.2.dict.2.vread Who.tok 0x10000 1).1 = some ([65#8], false) ∧
      (after .tokeniserRequest (s 1)).tokEnd = some e ∧ Mem.rd (after .tokeniserRequest (s 1)).dram 0x1000010100 = 65#8) ∧
    (on.tok.waiting = 0 ∧ t.tokEnd = some e ∧ t.slotOf 3 = some 47 ∧ (t1.vwrite Who.tok 0x10200 (leBytes 1 4)).1 = true ∧
      (after .tokensDone t).tokEnd = none ∧ (after .tokensDone t).events.map Event.cookie = [9]) := by decide +kernel

/-- The record of decode session 63. -/
def decRec : List Byte := leBytes 0x00000101 4 ++ leBytes (63 + 256 * 4) 4 ++ leBytes 0 12 ++ leBytes 1 4 ++ leBytes 1 4 ++ leBytes 0 12 ++
  leBytes (17 * 6 + 1048576) 4 ++ leBytes 0 20

/-- The record of encode session 31, its output ring of 64 KiB at page 1. -/
def encRec : List Byte := leBytes 0x00000102 4 ++ leBytes (31 + 256 * 4 + 65536 * 30) 4 ++ leBytes 0 8 ++ leBytes (64 + 64 * 65536) 4 ++ leBytes 1 4 ++
  leBytes 100 4 ++ leBytes 1 4 ++ leBytes 0 8 ++ leBytes 1067008 4 ++ leBytes 16 4 ++ leBytes 0x10000 8 ++ leBytes 0 8

/-- The entry of a decoded stream of NV12 pictures of 2 by 2 pixels. -/
def decEnt : List Byte := leBytes 0x8000 4 ++ leBytes 2 2 ++ leBytes 2 2 ++ leBytes 0 56

/-- A request of the codecs with memory that holds a record at 0x2000 and the entry of stream 127. -/
def codecAsked (code a0 : Nat) (rec : List Byte) : State :=
  { asked code a0 with dram := Mem.wrBytes (Mem.wrBytes [] (0x1000000000 + 64 * 127) decEnt) 0x1000002000 rec }

theorem wit_CodecSessionsOpenAndClose :
    let s := codecAsked 0x20 0x2000 decRec
    let r := s.fwPump.vread Who.fwp2 0x2000 64
    let w := r.2.readEnt Who.fwp2 127
    let o := s.setDec 63 { opened := true }
    let e := codecAsked 0x20 0x2000 encRec
    let q := e.fwPump.vread Who.fwp2 0x2000 64
    let c := (asked 0x21 (256 + 63)).setDec 63 { opened := true, ses := decRec, q := { tail := 1 } }
    let d := (asked 0x21 (512 + 31)).setEnc 31 { opened := true, ses := encRec, q := { tail := 1 } }
    (s.serves 0x20 2 ⟨0x20, 7, 0x2000, 0, 0⟩ ∧ r.1 = some (decRec, false) ∧ Ses.kind decRec = 1 ∧ Ses.decOk decRec = true ∧
      w.1 = some decEnt ∧ decEntOk 1 decEnt = true ∧ decEntOk 1 (leBytes 0x8100 4) = false ∧ decEntOk 2 (leBytes 0x8100 4) = true ∧ Ses.codec decRec = 1 ∧ (w.2.dec 63).opened = false ∧
      17 * (Ent.width decEnt * Ent.height decEnt * 3 / 2) + 1048576 = Ses.workBytes decRec ∧ w.2.codecRate = 500000000 ∧
      leastEngine (fun g => ((w.2.decOn g).map Ses.rate).sum) [0, 1, 2, 3] = 0 ∧ w.2.decOn 0 = [] ∧
      ((after .codecOpen s).dec 63).opened = true ∧ (after .codecOpen s).decState 63 = 1) ∧
    (o.serves 0x20 2 ⟨0x20, 7, 0x2000, 0, 0⟩ ∧
      (((o.fwPump.vread Who.fwp2 0x2000 64).2.readEnt Who.fwp2 127).2.dec 63).opened = true ∧ (after .codecOpen o).decState 63 = 0) ∧
    (e.serves 0x20 2 ⟨0x20, 7, 0x2000, 0, 0⟩ ∧ q.1 = some (encRec, false) ∧ Ses.kind encRec = 2 ∧ Ses.encOk encRec = true ∧
      (q.2.enc 31).opened = false ∧ 3 * (Ses.width encRec * Ses.height encRec * 3 / 2) + 1048576 = Ses.workBytes encRec ∧
      q.2.encOn 4 = [] ∧ ((after .codecOpen e).enc 31).opened = true ∧ ((after .codecOpen e).enc 31).engine = 4) ∧
    (c.serves 0x21 2 ⟨0x21, 7, 256 + 63, 0, 0⟩ ∧ (c.fwPump.dec 63).opened = true ∧ ((after .codecClose c).dec 63).opened = false) ∧
    ((asked 0x21 (256 + 63)).serves 0x21 2 ⟨0x21, 7, 256 + 63, 0, 0⟩ ∧ ((asked 0x21 (256 + 63)).fwPump.dec 63).opened = false) ∧
    (d.serves 0x21 2 ⟨0x21, 7, 512 + 31, 0, 0⟩ ∧ (d.fwPump.enc 31).opened = true ∧ ((after .codecClose d).enc 31).opened = false) := by
  unfold State.serves
  and_intros <;> decide +kernel

theorem wit_CodecSessionsWork :
    let x : DecS := { opened := true, ses := decRec, ent := decEnt }
    let z : EncS := { opened := true, ses := encRec, engine := 4 }
    let s := (on.setDec 63 x).setEnc 31 { z with bytes := { written := 3, read := 1 } }
    let au := leBytes 0x10000 8 ++ leBytes 1 4 ++ leBytes 9 4 ++ leBytes 0 16
    let a := fun st => { (on.setDec 63 { x with q := { tail := 1 } }).setDecState 63 st with dram := Mem.wrBytes [] 0x1000000000 au }
    let u := fun st => ((a st).setDec 63 { x with q := { head := 1, tail := 1 } }).vread (Who.codec 7) 0 32
    let w := ((u 1).2.vread (Who.codec 0) 0x10000 1).2
    let p : Picture := { w := 64, h := 64 }
    let pic : DecPic := { auSeq := 9, fsGts := 0, pic := { w := 2, h := 2 }, stop := false, draw := 0 }
    let eosAu := leBytes 0x10000 8 ++ leBytes 1 4 ++ leBytes 9 4 ++ leBytes 1 16
    let hold := { (on.setDec 63 { x with q := { tail := 1 }, held := [pic] }).setDecState 63 1 with dram := Mem.wrBytes [] 0x1000000000 eosAu }
    let skip := hold.setDecState 63 2
    let lateS := after (.accessUnitDecode 63 false true (some p) [0]) (a 2)
    let o := fun d begun => (on.setDec 63 { x with out := [d] }).setStream 127 { ent := decEnt, begun := begun }
    let e := fun n => on.setEnc 31 { z with q := { tail := 1 }, bytes := { written := n } }
    let c := (e 0).setEnc 31 { z with q := { head := 1, tail := 1 } }
    let v := (c.vread (Who.codec 7) 0 64).2.vread (Who.codec 4) 0 0
    (((after (.codecDecTailWrite 63 0xFFEF0010) s).dec 63).q.tail = 16 ∧ ((after (.codecDecTailWrite 63 0xFFEE0011) s).dec 63).q.tail = 0 ∧
      ((after (.codecEncTailWrite 31 0xFFEF0010) s).enc 31).q.tail = 16 ∧
      ((after (.codecEncReadWrite 31 3) s).enc 31).bytes.read = 3 ∧ ((after (.codecEncReadWrite 31 4) s).enc 31).bytes.read = 1 ∧
      (after (.codecDecRestart 0 63 (word [(F.codecDecCtrl_RESTART, 1)])) (a 2)).decState 63 = 3 ∧
      (after (.codecDecRestart 0 63 0) (a 2)).decState 63 = 2) ∧
    ((a 1).up = true ∧ (a 1).codecOff = false ∧ ((a 1).dec 63).q.waiting = 1 ∧ ((a 1).dec 63).out = [] ∧ (u 1).1 = some (au, false) ∧
      auOk au = true ∧ (u 1).2.mapped false 0x10000 1 = true ∧ (u 1).2.decState 63 = 1 ∧ (u 2).2.decState 63 = 2 ∧ (u 3).2.decState 63 = 3 ∧
      picAnyBad p = false ∧ picSupported p = true ∧ picSupported { p with h := 62 } = false ∧
      w.injArmed 0x17 0 1 (Mc.codec * 256 + (w.dec 63).engine) = false ∧ (u16 eosAu 0x10).testBit 0 = true ∧
      ((after (.accessUnitDecode 63 false false (some p) [0, 1]) hold).dec 63).out.map DecPic.auSeq = [9, 9] ∧
      ((after (.accessUnitDecode 63 false false (some p) [0]) skip).dec 63).out = [pic] ∧ ((after (.accessUnitDecode 63 false false none []) skip).dec 63).held = [] ∧
      ((after (.accessUnitDecode 63 true false none []) hold).dec 63).out = [pic] ∧
      (lateS.dec 63).late.map AuTaken.at_ = [0] ∧ (after (.codecDecRestart 0 63 (word [(F.codecDecCtrl_RESTART, 1)])) lateS).decState 63 = 1 ∧
      ((after (.codecDecRestart 0 63 (word [(F.codecDecCtrl_RESTART, 1)])) lateS).dec 63).out.map DecPic.auSeq = [9] ∧
      w.injArmed 15 0 1 (w.dec 63).engine = false ∧ (u16 au 0x10).testBit 0 = false ∧
      ((after (.accessUnitDecode 63 false false (some p) [0]) (a 1)).dec 63).out.map DecPic.auSeq = [9] ∧
      Mem.rd (after (.accessUnitDecode 63 true false none []) (a 1)).dram 0x100000001F = 0x83#8 ∧
      Mem.rd (after (.accessUnitDecode 63 false false none []) (a 2)).dram 0x100000001F = 0x82#8 ∧
      Mem.rd (after (.accessUnitDecode 63 false false none []) (a 3)).dram 0x100000001F = 0x82#8) ∧
    (((o { pic with stop := true } 0).dec 63).out = [{ pic with stop := true }] ∧
      ((after (.decodedPictureOutput 63) (o { pic with stop := true } 0)).stream 127).begun = 1 ∧
      ((after (.decodedPictureOutput 63) (o { pic with pic := { w := 4, h := 2 } } 0)).stream 127).recs = 1 ∧
      pic.pic.w = Ent.width decEnt ∧ pic.pic.h = Ent.height decEnt ∧ Ses.live decRec = false ∧
      (o pic 0).slotFree 127 0 (Ent.ringLog2 decEnt) = true ∧ (o pic 1).slotFree 127 1 (Ent.ringLog2 decEnt) = false ∧
      ((after (.decodedPictureOutput 63) (o pic 0)).dec 63).out = [] ∧ ((after (.decodedPictureOutput 63) (o pic 1)).dec 63).out = [pic]) ∧
    (((e 0).enc 31).q.waiting = 1 ∧ (c.vread (Who.codec 7) 0 64).1 = some (List.replicate 64 0#8, false) ∧
      srcOk (List.replicate 64 0#8) = true ∧ v.1 = some ([], false) ∧ z.place 2 = some (0, 2) ∧ v.2.mapped true 0x10000 2 = true ∧
      ((e 65536).enc 31).place 2 = none ∧ ((after (.pictureEncode 31 { head := [5], slices := [6] } 9) (e 0)).enc 31).bytes.written = 2 ∧
      Mem.rd (after (.pictureEncode 31 { head := [5], slices := [6] } 9) (e 0)).dram 0x1000010001 = 6#8 ∧
      ((after (.pictureEncode 31 { head := [5], slices := [6] } 9) (e 65536)).enc 31).idrNext = true) := by
  and_intros <;> decide +kernel

/-- The bytes that follow the signature of an image that reloads CISTERN with two pools of 384 pages. -/
def reloadBody : List Byte := leBytes (2 + 65536) 4 ++ leBytes 20 4 ++ leBytes 2 4 ++ leBytes 1 4 ++ leBytes 384 4 ++
  leBytes (2 + 384 * 65536) 4 ++ leBytes 384 4 ++ leBytes 0 4

/-- The bytes before its hash. -/
def reloadHead : List Byte := leBytes 0x50415254 4 ++ leBytes 0x100 2 ++ leBytes 2 2 ++ leBytes 208 4 ++ leBytes 1 4 ++ leBytes 7 4 ++ leBytes 0 12

/-- The image, with the hash that R79 asks for. -/
def reloadImage : List Byte := reloadHead ++ beBytes (sha384 (reloadHead ++ reloadBody)) 48 ++ List.replicate 96 0#8 ++ reloadBody

/-- The device with an image in force, while it checks a copy. -/
def checked (b : List Byte) : State :=
  { on.wf Reg.parterreStatus F.parterreStatus_STATE 1 with checker := { copy := b, inForce := true } }

theorem beNat_beBytes (v n : Nat) (h : v < 256 ^ n) : beNat (beBytes v n) = v := by
  have key : ∀ (n v : Nat), (leBytes v n).foldr (fun b m => m * 256 + b.toNat) 0 = v % 256 ^ n := by
    intro n
    induction n with
    | zero => intro v; simp [leBytes, Nat.mod_one]
    | succ n ih =>
      intro v
      simp only [leBytes, List.foldr_cons, ih, BitVec.toNat_ofNat, Nat.pow_succ]
      have e := @Nat.mod_mul 256 (256 ^ n) v
      rw [show (256 : Nat) ^ n * 256 = 256 * 256 ^ n from Nat.mul_comm _ _, e]
      generalize v / 256 % 256 ^ n = q
      omega
  unfold beNat beBytes
  rw [List.foldl_reverse, key, Nat.mod_eq_of_lt h]

theorem reload_hash : (sha384 (reloadImage.take 0x20 ++ reloadImage.drop 0xB0) == beNat (Pi.hash reloadImage)) = true := by
  have h1 : reloadImage.take 0x20 ++ reloadImage.drop 0xB0 = reloadHead ++ reloadBody := rfl
  have h2 : Pi.hash reloadImage = beBytes (sha384 (reloadHead ++ reloadBody)) 48 := rfl
  rw [h1, h2, beNat_beBytes (sha384 (reloadHead ++ reloadBody)) 48 (Nat.lt_of_lt_of_eq (BitVec.isLt _) (by decide +kernel))]
  simp

/-- An image passes every check. -/
theorem reload_passes : (checked reloadImage).runChecks [] = none := by
  unfold State.runChecks Pi.checkImage Pi.checkSig
  simp only [show (checked reloadImage).checker.copy = reloadImage from rfl, reload_hash]
  decide +kernel

theorem wit_TheCheckerJudgesImages :
    let go := word [(F.parterreCtrl_GO, 1)]
    let lk := word [(F.parterreCtrl_LOCK, 1)]
    (go.fld F.parterreCtrl_GO = 1 ∧ (checked []).checking = true ∧ on.checking = false ∧ (on.readImage 0).2.1 = true ∧
      (after (.parterreGo 0 [] go) (checked [])).rf Reg.parterreStatus F.parterreStatus_OVERLAP = 1 ∧
      (after (.parterreGo 0 [] go) on).rf Reg.parterreStatus F.parterreStatus_READ_ERR = 1) ∧
    (lk.fld F.parterreCtrl_GO = 0 ∧ (after (.parterreLock 0 lk) on).imageLocked = true) ∧
    ((checked []).up = true ∧ (checked []).checkReady = true ∧ (checked []).dramServes = true ∧ (checked []).legacy = false ∧
      (checked []).runChecks [] = some ⟨1, 0, 0, none⟩ ∧ ((checked []).checker.boot && (checked []).checker.inForce) = false ∧
      Pi.reload [] = false ∧ (after (.parterreCheck []) { checked [] with checker := { copy := [] } }).rf Reg.parterreStatus F.parterreStatus_STATE = 4 ∧
      (after (.parterreCheck []) (checked [])).rf Reg.parterreStatus F.parterreStatus_STATE = 5) ∧
    ((checked reloadImage).checking = true ∧ (checked reloadImage).checkReady = true ∧ (checked reloadImage).legacy = false ∧
      ((Pi.frames reloadImage).1.map fun g => (g.tag, g.payload reloadImage)) = [(2, (reloadBody.drop 8).take 20)]) := by
  decide +kernel

theorem wit_RegistersAreWritten :
    let b : State := { on with boot := { on.boot with sramLock := 0x100 } }
    (ownRow 0x1C00000 = false ∧ ownRow 0x3FFFFFC = false ∧ (after (.registerWrite 9 0x1C00000 0) on).rf Reg.chipErr F.chipErr_VALID = 1) ∧
    (ownRow 0x1BFFFFF = false ∧ (after (.registerWrite 9 0x1BFFFFF 0) on).rf Reg.chipErr F.chipErr_KIND = ChipErr.size) ∧
    (on.up = true ∧ ownRow Reg.parterreSrcLo = false ∧ injAt Reg.parterreSrcLo = none ∧ Reg.parterreSrcLo % 4 = 0 ∧ Reg.parterreSrcLo < 0x1880000 ∧
      (after (.registerWrite 9 Reg.parterreSrcLo 0xFFFFFFFF) on).rf Reg.parterreSrcLo F.parterreSrcLo_ADDR = 2 ^ 29 - 1) ∧
    (ownRow (0x1880000 + 0x100) = false ∧ b.boot.sramLock ≤ 0x100 ∧ Mem.rdN (after (.registerWrite 9 (0x1880000 + 0x100) 7) b).boot.sram 0x100 4 = 7 ∧
      ownRow (0x1880000 + 0x7FFFC) = false) ∧
    (ownRow (0x1880000 + 0xFC) = false ∧ (0xFC : Nat) < b.boot.sramLock ∧ (after (.registerWrite 9 (0x1880000 + 0xFC) 7) b).boot.sram = []) ∧
    (accessKind 1 2 false = some ChipErr.size ∧ accessKind 0x3FFFFFF 1 false = some ChipErr.unassigned ∧ accessKind 0 2 true = some ChipErr.size ∧
      (after (.unassignedAccess 9 0x40000000 2 true) on).rf Reg.chipErr F.chipErr_KIND = ChipErr.size) ∧
    (let w : State := { on with sections := [(Tag.cistern, leBytes 1 4 ++ leBytes 0x02FF0005 4 ++ leBytes 1 4)] }
     on.portReaches 26 767 = false ∧ on.rf Reg.cisErr F.cisErr_VALID = 0 ∧ w.portReaches 26 767 = true ∧ w.portReaches 26 766 = false ∧
      (after (.unassignedAccess 9 0x802FFFFFF 4 true) on).rf Reg.cisErr F.cisErr_PAGE = 767 ∧
      (after (.unassignedAccess 9 0x802FFFFFF 4 true) on).rf Reg.cisErr F.cisErr_PORT = 26 ∧ after (.unassignedAccess 9 0x802FFFFFF 4 true) w = w) ∧
    on.rf Reg.chipErr F.chipErr_VALID = 0 := by decide +kernel

/-- The sections of a device with four Fountains of a core each, a FEATURE pool of four pages, and the guarantee floor 5. -/
def four : List (Nat × List Byte) :=
  [(Tag.fountains, leBytes 4 4 ++ leBytes 0x01010101 4 ++ leBytes 0x38383838 4 ++ leBytes 0 4),
   (Tag.cistern, leBytes 1 4 ++ leBytes 2 4 ++ leBytes 4 4), (Tag.clocks, clocks 5 5 [])]

/-- A program at device-virtual page 1: one layer, whose segment holds two bundles, the 64 bytes of a Skimmer command: TOPK of one
score. -/
def prog : Mem := [(0, 4, 0x4E4C414B), (8, 2, 1), (0xC, 1, 57), (0x10, 4, 0x40), (0x14, 4, 0x48), (0x20, 4, 0x80), (0x4C, 2, 2),
  (0x80, 1, 1), (0x84, 4, 1), (0x88, 2, 1)].foldl (fun m e => Mem.wrN m (0x1000010000 + e.1) e.2.1 e.2.2) []

/-- The device with four Fountains whose cores have passed their self-test, a program, and an image in force. -/
def works : State := { on with
  sections := four
  dram := prog
  cores := [(0, { tested := true }), (1, { tested := true }), (2, { tested := true }), (3, { tested := true })]
  checker := { inForce := true } }

/-- The header of a certificate for that program. -/
def cert1 : Cert := {
  magic := 0x54524543, version := 0x100, layerCount := 1, fsize := 1, pw := 57, totalLength := 128, layerOff := 96,
  pageOff := 96, syncOff := 96, programVa := 0x10000 }

theorem wit_JobsAreAdmitted :
    let d : Desc := { fountain := 3, deadlineC := 2 ^ 64 - 1 }
    let g : Desc := { fountain := 3, dflags := 1, deadline := 10, deadlineC := 2 ^ 64 - 11 }
    let i := fun d : Desc => ({ slot := 0, queue := 0, ringCount := 5, gts := 0, desc := d, handles := [] } : Intake)
    let q := fun d => ({ works with weir := { works.weir with intake := [i d] } } : State)
    let m := { cert1 with pages := [{ obj := 0xFF }] }
    let w := { cert1 with syncs := [{ gate := 63 }] }
    let narrow := works.setCore 3 { tested := true, badcol := [(3, 0xFF)] }
    let full : State := { works with weir := { works.weir with jobs := List.replicate 256 { job0 with guar := true } } }
    let slow : State := { works with pwr := { works.pwr with op := 6 } }
    (works.up = true ∧ works.weir.intake = [] ∧ after .admissionTest works = works ∧ on.testsHeld = true) ∧
    ((q d).testsHeld = false ∧ (i d).desc.twinOk = true ∧ (i d).desc.guar = false ∧ (i g).desc.twinOk = true ∧ (i g).desc.guar = true ∧
      (works.loadCert 0).1.isSome = true ∧ (q g).guarJobs = [] ∧ (after .admissionTest (q d)).weir.intake = []) ∧
    ((i {}).desc.twinOk = false ∧ (works.verdict (i {}) none).reason = 0x27 ∧ (works.verdict (i g) none).reason = 0x26 ∧
      works.descOk (i d) = true ∧ works.descOk (i g) = true ∧ works.descOk (i { d with resv := 1 }) = false ∧
      works.certFound (i d) cert1 = true ∧ works.certFound (i d) { cert1 with magic := 0 } = false) ∧
    (narrow.certFound (i d) cert1 = true ∧ narrow.ftnWidth 3 = 56 ∧ (narrow.verdict (i d) (some cert1)).reason = 0x21 ∧
      (narrow.verdict (i d) (some { cert1 with pw := 56 })).reason = 0x26 ∧ works.ftnWidth 3 = 64) ∧
    (works.certFound (i d) m = true ∧ works.beMemoryRefused (works.newJob (i d) { cert1 with pages := List.replicate 5 { obj := 0xFF } }) = true ∧
      (works.verdict (i d) (some m)).reason = 0 ∧ (works.verdict (i d) (some cert1)).reason = 0) ∧
    (full.descOk (i g) = true ∧ full.certFound (i g) cert1 = true ∧ full.guarJobs.length = 256 ∧ (full.verdict (i g) (some cert1)).reason = 0x22) ∧
    (slow.certFound (i g) cert1 = true ∧ slow.guarJobs.length < 256 ∧ slow.belowFloor = true ∧ (slow.verdict (i g) (some cert1)).reason = 0x25) ∧
    (works.certFound (i g) w = true ∧ works.belowFloor = false ∧ (i g).desc.phase = false ∧ works.producers w = none ∧
      (works.verdict (i g) (some w)).reason = 0x28) ∧
    (job0.progressVa = 0 ∧ job0.guar = false ∧ (works.accept job0).weir.jobs.length = 1 ∧ (works.accept job0).weir.jobs.map Job.twinOk = [true]) ∧
    (let q : Page := { va := some 1, weight := true }
     let l : Job := { job0 with cert := { cert1 with pages := [{ obj := 0, flags := 3 }] }, handles := [{ baseVa := 0x10000 }] }
     let c : State := { works with pages := [(3, q)] }
     q.st = Pg.free ∧ l.lists q = true ∧ (c.revive l).page 3 = { q with st := Pg.resident } ∧ (c.revive job0).page 3 = q) := by
  decide +kernel

/-- A guaranteed job of Fountain 3 whose certificate's first layer entry stands at device-virtual 96. -/
def job3 (c : Cert) : Job := { job0 with guar := true, granted := true, fountain := 3, deadline := 10 ^ 9, cert := c }

/-- That device with one job pending and, in memory, the entry of its first layer: KIND and a BOUND of 200 cycles. -/
def ready (j : Job) (kind : Nat) : State := { works with
  dram := Mem.wrBytes prog (0x1000000000 + 96) (leBytes kind 4 ++ leBytes 200 4)
  weir := { works.weir with jobs := [j] } }

theorem wit_LayersRunAndCommit :
    let c := { cert1 with sumCyc := 200, maxCyc := 200, maxUnit := 200 }
    let k := { cert1 with sumSkim := 200, maxSkim := 200, skimLayers := 1 }
    let ftn := fun c => (ready (job3 c) 1).setFtn 3 { swapPending := true, pend := some (1, 0, 0) }
    let s := ftn c
    let v := s.checkEntries.grantAll.noteReady
    let e : CertLayer := { bound := 200 }
    let sk := ready (job3 k) 2
    let x := sk.checkEntries.grantAll.noteReady
    let p : CertPage := { obj := 0, flags := 3, view := 0 }
    let r : LayerRun := { job := 1, layer := 0, ent := e, dispatchGts := 0, stoppedAt := some 0 }
    let st := (ready (job3 c) 1).setFtn 3 { run := some r }
    let st4 : State := { sk with skim := { run := some r } }
    let at_ : LayerRun := { r with stoppedAt := none }
    let gone := { job3 { c with pages := [p] } with handles := [{ baseVa := 0x50000 }] }
    let bad := { job3 { c with pages := [p] } with handles := [{ baseVa := 0x10000 }] }
    let twice : State := { (ready bad 1).setFtn 3 { run := some r } with
      pages := [(3, { st := Pg.resident, va := some 1, weight := true })]
      integ := { works.integ with marks := [(markKey Mc.cistern 0 0x30000, .double false), (markKey Mc.dram 0 0x10000, .double false)] } }
    let lost : State := { (ready { job3 { c with pages := [p] } with handles := [{ baseVa := 0x50000 }] } 1).setFtn 3 { run := some r } with
      pages := [(3, { st := Pg.resident, va := some 5, weight := true })]
      integ := { works.integ with marks := [(markKey Mc.cistern 0 0x30000, .double false)] } }
    (s.up = true ∧ s.integ.protective = false ∧ (ready (job3 c) 1).ftnFree 3 = true ∧ st.ftnFree 3 = false ∧ on.ftnFree 3 = false ∧
      st.ftnOverlaps 3 = none ∧ s.dramServes = true) ∧
    (s.ftnFree 3 = true ∧ (v.ftn 3).carryOf = none ∧ (ready (job3 c) 1).checkEntries.grantAll.noteReady.chooseLayer 3 = none ∧
      v.chooseLayer 3 = some (job3 c) ∧ v.listsPoison (job3 c) 0 = false ∧ v.layerEnt (job3 c) 0 = some e ∧
      (job3 c).layerOk 0 e = true ∧ (v.progLayer (job3 c) 0).isSome = true ∧ (job3 c).cert.scaleVa = 0 ∧ v.pending? 1 = some (job3 c) ∧
      v.injArmed 0x17 0 8 3 = false ∧ (after (.layerDispatch 3) s).rn (Reg.ftnBudget 3) = 104 ∧
      (job3 { c with maxCyc := 199 }).layerOk 0 e = false ∧
      (ftn { c with maxCyc := 199 }).checkEntries.grantAll.noteReady.chooseLayer 3 = some (job3 { c with maxCyc := 199 })) ∧
    (sk.skim.run = none ∧ x.chooseSkim = some (job3 k) ∧ x.layerEnt (job3 k) 0 = some { e with kind := 2 } ∧
      (job3 k).layerOk 0 { e with kind := 2 } = true ∧ x.pending? 1 = some (job3 k) ∧ (x.skimBytes (job3 k) 0).1.isSome = true ∧
      (let b := ((x.skimBytes (job3 k) 0).1).getD []; (SkimCmd.parse b).ok = true ∧ b.length = 64) ∧
      (after .skimmerDispatch sk).skim.run.map LayerRun.job = some 1 ∧ (job3 { k with maxSkim := 199 }).layerOk 0 { e with kind := 2 } = false ∧
      (ready (job3 { k with maxSkim := 199 }) 2).checkEntries.grantAll.noteReady.chooseSkim.isSome = true) ∧
    (st.pending? 1 = some (job3 c) ∧ (st.refillAll (job3 c) 0).1 = .good ∧ ((st.refillAll (job3 c) 0).2.reloadSeg 3 (job3 c) 0).1 = true ∧ ((after (.replayRestart 3) st).ftn 3).run = some { r with stoppedAt := none, attempt := 1 } ∧
      lost.pending? 1 = some { job3 { c with pages := [p] } with handles := [{ baseVa := 0x50000 }] } ∧
      (lost.refillAll gone 0).1 = .unmapped ∧
      twice.pending? 1 = some bad ∧ (twice.refillAll bad 0).1 = .bad ∧ (after (.replayRestart 3) twice).weir.jobs = [] ∧
      (let n := { st with weir := { st.weir with jobs := [job3 { c with programVa := 0x50000 }] } }
       (n.refillAll (job3 { c with programVa := 0x50000 }) 0).1 = .good ∧ ((n.refillAll (job3 { c with programVa := 0x50000 }) 0).2.reloadSeg 3 (job3 { c with programVa := 0x50000 }) 0).1 = false)) ∧
    (st4.skim.run = some r ∧ st4.pending? 1 = some (job3 k) ∧ (st4.refillAll (job3 k) 0).1 = .good ∧
      (after (.replayRestart 4) st4).skim.run = some { at_ with attempt := 1 }) := by
  and_intros <;> decide +kernel

theorem wit_LayersOverlapACommit :
    let c := { cert1 with sumCyc := 200, maxCyc := 200, maxUnit := 200 }
    let r : LayerRun := { job := 1, layer := 0, ent := { bound := 200 }, dispatchGts := 0 }
    let two := { job3 c with id := 2, deadline := 2 * 10 ^ 9 }
    let ovl := fun k : Job => ({ ready (job3 c) 1 with weir := { works.weir with jobs := [job3 c, k] } } : State).setFtn 3
      { run := some r, committing := true, swapPending := true, pend := some (2, 0, 0) }
    let s := ovl two
    let v := s.checkEntries.grantAll.noteReady
    let o : Over := { run := r }
    let bad := { two with cert := { c with maxCyc := 199 } }
    let j := job3 { cert1 with layerCount := 2, outputCount := 1 }
    let t := (ready j 1).setFtn 3 { run := some { r with job := 2 }, ovl := some o }
    s.ftnOverlaps 3 = some o ∧ (v.asCommitted 3 o).chooseLayer 3 = some two ∧ (v.asCommitted 3 o).dispatchSure two = true ∧
    (v.asCommitted 3 o).layerEnt two 0 = some { bound := 200 } ∧ v.injArmed 0x17 0 8 3 = false ∧
    ((after (.layerDispatch 3) s).ftn 3).ovl = some o ∧ ((after (.layerDispatch 3) s).ftn 3).run = some { r with job := 2 } ∧
    ((ovl bad).checkEntries.grantAll.noteReady.asCommitted 3 o).dispatchSure bad = false ∧
    ((after (.layerDispatch 3) (ovl bad)).ftn 3).ovl = none ∧
    ((ovl job0).checkEntries.grantAll.noteReady.asCommitted 3 o).chooseLayer 3 = none ∧
    (t.ftn 3).ovl = some o ∧ t.pending? 1 = some j ∧ t.overdue j = false ∧ o.held = [] ∧ j.guar = true ∧ r.layer + 1 < j.cert.layerCount ∧
    ((after (.layerCommit 3) t).ftn 3).ovl = none ∧ ((after (.layerCommit 3) t).ftn 3).run = some { r with job := 2 } ∧
    ((after (.layerCommit 3) t).pending? 1).map Job.nextLayer = some 1 := by
  decide +kernel

theorem wit_LayersAndTilesCommit :
    let j := job3 { cert1 with layerCount := 2, outputCount := 1 }
    let r : LayerRun := { job := 1, layer := 0, ent := { bound := 200, outLast := 1 }, dispatchGts := 0 }
    let s := fun x : Fountain => (ready j 1).setFtn 3 { x with run := some r }
    let c := s { committing := true }
    let t := s { tileReqs := 1, held := [.tile] }
    let done := { t with weir := { t.weir with jobs := [{ j with tileDone := 1 }] } }
    let cmd := leBytes 1 4 ++ leBytes 1 4 ++ leBytes 1 4 ++ leBytes 0 52
    let sk := fun v => ({ ready j 2 with skim := { run := some r, cmd := cmd, view := v } } : State)
    let u := fun v => ((sk v).skimStore (SkimCmd.parse cmd)).2
    let late : State := { c with gts := 10 ^ 9 + 1 }
    let store := c.setCore 3 { tested := true, rills := [(4, { st := 1 })] }
    let open_ := store.setFtn 3 { store.ftn 3 with rillSet := leBytes 1 8 ++ leBytes 0x401001 4 ++ leBytes 1 4 ++ leBytes 0 16 ++ leBytes (2 ^ 60) 8 ++ leBytes 0 120 }
    let lateT : State := { t with gts := 10 ^ 9 + 1 }
    (c.storesQuiet 3 = true ∧ c.overdue j = false ∧ (c.ftn 3).ovl = none ∧ late.overdue j = true ∧ late.storesQuiet 3 = true ∧
      (after (.layerCommit 3) late).weir.jobs = [] ∧ open_.storesQuiet 3 = false ∧ (after (.layerCommit 3) open_).pendingJobs.map Job.nextLayer = [0] ∧
      ({ c with ftns := [(3, { c.ftn 3 with storeAt := some 0 })] } : State).storesQuiet 3 = false ∧
      t.storesQuiet 3 = true ∧ lateT.overdue j = true ∧ (after (.tileCommit 3) lateT).weir.jobs = [] ∧
      (after .skimmerCommit { sk [] with gts := 10 ^ 9 + 1 }).weir.jobs = [] ∧ (on.ftn 3).committer = none) ∧
    (c.up = true ∧ (c.ftn 3).run = some r ∧ c.pending? 1 = some j ∧ (s {}).pending? 1 = some j ∧ ((s {}).ftn 3).committing = false ∧
      r.ent.streaming = false ∧ (c.ftn 3).held = [] ∧ j.guar = true ∧ r.layer + 1 < j.cert.layerCount ∧
      ((after (.layerCommit 3) c).pending? 1).map Job.outBits = some 1) ∧
    (((s {}).ftn 3).tileReqs = 0 ∧ (t.ftn 3).held = [.tile] ∧ (t.ftn 3).tileReqs = 1 ∧ r.ent.firstTile + (t.ftn 3).tileNow < 1 ∧
      j.progressVa = 0 ∧ ((after (.tileCommit 3) t).pending? 1).map Job.tileDone = some 1 ∧ ((after (.tileCommit 3) done).ftn 3).tileReqs = 0) ∧
    (((sk []).skimStore (SkimCmd.parse cmd)).1 = false ∧ (((u []).skimRun (SkimCmd.parse cmd)).1 matches .error .range) = true ∧
      (after .skimmerCommit (sk [])).skim.run = none ∧
      (let w := (u [(0, 1 + 1024)]).skimRun (SkimCmd.parse cmd)
       (w.1 matches .ok ()) = true ∧ w.2.pending? 1 = some j) ∧
      ((after .skimmerCommit (sk [(0, 1 + 1024)])).pending? 1).map Job.nextLayer = some 1) := by
  decide +kernel

theorem wit_TheWeirWatchesItsJobs :
    let j := job3 cert1
    let b := { job3 cert1 with guar := false, deadline := 7 }
    let at_ := fun (s : State) g => ({ s with gts := g } : State)
    let s := ready j 1
    let be := ready b 1
    let r : LayerRun := { job := 1, layer := 0, ent := { bound := 200 }, dispatchGts := 0 }
    let run := fun s : State => (s.setFtn 3 { run := some r, started := true }).wn (Reg.ftnBudget 3) 104
    let sk := { s with skim := { run := some r } }
    let ph := fun n => ({ s with weir := { s.weir with jobs := [{ j with phase := some { input := 8, target := n, up := true } }] } } : State)
    let hold := fun s : State => s.setFtn 3 { run := some r, waitf := some (63, true, 0), swapPending := true, pend := some (2, 0, 0) }
    (s.up = true ∧ s.checkEntries.pending? 1 = some j ∧ j.guar = true ∧ j.doneAt = none ∧ s.checkEntries.injArmed 0x17 0 9 0 = false ∧
      (at_ s (10 ^ 9)).checkEntries.pending? 1 = some j ∧ (after (.deadlineMiss 1) (at_ s (10 ^ 9))).weir.jobs = [] ∧
      (after (.deadlineMiss 1) (at_ s (10 ^ 9 - 1))).weir.jobs = [j]) ∧
    (be.pending? 1 = some b ∧ b.guar = false ∧ (after (.stopTimeReached 1) (at_ be 7)).weir.jobs = [] ∧
      (after (.stopTimeReached 1) (at_ be 6)).weir.jobs = [b]) ∧
    (((run s).ftn 3).run = some r ∧ ((run s).ftn 3).committing = false ∧ (run s).rn (Reg.ftnCycles 3) < 104 ∧
      (after (.budgetExhausted 3) (run s)).weir.jobs = [j] ∧ (after (.budgetExhausted 3) ((run s).wn (Reg.ftnCycles 3) 104)).weir.jobs = []) ∧
    (sk.skim.run = some r ∧ (after .skimmerBudgetExhausted sk).weir.jobs = [j] ∧
      (after .skimmerBudgetExhausted (sk.wn Reg.skimCycles 136)).weir.jobs = []) ∧
    ((s.pendingJobs.all fun k => k.phase.isNone) = true ∧ (ph 0).targetReached { input := 8, target := 0, up := true } = true ∧
      (ph 1).targetReached { input := 8, target := 1, up := true } = false ∧ (after .phaseTargetCheck (ph 0)).weir.jobs = [] ∧
      (after .phaseTargetCheck (ph 1)).weir.jobs.length = 1) ∧
    ((hold s).gateFlag 63 ≠ true ∧ (hold s).pending? 1 = some j ∧ (after (.waitfTimeout 3) (at_ (hold s) 1001)).weir.jobs = [] ∧
      (after (.waitfTimeout 3) (at_ (hold s) 1000)).weir.jobs = [j]) := by
  decide +kernel

theorem wit_TheWeirWatchesItsJobs2 :
    let b := { job3 cert1 with guar := false, deadline := 7 }
    let be := ready b 1
    let r : LayerRun := { job := 1, layer := 0, ent := { bound := 200 }, dispatchGts := 0 }
    let hold := fun s : State => s.setFtn 3 { run := some r, waitf := some (63, true, 0), swapPending := true, pend := some (2, 0, 0) }
    let two := hold { be with weir := { be.weir with jobs := [b, { job3 { cert1 with layerCount := 0 } with id := 2 }] } }
    two.gateFlag 63 ≠ true ∧ two.pending? 1 = some b ∧ (two.guarJobs.any fun k => k.fountain == 3 && two.ftnReady k) = true ∧
      ((after (.beWaitfPreempt 3) two).ftn 3).run = none ∧ ((hold be).guarJobs.any fun k => k.fountain == 3 && (hold be).ftnReady k) = false := by
  decide +kernel

theorem wit_TheWeirWatchesItsJobs3 :
    let j := job3 cert1
    let b := { job3 cert1 with guar := false, deadline := 7 }
    let at_ := fun (s : State) g => ({ s with gts := g } : State)
    let s := ready j 1
    let be := ready b 1
    let r : LayerRun := { job := 1, layer := 0, ent := { bound := 200 }, dispatchGts := 0 }
    let hold := fun s : State => s.setFtn 3 { run := some r, waitf := some (63, true, 0), swapPending := true, pend := some (2, 0, 0) }
    let cyc := hold { be with weir := { be.weir with jobs := [{ b with cert := { cert1 with syncs := [{ gate := 63, isSet := true, value := true }] } }] } }
    let h := (b, 3, 63, true)
    (hold be).gts % 1000 = 0 ∧ (hold be).holders = [h] ∧ onCycle (hold be).waitEdges b.node = false ∧
      cyc.holders.map Prod.snd = [(3, 63, true)] ∧ onCycle cyc.waitEdges b.node = true ∧ (after .deadlockWalk cyc).weir.jobs = [] ∧
      (at_ s 999).gts % 1000 ≠ 0 := by
  decide +kernel

theorem wit_TheWeirWatchesItsJobs4 :
    let j := job3 cert1
    let s := ready j 1
    let r : LayerRun := { job := 1, layer := 0, ent := { bound := 200 }, dispatchGts := 0 }
    let sk := { s with skim := { run := some r } }
    let res := { sk with weir := { sk.weir with jobs := [{ j with reserve := 1 }] } }
    res.runOf 4 = some r ∧ (res.ftnCores 4).contains 15 = false ∧ (res.pending? 1).map Job.reserve = some 1 ∧
      ((after (.faultCharged 4 15 0x11 7 0 false) res).runOf 4).map LayerRun.stoppedAt = some (some 0) ∧
      (after (.faultCharged 4 15 1 7 0 false) sk).weir.jobs = [] ∧
      (let c : Over := { run := { r with layer := 0 } }
       let ov := { s with weir := { s.weir with jobs := [{ j with reserve := 1 }] } }.setFtn 3 { ovl := some c, run := some { r with job := 2 } }
       let w := ov.occur ⟨0x11, Kind.occurrence, 7, 0, false⟩
       (ov.runOf 3).isSome = true ∧ (ov.ftnCores 3).contains 15 = false ∧ (ov.ftn 3).ovl = some c ∧ (ov.ftn 3).started = false ∧
        (w.pending? 1).map Job.reserve = some 1 ∧ ((after (.faultCharged 3 15 0x11 7 0 false) ov).ftn 3).ovl = none ∧
        (after (.faultCharged 3 15 0x11 7 0 false) ov).runOf 3 = some { r with stoppedAt := some 0 }) ∧
      sk.rf (Reg.residueCount 3) F.residueCount_COUNT = 0 ∧
      (sk.residueNote 3 0 0 0 0 0).rf (Reg.residueCount 3) F.residueCount_COUNT = 1 ∧
      (sk.residueNote 3 0 0 0 0 0).rf (Reg.residueLog 3) F.residueLog_VALID = 1 := by
  decide +kernel

theorem wit_TheWeirWatchesItsJobs5 :
    let j := job3 cert1
    let out := { cert1 with outputCount := 1, pages := [{ obj := 0 }] }
    let ej := { j with ended := some 0x15, wbPages := 3, cert := out, handles := [{ baseVa := 0x50000 }] }
    let wb := fun d => ({ ready ej 1 with pages := [(3, { st := Pg.resident, va := some 5, dirty := d })] } : State)
    ((wb true).job? 1).isSome = true ∧ (((wb true).job? 1).map (wb true).dirtyOutputs) = some 1 ∧ (((wb false).job? 1).map (wb false).dirtyOutputs) = some 0 ∧
      (after (.writebackDone 1) (wb false)).events.map Event.detail = [3] ∧ (after (.writebackDone 1) (wb true)).weir.jobs.length = 1 := by
  decide +kernel

theorem wit_PagesMoveWithTheirJobs :
    let p : CertPage := { obj := 0, flags := 2 }
    let h : Handle := { baseVa := 0x10000 }
    let j := fun p => { job3 { cert1 with pages := [p] } with handles := [h] }
    let s := fun p => ready (j p) 1
    let full : State := { s p with pages := [(3, { st := Pg.resident, va := some 1 })] }
    let fill : State := { s p with pages := [(3, { st := Pg.filling, va := some 1, by_ := 1 })], dram := Mem.wrN [] 0x100001FFFF 1 9 }
    let none_ : State := { s p with pages := [(3, { st := Pg.filling })] }
    let wb : State := { s p with pages := [(3, { st := Pg.writeback, va := some 1, dirty := true })], cistern := Mem.wrN [] 0x3FFFF 1 9, dram := [] }
    let be := { j { p with first := 0 } with guar := false, nextLayer := 0 }
    let bs := ready be 1
    let other := { be with id := 2, acceptGts := 5, handles := [{ baseVa := 0 }], cert := { cert1 with pages := [{ p with first := 1, last := 1 }] } }
    let held := fun v => ({ st := Pg.resident, va := some v } : Page)
    let ev : State := { ready be 1 with weir := { works.weir with jobs := [be, other] }, pages := [(0, held 7), (1, held 8), (2, held 0), (3, held 9)] }
    let later := { be with cert := { cert1 with pages := [{ p with first := 1, last := 1 }] } }
    let none0 : State := { ready later 1 with sections := [(Tag.fountains, [])] }
    (bs.grantAll.nextFill be = some { p with first := 0 } ∧ bs.grantAll.bePages < bs.grantAll.beLimit ∧ bs.grantAll.oldestFree Pool.feature = some 0 ∧
      none0.grantAll.nextFill later = some { p with first := 1, last := 1 } ∧ none0.grantAll.beLimit ≤ none0.grantAll.bePages ∧
      none0.grantAll.firstWaiting later < 1 ∧ on.dramServes = true ∧ ev.grantAll.nextFill be = some { p with first := 0 } ∧
      ev.grantAll.bePages < ev.grantAll.beLimit ∧ ev.grantAll.oldestFree Pool.feature = none ∧ (0 : Nat) ≤ ev.grantAll.firstWaiting be ∧
      ev.grantAll.reclaim (ev.grantAll.poolPages Pool.feature) (some be) = some 2 ∧ ((after (.pageFillStart 1 31) ev).page 2).st = Pg.free ∧
      after (.pageFillDone 3) { fill with weir := { fill.weir with maintStart := some 0 } } = { fill with weir := { fill.weir with maintStart := some 0 } } ∧ (s p).grantAll.pending? 2 = none) ∧
    ((s p).up = true ∧ (s p).grantAll.job? 1 = some (j p) ∧ (s p).grantAll.nextFill (j p) = some p ∧ (s p).grantAll.pageFor (j p) p = none ∧
      (j p).guar = true ∧ (s p).grantAll.oldestFree Pool.feature = some 0 ∧ ((after (.pageFillStart 1 31) (s p)).page 0).st = Pg.filling ∧
      full.grantAll.nextFill (j p) = none ∧ (after (.pageFillStart 1 31) full).pages = full.pages) ∧
    (((s p).page 3).st ≠ Pg.filling ∧ ((s p).page 3).st ≠ Pg.writeback ∧ (none_.page 3).st = Pg.filling ∧ (none_.page 3).va = none ∧
      (fill.page 3).st = Pg.filling ∧ (fill.page 3).va = some 1 ∧ (fill.xlateFor (fill.page 3).who false 0x10000).1 = some 0x1000010000 ∧
      ((after (.pageFillDone 3) fill).page 3).st = Pg.resident ∧ Mem.rd (after (.pageFillDone 3) fill).cistern 0x3FFFF = 9#8) ∧
    ((wb.page 3).st = Pg.writeback ∧ (wb.page 3).va = some 1 ∧ (wb.xlateFor (wb.backWho (wb.page 3)) true 0x10000).1 = some 0x1000010000 ∧
      (∀ k ∈ wb.pendingJobs, k.doneAt = none) ∧ Mem.rd (after (.pageWritebackDone 3) wb).dram 0x100001FFFF = 9#8 ∧
      ((after (.pageWritebackDone 3) wb).page 3).st = Pg.resident) := by decide +kernel

theorem wit_CoresAndMemoriesAreServiced :
    let im := (works.wf (Reg.ftnCtrl 3) F.ftnCtrl_HOST_IMEM 1)
    let idle15 := works.setCore 15 { tested := true }
    let r : LayerRun := { job := 1, layer := 0, ent := { bound := 200 }, dispatchGts := 0 }
    let run := (ready (job3 cert1) 1).setFtn 3 { run := some r }
    let scrub : State := { on with integ := { on.integ with marks := [(markKey Mc.cistern 0 (64 * 786431 + 56), .single false)] } }
    let cal : State := { works with gts := 1000, ddr := { pend := [(1, { lines := 17, weight := 1 })], reserved := 33, used := [(1, 33)] } }
    let busy : State := { cal with ddr := { cal.ddr with pend := [(1, { lines := 4000, weight := 1 })] } }
    let lists : State := { (ready { job3 { cert1 with pages := [{ obj := 0 }] } with handles := [{ baseVa := 0x50000 }] } 1).setFtn 3 { run := some r } with
      pages := [(3, { st := Pg.resident, va := some 5 })] }
    let o := lists.occur ⟨0xC, Kind.occurrence, 0x17, 19, false⟩
    (idle15.coreState 15 = Cs.off ∧ ((after (.bistStart 15 1) idle15).core 15).testing = true ∧ works.coreState 15 ≠ Cs.off ∧
      works.coreState 15 ≠ Cs.idle ∧ (after (.bistStart 15 1) works).rf (Reg.coreStatus 15) F.coreStatus_BIST_REFUSED = 1 ∧ works.coreState 3 = Cs.idle ∧ works.ftnOf 3 = some 3 ∧
      works.jobsFor 3 = false ∧ ((after (.bistStart 3 1) works).core 3).testing = true ∧ run.coreState 3 = Cs.run ∧
      (after (.bistStart 3 1) run).rf (Reg.coreStatus 3) F.coreStatus_BIST_REFUSED = 1 ∧ ((after (.bistStart 3 0) works).core 3).testing = false) ∧
    ((works.core 15).tested = false ∧ (works.core 3).testing = false ∧ (works.core 3).tested = true ∧
      (after (.bistDone 15 1 65535 [0, 0, 0, 2 ^ 64 + 1] [] [] [] []) works).badcol 15 3 = 1 ∧
      ((after (.bistDone 15 1 65535 [] [] [] [] []) works).core 15).unfit = true ∧
      (after (.bistDone 15 1 65535 [] [] [] [] []) works).rf (Reg.coreBistResult 15) F.coreBistResult_DURATION_US = 65535) ∧
    (works.up = true ∧ works.ftnState 3 = 1 ∧ (after (.hostImemWrite 3 1) works).rf (Reg.ftnCtrl 3) F.ftnCtrl_HOST_IMEM = 1 ∧
      (after (.hostImemWrite 3 1) run).rf (Reg.ftnCtrl 3) F.ftnCtrl_HOST_IMEM = 0 ∧ works.rf (Reg.ftnCtrl 3) F.ftnCtrl_HOST_IMEM = 0 ∧
      im.rf (Reg.ftnCtrl 3) F.ftnCtrl_HOST_IMEM ≠ 0 ∧ 0x3FFFC / 0x20000 ≠ (im.ftn 3).bank ∧ 0 / 0x20000 = (im.ftn 3).bank ∧
      Mem.rdN ((after (.imemWrite 3 0x3FFFC 0x89ABCDEF) im).ftn 3).imem1 0x1FFFC 4 = 0x89ABCDEF ∧
      (after (.imemWrite 3 0 7) im).rf (Reg.ftnImemStatus 3) F.ftnImemStatus_IMEM_BUSY = 1) ∧
    (scrub.marksIn Mc.cistern 0 (64 * 786431) 64 = [(markKey Mc.cistern 0 (64 * 786431 + 56), .single false)] ∧
      on.marksIn Mc.cistern 0 (64 * 786431) 64 = [] ∧ (after (.cisternScrub 786431) scrub).integ.marks = []) ∧
    (({ on with gts := 999 } : State).gts % 1000 ≠ 0 ∧ cal.gts % 1000 = 0 ∧ (after .calendarFrame cal).rf Reg.ddrFreeSlots F.ddrFreeSlots_USED_FREE = 2 ∧
      (after .calendarFrame cal).rf Reg.ddrFreeSlots F.ddrFreeSlots_FREE = 209 ∧ (after .calendarFrame cal).ddr.used = [] ∧
      (after .calendarFrame cal).ddr.pend = [] ∧ (after .calendarFrame busy).rf Reg.ddrFreeSlots F.ddrFreeSlots_USED_FREE = 209 ∧
      (after .calendarFrame busy).ddr.pend.map (fun e => e.2.lines) = [4000 - 16 * 209] ∧
      ({ cal with weir := { cal.weir with maintStart := some 0 } } : State).freeOffered = 0) ∧
    (lists.injArmed 0x17 0 7 15 = false ∧ lists.injArmed 0x17 0 7 16 = false ∧ lists.injArmed 0x17 0 7 19 = false ∧ lists.injArmed 0x17 0 7 24 = false ∧
      lists.injArmed 0x17 0 7 27 = false ∧ (∀ e < 5, o.layerLists e 4 = false) ∧ o.layerLists 3 3 = true ∧ (∀ e < 5, e ≠ 3 → o.layerLists e 3 = false) ∧
      (∀ e < 5, 3 < e → (o.chargeFault 3 0xC false).layerLists e 3 = false) ∧ (after (.busTimeout 19 3) lists).weir.jobs = [] ∧
      (after (.busTimeout 19 4) lists).weir.jobs.length = 1 ∧ (after (.busTimeout 3 0) lists).weir.jobs = [] ∧
      (after (.busTimeout 27 0) lists).weir.jobs.length = 1) := by
  and_intros <;> decide +kernel

/-- A Rill set of one program: one element of 64 bytes from the Basin to the Reservoir, and its POST_SL. -/
def rillSet1 (post : Nat) : List Byte := leBytes 1 8 ++ leBytes 0x401001 4 ++ leBytes (1 + post * 2 ^ 24) 4 ++ leBytes 0 16 ++ leBytes (2 ^ 60) 8 ++ leBytes 0 120

theorem wit_TheFountainsEnginesWork :
    let j := job3 cert1
    let s := ready j 1
    let run : LayerRun := { job := 1, layer := 0, ent := { bound := 200 }, dispatchGts := 0 }
    let live := fun x : Fountain => s.setFtn 3 { x with run := some run }
    let m : MSlot := { amask := 1 }
    let h : MRun := { m := m, phase := 1 }
    let st := live { mats := [h] }
    let go := st.setOpq 3 0 [List.replicate 32 0]
    let pre := live { mats := [{ h with mpl := true, phase := 0, m := { m with amask := 0 } }] }
    let dset := leBytes 1 8 ++ leBytes 0 64
    let d := DrainDesc.parse (leBytes 0 64)
    let dr := live { mats := [{ h with phase := 2 }], drainSet := dset }
    let fl := dr.setCore 3 { dr.core 3 with tile := [(0, 7)] }
    let y := ([3] : List Nat).foldl (State.beginCore 3 { h with phase := 2 } [0] 0) dr
    let w : RawRow := { arr := 0, row := 31, m := 0, dcd := 0, sr := 0, float := false, elems := [] }
    let row := (live { drainSet := dset }).setCore 3 { tested := true, raw := [w] }
    (s.up = true ∧ s.pending? 1 = some j ∧ j.fountain = 3 ∧ s.ftnSize 3 ≠ 0 ∧ s.progLayer j 0 = some (0, 0, 0, 0) ∧ s.segment j 0 = some (0x10080, 2) ∧
      s.jobRuns 1 = false ∧ (s.vread Who.walker 0x10080 64).1.isSome = true ∧ ((after (.segmentLoaded 3 1 0 0) s).ftn 3).pendCount = 2 ∧
      s.pending? 2 = none ∧ (after (.segmentLoaded 3 2 0 0) s).ftns = s.ftns) ∧
    ((st.ftn 3).mats = [h] ∧ st.ftnLive 3 = true ∧ st.operandsReady 3 h = false ∧ go.operandsReady 3 h = true ∧ fmtMx h.m.fmt = false ∧
      ((after (.matrixStep 3) st).ftn 3).mats = [h] ∧ (pre.ftn 3).mats.length = 1 ∧ ((after (.preloadDrainBegin 3) pre).ftn 3).mats = []) ∧
    (dsetDesc (dr.ftn 3).drainSet 0 = some d ∧ arraysOf (rot4 1 0) = [0] ∧ dr.drainFaults 3 { h with phase := 2 } [0] d = [] ∧
      dsetDesc (fl.ftn 3).drainSet 0 = some d ∧ fl.drainFaults 3 { h with phase := 2 } [0] d = [Pf.drainFormat] ∧ dr.ftnCores 3 = [3] ∧ y.ftnLive 3 = true ∧
      (after (.preloadDrainBegin 3) fl).rf (Reg.ftnFault 3) F.ftnFault_CODE = Pf.drainFormat) ∧
    (row.ftnOf 3 = some 3 ∧ (row.core 3).raw = [w] ∧ dsetDesc (row.ftn 3).drainSet 0 = some d ∧ (row.ftn 3).run = some run ∧ row.ftnLive 3 = true ∧
      d.emits 31 = true ∧ (row.core 3).outRoom (d.rowSize 0) = true ∧ d.resid = false ∧ row.pending? 1 = some j ∧ ((after (.drainRow 3) row).core 3).raw = [] ∧
      ({ (row.core 3) with out := [⟨0, [], 16384⟩] } : Core).outRoom (d.rowSize 64) = false) := by
  decide +kernel

theorem wit_RillsMoveAndFinish :
    let j := job3 cert1
    let s := ready j 1
    let run : LayerRun := { job := 1, layer := 0, ent := { bound := 200 }, dispatchGts := 0 }
    let live := fun x : Fountain => s.setFtn 3 { x with run := some run }
    let rl := fun post (q : Rill) n => (live { rillSet := rillSet1 post }).setCore 3 { tested := true, rills := [(0, q)], sluice := [(7, n)] }
    let p := fun post => RProg.parse ((rillSet1 post).drop 8)
    (on.activeRill 15 5 = none ∧ (rl 0 {} 0).activeRill 3 0 = some (3, p 0) ∧ (rl 0x87 {} 0).activeRill 3 0 = some (3, p 0x87) ∧ (p 0).total = 1 ∧
      slOf (p 0).post = none ∧ slOf (p 0x87).post = some 7 ∧
      ((after (.rillGroup 3 0) (rl 0 { st := 1 } 0)).rill 3 0).idx = 1 ∧
      ((rl 0x87 { st := 1, idx := 1, lin := 512 } 4094).giveDrops 3 3 0 1 (p 0x87)).1 = true ∧
      ((rl 0x87 { st := 1, idx := 1, lin := 512 } 4095).giveDrops 3 3 0 1 (p 0x87)).1 = false ∧
      (after (.dropLanded 3 0) (rl 0x87 { st := 1, idx := 1, lin := 512 } 4095)).weir.jobs = [] ∧
      (after (.dropLanded 3 0) (rl 0x87 { st := 1, idx := 1, lin := 512 } 4094)).sluice 3 7 = 4095 ∧
      ((after (.rillFinished 3 0) (rl 0 { st := 1 } 0)).rill 3 0).st = 1 ∧
      ((rl 0 { st := 1, idx := 1, lin := 64 } 0).giveDrops 3 3 0 (2 ^ 32) (p 0)).1 = true ∧
      ((after (.rillFinished 3 0) (rl 0 { st := 1, idx := 1, lin := 64 } 0)).rill 3 0).st = Rl.done ∧
      ((rl 0x87 { st := 1, idx := 1, lin := 64 } 4094).giveDrops 3 3 0 (2 ^ 32) (p 0x87)).1 = true ∧
      (rl 0x87 { st := 1, idx := 1, lin := 64 } 4094).injArmed 8 3 6 7 = false ∧
      (after (.rillFinished 3 0) (rl 0x87 { st := 1, idx := 1, lin := 64 } 4094)).sluice 3 7 = 4095) := by decide +kernel

/-- A Rill set of two programs: rillSet1's, and one that stores an element of 64 bytes from the Basin to the Cistern. -/
def rillSet2 : List Byte := leBytes 2 8 ++ (rillSet1 0).drop 8 ++ leBytes 0x400202 4 ++ leBytes 1 4 ++ leBytes 0 16 ++ leBytes (2 ^ 60) 8 ++ leBytes 0 120

/-- Fountain 3 at the first of two bundles, with those slots fetched, of a layer that may hold one effect and has a second segment. -/
def bundling (l : List SlotOp) (x : Fountain := {}) : State := ((ready (job3 cert1) 1).setFtn 3 { x with
  run := some { job := 1, layer := 0, ent := { bound := 200, held := 1, tiles := 1 }, dispatchGts := 0 }
  count := 2, active := some (1, 0, 0), segCount := 2, swapPending := true, pend := some (1, 0, 1), pendCount := 7
  ir := encodeBundle l, rillSet := rillSet2, drainSet := leBytes 1 8 ++ leBytes 0 64, pred := 8 }).wn (Reg.ftnBudget 3) 104

theorem wit_BundlesHoldOrIssue :
    let d : SlotOp := .setc 7 5
    let w : SlotOp := .waitf 0 63 true
    let b := [d, .nop .vector, .nop .matrix, .nop .load, .nop .store, w]
    let s := bundling [d, w]
    let m := s.setFtn 3 { s.ftn 3 with ir := [], imem0 := Mem.wrBytes [] 0 (encodeBundle [d]) }
    let e := m.setFtn 3 { m.ftn 3 with pc := 2 }
    let bad : State := { m with integ := { m.integ with marks := [(markKey Mc.imem 3 0, .double false)] } }
    let ill := s.setFtn 3 { s.ftn 3 with ir := leBytes (2 ^ 31) 32 }
    let swp := bundling [.bar 0 true]
    let none_ := swp.setFtn 3 { swp.ftn 3 with segCount := 1 }
    let ovl := bundling [.crd 0 1 7 1] |>.setCore 3 { tested := true, sluice := [(7, 4095)] }
    let held := s.setFtn 3 { s.ftn 3 with ir := encodeBundle [.setf 0 63 true], heldTotal := 1 }
    slotOf? (.setc 3 7 5 true) = some (3, d, true) ∧ slotOf? (.waitf 3 0 63 true true) = some (3, w, true) ∧
    s.up = true ∧ s.ftnLive 3 = true ∧ (s.ftn 3).committing = false ∧ s.spent 3 = false ∧
    ((s.wn (Reg.ftnCycles 3) 104).spent 3 = true ∧ (after (.setc 3 7 5 true) (s.wn (Reg.ftnCycles 3) 104)).weir.jobs = []) ∧
    ((s.ftn 3).ir ≠ [] ∧ (m.ftn 3).ir = [] ∧ (m.ftn 3).pc < (m.ftn 3).count ∧ (m.readEcc Mc.imem 3 0 32).1 = false ∧
      ((m.fetch 3).2.ftn 3).ir = encodeBundle [d] ∧ ((after (.setc 3 7 5 true) m).ftn 3).lcVal 7 = 5 ∧
      (bad.readEcc Mc.imem 3 0 32).1 = true ∧ (bad.fetch 3).1 = false ∧ (after (.setc 3 7 5 true) bad).weir.jobs = []) ∧
    ((e.ftn 3).count ≤ (e.ftn 3).pc ∧ (after (.setc 3 7 5 true) e).rf (Reg.ftnFault 3) F.ftnFault_CODE = Pf.fetchRange) ∧
    (decodeBundle (ill.ftn 3).ir = none ∧ (after (.setc 3 7 5 true) ill).rf (Reg.ftnFault 3) F.ftnFault_CODE = Pf.illegal ∧
      (decodeBundle (encodeBundle [.cmpset 0 0 7 false 0 0])).filter bundleOk = none) ∧
    ((decodeBundle (s.ftn 3).ir).filter bundleOk = some b ∧ b.filter (s.ftn 3).runs = b ∧ d ∈ b ∧ d ∉ (s.ftn 3).asm ∧
      after (.setc 3 7 6 true) s = s ∧ ((after (.setc 3 7 5 false) s).ftn 3).asm = [d] ∧ after (.setc 3 7 5 true) s = s ∧
      b.any (s.slotHolds 3) = true ∧
      ((after (.waitf 3 0 63 true true) (after (.setc 3 7 5 false) s)).ftn 3).waitf = some (63, true, 0)) ∧
    (none_.nextSeg 3 = none ∧ none_.quiet 3 true = true ∧ swp.nextSeg 3 = some (1, 0, 1) ∧
      (after (.bar 3 0 true true) none_).rf (Reg.ftnFault 3) F.ftnFault_CODE = Pf.swapNone) ∧
    ((alone (.crd 0 1 7 1)).flatMap (ovl.slotFaults 3 (alone (.crd 0 1 7 1))) = [Pf.sluiceRange] ∧
      (after (.crdGive 3 0 7 1 true) ovl).rf (Reg.ftnFault 3) F.ftnFault_CODE = Pf.sluiceRange) ∧
    (held.overHeld 3 (alone (.setf 0 63 true)) = true ∧ (after (.setf 3 0 63 true true) held).weir.jobs = []) := by
  and_intros <;> decide +kernel

/-- A slot of every kind, at the bounds of its fields. -/
def slotSamples : List SlotOp :=
  slotPositions.map SlotOp.nop ++
  [.setc 7 65535, .incc 7 1, .decc 7 1, .loop 7 4095, .cmpset 3 7 5 true 7 0, .pset 3 true, .jmp 4095, .mst { amask := 1 },
   .mpl { amask := 15 }, .rstart { r := 3, base := 9 }, .rstop 0 3, .vld { v := 31, addr := 1 }, .vld { g := 7 }, .wset 0 3 1 255 16383,
   .ppset 0 1, .dsel 0 0 1, .drn 0 15 0 0 1, .vst { v := 31, addr := 1 }, .sstart { r := 1, prog := 1 }, .sstop 0 1, .bar 0 false,
   .bar 0 true, .setf 0 63 true, .waitf 0 63 false, .evt 0 (2 ^ 20 - 1), .crd 0 0 7 0, .crd 0 1 7 1023, .crd 0 2 7 1023,
   .commit 0 false, .commit 0 true] ++
  (List.range 0x1C).map fun k => .vec (k + 1) { vb := if k = 0x10 then 1 else 0, ty := if 0x15 ≤ k then 2 else 0 }

theorem wit_slots_issue_alone : ∀ o ∈ slotSamples, (bundling [o]).issuesAlone 3 o := by
  unfold State.issuesAlone
  decide +kernel

/-- No injection point is armed for a Sluice's credit path. -/
theorem noInjection (n : Nat) (o : SlotOp) : (bundling [o]).injArmed 8 3 6 n = false := by
  have h : (bundling [o]).rf (injBase 8 3 + 8) F.inj_ARM = (bundling []).rf (injBase 8 3 + 8) F.inj_ARM := rfl
  have h0 : (bundling []).rf (injBase 8 3 + 8) F.inj_ARM = 0 := by decide +kernel
  simp [State.injArmed, h, h0]

theorem wit_SlotsDoTheirPart :
    let run := fun (c : Instr) (o : SlotOp) => after c (bundling [o])
    let v : VMem := { g := 0, v := 31, addr := 1, lcen := false, lc := 0, stride := 0 }
    let core := fun o => (bundling [o]).setCore 3 { tested := true, rills := [(0, { st := 1 }), (5, { st := 3 })], basin := Mem.wrN [] (256 + 252) 4 77 }
    let w : VSlot := { imm := 1 }
    let l := (List.replicate 63 0) ++ [3]
    ((bundling []).ftnCores 3 = [3] ∧ ((core (.rstop 0 0)).rill 3 0).busy = true ∧ ((core (.sstop 0 1)).rill 3 5).busy = true ∧
      (core (.vld v)).integ.marks = []) ∧
    ((run (.setc 3 7 65535 true) (.setc 7 65535)).ftn 3).lcVal 7 = 65535 ∧ ((run (.decc 3 7 1 true) (.decc 7 1)).ftn 3).lcVal 7 = 65535 ∧
    ((run (.loop 3 7 4095 true) (.loop 7 4095)).ftn 3).pc = 1 ∧ ((run (.jmp 3 4095 true) (.jmp 4095)).ftn 3).pc = 4095 ∧
    ((run (.setf 3 0 63 true true) (.setf 0 63 true)).ftn 3).held = [.setf 63 true] ∧ ((run (.bar 3 0 true true) (.bar 0 true)).ftn 3).bank = 1 ∧
    ((run (.bar 3 0 true true) (.bar 0 true)).ftn 3).count = 7 ∧
    ((run (.commitLayer 3 0 true) (.commit 0 false)).ftn 3).committing = true ∧ ((run (.commitTile 3 0 true) (.commit 0 true)).ftn 3).tileReqs = 1 ∧
    ((run (.wset 3 0 3 1 255 16383 true) (.wset 0 3 1 255 16383)).ftn 3).wp = [(3, { cur := 1, step := -1, bstep := -1 })] ∧
    ((run (.mst 3 { amask := 1, acc := 1 } true) (.mst { amask := 1, acc := 1 })).ftn 3).mats.map MRun.phase = [0] ∧
    (run (.crdInit 3 0 7 1023 true) (.crd 0 2 7 1023)).sluice 3 7 = 1023 ∧ (run (.crdGive 3 0 7 1023 true) (.crd 0 1 7 1023)).sluice 3 7 = 1023 ∧
    ((run (.rstart 3 { r := 3, possh := 15, base := 9 } true) (.rstart { r := 3, possh := 15, base := 9 })).rill 3 3).start = 9 ∧
    ((after (.rstop 3 0 0 true) (core (.rstop 0 0))).rill 3 0).st = 0 ∧ ((after (.sstop 3 0 1 true) (core (.sstop 0 1))).rill 3 5).st = 0 ∧
    (((after (.vld 3 v true) (core (.vld v))).core 3).vregWords 31).getD 63 0 = 77 ∧
    (((run (.vidx 3 { vd := 31, immb := true, imm := 1 } true) (.vec 0x15 { vd := 31, immb := true, imm := 1 })).core 3).vregWords 31).getD 63 0 = 63 ∧
    (let r := (vecLanes 0x15 w ((bundling []).coreIndex 3) (fun _ => 0) l l l).getD 63 none
     w.ty = 0 ∧ w.immb = false ∧ w.sat = false ∧ l.getD 63 0 = 3 ∧ r = some 63 ∧ (vecLanes 0x10 w 0 (fun _ => 0) l l l).getD 63 none = some 9 ∧
      (vecLanes 0x01 {} ((bundling []).coreIndex 3) (fun _ => 0) l l l) = (l.map (2 * ·)).map some ∧ (vWords 0 (l.map (2 * ·))).length = 64) := by
  decide +kernel

theorem wit_LoopCountersCountAndBranch :
    let s := fun o n => bundling [o] { lc := if n = 0 then [] else [(7, n)] }
    let pcOf := fun n => ((after (.loop 3 7 4095 true) (s (.loop 7 4095) n)).ftn 3).pc
    let lcOf := fun c o n => ((after c (s o n)).ftn 3).lcVal 7
    (((s (.loop 7 4095) 0).ftn 3).lcVal 7 = 0 ∧ ((s (.loop 7 4095) 1).ftn 3).lcVal 7 = 1 ∧ ((s (.loop 7 4095) 65535).ftn 3).lcVal 7 = 65535) ∧
    lcOf (.setc 3 7 65535 true) (.setc 7 65535) 5 = 65535 ∧ lcOf (.incc 3 7 1 true) (.incc 7 1) 65535 = 0 ∧
    lcOf (.decc 3 7 1 true) (.decc 7 1) 0 = 65535 ∧ lcOf (.loop 3 7 4095 true) (.loop 7 4095) 0 = 0 ∧ pcOf 0 = 1 ∧
    lcOf (.loop 3 7 4095 true) (.loop 7 4095) 1 = 0 ∧ pcOf 1 = 1 ∧
    lcOf (.loop 3 7 4095 true) (.loop 7 4095) 65535 = 65534 ∧ pcOf 65535 = 4095 := by decide +kernel

/-- Slot words of the spec's own example program (spec/04). -/
theorem test_slot_words :
    decodeSlot .load 0x40000009B800 = some (.wset 0 0 0 4 0x3700) ∧ decodeSlot .sync 0x50048000 = some (.crd 0 0 0 288) ∧
    decodeSlot .matrix 0x1003F808FDC0 = some (.mst { asgn := true, amask := 15, acc := 3, steps := 575, batch := 7 }) ∧
    decodeSlot .sync 0x20640000 = some (.setf 0 12 true) := by decide +kernel

/-- The eight words of bundle 4 of the spec's own example program (spec/04). -/
theorem test_bundle_words :
    decodeBundle (([0, 0, 0xFDC00000, 0x1003F808, 0, 0, 0, 0x20640000].map fun w => leBytes w 4).flatten) =
      some [.nop .scalar, .nop .vector, .mst { asgn := true, amask := 15, acc := 3, steps := 575, batch := 7 }, .nop .load,
        .nop .store, .setf 0 12 true] := by decide +kernel

theorem wit_ResetIsAsTheSpecSays :
    State.reset.up = false ∧ actsUnclocked .rootPllLock = true ∧ actsUnclocked .admissionTest = false ∧
      ({ on with clk := { on.clk with gated := true } } : State).up = false := by decide +kernel

theorem wit_TheFabricWaitsForTheRootPll :
    let s := { State.reset with pending := [.thermalReading []] }
    s.waitsForRoot ∧ ∃ t, step s = .next t := by
  refine ⟨⟨rfl, rfl, rfl, rfl, rfl, rfl, rfl, rfl, rfl, rfl, ?_⟩, ?_⟩
  · simp
  · exact ⟨_, rfl⟩

theorem wit_AShutdownLastsUntilPowerOn :
    let s := { on with clk := { on.clk with shutdown := true }, pending := [.admissionTest] }
    s.shutDown ∧ step s = .next { s with pending := [] } := by
  refine ⟨⟨rfl, rfl, rfl, by decide +kernel, ?_⟩, rfl⟩
  intro m b
  simp


/-- DB_STATUS with two latched doorbells and TWIN_BAD set; the endpoint's native device ID; an absent HOST_WINDOW pool. -/
theorem test_bar_windows :
    (({ enable := true, doorbells := [5, 6], twinBad := true } : Queue).dbStatus = 0x20005 ∧ on.pciIds.1 = 0x7160 ∧
      legacy.pciIds = (0x3020, some (0, 0)) ∧ on.bar4Addr 0 = none ∧ legacy.readBar2 8 = 0) := by decide +kernel

end Sys2Proof.Tests
end

section
/-! SUPPORT. A bundle of one slot beside NOPs: a slot that nothing keeps from its effect issues (R197 to R203, R252 to R254), and
a scalar slot then acts on its Fountain alone (R206 to R210). -/
namespace Sys2Proof.Machine

/-! The bundle of one slot beside NOPs. -/

theorem mem_alone_self (o : SlotOp) : o ∈ alone o :=
  List.mem_map.2 ⟨o.pos, by cases o.pos <;> simp [slotPositions], if_pos rfl⟩

/-- To hold of every slot of the bundle, a property has to hold of the one slot and of the NOPs. -/
theorem forall_mem_alone {P : SlotOp → Prop} {o : SlotOp} (ho : P o) (hnop : ∀ p, P (.nop p)) : ∀ q ∈ alone o, P q := by
  intro q hq
  obtain ⟨p, -, rfl⟩ := List.mem_map.1 hq
  split
  · exact ho
  · exact hnop p

theorem alone_of_pos_scalar {o : SlotOp} (h : o.pos = .scalar) :
    alone o = [o, .nop .vector, .nop .matrix, .nop .load, .nop .store, .nop .sync] := by
  simp [alone, slotPositions, h]

theorem allPresented_alone (o : SlotOp) : allPresented (alone o) [o] = true :=
  List.all_eq_true.2 (forall_mem_alone (by simp) fun _ => rfl)

theorem filter_runs_alone {x : Fountain} {o : SlotOp} (h : x.runs o = true) : (alone o).filter x.runs = alone o :=
  List.filter_eq_self.2 (forall_mem_alone h fun _ => rfl)

theorem any_slotHolds_alone {s : State} {f : Nat} {o : SlotOp} (h : s.slotHolds f o = false) :
    (alone o).any (s.slotHolds f) = false :=
  List.any_eq_false.2 (forall_mem_alone (by simp [h]) fun _ => Bool.false_ne_true)

theorem flatMap_slotFaults_alone {s : State} {f : Nat} {b : List SlotOp} {o : SlotOp} (h : s.slotFaults f b o = []) :
    (alone o).flatMap (s.slotFaults f b) = [] :=
  List.flatMap_eq_nil_iff.2 (forall_mem_alone h fun _ => rfl)

/-! From the slot's command to the issue. -/

theorem State.fetch_of_ir_ne_nil {s : State} {f : Nat} (h : (s.ftn f).ir ≠ []) : s.fetch f = (true, s) :=
  if_pos (bne_iff_ne.2 h)

/-- A BAR with SWAP that does not fault has a segment to swap to (R239), so the first test of a bundle cannot stop it. -/
theorem State.bundle_alone {s : State} {f : Nat} {o : SlotOp} (h : s.issuesAlone f o) :
    s.bundle f (alone o) = s.issue f (alone o) := by
  obtain ⟨-, -, -, -, -, -, -, -, -, -, hruns, hholds, hfaults, hheld⟩ := h
  unfold State.bundle
  simp only [filter_runs_alone hruns, any_slotHolds_alone hholds, flatMap_slotFaults_alone hfaults, hheld]
  refine if_neg fun hstop => ?_
  simp only [Bool.and_eq_true, List.any_eq_true] at hstop
  obtain ⟨⟨hlast, q, hq, hswap⟩, -⟩ := hstop
  revert q
  refine forall_mem_alone (fun hswap => ?_) fun p hswap => Bool.false_ne_true hswap
  split at hswap
  · simp [State.slotFaults, hlast] at hfaults
  · exact Bool.false_ne_true hswap

theorem State.present_alone {s : State} {f : Nat} {o : SlotOp} (h : s.issuesAlone f o) :
    s.present s f (alone o) o true = (s.issue f (alone o)).settle := by
  have hbundle := State.bundle_alone h
  obtain ⟨-, -, -, -, -, -, hasm, -⟩ := h
  simp [State.present, hasm, mem_alone_self, allPresented_alone, hbundle]

theorem State.slot_of_issuesAlone {s : State} {f : Nat} {o : SlotOp} (h : s.issuesAlone f o) :
    s.slot f o true = (s.issue f (alone o)).settle := by
  have hpresent := State.present_alone h
  obtain ⟨-, hf, hlive, hcommitting, hspent, -, -, hir, hdecode, hok, -⟩ := h
  simp [State.slot, hf, hlive, hcommitting, hspent, State.fetch_of_ir_ne_nil hir, hdecode, Option.filter_some_pos hok, hpresent]

/-! The issue of a scalar slot. -/

/-- A Fountain as the scalar slot of an issuing bundle finds it: the bundle is used up, the program counter is at the next
address, and each bound comparator has driven its predicate (R197, R207). -/
def Fountain.advanced (x : Fountain) : Fountain :=
  { x with pred := x.preds, pc := x.pc + 1, lastPc := x.pc, lastBank := x.bank, started := true, ir := [], asm := [],
           waitf := none }

@[simp] theorem Fountain.advanced_pc (x : Fountain) : x.advanced.pc = x.pc + 1 := rfl
@[simp] theorem Fountain.advanced_lcVal (x : Fountain) (n : Nat) : x.advanced.lcVal n = x.lcVal n := rfl
@[simp] theorem Fountain.advanced_hits (x : Fountain) : x.advanced.hits = x.hits := rfl

@[simp] theorem Fountain.scalar_nop (x : Fountain) (p : SlotPos) : x.scalar (.nop p) = x := rfl
@[simp] theorem Fountain.matrix_nop (x x0 : Fountain) (p : SlotPos) : x.matrix x0 (.nop p) = x := rfl
@[simp] theorem Fountain.sync_nop (x : Fountain) (p : SlotPos) : x.sync (.nop p) = x := rfl

theorem Fountain.matrix_of_pos_scalar {o : SlotOp} (h : o.pos = .scalar) (x x0 : Fountain) : x.matrix x0 o = x := by
  cases o with
  | nop | setc | incc | decc | loop | cmpset | pset | jmp => rfl
  | _ => cases h

theorem Fountain.sync_of_pos_scalar {o : SlotOp} (h : o.pos = .scalar) (x : Fountain) : x.sync o = x := by
  cases o with
  | nop | setc | incc | decc | loop | cmpset | pset | jmp => rfl
  | _ => cases h

theorem Fountain.hits_scalar (x : Fountain) (o : SlotOp) : (x.scalar o).hits = x.hits := by
  cases o
  case loop n t =>
    simp only [Fountain.scalar]
    split
    · rfl
    · split <;> rfl
  all_goals rfl

/-- A core has no part in a scalar slot. -/
theorem State.coreIssue_alone_of_pos_scalar {o : SlotOp} (h : o.pos = .scalar) (f : Nat) (x : Fountain) (s : State) (c : Nat) :
    State.coreIssue f x (alone o) s c = s := by
  rw [alone_of_pos_scalar h]
  cases o with
  | nop | setc | incc | decc | loop | cmpset | pset | jmp => rfl
  | _ => cases h

theorem State.chargeHits_of_hits_nil {s : State} {f : Nat} (h : (s.ftn f).hits = []) : s.chargeHits f = s := by
  simp [State.chargeHits, h]

theorem State.issue_alone_of_pos_scalar {s : State} {f : Nat} {o : SlotOp} (ho : o.pos = .scalar) (hhits : (s.ftn f).hits = []) :
    s.issue f (alone o) = s.setFtn f ((s.ftn f).advanced.scalar o) := by
  have hftn : s.issue f (alone o) = (s.setFtn f ((s.ftn f).advanced.scalar o)).chargeHits f := by
    unfold State.issue
    simp only [List.foldl_fixed' (State.coreIssue_alone_of_pos_scalar ho f _ _)]
    simp only [alone_of_pos_scalar ho, List.foldl_cons, List.foldl_nil, Fountain.scalar_nop, Fountain.matrix_nop,
      Fountain.sync_nop, Fountain.matrix_of_pos_scalar ho, Fountain.sync_of_pos_scalar ho, Fountain.advanced]
  rw [hftn]
  exact State.chargeHits_of_hits_nil (by simp [Fountain.hits_scalar, hhits])

/-- What the command of a scalar slot does where nothing keeps it from its effect. -/
theorem exec_of_scalar_issuesAlone {s : State} {c : Instr} {f : Nat} {o : SlotOp}
    (hc : exec c s = onFabric s fun s => s.slot f o true) (ho : o.pos = .scalar) (h : s.issuesAlone f o) :
    exec c s = .next (s.setFtn f ((s.ftn f).advanced.scalar o)).settle := by
  have hslot := State.slot_of_issuesAlone h
  obtain ⟨hup, -, -, -, -, hhits, -⟩ := h
  rw [hc, onFabric, if_pos hup, hslot, State.issue_alone_of_pos_scalar ho hhits]

/-! The loop counters (R206, R209). -/

/-- A Fountain with a loop counter set, modulo 65,536. -/
def Fountain.setLc (x : Fountain) (n v : Nat) : Fountain := { x with lc := Table.put 0 x.lc n (v % 65536) }

@[simp] theorem Fountain.setLc_pc (x : Fountain) (n v : Nat) : (x.setLc n v).pc = x.pc := rfl
@[simp] theorem Fountain.lcVal_setLc_same (x : Fountain) (n v : Nat) : (x.setLc n v).lcVal n = v % 65536 :=
  Table.get_put_same _ _ _ _
theorem Fountain.lcVal_setLc_ne (x : Fountain) {n m : Nat} (v : Nat) (h : m ≠ n) : (x.setLc n v).lcVal m = x.lcVal m :=
  Table.get_put_ne _ _ _ _ h

theorem Fountain.scalar_setc (x : Fountain) (n i : Nat) : x.scalar (.setc n i) = x.setLc n i := rfl
theorem Fountain.scalar_incc (x : Fountain) (n i : Nat) : x.scalar (.incc n i) = x.setLc n (x.lcVal n + i) := rfl
theorem Fountain.scalar_decc (x : Fountain) (n i : Nat) : x.scalar (.decc n i) = x.setLc n (x.lcVal n + 65536 - i) := rfl

theorem Fountain.scalar_loop_of_zero {x : Fountain} {n : Nat} (t : Nat) (h : x.lcVal n = 0) : x.scalar (.loop n t) = x :=
  if_pos h

theorem Fountain.scalar_loop_of_one {x : Fountain} {n : Nat} (t : Nat) (h : x.lcVal n = 1) :
    x.scalar (.loop n t) = x.setLc n 0 := by
  simp [Fountain.scalar, Fountain.setLc, h]

theorem Fountain.scalar_loop_of_one_lt {x : Fountain} {n : Nat} (t : Nat) (h : 1 < x.lcVal n) :
    x.scalar (.loop n t) = { x.setLc n (x.lcVal n - 1) with pc := t } := by
  have h0 : x.lcVal n ≠ 0 := by omega
  have h1 : x.lcVal n ≠ 1 := by omega
  simp [Fountain.scalar, Fountain.setLc, h0, h1]

/-- A scalar slot that sets one counter: the program goes on at the next address, and the other counters stand. -/
theorem Fountain.setLc_advanced (x : Fountain) (n v : Nat) :
    (x.advanced.setLc n v).lcVal n = v % 65536 ∧ (x.advanced.setLc n v).pc = x.pc + 1 ∧
      ∀ m ≠ n, (x.advanced.setLc n v).lcVal m = x.lcVal m :=
  ⟨by simp, by simp, fun m hm => by simp [Fountain.lcVal_setLc_ne _ _ hm]⟩

/-- Settles O57: the command leaves the Fountain that its scalar slot makes of the advanced one, and the equation of that slot
gives the counter, the next address and the other counters. -/
theorem loopCountersCountAndBranch : Obligations.LoopCountersCountAndBranch := by
  intro s f n i t
  refine ⟨fun h => ?setc, fun h => ?incc, fun h => ?decc, fun h0 h => ?loopAtZero,
    fun hlt => ⟨fun h1 h => ?loopAtOne, fun hgt h => ?loopAbove⟩⟩
  all_goals refine ⟨_, exec_of_scalar_issuesAlone rfl rfl h, ?_⟩
  case setc =>
    rw [Fountain.scalar_setc]
    exact Fountain.setLc_advanced _ n _
  case incc =>
    rw [Fountain.scalar_incc]
    exact Fountain.setLc_advanced _ n _
  case decc =>
    rw [Fountain.scalar_decc]
    exact Fountain.setLc_advanced _ n _
  case loopAtZero =>
    rw [Fountain.scalar_loop_of_zero (x := (s.ftn f).advanced) t h0]
    exact ⟨h0, rfl, fun _ _ => rfl⟩
  case loopAtOne =>
    rw [Fountain.scalar_loop_of_one (x := (s.ftn f).advanced) t h1]
    exact Fountain.setLc_advanced _ n 0
  case loopAbove =>
    rw [Fountain.scalar_loop_of_one_lt (x := (s.ftn f).advanced) t hgt]
    obtain ⟨hcounter, -, hothers⟩ := Fountain.setLc_advanced (s.ftn f) n ((s.ftn f).lcVal n - 1)
    exact ⟨hcounter.trans (Nat.mod_eq_of_lt (by omega)), rfl, hothers⟩

end Sys2Proof.Machine
end

section
/-! SUPPORT. Consumed counts (R827): what a write leaves in its ring, and that the requests which FWP3 takes and answers leave the
consumed count of the response ring alone. -/
namespace Sys2Proof.Machine

/-! Commands of the fabric. -/

/-- What a command of the fabric does while the fabric works. -/
theorem exec_of_up {s : State} {c : Instr} {f : State → State} (hc : exec c s = onFabric s f) (h : s.up = true) :
    exec c s = .next (f s) := by
  rw [hc, onFabric, if_pos h]

/-- What a command of the fabric does to a unit that exists. -/
theorem exec_unit_of_up {s : State} {c : Instr} {n bound : Nat} {f : State → State}
    (hc : exec c s = onFabric s (guarded (decide (n < bound)) f)) (h : s.up = true) (hn : n < bound) : exec c s = .next (f s) := by
  rw [exec_of_up hc h, guarded, if_pos (decide_eq_true hn)]

@[simp] theorem guarded_true (f : State → State) (s : State) : guarded true f s = f s := rfl

/-- A guard on a change that changes nothing is of no account. -/
theorem guarded_of_fixed {f : State → State} {s : State} (h : f s = s) (c : Bool) : guarded c f s = s := by
  cases c
  · rfl
  · exact h

/-! The consumed count. -/

/-- The consumed count that a write leaves, of a ring with a count of records written and a count in force (R827). -/
def consumedCount (v : W32) (written read : Nat) : Nat :=
  if (v.toNat + 2 ^ 32 - read % 2 ^ 32) % 2 ^ 32 ≤ written - read then read + (v.toNat + 2 ^ 32 - read % 2 ^ 32) % 2 ^ 32 else read

/-- A write of the consumed count changes that count of the ring alone. -/
theorem consume_eq (t : RingSt) (v : W32) : consume t v = { t with read := consumedCount v t.written t.read } := by
  unfold consume consumedCount
  dsimp only
  split <;> rfl

theorem State.evtRead_of_pageOpen {s : State} {slot : Nat} (h : s.pageOpen slot 0 = true) (v : W32) :
    s.evtRead slot v = s.setCtx slot { s.ctx slot with evt := consume (s.ctx slot).evt v } := if_pos h

theorem State.evtRead_of_pageClosed {s : State} {slot : Nat} (h : s.pageOpen slot 0 = false) (v : W32) : s.evtRead slot v = s :=
  if_neg (Bool.eq_false_iff.1 h)

theorem State.cplRead_of_pageOpen {s : State} {slot : Nat} (h : s.pageOpen slot 0 = true) (v : W32) :
    s.cplRead slot v = s.setCtx slot { s.ctx slot with cpl := consume (s.ctx slot).cpl v } := if_pos h

theorem State.cplRead_of_pageClosed {s : State} {slot : Nat} (h : s.pageOpen slot 0 = false) (v : W32) : s.cplRead slot v = s :=
  if_neg (Bool.eq_false_iff.1 h)

theorem State.devringRead_eq (s : State) (v : W32) :
    s.devringRead v = { s with devRing := { s.devRing with read := consumedCount v s.devRing.written s.devRing.read } } := by
  rw [State.devringRead, consume_eq]

theorem State.spoutHostRead_eq (s : State) (v : W32) :
    s.spoutHostRead v = { s with spout := { s.spout with read := consumedCount v s.spout.written s.spout.read } } := by
  simp only [State.spoutHostRead, consume_eq]

/-! The response ring's consumed count stands while FWP3 takes and answers requests (R693, R696). -/

/-- A change of the state that keeps the response ring's consumed count. -/
def KeepsRspRead (f : State → State) : Prop := ∀ s, (f s).fwp.read = s.fwp.read

theorem DramAccess.rspRead {s t : State} (h : DramAccess s t) : t.fwp.read = s.fwp.read := by
  obtain ⟨⟨_, _, _, _, _, _, _, _, rfl⟩, -⟩ := h
  rfl

theorem State.vread_keepsRspRead (w : Who) (va n : Nat) : KeepsRspRead fun s => (s.vread w va n).2 :=
  fun s => (s.vread_access w va n).rspRead

theorem State.vwrite_keepsRspRead (w : Who) (va : Nat) (b : List Byte) : KeepsRspRead fun s => (s.vwrite w va b).2 :=
  fun s => (s.vwrite_access w va b).rspRead

theorem State.putRsp_keepsRspRead (code tag result : Nat) (value : Option Nat) :
    KeepsRspRead fun s => s.putRsp code tag result value := by
  -- To compare two forms of a branch on a memory access the kernel would evaluate the access: so `putRsp` is unfolded as a
  -- function, and of `vwrite` only the property is kept.
  obtain ⟨vwrite, hvwrite, hvwriteEq⟩ : ∃ f : State → Who → Nat → List Byte → Bool × State,
      (∀ w va b, KeepsRspRead fun s => (f s w va b).2) ∧ State.vwrite = f := ⟨_, State.vwrite_keepsRspRead, rfl⟩
  delta State.putRsp
  rw [hvwriteEq]
  intro s
  cases value <;>
  · dsimp only
    split <;> exact hvwrite ..

theorem State.fwTake_keepsRspRead : KeepsRspRead State.fwTake := by
  -- Only their property is kept of `vread` and `putRsp`, as of `vwrite` above.
  obtain ⟨vread, hvread, hvreadEq⟩ : ∃ f : State → Who → Nat → Nat → Option (List Byte × Bool) × State,
      (∀ w va n, KeepsRspRead fun s => (f s w va n).2) ∧ State.vread = f := ⟨_, State.vread_keepsRspRead, rfl⟩
  obtain ⟨putRsp, hputRsp, hputRspEq⟩ : ∃ f : State → Nat → Nat → Nat → Option Nat → State,
      (∀ c t r x, KeepsRspRead fun s => f s c t r x) ∧ State.putRsp = f := ⟨_, State.putRsp_keepsRspRead, rfl⟩
  delta State.fwTake
  rw [hvreadEq, hputRspEq]
  intro s
  dsimp only
  generalize hr : vread _ Who.fwp3 _ 32 = r
  have hfwp : r.2.fwp.read = s.fwp.read := by rw [← hr]; exact hvread _ _ _ _
  obtain ⟨_ | ⟨b, bad⟩, u⟩ := r
  · exact (hputRsp _ _ _ _ _).trans hfwp
  · dsimp only
    split
    · exact (hputRsp _ _ _ _ _).trans hfwp
    · exact hfwp

theorem State.fwAnswer_keepsRspRead (r : FwReq) (result : Nat) (value : Option Nat) :
    KeepsRspRead fun s => s.fwAnswer r result value :=
  fun s => State.putRsp_keepsRspRead _ _ _ _ { s with fwp := { s.fwp with taken := s.fwp.taken.erase r } }

theorem KeepsRspRead.foldl {α : Type} {f : State → α → State} (h : ∀ x, KeepsRspRead fun s => f s x) (l : List α) :
    KeepsRspRead fun s => l.foldl f s := by
  induction l with
  | nil => exact fun _ => rfl
  | cons x l ih => exact fun s => (ih (f s x)).trans (h x s)

theorem State.fwSweep_keepsRspRead : KeepsRspRead State.fwSweep :=
  fun s => KeepsRspRead.foldl (fun r => State.fwAnswer_keepsRspRead r Rs.procFailed none) _ s

theorem State.fwPumpN_keepsRspRead (n : Nat) : KeepsRspRead (State.fwPumpN n) := by
  induction n with
  | zero => exact fun _ => rfl
  | succ n ih =>
    intro s
    rw [State.fwPumpN]
    split
    · exact (ih _).trans ((State.fwSweep_keepsRspRead _).trans (State.fwTake_keepsRspRead s))
    · rfl

theorem State.fwPump_keepsRspRead : KeepsRspRead State.fwPump :=
  fun s => (State.fwPumpN_keepsRspRead 1024 s.fwSweep).trans (State.fwSweep_keepsRspRead s)

theorem State.fwRspRead_read (s : State) (v : W32) : (s.fwRspRead v).fwp.read = consumedCount v s.fwp.written s.fwp.read := by
  rw [State.fwRspRead, State.fwPump_keepsRspRead, consume_eq]

/-- Settles O2: each command writes its ring by `consume`, where its page is open, and `consume_eq` is R827. -/
theorem consumedCountsAreAccepted : Obligations.ConsumedCountsAreAccepted := by
  intro s slot v hup now after c
  have after_eq : ∀ t : RingSt, consume t v = after t := fun t => consume_eq t v
  refine ⟨fun hnative hopen => ⟨?evt, ?cpl⟩, fun hclosed => ⟨?evtClosed, ?cplClosed⟩, ?devring,
    fun hlegacy hopen => ⟨?leq, ?lcq⟩, ?spout, ⟨_, exec_of_up (f := fun s => s.fwRspRead v) rfl hup, s.fwRspRead_read v⟩⟩
  case devring => exact (exec_of_up (f := fun s => (s.touch 2).devringRead v) rfl hup).trans (congrArg _ (State.devringRead_eq ..))
  case spout => exact (exec_of_up (f := fun s => (s.touch 9).spoutHostRead v) rfl hup).trans (congrArg _ (State.spoutHostRead_eq ..))
  all_goals refine (exec_of_up rfl hup).trans (congrArg _ ?_)
  case evt => rw [hnative, Bool.not_false, guarded_true, State.evtRead_of_pageOpen hopen, after_eq]
  case cpl => rw [hnative, Bool.not_false, guarded_true, State.cplRead_of_pageOpen hopen, after_eq]
  case evtClosed => exact guarded_of_fixed (State.evtRead_of_pageClosed hclosed v) _
  case cplClosed => exact guarded_of_fixed (State.cplRead_of_pageClosed hclosed v) _
  case leq => rw [hlegacy, guarded_true, State.evtRead_of_pageOpen hopen, after_eq]
  case lcq => rw [hlegacy, guarded_true, State.cplRead_of_pageOpen hopen, after_eq]

end Sys2Proof.Machine
end

section
/-! SUPPORT. Gates (R504, R506, R507, R509): what the fields of a Gate read after its owner, its BROKEN mark or its flag is
written, and that nothing but its GATE_STATE changes. -/
namespace Sys2Proof.Machine

/-! The fields of a Gate. -/

@[simp] theorem State.gateOwner_setOwner (s : State) (g o : Nat) : (s.setOwner g o).gateOwner g = o % 0x10000 := by
  unfold State.gateOwner State.setOwner
  rw [State.rf_wf_apart _ _ _ _ _ (by decide) (by decide), State.rf_wf_same _ _ _ _ (by decide) (by decide)]
  rfl

theorem State.locked_setOwner (s : State) (g o : Nat) :
    (s.setOwner g o).rf (Reg.gateState g) F.gateState_LOCKED = if o % 0x10000 = 0 then 0 else 1 := by
  unfold State.setOwner
  rw [State.rf_wf_same _ _ _ _ (by decide) (by decide)]
  split <;> rfl

/-- FLAG and BROKEN stand as the owner is set. -/
theorem State.rf_setOwner_apart (s : State) (g o : Nat) {f : Fld} (hlow : 15 < f.lo) (hhigh : f.hi < 31) :
    (s.setOwner g o).rf (Reg.gateState g) f = s.rf (Reg.gateState g) f := by
  have hhi : f.hi < 32 := Nat.lt_succ_of_lt hhigh
  unfold State.setOwner
  rw [State.rf_wf_apart _ _ _ _ _ hhi (.inr hhigh), State.rf_wf_apart _ _ _ _ _ hhi (.inl hlow)]

@[simp] theorem State.gateFlag_setOwner (s : State) (g o : Nat) : (s.setOwner g o).gateFlag g = s.gateFlag g := by
  unfold State.gateFlag
  rw [State.rf_setOwner_apart _ _ _ (by decide) (by decide)]

@[simp] theorem State.gateFlag_setFlag (s : State) (g : Nat) (v : Bool) : (s.setFlag g v).gateFlag g = v := by
  unfold State.gateFlag State.setFlag
  rw [State.rf_wf_same _ _ _ _ (by decide) (by decide)]
  cases v <;> rfl

@[simp] theorem State.gateOwner_setFlag (s : State) (g : Nat) (v : Bool) : (s.setFlag g v).gateOwner g = s.gateOwner g :=
  State.rf_wf_apart _ _ _ _ _ (by decide) (by decide)

/-! A change of one Gate. -/

/-- The states differ in a Gate's GATE_STATE alone. -/
def OnlyGate (g : Nat) (s t : State) : Prop := sameRegs s t [Reg.gateState g] ∧ OnlyRegs s t

theorem OnlyGate.wf (s : State) (g : Nat) (f : Fld) (v : Nat) : OnlyGate g s (s.wf (Reg.gateState g) f v) :=
  ⟨fun _ hoff => State.rd_wf_ne _ _ _ (List.ne_of_not_mem_cons hoff), .wf ..⟩

theorem OnlyGate.trans {g : Nat} {s t u : State} : OnlyGate g s t → OnlyGate g t u → OnlyGate g s u := by
  rintro ⟨hst, lst⟩ ⟨htu, ltu⟩
  exact ⟨fun off hoff => (htu off hoff).trans (hst off hoff), lst.trans ltu⟩

theorem OnlyGate.setOwner (s : State) (g o : Nat) : OnlyGate g s (s.setOwner g o) := (OnlyGate.wf ..).trans (.wf ..)

/-! The operations of GATE_CTRL and the flag's write. -/

theorem State.gateAcquire_of_free {s : State} {g : Nat} (h : s.rf (Reg.gateState g) F.gateState_LOCKED = 0) (o : Nat) :
    s.gateAcquire g o = s.setOwner g o := if_neg (by rw [h]; exact Nat.zero_ne_one)

theorem State.gateAcquire_of_held {s : State} {g : Nat} (h : s.rf (Reg.gateState g) F.gateState_LOCKED = 1) (o : Nat) :
    s.gateAcquire g o = s := if_pos h

theorem State.gateRelease_of_owner {s : State} {g o : Nat}
    (h : s.rf (Reg.gateState g) F.gateState_LOCKED = 1 ∧ s.gateOwner g = o % 0x10000) :
    s.gateRelease g o = (s.setOwner g 0).wf (Reg.gateState g) F.gateState_BROKEN 0 := if_pos h

theorem State.gateRelease_of_other {s : State} {g o : Nat}
    (h : ¬(s.rf (Reg.gateState g) F.gateState_LOCKED = 1 ∧ s.gateOwner g = o % 0x10000)) : s.gateRelease g o = s := if_neg h

/-- A release frees the Gate and clears BROKEN; its flag stands (R506). -/
theorem State.released_fields (s : State) (g : Nat) :
    let t := (s.setOwner g 0).wf (Reg.gateState g) F.gateState_BROKEN 0
    t.rf (Reg.gateState g) F.gateState_LOCKED = 0 ∧ t.rf (Reg.gateState g) F.gateState_BROKEN = 0 ∧ t.gateFlag g = s.gateFlag g := by
  refine ⟨?locked, State.rf_wf_same _ _ _ _ (by decide) (by decide), ?flag⟩
  case locked =>
    rw [State.rf_wf_apart _ _ _ _ _ (by decide) (by decide), State.locked_setOwner]
    rfl
  case flag =>
    rw [← State.gateFlag_setOwner s g 0]
    unfold State.gateFlag
    rw [State.rf_wf_apart _ _ _ _ _ (by decide) (by decide)]

theorem State.inject_of_not_armed {s : State} {block inst site target : Nat} (h : s.injArmed block inst site target = false) :
    s.inject block inst site target = (none, s) := if_pos (by rw [h]; rfl)

/-- A Gate's last flag write noted: its time and its writer's place (R243). -/
def State.noteFlag (s : State) (g place : Nat) : State :=
  { s with weir := { s.weir with flagLast := Table.put none s.weir.flagLast g (some (s.gts, place)) } }

theorem State.flagLast_noteFlag (s : State) (g place : Nat) :
    Table.get none (s.noteFlag g place).weir.flagLast g = some (s.gts, place) :=
  Table.get_put_same (none : Option (Nat × Nat)) s.weir.flagLast g (some (s.gts, place))

/-- A flag write whose halves agree, with no injection armed and no later write of its cycle, sets the flag (R243, R509). -/
theorem State.flagWrite_of_clear {s : State} {g place : Nat} (harmed : s.injArmed 2 0 4 g = false)
    (hlater : s.flagLater g place = false) (v : Bool) :
    (s.flagWrite g place v true).2 = (s.noteFlag g place).setFlag g v := by
  simp [State.flagWrite, State.inject_of_not_armed harmed, State.placeFlag, hlater, State.noteFlag]

/-- Settles O4: each operation writes fields of the Gate's GATE_STATE, and the reset of a host core breaks the Gates of its
owner ID (`State.breakGates_does`). -/
theorem gatesAreTakenAndGivenUp : Obligations.GatesAreTakenAndGivenUp := by
  intro s g o c v hup st frame
  refine ⟨fun hg hfree => ?acquire, fun hg hheld => ?acquireHeld, fun hg hheld howner => ?release, fun hg hother => ?releaseOther,
    fun hg harmed hlater => ?flag, fun hc => ⟨_, exec_unit_of_up rfl hup hc, fun n hn => s.breakGates_does (0x3000 + c) n hn⟩⟩
  case acquire =>
    refine ⟨_, (exec_unit_of_up rfl hup hg).trans (congrArg _ (State.gateAcquire_of_free hfree o)), ?_⟩
    exact ⟨s.gateOwner_setOwner g o, s.locked_setOwner g o, s.gateFlag_setOwner g o,
      s.rf_setOwner_apart g o (by decide) (by decide), OnlyGate.setOwner s g o⟩
  case acquireHeld => exact (exec_unit_of_up rfl hup hg).trans (congrArg _ (State.gateAcquire_of_held hheld o))
  case release =>
    refine ⟨_, (exec_unit_of_up rfl hup hg).trans (congrArg _ (State.gateRelease_of_owner ⟨hheld, howner⟩)), ?_⟩
    obtain ⟨hlocked, hbroken, hflag⟩ := s.released_fields g
    exact ⟨hlocked, hbroken, hflag, (OnlyGate.setOwner s g 0).trans (.wf ..)⟩
  case releaseOther => exact (exec_unit_of_up rfl hup hg).trans (congrArg _ (State.gateRelease_of_other hother))
  case flag =>
    refine ⟨_, (exec_unit_of_up rfl hup hg).trans (congrArg _ (State.flagWrite_of_clear harmed hlater v)), ?_⟩
    exact ⟨State.gateFlag_setFlag .., State.gateOwner_setFlag .., (OnlyGate.wf (s.noteFlag g 4) g _ _).1,
      s.flagLast_noteFlag g 4, _, _, rfl⟩

end Sys2Proof.Machine
end

section
/-! SUPPORT. Steps: the front command, what a stopped fabric leaves alone, and what the commands of the always-on domain can
change before the root PLL has locked and in the thermal shutdown (R680, R706, R727, R756). -/
namespace Sys2Proof.Machine
open Sys2Proof

/-! The front command, and the fabric's commands. -/

/-- Settles O1: both equations are the definition of the step. -/
theorem stepRunsTheFrontCommand : Obligations.StepRunsTheFrontCommand :=
  fun _ _ => ⟨rfl, rfl⟩

/-- Every command but those of the always-on domain, the resets and the root PLL is a command of the fabric. -/
theorem exec_eq_onFabric {c : Instr} (h : actsUnclocked c = false) (s : State) : ∃ f, exec c s = onFabric s f := by
  cases c
  case refJudgeWindow | thermalReading | clockMonFinding | tamperSample | powerOn | pinReset | trialExpired | standbyWake |
    tamperWake | pcieReset | rootPllLock | rootRelock => cases h
  all_goals
    unfold exec
    dsimp only
    exact ⟨_, rfl⟩

/-- A command of the fabric changes nothing while the fabric does not work. -/
theorem exec_of_not_up {s : State} {c : Instr} (hup : s.up = false) (h : actsUnclocked c = false) : exec c s = .next s := by
  obtain ⟨f, hf⟩ := exec_eq_onFabric h s
  rw [hf, onFabric, hup]
  rfl

theorem State.reset_waitsForRoot : State.reset.waitsForRoot :=
  ⟨rfl, rfl, rfl, rfl, rfl, rfl, rfl, rfl, rfl, rfl, List.not_mem_nil⟩

/-- Settles O58: the state after POWER_ON is the one whose fields hold their defaults, and a stopped fabric takes no command. -/
theorem resetIsAsTheSpecSays : Obligations.ResetIsAsTheSpecSays :=
  ⟨⟨State.reset_waitsForRoot, rfl, rfl, rfl, rfl, rfl, rfl, rfl, rfl, rfl, fun _ => rfl, fun _ => rfl, rfl, rfl, rfl, rfl⟩,
    fun _ _ => exec_of_not_up⟩

/-! What the commands of the always-on domain can change. -/

/-- The states differ in what the judging of the references writes. -/
def OnlyRefs (s t : State) : Prop := ∃ x r c, t = { s with clk := { s.clk with src := x, refClk := r, recov := c } }

theorem State.setRefClk_refs (s : State) (j : Judge) : OnlyRefs s (s.setRefClk j) := by
  unfold State.setRefClk
  dsimp only
  split <;> exact ⟨_, _, _, rfl⟩

theorem State.setRecov_refs (s : State) (j : Judge) : OnlyRefs s (s.setRecov j) := by
  unfold State.setRecov
  dsimp only
  split <;> exact ⟨_, _, _, rfl⟩

theorem State.judgeWindow_refs (s : State) (recovered : Bool) (dev : Int) : OnlyRefs s (s.judgeWindow recovered dev) := by
  unfold State.judgeWindow
  split
  · split
    · exact s.setRecov_refs _
    · exact ⟨_, _, _, rfl⟩
  · split <;> exact s.setRefClk_refs _

theorem State.capLimitSee_pwr (s : State) (j : Int) : ∃ p, s.capLimitSee j = { s with pwr := p } := by
  unfold State.capLimitSee
  split <;> exact ⟨_, rfl⟩

/-- A reading while the fabric does not work shows in no register: it can only shut the device down (R756). -/
theorem State.thermalReading_of_not_up {s : State} (hup : s.up = false) (l : List Int) :
    ∃ p, s.thermalReading l = { s with pwr := p } ∨
      s.thermalReading l = ({ s with pwr := p } : State).thermalShutdown := by
  unfold State.thermalReading
  split
  · exact ⟨s.pwr, .inl rfl⟩
  · simp only [hup, Bool.false_eq_true, if_false]
    obtain ⟨p, hp⟩ := State.capLimitSee_pwr { s with pwr := { s.pwr with prev := s.pwr.sensors, sensors := l, readAt := some s.gts } }
      (junction l)
    have hdown : ({ s with pwr := p } : State).up = false := hup
    rw [hp, hdown]
    exact ⟨p, .inr rfl⟩

/-- A loop that fires is reported; in standby it is noted for the wake, and during start-up the boot stops in TAMPER_HOLD. -/
def OnlyTamper (s t : State) : Prop := ∃ l e i p h w up, t = { s with
  live := l, events := e, integ := i, pairs := p, boot := { s.boot with hold := h, tamperWake := w }, pcieUp := up }

theorem OnlyTamper.refl (s : State) : OnlyTamper s s := ⟨_, _, _, _, _, _, _, rfl⟩

theorem OnlyTamper.trans {s t u : State} : OnlyTamper s t → OnlyTamper t u → OnlyTamper s u := by
  rintro ⟨_, _, _, _, _, _, _, rfl⟩ ⟨l, e, i, p, h, w, up, rfl⟩
  exact ⟨l, e, i, p, h, w, up, rfl⟩

theorem OnlyReports.tamper {s t : State} : OnlyReports s t → OnlyTamper s t := by
  rintro ⟨l, e, i, p, rfl⟩
  exact ⟨l, e, i, p, _, _, _, rfl⟩

theorem State.tamperKeys_tamper (s : State) : OnlyTamper s s.tamperKeys := by
  unfold State.tamperKeys
  have hregs := ((OnlyRegs.wf s Reg.bootStatus F.bootStatus_TAMPER 1).trans
    (.wf _ Reg.bootStatus F.bootStatus_KEY_LOCKED 1)).reports.tamper
  generalize (s.wf Reg.bootStatus F.bootStatus_TAMPER 1).wf Reg.bootStatus F.bootStatus_KEY_LOCKED 1 = t at hregs ⊢
  refine hregs.trans ?_
  dsimp only
  split
  · exact ⟨_, _, _, _, _, _, _, rfl⟩
  · split
    · obtain ⟨l, hl⟩ := t.tamperHold_frame
      rw [hl]
      exact ⟨_, _, _, _, _, _, _, rfl⟩
    · exact .refl t

theorem State.tamperFire_tamper (s : State) (loop : Nat) (inj : Bool) : OnlyTamper s (s.tamperFire loop inj) := by
  unfold State.tamperFire
  have hreports := (((s.detCount_reports ⟨0x10, Kind.occurrence, 0x17, loop, inj⟩).trans (.raiseDev _ (4 + loop) Ev.tamper loop)).trans
    (State.cause_reports _ 2)).tamper
  dsimp only
  split
  · exact hreports
  · exact hreports.trans (State.tamperKeys_tamper _)

/-- Without the fabric no injection is made at a sample (R642). -/
theorem State.tamperLoop_tamper {s : State} (hup : s.up = false) (loop : Nat) (follows : Bool) :
    OnlyTamper s (s.tamperLoop loop follows) := by
  unfold State.tamperLoop
  simp only [hup, Bool.false_eq_true, if_false]
  generalize (if follows && Option.isNone (none : Option Nat) then 0 else Table.get 0 s.integ.tamper loop + 1) = all
  generalize (if follows then 0 else Table.get 0 s.integ.tamper (2 + loop) + 1) = nat
  have hinteg := (OnlyReports.integ s { s.integ with
    tamper := Table.put 0 (Table.put 0 s.integ.tamper loop (min all 3)) (2 + loop) (min nat 3) }).tamper
  split
  · exact hinteg.trans (State.tamperFire_tamper _ _ _)
  · split
    · exact hinteg.trans (State.tamperFire_tamper _ _ _)
    · exact hinteg

theorem OnlyTamper.clockOn {s t : State} : OnlyTamper s t → t.clockOn = s.clockOn := by
  rintro ⟨_, _, _, _, _, _, _, rfl⟩
  rfl

theorem State.up_of_clockOn {s : State} (h : s.clockOn = false) : s.up = false := by
  rw [State.up, h]
  rfl

theorem State.tamperSample_tamper {s : State} (hclock : s.clockOn = false) (a b : Bool) :
    OnlyTamper s ((s.tamperLoop 0 a).tamperLoop 1 b) := by
  have h0 := State.tamperLoop_tamper (State.up_of_clockOn hclock) 0 a
  exact h0.trans (State.tamperLoop_tamper (State.up_of_clockOn (h0.clockOn.trans hclock)) 1 b)

theorem State.bootGoes_of_clockOff {s : State} (h : s.clockOn = false) : s.bootGoes = s := by
  rw [State.bootGoes, h]
  rfl

/-! Before the root PLL locks (R727). -/

theorem State.waitsForRoot.clockOn {s : State} (h : s.waitsForRoot) : s.clockOn = false := by
  obtain ⟨hlocked, -⟩ := h
  rw [State.clockOn, hlocked]
  rfl

theorem State.waitsForRoot.up {s : State} (h : s.waitsForRoot) : s.up = false := State.up_of_clockOn h.clockOn

/-- To wait for the root PLL depends on the state only by the fields that its definition names. -/
theorem State.waitsForRoot.congr {s t : State} (h : s.waitsForRoot)
    (hclk : (t.clk.locked, t.clk.gated, t.clk.standby) = (s.clk.locked, s.clk.gated, s.clk.standby))
    (htime : (t.gts, t.taiValid) = (s.gts, s.taiValid))
    (hmem : (t.dram, t.cistern, t.boot.sram) = (s.dram, s.cistern, s.boot.sram))
    (hwork : (t.ctxs, t.weir, t.pending) = (s.ctxs, s.weir, s.pending)) : t.waitsForRoot := by
  simp only [Prod.mk.injEq] at hclk htime hmem hwork
  unfold State.waitsForRoot at h ⊢
  obtain ⟨h1, h2, h3⟩ := hclk
  obtain ⟨h4, h5⟩ := htime
  obtain ⟨h6, h7, h8⟩ := hmem
  obtain ⟨h9, h10, h11⟩ := hwork
  rwa [h1, h2, h3, h4, h5, h6, h7, h8, h9, h10, h11]

theorem OnlyRefs.waitsForRoot {s t : State} (ht : OnlyRefs s t) (h : s.waitsForRoot) : t.waitsForRoot := by
  obtain ⟨_, _, _, rfl⟩ := ht
  exact h.congr rfl rfl rfl rfl

theorem OnlyTamper.waitsForRoot {s t : State} (ht : OnlyTamper s t) (h : s.waitsForRoot) : t.waitsForRoot := by
  obtain ⟨_, _, _, _, _, _, _, rfl⟩ := ht
  exact h.congr rfl rfl rfl rfl

/-- What holds of a state and of its change holds with a guard on the change. -/
theorem guarded_of {P : State → Prop} {s : State} {f : State → State} (h : P s) (hf : P (f s)) (c : Bool) :
    P (guarded c f s) := by
  cases c
  · exact h
  · exact hf

theorem State.waitsForRoot.reset {s : State} (h : s.waitsForRoot) (cause : Nat) (m : Option ModePins) (elapsed : Nat) :
    (s.deviceReset cause elapsed m).waitsForRoot := by
  obtain ⟨hlocked, hgated, hstandby, hgts, htai, hdram, -, -, -, -, hpending⟩ := h
  obtain ⟨l, n, hreset⟩ := s.resetFor_frame cause m
  have hleave : s.leaveStandby elapsed = s := by
    unfold State.leaveStandby
    rw [hstandby]
    rfl
  have hwaits : (s.resetFor cause m).waitsForRoot := by
    rw [hreset]
    exact ⟨hlocked, hgated, hstandby, hgts, htai, by simp [State.survivors, hdram], rfl, rfl, rfl, rfl, hpending⟩
  unfold State.deviceReset
  rwa [hleave, State.bootGoes_of_clockOff hwaits.clockOn]

theorem State.waitsForRoot.powerOn {s : State} (h : s.waitsForRoot) (m : ModePins) (b : Option Board) :
    (s.powerOn m b).waitsForRoot := by
  obtain ⟨-, -, -, -, -, -, -, -, -, -, hpending⟩ := h
  have hboard : ∀ u : State, u.pending = s.pending →
      (((u.afterReset.sampleModes m).wf Reg.bootCause F.bootCause_CAUSE Rc.powerOn).drawNonce).waitsForRoot := by
    intro u hu
    obtain ⟨l, n, hnonce⟩ := State.drawNonce_frame ((u.afterReset.sampleModes m).wf Reg.bootCause F.bootCause_CAUSE Rc.powerOn)
    obtain ⟨k, hregs⟩ := (State.sampleModes_frame u.afterReset m).trans (.wf _ Reg.bootCause F.bootCause_CAUSE Rc.powerOn)
    rw [hnonce, hregs]
    exact ⟨rfl, rfl, rfl, rfl, rfl, rfl, rfl, rfl, rfl, rfl, hu ▸ hpending⟩
  cases b with
  | none => exact hboard s rfl
  | some b => exact hboard _ rfl

theorem State.waitsForRoot.thermalReading {s : State} (h : s.waitsForRoot) (l : List Int) : (s.thermalReading l).waitsForRoot := by
  have hlocked := h.1
  obtain ⟨p, hp | hp⟩ := State.thermalReading_of_not_up h.up l
  · rw [hp]
    exact h.congr rfl rfl rfl rfl
  · rw [hp]
    unfold State.thermalShutdown
    split
    · exact h.congr (by rw [hlocked]) rfl rfl rfl
    · exact h.congr rfl rfl rfl rfl

/-- Until the root PLL locks, no command but its lock brings the fabric to work. -/
theorem State.waitsForRoot.exec {s t : State} (h : s.waitsForRoot) (c : Instr) (hc : c ≠ .rootPllLock)
    (ht : exec c s = .next t) : t.waitsForRoot := by
  have hup := h.up
  cases hact : actsUnclocked c with
  | false =>
    cases (exec_of_not_up hup hact).symm.trans ht
    exact h
  | true =>
    have hgated := h.2.1
    have hstandby := h.2.2.1
    cases c
    case rootPllLock => exact absurd rfl hc
    case refJudgeWindow recovered dev =>
      cases ht
      exact guarded_of h ((s.judgeWindow_refs recovered dev).waitsForRoot h) _
    case thermalReading l =>
      cases ht
      exact h.thermalReading l
    case clockMonFinding rail n reading stopped =>
      cases ht
      rwa [guarded, hup, hgated]
    case tamperSample a b =>
      cases ht
      exact (State.tamperSample_tamper h.clockOn a b).waitsForRoot h
    case powerOn m b =>
      cases ht
      exact h.powerOn m b
    case pinReset m e =>
      cases ht
      exact guarded_of h (h.reset _ _ _) _
    case trialExpired m e =>
      cases ht
      exact guarded_of h (h.reset _ _ _) _
    case pcieReset m =>
      cases ht
      exact guarded_of h (h.reset _ _ _) _
    case standbyWake e w =>
      cases ht
      rwa [guarded, State.wakeDue, hstandby]
    case tamperWake e =>
      cases ht
      rwa [guarded, hstandby]
    case rootRelock g =>
      cases ht
      rwa [guarded, hgated]
    all_goals cases hact

/-- Settles O59: the idle step finds no clock, a command of the fabric finds the fabric stopped, and those that act without it
leave the root PLL unlocked. -/
theorem theFabricWaitsForTheRootPll : Obligations.TheFabricWaitsForTheRootPll := by
  intro s t h hstep
  suffices hwaits : t.waitsForRoot from ⟨hwaits, hwaits.up⟩
  unfold step at hstep
  cases hp : s.pending with
  | nil =>
    simp only [hp, State.idle, h.clockOn] at hstep
    cases hstep
    exact h
  | cons c rest =>
    simp only [hp] at hstep
    have hnone := h.2.2.2.2.2.2.2.2.2.2
    rw [hp] at hnone
    have hrest : ({ s with pending := rest } : State).waitsForRoot := by
      obtain ⟨h1, h2, h3, h4, h5, h6, h7, h8, h9, h10, -⟩ := h
      exact ⟨h1, h2, h3, h4, h5, h6, h7, h8, h9, h10, fun hm => hnone (List.mem_cons_of_mem _ hm)⟩
    exact hrest.exec c (fun hc => hnone (hc ▸ List.mem_cons_self)) hstep

/-! The thermal shutdown (R756). -/

/-- A device that the shutdown has reached during its start-up, whose first tamper loop has failed one sample and fails the
next. -/
def State.tamperedInShutdown : State :=
  { State.reset with clk := { shutdown := true }, integ := { tamper := [(0, 1), (2, 1)] }, pending := [.tamperSample false true] }

theorem State.tamperedInShutdown_shutDown : State.tamperedInShutdown.shutDown :=
  ⟨rfl, rfl, rfl, fun _ _ => rfl, fun _ _ h => by cases List.mem_singleton.1 h⟩

/-- Refutes O60: the loop that fires during start-up puts the device into TAMPER_HOLD, which brings the PCIe link up (R706, R709),
also in the shutdown, where the link is to be down. -/
theorem not_aShutdownLastsUntilPowerOn : ¬ Obligations.AShutdownLastsUntilPowerOn := by
  intro h
  have hlink : ∃ t, step State.tamperedInShutdown = .next t ∧ t.pcieUp = true := ⟨_, rfl, by decide +kernel⟩
  obtain ⟨t, hstep, hup⟩ := hlink
  obtain ⟨⟨-, -, hdown, -⟩, -⟩ := h _ t State.tamperedInShutdown_shutDown hstep
  exact Bool.false_ne_true (hdown.symm.trans hup)

end Sys2Proof.Machine
end

section
/-! SUPPORT. Writes of registers (R812 to R814, R821): what a write by the access codes leaves alone, what a list of writes leaves
in a register, and what a count in a register reads. -/
namespace Sys2Proof.Machine
open Sys2Proof

/-! What a command of the fabric leaves. -/

/-- What a command of the fabric leaves while the fabric works. -/
theorem exec_fabric {s t : State} {c : Instr} (f : State → State) (hup : s.up = true) (ht : f s = t)
    (hc : exec c s = onFabric s f) : exec c s = .next t := by
  rw [exec_of_up hc hup, ht]

/-- What a command of the fabric leaves of a unit that exists. -/
theorem exec_fabric_unit {s t : State} {c : Instr} {n bound : Nat} (f : State → State) (hup : s.up = true) (hn : n < bound)
    (ht : f s = t) (hc : exec c s = onFabric s (guarded (decide (n < bound)) f)) : exec c s = .next t := by
  rw [exec_unit_of_up hc hup hn, ht]

/-! Which registers and which memory stand. -/

theorem sameRegs.refl (s : State) (l : List Nat) : sameRegs s s l := fun _ _ => rfl

theorem sameRegs.trans {s t u : State} {l : List Nat} (h : sameRegs s t l) (h' : sameRegs t u l) : sameRegs s u l :=
  fun off hoff => (h' off hoff).trans (h off hoff)

theorem sameRegs.mono {s t : State} {l m : List Nat} (h : sameRegs s t l) (hlm : ∀ o ∈ l, o ∈ m) : sameRegs s t m :=
  fun off hoff => h off fun ho => hoff (hlm off ho)

/-- A write of a register of the list keeps the others. -/
theorem sameRegs.wr {s t : State} {l : List Nat} (h : sameRegs s t l) {o : Nat} (ho : o ∈ l) (v : W32) : sameRegs s (t.wr o v) l :=
  fun off hoff => (State.rd_wr_ne t v (ne_of_mem_of_not_mem ho hoff).symm).trans (h off hoff)

theorem sameRegs.wf {s t : State} {l : List Nat} (h : sameRegs s t l) {o : Nat} (ho : o ∈ l) (f : Fld) (v : Nat) :
    sameRegs s (t.wf o f v) l := h.wr ho _

theorem sameRegs.wn {s t : State} {l : List Nat} (h : sameRegs s t l) {o : Nat} (ho : o ∈ l) (v : Nat) :
    sameRegs s (t.wn o v) l := h.wr ho _

/-- States with the same register file hold the same values. -/
theorem State.rd_of_live {s t : State} (h : t.live = s.live) (off : Nat) : t.rd off = s.rd off := by
  unfold State.rd
  rw [h]

theorem sameRegs.of_live {s t : State} (h : t.live = s.live) (l : List Nat) : sameRegs s t l := fun off _ => State.rd_of_live h off

theorem sameMem.refl (s : State) : sameMem s s := fun _ => ⟨rfl, rfl, rfl, rfl⟩

theorem sameMem.trans {s t u : State} (h : sameMem s t) (h' : sameMem t u) : sameMem s u := by
  intro a
  obtain ⟨h1, h2, h3, h4⟩ := h a
  obtain ⟨k1, k2, k3, k4⟩ := h' a
  exact ⟨k1.trans h1, k2.trans h2, k3.trans h3, k4.trans h4⟩

/-! A register as a number. -/

theorem State.rn_wn_same (s : State) (o v : Nat) : (s.wn o v).rn o = v % 2 ^ 32 := by
  unfold State.rn
  rw [State.rd_wn_same, BitVec.toNat_ofNat]

theorem State.rn_wn_ne (s : State) {o off : Nat} (v : Nat) (h : off ≠ o) : (s.wn o v).rn off = s.rn off := by
  unfold State.rn
  rw [State.rd_wn_ne _ _ h]

theorem State.rn_wf_ne (s : State) {o off : Nat} (f : Fld) (v : Nat) (h : off ≠ o) : (s.wf o f v).rn off = s.rn off := by
  unfold State.rn
  rw [State.rd_wf_ne _ _ _ h]

theorem State.rf_wn_ne (s : State) {o off : Nat} (f : Fld) (v : Nat) (h : off ≠ o) : (s.wn o v).rf off f = s.rf off f := by
  unfold State.rf
  rw [State.rd_wn_ne _ _ h]

/-- A list of changes, of which one alone writes a register, leaves in it what that one writes. `I`: what the written value needs
of the state, which every change keeps. -/
theorem rd_foldl_of_mem {α : Type} {f : State → α → State} {I : State → Prop} {off : Nat} {w : W32} {x : α}
    (hI : ∀ s y, I s → I (f s y)) (hset : ∀ s, I s → (f s x).rd off = w) :
    ∀ (l : List α) (s : State), I s → x ∈ l → (∀ s, ∀ y ∈ l, y ≠ x → (f s y).rd off = s.rd off) → (l.foldl f s).rd off = w
  | [], _, _, hx, _ => by cases hx
  | y :: l, s, hs, hx, hkeep => by
    have hkeep' : ∀ s, ∀ z ∈ l, z ≠ x → (f s z).rd off = s.rd off := fun s z hz => hkeep s z (List.mem_cons_of_mem _ hz)
    rw [List.foldl_cons]
    by_cases hl : x ∈ l
    · exact rd_foldl_of_mem hI hset l (f s y) (hI s y hs) hl hkeep'
    · have hxy : y = x := (List.mem_cons.1 hx).elim Eq.symm fun h => absurd h hl
      subst hxy
      rw [rd_foldl f off l _ fun s z hz => hkeep' s z hz fun e => hl (e ▸ hz)]
      exact hset s hs

/-! A write by the access codes. -/

theorem State.chipErr_regs (s : State) (kind off tag : Nat) : OnlyRegs s (s.chipErr kind off tag) := by
  unfold State.chipErr
  dsimp only
  split
  · exact .bumpSat s _ _
  · exact (((OnlyRegs.bumpSat s _ _).trans (.wf _ _ _ _)).trans (.wf _ _ _ _)).trans ((OnlyRegs.wf _ _ _ _).trans (.wf _ _ _ _))

/-- An access error is recorded in CHIP_ERR and CHIP_ERR_SRC. -/
theorem State.chipErr_sameRegs (s : State) (kind off tag : Nat) : sameRegs s (s.chipErr kind off tag) errRegs := by
  have hsrc : sameRegs s (s.bumpSat Reg.chipErrSrc F.chipErrSrc_COUNT) errRegs := (sameRegs.refl s _).wf (by simp [errRegs]) _ _
  unfold State.chipErr
  dsimp only
  split
  · exact hsrc
  · exact (((hsrc.wf (by simp [errRegs]) _ _).wf (by simp [errRegs]) _ _).wf (by simp [errRegs]) _ _).wf (by simp [errRegs]) _ _

/-- The states differ in what a register write changes: registers, staged values, begun unlock sequences and parity failures. -/
def OnlyWrite (s t : State) : Prop := ∃ l g j b, t = { s with live := l, staged := g, integ := { s.integ with injs := j, parBad := b } }

theorem OnlyWrite.refl (s : State) : OnlyWrite s s := ⟨_, _, _, _, rfl⟩

theorem OnlyWrite.trans {s t u : State} : OnlyWrite s t → OnlyWrite t u → OnlyWrite s u := by
  rintro ⟨_, _, _, _, rfl⟩ ⟨l, g, j, b, rfl⟩
  exact ⟨l, g, j, b, rfl⟩

theorem OnlyRegs.write {s t : State} : OnlyRegs s t → OnlyWrite s t := by
  rintro ⟨l, rfl⟩
  exact ⟨l, _, _, _, rfl⟩

theorem OnlyWrite.sameMem {s t : State} : OnlyWrite s t → sameMem s t := by
  rintro ⟨_, _, _, _, rfl⟩ _
  exact ⟨rfl, rfl, rfl, rfl⟩

theorem OnlyWrite.touch (s : State) (block : Nat) : OnlyWrite s (s.touch block) := ⟨_, _, _, _, rfl⟩

/-- The register that a row's write writes, apart from what it records, stages and forgets. -/
theorem State.writeRow_eq (s : State) (r : RegRow) (tag off : Nat) (v : W32) : ∃ u g b, OnlyRegs s u ∧ sameRegs s u errRegs ∧
    s.writeRow r tag off v = { u.wr off (r.written (s.rd off) v) with staged := g, integ := { s.integ with parBad := b } } := by
  unfold State.writeRow
  dsimp only
  obtain ⟨u, hu⟩ : ∃ u, u = if (s.rd off ^^^ v) &&& r.rwl = 0 then s else s.chipErr ChipErr.rwlChanged off tag := ⟨_, rfl⟩
  have hregs : OnlyRegs s u ∧ sameRegs s u errRegs := by
    rw [hu]
    split
    · exact ⟨.refl s, .refl s _⟩
    · exact ⟨s.chipErr_regs _ _ _, s.chipErr_sameRegs _ _ _⟩
  rw [← hu]
  clear hu
  obtain ⟨⟨l, rfl⟩, herr⟩ := hregs
  split
  · exact ⟨_, s.staged, s.integ.parBad.filter fun o => o != off, ⟨l, rfl⟩, herr, rfl⟩
  · exact ⟨_, Table.put none s.staged off (some (v &&& r.ws)), s.integ.parBad.filter fun o => o != off, ⟨l, rfl⟩, herr, rfl⟩

theorem State.writeRow_write (s : State) (r : RegRow) (tag off : Nat) (v : W32) : OnlyWrite s (s.writeRow r tag off v) := by
  obtain ⟨u, g, b, ⟨l, rfl⟩, -, h⟩ := s.writeRow_eq r tag off v
  rw [h]
  exact ⟨_, _, _, _, rfl⟩

theorem State.writeReg_write (s : State) (tag off : Nat) (v : W32) : OnlyWrite s (s.writeReg tag off v) := by
  unfold State.writeReg
  split
  · exact (OnlyWrite.touch s _).trans (State.writeRow_write ..)
  · exact .refl s

/-- A register write writes its register and the record of access errors, and no other register. -/
theorem State.writeReg_sameRegs (s : State) (tag off : Nat) (v : W32) : sameRegs s (s.writeReg tag off v) (off :: errRegs) := by
  unfold State.writeReg
  split
  · rename_i r _
    obtain ⟨u, g, b, -, herr, h⟩ := (s.touch (off / 0x100000)).writeRow_eq r tag off v
    rw [h]
    have hu : sameRegs s u (off :: errRegs) := fun o ho => herr o fun hm => ho (List.mem_cons_of_mem _ hm)
    exact (hu.wr List.mem_cons_self _).trans (.of_live rfl _)
  · exact .refl s _

theorem State.rd_writeReg_ne (s : State) (tag : Nat) {off o : Nat} (v : W32) (h : o ≠ off) (herr : o ∉ errRegs) :
    (s.writeReg tag off v).rd o = s.rd o :=
  s.writeReg_sameRegs tag off v o fun hm => (List.mem_cons.1 hm).elim h herr

theorem State.rf_writeReg_ne (s : State) (tag : Nat) {off o : Nat} (v : W32) (f : Fld) (h : o ≠ off) (herr : o ∉ errRegs) :
    (s.writeReg tag off v).rf o f = s.rf o f := by
  unfold State.rf
  rw [s.rd_writeReg_ne tag v h herr]

/-- The value in force after a write of a register of a row. -/
theorem State.rd_writeReg_same (s : State) (tag : Nat) {off : Nat} (v : W32) {r : RegRow} (h : RegRow.of? off = some r) :
    (s.writeReg tag off v).rd off = r.written (s.rd off) v := by
  obtain ⟨u, g, b, -, -, heq⟩ := (s.touch (off / 0x100000)).writeRow_eq r tag off v
  unfold State.writeReg
  rw [h]
  dsimp only
  rw [heq]
  exact State.rd_wr_same _ _ _

/-- The device's address errors stand apart from every register of another block. -/
theorem not_mem_errRegs {o : Nat} (h : 0x100 ≤ o) : o ∉ errRegs := by
  simp only [errRegs, Reg.chipErr, Reg.chipErrSrc, List.mem_cons, List.not_mem_nil, or_false, not_or]
  omega

end Sys2Proof.Machine
end

section
/-! SUPPORT. Frame-sync outputs (R559, R560). -/
namespace Sys2Proof.Machine
open Sys2Proof

@[simp] theorem State.fsync_wf (s : State) (o : Nat) (f : Fld) (v n : Nat) : (s.wf o f v).fsync n = s.fsync n := rfl

theorem State.fsyncAssert_of_due {s : State} {n m : Nat} (h : (s.fsync n).matched = some m) (hdue : m + 10 ≤ s.gts ∧ s.gts % 10 = 0) :
    s.fsyncAssert n =
      (s.setFsync n { matched := none, asserted := some s.gts }).bump (Reg.fsyncStatus n) F.fsyncStatus_PULSES := by
  rw [State.fsyncAssert, h]
  exact if_pos hdue

theorem State.fsyncAssert_of_not_due {s : State} {n m : Nat} (h : (s.fsync n).matched = some m)
    (hdue : ¬(m + 10 ≤ s.gts ∧ s.gts % 10 = 0)) : s.fsyncAssert n = s := by
  rw [State.fsyncAssert, h]
  exact if_neg hdue

theorem State.fsyncEnd_of_over {s : State} {n m : Nat} (h : (s.fsync n).asserted = some m) (hover : s.pulseEnd n m ≤ s.gts) :
    s.fsyncEnd n = s.setFsync n { s.fsync n with asserted := none } := by
  rw [State.fsyncEnd, h]
  exact if_pos hover

theorem State.fsyncEnd_of_not_over {s : State} {n m : Nat} (h : (s.fsync n).asserted = some m) (hover : s.gts < s.pulseEnd n m) :
    s.fsyncEnd n = s := by
  rw [State.fsyncEnd, h]
  exact if_neg (Nat.not_le_of_lt hover)

/-- Settles O36: an assertion and an end of a pulse each have one condition, and without it nothing changes. -/
theorem frameSyncPulsesHaveTheirWidth : Obligations.FrameSyncPulsesHaveTheirWidth := by
  intro s n m hup hn
  refine ⟨fun hm => ⟨fun hwait hedge => ?assert, fun hearly => ?early⟩, fun ha => ⟨fun hover => ?ended, fun hon => ?active⟩⟩
  case assert =>
    refine ⟨_, exec_fabric_unit (·.fsyncAssert n) hup hn (State.fsyncAssert_of_due hm ⟨hwait, hedge⟩) rfl, ?_⟩
    exact ⟨by simp [State.bump], State.rf_wf_same _ _ _ _ (by decide) (by decide),
      (sameRegs.of_live rfl _).trans ((sameRegs.refl _ _).wf List.mem_cons_self _ _), fun _ => ⟨rfl, rfl, rfl, rfl⟩⟩
  case early =>
    exact exec_fabric_unit (·.fsyncAssert n) hup hn (State.fsyncAssert_of_not_due hm (by omega)) rfl
  case ended => exact exec_fabric_unit (·.fsyncEnd n) hup hn (State.fsyncEnd_of_over ha hover) rfl
  case active => exact exec_fabric_unit (·.fsyncEnd n) hup hn (State.fsyncEnd_of_not_over ha hon) rfl

end Sys2Proof.Machine
end

section
/-! SUPPORT. The power sequencer (R740 to R746): how a request is served, how a frame ends, and what a sample and a time-out do. -/
namespace Sys2Proof.Machine
open Sys2Proof

/-! Requests (R740, R741, R746). -/

theorem State.opReqWrite_of_fwp4 (s : State) {v : W32} (h : v.fld F.powerOpReq_OP ≤ 5) :
    s.opReqWrite 0x604 v = s.fwp4Request (v.fld F.powerOpReq_OP) := if_pos (by simpa using h)

theorem State.opReqWrite_of_other (s : State) {tag : Nat} (v : W32) (h : tag ≠ 0x604) : s.opReqWrite tag v = s :=
  if_neg (by simp [h])

/-- Serving a request that the heat allows: the floor refuses it, or the sequencer takes it on. -/
theorem State.opServe_eq {s : State} {k : Nat} (hp : s.pwr.pending = some k) (hframe : s.pwr.frame = none)
    (hfrozen : s.seqFrozen = false) (hheat : s.hot = true → max s.pwr.op s.floorOp ≤ k) :
    s.opServe = if s.floorRefuses k then
        ({ s with pwr := { s.pwr with pending := none, heldReason := true } } : State).wf Reg.powerStatus F.powerStatus_FLOOR_HELD 1
      else
        let t : State := { s with pwr := { s.pwr with pending := none, heldReason := false } }
        (if s.pwr.op < k then t.setOp k else t).sendFrame k := by
  have hcool : (s.hot && decide (k < max s.pwr.op s.floorOp)) = false := by
    cases hh : s.hot with
    | false => rfl
    | true => simpa using hheat hh
  unfold State.opServe
  simp only [hp, hframe, hfrozen, Option.isSome_none, Bool.or_self, Bool.false_eq_true, if_false]
  exact if_neg (by rw [Bool.not_eq_true]; exact hcool)

/-- A slower point's divider applies before its Voltage write begins, and no other register is written. -/
theorem State.served_point (s : State) (k : Nat) :
    let t := (if s.pwr.op < k then s.setOp k else s).sendFrame k
    t.pwr.pending = s.pwr.pending ∧ t.pwr.target = k ∧ t.pwr.frame = some { op := k, start := s.gts } ∧
      t.pwr.op = max s.pwr.op k ∧ sameRegs s t [Reg.clkDiv] := by
  dsimp only
  split
  · next h =>
    exact ⟨rfl, rfl, rfl, (Nat.max_eq_right (Nat.le_of_lt h)).symm, (sameRegs.of_live rfl _).trans ((sameRegs.refl _ _).wf List.mem_cons_self _ _)⟩
  · next h => exact ⟨rfl, rfl, rfl, (Nat.max_eq_left (Nat.le_of_not_lt h)).symm, .of_live rfl _⟩

/-- Settles O15: `State.opServe_eq` gives the two ways a request is served. -/
theorem operatingPointsAreRequestedAndServed : Obligations.OperatingPointsAreRequestedAndServed := by
  intro s tag k v hup
  refine ⟨fun htag hop => ?request, fun htag => ?other, fun hp hframe hfrozen hheat => ⟨fun hfloor => ?served, fun hfloor => ?refused⟩⟩
  case request =>
    subst htag
    exact ⟨_, exec_fabric (·.opReqWrite _ v) hup (s.opReqWrite_of_fwp4 hop) rfl, rfl, rfl, rfl, .refl s⟩
  case other => exact exec_fabric (·.opReqWrite _ v) hup (s.opReqWrite_of_other v htag) rfl
  case served =>
    refine ⟨_, exec_fabric State.opServe hup (State.opServe_eq hp hframe hfrozen hheat) rfl, ?_⟩
    rw [if_neg (by simp [hfloor])]
    exact State.served_point { s with pwr := { s.pwr with pending := none, heldReason := false } } k
  case refused =>
    refine ⟨_, exec_fabric State.opServe hup (State.opServe_eq hp hframe hfrozen hheat) rfl, ?_⟩
    rw [if_pos hfloor]
    exact ⟨rfl, rfl, hframe, State.rf_wf_same _ _ _ _ (by decide) (by decide),
      (sameRegs.of_live rfl _).trans ((sameRegs.refl _ _).wf List.mem_cons_self _ _)⟩

/-! The rail (R742 to R745). -/

/-- What the end of a frame does once its 1,280 ns have passed. -/
theorem State.frameDone_eq {s : State} {f : Frame} (hf : s.pwr.frame = some f) (hdue : f.start + 1280 ≤ s.gts) (ok : Bool) :
    s.frameDone ok =
      if ok then { s with pwr := { s.pwr with frame := none, slewing := true }.slewTo }
      else if !f.retry then { s with pwr := { s.pwr with frame := some { f with retry := true, start := s.gts } } }
      else { s with pwr := { s.pwr with frame := none, avsFault := true } } := by
  unfold State.frameDone
  simp only [hf]
  exact if_neg (Nat.not_lt_of_le hdue)

/-- The fifth sample in a row at the set point ends the slew (R742). -/
theorem State.voltSample_fifth {s : State} {mv : Nat} (hus : s.gts % 1000 = 0) (hframe : s.pwr.frame = none)
    (hslew : s.pwr.slewing = true) (hfrozen : s.seqFrozen = false) (hreached : s.pwr.reached = 4) (hgts : 1000 ≤ s.gts)
    (hlast : s.pwr.sampleAt = some (s.gts - 1000)) (hmv : opVolt s.pwr.target ≤ mv + 10) :
    s.voltSample mv =
      let t : State := { s with pwr := { s.pwr with reached := 0, sampleAt := some s.gts, slewing := false }.settled }
      if s.pwr.target < s.pwr.op then t.setOp s.pwr.target else t := by
  have hnew : (s.pwr.sampleAt == some s.gts) = false := by
    rw [hlast]
    simp
    omega
  have hnext : (s.pwr.sampleAt.any fun t => t + 1000 == s.gts) = true := by
    rw [hlast]
    simp
    omega
  unfold State.voltSample
  simp only [hus, hframe, hslew, hfrozen, hnew, hnext, hreached, Nat.not_lt_of_le hmv, if_true, if_false]
  rfl

/-- Past its 200 µs a slew goes back to the point whose divider is in force (R743). -/
theorem State.avsTimeout_due {s : State} (hslew : s.pwr.slewing = true) (hframe : s.pwr.frame = none) (hfrozen : s.seqFrozen = false)
    (hdue : s.pwr.cmdGts + 200000 ≤ s.gts) :
    s.avsTimeout = ((s.sendFrame s.pwr.op).wf Reg.powerStatus F.powerStatus_AVS_TIMEOUT 1).warn 8 0x16 0 := by
  unfold State.avsTimeout
  exact if_pos (by simp [hslew, hframe, hfrozen, hdue])

/-- Settles O16: the end of a frame, the fifth sample and the time-out each have one effect. -/
theorem theRailFollowsTheSequencer : Obligations.TheRailFollowsTheSequencer := by
  intro s f mv hup
  refine ⟨fun hf hdue => ⟨?done, fun hfirst => ?retried, fun hretry => ?failed⟩,
    fun hus hframe hslew hfrozen hreached hgts hlast hmv => ?settled, fun hslew hframe hfrozen hdue => ?timeout⟩
  case done => exact ⟨_, exec_fabric (·.frameDone true) hup (State.frameDone_eq hf hdue true) rfl, rfl⟩
  case retried =>
    refine ⟨_, exec_fabric (·.frameDone false) hup (State.frameDone_eq hf hdue false) rfl, ?_⟩
    rw [hfirst]
    rfl
  case failed =>
    refine ⟨_, exec_fabric (·.frameDone false) hup (State.frameDone_eq hf hdue false) rfl, ?_⟩
    rw [hretry]
    exact ⟨rfl, Bool.or_true _⟩
  case settled =>
    refine ⟨_, exec_fabric (·.voltSample mv) hup (State.voltSample_fifth hus hframe hslew hfrozen hreached hgts hlast hmv) rfl, ?_⟩
    dsimp only
    split
    · next h =>
      exact ⟨rfl, (Nat.min_eq_right (Nat.le_of_lt h)).symm, rfl, rfl,
        (sameRegs.of_live rfl _).trans ((sameRegs.refl _ _).wf List.mem_cons_self _ _)⟩
    · next h => exact ⟨rfl, (Nat.min_eq_left (Nat.le_of_not_lt h)).symm, rfl, rfl, .of_live rfl _⟩
  case timeout =>
    obtain ⟨l, e, hwarn⟩ := State.warn_frame ((s.sendFrame s.pwr.op).wf Reg.powerStatus F.powerStatus_AVS_TIMEOUT 1) 8 0x16 0
    refine ⟨_, exec_fabric State.avsTimeout hup ((State.avsTimeout_due hslew hframe hfrozen hdue).trans hwarn) rfl, ?_⟩
    exact ⟨rfl, rfl, rfl, fun _ => ⟨rfl, rfl, rfl, rfl⟩⟩

end Sys2Proof.Machine
end

section
/-! SUPPORT. The Clepsydra: snapshots (R527 to R529), TAI (R531 to R536) and the stamps of IEEE 1588 (R537, R538, R824). -/
namespace Sys2Proof.Machine
open Sys2Proof

/-! Memory stands as registers are written. -/

theorem sameMem.wr {s t : State} (h : sameMem s t) (o : Nat) (v : W32) : sameMem s (t.wr o v) := h
theorem sameMem.wf {s t : State} (h : sameMem s t) (o : Nat) (f : Fld) (v : Nat) : sameMem s (t.wf o f v) := h
theorem sameMem.wn {s t : State} (h : sameMem s t) (o v : Nat) : sameMem s (t.wn o v) := h

/-! Snapshots. -/

theorem State.snapRequest_of_req {s : State} (tag k : Nat) {v : W32} (h : v.fld F.clkSnapCtrl_REQ = 1) :
    s.snapRequest tag k v =
      let t := s.writeReg tag (Reg.clkSnapCtrl k) v
      { t.wf (Reg.clkSnapCtrl k) F.clkSnapCtrl_VALID 0 with snapPending := (t.snapPending.erase k) ++ [k] } :=
  if_neg (by rw [h]; decide)

/-- What a capture writes of one position into its mailbox. -/
def State.snapPos (k : Nat) (s : State) (n : Nat) : State :=
  (s.wn (Reg.snapPosLo k n) (s.phase n).pos).wn (Reg.snapPosHi k n) ((s.phase n).pos / 2 ^ 32)

/-- What a capture writes of every position into its mailbox. -/
def State.snapPositions (s : State) (k : Nat) : State := (List.range 9).foldl (State.snapPos k) s

/-- What a capture writes of the GTS and TAI into its mailbox. -/
def State.snapTime (s : State) (k : Nat) : State :=
  let s := (s.wn (Reg.snapGtsLo k) s.gts).wn (Reg.snapGtsHi k) (s.gts / 2 ^ 32)
  ((s.wn (Reg.snapTaiNs k) s.taiNs).wn (Reg.snapTaiSLo k) s.taiSec).wn (Reg.snapTaiSHi k) (s.taiSec / 2 ^ 32)

/-- A capture's mailbox is marked as filled. -/
def State.snapDone (s : State) (k : Nat) : State :=
  (s.wf (Reg.clkSnapCtrl k) F.clkSnapCtrl_TAI_VALID (b2n s.taiValid)).wf (Reg.clkSnapCtrl k) F.clkSnapCtrl_VALID 1

theorem State.snapCapture_of_pending {s : State} {k : Nat} (h : k ∈ s.snapPending) :
    s.snapCapture k =
      ((({ s with snapPending := s.snapPending.erase k } : State).snapTime k).snapPositions k).snapDone k := by
  unfold State.snapCapture
  rw [if_neg (by simp [h])]
  rfl

theorem State.snapCapture_of_not_pending {s : State} {k : Nat} (h : k ∉ s.snapPending) : s.snapCapture k = s :=
  if_pos (by simp [h])

theorem State.snapPos_rd (k : Nat) (s : State) (n : Nat) {off : Nat} (hlo : off ≠ Reg.snapPosLo k n) (hhi : off ≠ Reg.snapPosHi k n) :
    (s.snapPos k n).rd off = s.rd off := by
  rw [State.snapPos, State.rd_wn_ne _ _ hhi, State.rd_wn_ne _ _ hlo]

/-- The position of an input in a mailbox, once it is written. -/
theorem State.snapPos_same (k : Nat) (s : State) (n : Nat) :
    (s.snapPos k n).rd (Reg.snapPosLo k n) = BitVec.ofNat 32 (s.phase n).pos ∧
      (s.snapPos k n).rd (Reg.snapPosHi k n) = BitVec.ofNat 32 ((s.phase n).pos / 2 ^ 32) := by
  unfold State.snapPos
  rw [State.rd_wn_ne _ _ (by unfold Reg.snapPosLo Reg.snapPosHi; omega), State.rd_wn_same, State.rd_wn_same]
  exact ⟨rfl, rfl⟩

theorem State.phase_snapPos (k : Nat) (s : State) (n m : Nat) : (s.snapPos k n).phase m = s.phase m := rfl

/-- The position of an input in a mailbox, once every position is written. -/
theorem State.snapPositions_rd (s : State) (k : Nat) {n : Nat} (hn : n < 9) :
    (s.snapPositions k).rd (Reg.snapPosLo k n) = BitVec.ofNat 32 (s.phase n).pos ∧
      (s.snapPositions k).rd (Reg.snapPosHi k n) = BitVec.ofNat 32 ((s.phase n).pos / 2 ^ 32) := by
  have hphase : ∀ t y, t.phase n = s.phase n → (State.snapPos k t y).phase n = s.phase n := fun t y h =>
    (State.phase_snapPos k t y n).trans h
  have hmem : n ∈ List.range 9 := List.mem_range.2 hn
  constructor
  · refine rd_foldl_of_mem hphase (fun t ht => ?_) _ s rfl hmem fun t y _ hy => t.snapPos_rd k y ?_ ?_
    · rw [(t.snapPos_same k n).1, ht]
    · unfold Reg.snapPosLo; omega
    · unfold Reg.snapPosLo Reg.snapPosHi; omega
  · refine rd_foldl_of_mem hphase (fun t ht => ?_) _ s rfl hmem fun t y _ hy => t.snapPos_rd k y ?_ ?_
    · rw [(t.snapPos_same k n).2, ht]
    · unfold Reg.snapPosLo Reg.snapPosHi; omega
    · unfold Reg.snapPosHi; omega

/-- A register of a mailbox below its positions is not written with them. -/
theorem State.snapPositions_below (s : State) (k : Nat) {off : Nat} (h : off < Reg.snapPosLo k 0) :
    (s.snapPositions k).rd off = s.rd off :=
  rd_foldl _ _ _ _ fun t n _ => t.snapPos_rd k n (by unfold Reg.snapPosLo at h ⊢; omega)
    (by unfold Reg.snapPosLo Reg.snapPosHi at *; omega)

theorem State.snapTime_rn (s : State) (k : Nat) :
    (s.snapTime k).rn (Reg.snapGtsLo k) = s.gts % 2 ^ 32 ∧ (s.snapTime k).rn (Reg.snapGtsHi k) = s.gts / 2 ^ 32 % 2 ^ 32 ∧
      (s.snapTime k).rn (Reg.snapTaiNs k) = s.taiNs % 2 ^ 32 ∧ (s.snapTime k).rn (Reg.snapTaiSLo k) = s.taiSec % 2 ^ 32 := by
  unfold State.snapTime Reg.snapGtsLo Reg.snapGtsHi Reg.snapTaiNs Reg.snapTaiSLo Reg.snapTaiSHi
  refine ⟨?_, ?_, ?_, ?_⟩ <;>
    simp (disch := omega) only [State.rn_wn_same, State.rn_wn_ne, State.wn_taiNs, State.wn_taiSec]

theorem State.snapDone_rd (s : State) (k : Nat) {off : Nat} (h : off ≠ Reg.clkSnapCtrl k) : (s.snapDone k).rd off = s.rd off := by
  rw [State.snapDone, State.rd_wf_ne _ _ _ h, State.rd_wf_ne _ _ _ h]

theorem State.snapPositions_regs (s : State) (k : Nat) : OnlyRegs s (s.snapPositions k) :=
  OnlyRegs.foldl _ (fun s n => (OnlyRegs.wn s (Reg.snapPosLo k n) _).trans (.wn _ _ _)) _ _

theorem State.snapTime_regs (s : State) (k : Nat) : OnlyRegs s (s.snapTime k) :=
  ((OnlyRegs.wn _ _ _).trans (.wn _ _ _)).trans (((OnlyRegs.wn _ _ _).trans (.wn _ _ _)).trans (.wn _ _ _))

/-- A capture changes registers alone. -/
theorem State.snap_regs (s : State) (k : Nat) : OnlyRegs s (((s.snapTime k).snapPositions k).snapDone k) :=
  ((s.snapTime_regs k).trans ((s.snapTime k).snapPositions_regs k)).trans ((OnlyRegs.wf _ _ _ _).trans (.wf _ _ _ _))

/-- What a capture leaves in its mailbox. -/
theorem State.snap_mailbox (s : State) (k : Nat) :
    let t := ((s.snapTime k).snapPositions k).snapDone k
    t.rn (Reg.snapGtsLo k) = s.gts % 2 ^ 32 ∧ t.rn (Reg.snapGtsHi k) = s.gts / 2 ^ 32 % 2 ^ 32 ∧
    t.rn (Reg.snapTaiNs k) = s.taiNs % 2 ^ 32 ∧ t.rn (Reg.snapTaiSLo k) = s.taiSec % 2 ^ 32 ∧
    (∀ n < 9, t.rn (Reg.snapPosLo k n) = (s.phase n).pos % 2 ^ 32 ∧ t.rn (Reg.snapPosHi k n) = (s.phase n).pos / 2 ^ 32 % 2 ^ 32) ∧
    t.rf (Reg.clkSnapCtrl k) F.clkSnapCtrl_VALID = 1 ∧ t.rf (Reg.clkSnapCtrl k) F.clkSnapCtrl_TAI_VALID = b2n s.taiValid := by
  obtain ⟨hgtsLo, hgtsHi, htaiNs, htaiSLo⟩ := s.snapTime_rn k
  have htime : ∀ off, off ≠ Reg.clkSnapCtrl k → off < Reg.snapPosLo k 0 →
      (((s.snapTime k).snapPositions k).snapDone k).rn off = (s.snapTime k).rn off := fun off hoff hlow => by
    unfold State.rn
    rw [State.snapDone_rd _ _ hoff, State.snapPositions_below _ _ hlow]
  have htai : ((s.snapTime k).snapPositions k).taiValid = s.taiValid := by
    obtain ⟨l, hl⟩ := (s.snapTime_regs k).trans ((s.snapTime k).snapPositions_regs k)
    rw [hl]
  refine ⟨?_, ?_, ?_, ?_, fun n hn => ?_, State.rf_wf_same _ _ _ _ (by decide) (by decide), ?_⟩
  · rw [htime _ (by unfold Reg.snapGtsLo Reg.clkSnapCtrl; omega) (by unfold Reg.snapGtsLo Reg.snapPosLo; omega), hgtsLo]
  · rw [htime _ (by unfold Reg.snapGtsHi Reg.clkSnapCtrl; omega) (by unfold Reg.snapGtsHi Reg.snapPosLo; omega), hgtsHi]
  · rw [htime _ (by unfold Reg.snapTaiNs Reg.clkSnapCtrl; omega) (by unfold Reg.snapTaiNs Reg.snapPosLo; omega), htaiNs]
  · rw [htime _ (by unfold Reg.snapTaiSLo Reg.clkSnapCtrl; omega) (by unfold Reg.snapTaiSLo Reg.snapPosLo; omega), htaiSLo]
  · obtain ⟨hlo, hhi⟩ := (s.snapTime k).snapPositions_rd k hn
    unfold State.rn
    rw [State.snapDone_rd _ _ (by unfold Reg.snapPosLo Reg.clkSnapCtrl; omega), hlo, BitVec.toNat_ofNat,
      State.snapDone_rd _ _ (by unfold Reg.snapPosHi Reg.clkSnapCtrl; omega), hhi, BitVec.toNat_ofNat]
    obtain ⟨l, hl⟩ := s.snapTime_regs k
    rw [hl]
    exact ⟨rfl, rfl⟩
  · rw [State.snapDone, State.rf_wf_apart _ _ _ _ _ (by decide) (by decide), State.rf_wf_same _ _ _ _ (by decide) (by decide), htai]
    cases s.taiValid <;> rfl

/-- Settles O32: the request marks its mailbox, and the capture writes what the state holds into the mailbox. -/
theorem snapshotsTakeOneCycle : Obligations.SnapshotsTakeOneCycle := by
  intro s tag k v hup hk
  refine ⟨fun hreq => ?request, fun hpending => ?capture, fun hnone => ?none⟩
  case request =>
    refine ⟨_, exec_fabric_unit (·.snapRequest tag k v) hup hk (State.snapRequest_of_req tag k hreq) rfl, ?_⟩
    refine ⟨by simp, State.rf_wf_same _ _ _ _ (by decide) (by decide), ?_, (State.writeReg_write ..).sameMem⟩
    exact ((s.writeReg_sameRegs tag (Reg.clkSnapCtrl k) v).wf List.mem_cons_self _ _).trans (.of_live rfl _)
  case none => exact exec_fabric_unit (·.snapCapture k) hup hk (State.snapCapture_of_not_pending hnone) rfl
  case capture =>
    refine ⟨_, exec_fabric_unit (·.snapCapture k) hup hk (State.snapCapture_of_pending hpending) rfl, ?_⟩
    obtain ⟨hgtsLo, hgtsHi, htaiNs, htaiSLo, hpos, hvalid, htai⟩ :=
      State.snap_mailbox { s with snapPending := s.snapPending.erase k } k
    obtain ⟨l, hl⟩ := State.snap_regs { s with snapPending := s.snapPending.erase k } k
    refine ⟨hgtsLo, hgtsHi, htaiNs, htaiSLo, hpos, hvalid, htai, ?_, ?_⟩
    · rw [hl]
    · rw [hl]
      exact fun _ => ⟨rfl, rfl, rfl, rfl⟩

/-! Stamps. -/

theorem State.stamp_ingress (s : State) (n : Nat) (d : PtpSend) (ty dom seq : Nat) :
    s.stamp n false d ty dom seq = s.setPort n { s.port n with
      ingress := some { sec := s.taiSec, ns := s.taiNs, seqId := seq, domain := dom, msgType := ty } } := rfl

/-- The port after an egress stamp, but for its queue: one-step operation writes the stamp into the message (R538). -/
def EthPort.sent (p : EthPort) (d : PtpSend) (x : Stamp) : EthPort :=
  if d.oneStep && x.msgType == 0 && d.transport != 2 then { p with originTs := some x, csumCleared := d.transport == 1 } else p

theorem EthPort.queue_sent (p : EthPort) (d : PtpSend) (x : Stamp) : (p.sent d x).queue = p.queue := by
  unfold EthPort.sent
  split <;> rfl

theorem State.stamp_egress (s : State) (n : Nat) (d : PtpSend) (ty dom seq : Nat) :
    s.stamp n true d ty dom seq =
      let x : Stamp := { sec := s.taiSec, ns := s.taiNs, seqId := seq, domain := dom, msgType := ty }
      let p := (s.port n).sent d x
      if (s.port n).queue.length < 64 then s.setPort n { p with queue := (s.port n).queue ++ [x] }
      else (s.setPort n p).wf (Reg.ethTsqCtrl n) F.ethTsqCtrl_OVERFLOW 1 := by
  dsimp only
  rw [← EthPort.queue_sent (s.port n) d { sec := s.taiSec, ns := s.taiNs, seqId := seq, domain := dom, msgType := ty }]
  rfl

@[simp] theorem State.port_wf (s : State) (o : Nat) (f : Fld) (v n : Nat) : (s.wf o f v).port n = s.port n := rfl
@[simp] theorem State.port_wn (s : State) (o v n : Nat) : (s.wn o v).port n = s.port n := rfl

/-- What a message written by one-step operation holds, whether or not the queue has room. -/
theorem State.port_stamp_egress (s : State) (n : Nat) (d : PtpSend) (ty dom seq : Nat) :
    let p := (s.port n).sent d { sec := s.taiSec, ns := s.taiNs, seqId := seq, domain := dom, msgType := ty }
    ((s.stamp n true d ty dom seq).port n).originTs = p.originTs ∧ ((s.stamp n true d ty dom seq).port n).csumCleared = p.csumCleared := by
  rw [State.stamp_egress]
  dsimp only
  split <;> simp

theorem State.tsqWrite_of_pop (s : State) (tag n : Nat) {v : W32} (h : v.fld F.ethTsqCtrl_POP = 1) :
    s.tsqWrite tag n v =
      let u := (s.writeReg tag (Reg.ethTsqCtrl n) v).wf (Reg.ethTsqCtrl n) F.ethTsqCtrl_VALID 0
      match (u.port n).queue with
      | [] => u
      | x :: q =>
        (((((u.setPort n { u.port n with queue := q }).wn (Reg.ethTsqNs n) x.ns).wn (Reg.ethTsqSLo n) x.sec).wn (Reg.ethTsqSHi n)
          (x.sec / 2 ^ 32)).wn (Reg.ethTsqId n) (x.seqId % 2 ^ 16 * 2 ^ 16 + x.domain % 256 * 256 + x.msgType % 16)).wf
          (Reg.ethTsqCtrl n) F.ethTsqCtrl_VALID 1 := by
  unfold State.tsqWrite
  simp only [h]
  rfl

theorem State.port_writeReg (s : State) (tag off n : Nat) (v : W32) : (s.writeReg tag off v).port n = s.port n := by
  obtain ⟨_, _, _, _, h⟩ := s.writeReg_write tag off v
  rw [h]
  rfl

/-- Settles O34: `State.stamp_egress` and `State.tsqWrite_of_pop` say what a stamp and a POP leave. -/
theorem ethernetStampsAreKept : Obligations.EthernetStampsAreKept := by
  intro s n ty dom seq tag v x q d hup hn now
  have stamps : ∀ egress ty, ty < 4 → exec (.ptpStamp n egress d ty dom seq) s = .next (s.stamp n egress d ty dom seq) := by
    intro egress ty hty
    refine exec_fabric (guarded (decide (n < 6) && decide (ty < 4)) (·.stamp n egress d ty dom seq)) hup ?_ rfl
    rw [decide_eq_true hn, decide_eq_true hty]
    rfl
  have pops : exec (.ethTsqPop tag n v) s = .next (s.tsqWrite tag n v) := exec_fabric_unit (·.tsqWrite tag n v) hup hn rfl rfl
  refine ⟨fun hty => ⟨_, stamps false ty hty, ?ingress⟩, fun hty hroom => ⟨_, stamps true ty hty, ?egress⟩,
    fun hty hfull => ⟨_, stamps true ty hty, ?overflow⟩, fun hone htransport => ⟨_, stamps true 0 (by decide), ?oneStep⟩,
    fun hnot hty => ⟨_, stamps true ty hty, ?twoStep⟩, fun hpop hq => ⟨_, pops, ?pop⟩, fun hpop hq => ⟨_, pops, ?popEmpty⟩⟩
  case ingress =>
    rw [State.stamp_ingress]
    exact ⟨by simp [now], by simp, rfl, fun _ => ⟨rfl, rfl, rfl, rfl⟩⟩
  case egress =>
    rw [State.stamp_egress]
    dsimp only
    rw [if_pos hroom]
    exact ⟨by simp [now], rfl, fun _ => ⟨rfl, rfl, rfl, rfl⟩⟩
  case overflow =>
    rw [State.stamp_egress]
    dsimp only
    rw [if_neg (Nat.not_lt_of_le hfull)]
    exact ⟨by simp [EthPort.queue_sent], State.rf_wf_same _ _ _ _ (by decide) (by decide)⟩
  case oneStep =>
    obtain ⟨horigin, hcsum⟩ := s.port_stamp_egress n d 0 dom seq
    rw [horigin, hcsum, EthPort.sent, if_pos (by simp [hone, htransport])]
    exact ⟨rfl, rfl⟩
  case twoStep =>
    obtain ⟨horigin, hcsum⟩ := s.port_stamp_egress n d ty dom seq
    have hkept : (d.oneStep && ty == 0 && d.transport != 2) = false := by
      rcases hnot with h | h | h
      · rw [h]; rfl
      · rw [h]; simp
      · simp; omega
    rw [horigin, hcsum, EthPort.sent, if_neg (by rw [hkept]; decide)]
    exact ⟨rfl, rfl⟩
  case pop =>
    rw [State.tsqWrite_of_pop s tag n hpop]
    simp only [State.port_wf, State.port_writeReg, hq]
    refine ⟨by simp, State.rf_wf_same _ _ _ _ (by decide) (by decide), ?_, ?_, ?_⟩
    · unfold Reg.ethTsqNs Reg.ethTsqSLo Reg.ethTsqSHi Reg.ethTsqId Reg.ethTsqCtrl
      simp (disch := omega) only [State.rn_wn_same, State.rn_wn_ne, State.rn_wf_ne]
    · unfold Reg.ethTsqNs Reg.ethTsqSLo Reg.ethTsqSHi Reg.ethTsqId Reg.ethTsqCtrl
      simp (disch := omega) only [State.rn_wn_same, State.rn_wn_ne, State.rn_wf_ne]
    · have hport : sameMem s (((s.writeReg tag (Reg.ethTsqCtrl n) v).wf (Reg.ethTsqCtrl n) F.ethTsqCtrl_VALID 0).setPort n
          { s.port n with queue := q }) := (s.writeReg_write tag (Reg.ethTsqCtrl n) v).sameMem.trans fun _ => ⟨rfl, rfl, rfl, rfl⟩
      exact ((((hport.wn _ _).wn _ _).wn _ _).wn _ _).wf _ _ _
  case popEmpty =>
    rw [State.tsqWrite_of_pop s tag n hpop]
    simp only [State.port_wf, State.port_writeReg, hq]
    exact State.rf_wf_same _ _ _ _ (by decide) (by decide)

end Sys2Proof.Machine
end

section
/-! SUPPORT. The tick of the fabric clock and the TAI write mailbox (R531 to R536). -/
namespace Sys2Proof.Machine
open Sys2Proof

/-! The mailbox. -/

/-- The operation that a write of TAI_WR_CTRL takes from the operand registers. -/
def State.taiTaken (s : State) (v : W32) : TaiOp :=
  { op := v.fld F.taiWrCtrl_OP, sec := s.rn Reg.taiWrSLo + s.rf Reg.taiWrSHi F.taiWrSHi_SECONDS * 2 ^ 32,
    ns := s.rf Reg.taiWrNs F.taiWrNs_NS, adj := s.rn Reg.taiWrAdj, onStrobe := v.fld F.taiWrCtrl_WHEN == 1,
    ready := !(v.fld F.taiWrCtrl_WHEN == 1) }

/-- The operand registers are others than TAI_WR_CTRL. -/
theorem State.taiTaken_congr {s t : State} (v : W32)
    (h : ∀ off ∈ [Reg.taiWrSLo, Reg.taiWrSHi, Reg.taiWrNs, Reg.taiWrAdj], t.rd off = s.rd off) : t.taiTaken v = s.taiTaken v := by
  unfold State.taiTaken State.rn State.rf
  rw [h Reg.taiWrSLo (by simp), h Reg.taiWrSHi (by simp), h Reg.taiWrNs (by simp), h Reg.taiWrAdj (by simp)]

theorem State.taiWrite_cancel (s : State) (tag : Nat) {v : W32} (h : v.fld F.taiWrCtrl_OP = 0) :
    s.taiWrite tag v = { s.writeReg tag Reg.taiWrCtrl v with taiOp := none } := if_pos h

theorem State.taiOp_writeReg (s : State) (tag off : Nat) (v : W32) : (s.writeReg tag off v).taiOp = s.taiOp := by
  obtain ⟨_, _, _, _, h⟩ := s.writeReg_write tag off v
  rw [h]

/-- A write of an operation: it replaces the pending one, which REPLACED reports. -/
theorem State.taiWrite_op (s : State) (tag : Nat) {v : W32} (h : v.fld F.taiWrCtrl_OP ≠ 0) :
    let t := s.taiWrite tag v
    t.taiOp = some (s.taiTaken v) ∧ (s.taiOp.isSome = true → t.rf Reg.taiWrCtrl F.taiWrCtrl_REPLACED = 1) ∧ sameMem s t := by
  have hwrite : s.taiWrite tag v =
      let u := s.writeReg tag Reg.taiWrCtrl v
      let w := if u.taiOp.isSome then u.wf Reg.taiWrCtrl F.taiWrCtrl_REPLACED 1 else u
      { w with taiOp := some (w.taiTaken v) } := if_neg h
  have hmem := (s.writeReg_write tag Reg.taiWrCtrl v).sameMem
  have hoperand : ∀ off ∈ [Reg.taiWrSLo, Reg.taiWrSHi, Reg.taiWrNs, Reg.taiWrAdj],
      (s.writeReg tag Reg.taiWrCtrl v).rd off = s.rd off := fun off hoff =>
    s.rd_writeReg_ne tag v (by revert hoff off; decide) (by revert hoff off; decide)
  have hop := s.taiOp_writeReg tag Reg.taiWrCtrl v
  dsimp only at hwrite ⊢
  rw [hwrite]
  generalize s.writeReg tag Reg.taiWrCtrl v = u at *
  rw [hop]
  split
  · next hsome =>
    have hwf : ∀ off ∈ [Reg.taiWrSLo, Reg.taiWrSHi, Reg.taiWrNs, Reg.taiWrAdj],
        (u.wf Reg.taiWrCtrl F.taiWrCtrl_REPLACED 1).rd off = s.rd off := fun off hoff =>
      (State.rd_wf_ne _ _ _ (by revert hoff off; decide)).trans (hoperand off hoff)
    exact ⟨congrArg some (State.taiTaken_congr v hwf), fun _ => State.rf_wf_same u _ _ _ (by decide) (by decide),
      hmem.wf Reg.taiWrCtrl F.taiWrCtrl_REPLACED 1⟩
  · next hnone => exact ⟨congrArg some (State.taiTaken_congr v hoperand), fun h => absurd h hnone, hmem⟩

/-! The tick. -/

/-- The engines' counts of one fabric cycle, and the throttle durations (R242, R401, R752). -/
def State.engineTick (s : State) : State := ([0, 1, 2, 3].foldl State.ftnTick s).skimTick.thrCount

/-- The GTS counts and TAI advances (R521, R531). -/
def State.timeTick (s : State) : State :=
  { s with gts := s.gts + 1, taiSec := s.taiNext.1, taiNs := s.taiNext.2.1, taiFrac := s.taiNext.2.2 }

/-- A pending operation that is ready applies (R533). -/
def State.applyReady (s : State) : Option TaiOp → State
  | some op => if op.ready then s.taiApply op else s
  | none => s

theorem State.tick_eq (s : State) : s.tick = (s.cycleEnd.timeTick.applyReady s.cycleEnd.taiOp).engineTick := rfl

theorem State.timeTick_taiAll (s : State) : s.timeTick.taiAll = s.taiNext.1 * 1000000000 + s.taiNext.2.1 := rfl

/-- An applying tick. -/
theorem State.tick_of_ready {s : State} {o : TaiOp} (ho : s.cycleEnd.taiOp = some o) (hready : o.ready = true) :
    s.tick = (s.cycleEnd.timeTick.taiApply o).engineTick := by
  rw [State.tick_eq, ho]
  exact congrArg State.engineTick (if_pos hready)

/-- A tick at which no operation is ready. -/
theorem State.tick_of_not_ready {s : State} (h : s.cycleEnd.taiReady = false) : s.tick = s.cycleEnd.timeTick.engineTick := by
  rw [State.tick_eq]
  unfold State.taiReady at h
  cases ho : s.cycleEnd.taiOp with
  | none => rfl
  | some o =>
    rw [ho] at h
    exact congrArg State.engineTick (if_neg (by rw [show o.ready = false from h]; decide))

/-- The registers that the engines' counts write. -/
def countRegs : List Nat :=
  Reg.skimCycles :: ([0, 1, 2, 3].flatMap fun f => [Reg.ftnCycles f, Reg.ftnWait f]) ++ (List.range 8).map Reg.powerThrDur

/-- The states differ in the cycle counts of the engines alone. -/
def OnlyCounts (s t : State) : Prop := (∃ l f, t = { s with live := l, ftns := f }) ∧ sameRegs s t countRegs

theorem OnlyCounts.refl (s : State) : OnlyCounts s s := ⟨⟨_, _, rfl⟩, .refl s _⟩

theorem OnlyCounts.trans {s t u : State} : OnlyCounts s t → OnlyCounts t u → OnlyCounts s u := by
  rintro ⟨⟨_, _, rfl⟩, hst⟩ ⟨⟨l, f, rfl⟩, htu⟩
  exact ⟨⟨l, f, rfl⟩, hst.trans htu⟩

theorem OnlyCounts.ite {s t u : State} {p : Prop} [Decidable p] (ht : OnlyCounts s t) (hu : OnlyCounts s u) :
    OnlyCounts s (if p then t else u) := by
  split
  · exact ht
  · exact hu

theorem OnlyCounts.wr (s : State) {o : Nat} (h : o ∈ countRegs) (v : W32) : OnlyCounts s (s.wr o v) :=
  ⟨⟨_, _, rfl⟩, (sameRegs.refl s _).wr h v⟩

theorem OnlyCounts.setFtn (s : State) (f : Nat) (x : Fountain) : OnlyCounts s (s.setFtn f x) := ⟨⟨_, _, rfl⟩, .of_live rfl _⟩

theorem OnlyCounts.foldl {α : Type} {f : State → α → State} :
    ∀ {l : List α}, (∀ s, ∀ x ∈ l, OnlyCounts s (f s x)) → ∀ s, OnlyCounts s (l.foldl f s)
  | [], _, s => .refl s
  | x :: _, h, s => (h s x List.mem_cons_self).trans
      (OnlyCounts.foldl (fun s y hy => h s y (List.mem_cons_of_mem _ hy)) (f s x))

theorem State.ftnTick_counts (s : State) {f : Nat} (hf : f ∈ [0, 1, 2, 3]) : OnlyCounts s (s.ftnTick f) := by
  have hwait : Reg.ftnWait f ∈ countRegs := by revert hf f; decide
  have hcycles : Reg.ftnCycles f ∈ countRegs := by revert hf f; decide
  exact .ite (.refl s) (.ite ((OnlyCounts.setFtn s f _).trans (.wr _ hwait _))
    (.ite (.refl s) ((OnlyCounts.setFtn s f _).trans (.wr _ hcycles _))))

theorem State.skimTick_counts (s : State) : OnlyCounts s s.skimTick := by
  unfold State.skimTick
  split
  · exact .wr s (by decide) _
  · exact .refl s

theorem State.thrCount_counts (s : State) : OnlyCounts s s.thrCount := by
  unfold State.thrCount
  split
  · refine OnlyCounts.foldl (fun t r hr => ?_) s
    have hmem : Reg.powerThrDur r ∈ countRegs := by
      have hr : r < 8 := List.mem_range.1 hr
      revert hr r
      decide
    split
    · exact .wr t hmem _
    · exact .refl t
  · exact .refl s

theorem State.engineTick_counts (s : State) : OnlyCounts s s.engineTick :=
  ((OnlyCounts.foldl (fun s _ hf => State.ftnTick_counts s hf) s).trans (State.skimTick_counts _)).trans (State.thrCount_counts _)

/-- The engines' counts touch neither time nor memory nor the mailbox. -/
theorem OnlyCounts.time {s t : State} (h : OnlyCounts s t) :
    t.gts = s.gts ∧ t.taiSec = s.taiSec ∧ t.taiNs = s.taiNs ∧ t.taiFrac = s.taiFrac ∧ t.taiRate = s.taiRate ∧
      t.taiValid = s.taiValid ∧ t.taiOp = s.taiOp ∧ sameMem s t ∧ t.rd Reg.taiWrCtrl = s.rd Reg.taiWrCtrl := by
  have hctrl := h.2 Reg.taiWrCtrl (by decide)
  obtain ⟨⟨l, f, rfl⟩, -⟩ := h
  exact ⟨rfl, rfl, rfl, rfl, rfl, rfl, rfl, fun _ => ⟨rfl, rfl, rfl, rfl⟩, hctrl⟩

/-! What an operation does at its tick (R532, R534, R536). -/

/-- TAI is set. -/
theorem State.taiApply_set (s : State) {o : TaiOp} (hop : o.op = 1) (hns : o.ns < 1000000000) :
    s.taiApply o = ({ s with taiOp := none, taiSec := o.sec, taiNs := o.ns, taiFrac := 0, taiValid := true } : State).cutGates := by
  unfold State.taiApply
  rw [if_pos hop]
  exact if_neg (Nat.not_le_of_lt hns)

theorem State.taiApply_set_err (s : State) {o : TaiOp} (hop : o.op = 1) (hns : 1000000000 ≤ o.ns) :
    s.taiApply o = ({ s with taiOp := none } : State).taiErr := by
  unfold State.taiApply
  rw [if_pos hop]
  exact if_pos hns

/-- TAI is adjusted. -/
theorem State.taiApply_add (s : State) {o : TaiOp} {sum : Int} (hop : o.op = 2) (heq : (s.taiAll : Int) + sext 32 o.adj = sum)
    (hsum : 0 ≤ sum) : s.taiApply o = ({ s with taiOp := none, taiSec := sum.toNat / 1000000000 % 2 ^ 48, taiNs := sum.toNat % 1000000000 } : State).cutGates := by
  subst heq
  unfold State.taiApply
  simp only [hop]
  exact if_neg (not_lt.2 hsum)

theorem State.taiApply_add_err (s : State) {o : TaiOp} (hop : o.op = 2) (hsum : (s.taiAll : Int) + sext 32 o.adj < 0) :
    s.taiApply o = ({ s with taiOp := none } : State).taiErr := by
  unfold State.taiApply
  simp only [hop]
  exact if_pos hsum

/-- The rate is set. -/
theorem State.taiApply_rate (s : State) {o : TaiOp} (hop : o.op = 3) (hadj : (sext 32 o.adj).natAbs ≤ 4294967) :
    s.taiApply o = { s with taiOp := none, taiRate := sext 32 o.adj } := by
  unfold State.taiApply
  simp only [hop]
  exact if_neg (show ¬(sext 32 o.adj < -4294967 ∨ 4294967 < sext 32 o.adj) by omega)

theorem State.taiErr_rf (s : State) : s.taiErr.rf Reg.taiWrCtrl F.taiWrCtrl_ERR = 1 :=
  State.rf_wf_same _ _ _ _ (by decide) (by decide)

/-- Nothing is decided at the end of a cycle without a cancel. -/
theorem State.cycleEnd_of_no_cancel {s : State} (h : ∀ j ∈ s.weir.jobs, j.cancelAt = none) : s.cycleEnd = s :=
  if_neg fun hany => by
    obtain ⟨j, hj, hsome⟩ := List.any_eq_true.1 hany
    rw [h j hj] at hsome
    exact Bool.false_ne_true hsome

theorem State.taiNext_of_rollover {s : State} (h : 1000000000 ≤ s.taiNs + ((s.taiFrac : Int) + 2 ^ 32 + s.taiRate).toNat / 2 ^ 32) :
    s.taiNext.1 = (s.taiSec + 1) % 2 ^ 48 := by
  unfold State.taiNext
  dsimp only
  rw [if_pos (show second ≤ _ from h)]

/-- Settles O33: a write takes its operands (`State.taiWrite_op`), and a tick counts, applies what is ready and counts the
engines' cycles, which change no time (`OnlyCounts.time`). -/
theorem taiIsSteered : Obligations.TaiIsSteered := by
  intro s tag v o hup taken
  have writes : ∀ {cmd : Instr} {op : Nat}, v.fld F.taiWrCtrl_OP = op →
      exec cmd s = onFabric s (guarded (v.fld F.taiWrCtrl_OP == op) (·.taiWrite tag v)) → exec cmd s = .next (s.taiWrite tag v) :=
    fun hop hc => exec_fabric _ hup (by rw [hop, beq_self_eq_true]; rfl) hc
  have takes : ∀ {op : Nat}, op ≠ 0 → v.fld F.taiWrCtrl_OP = op → taken (s.taiWrite tag v) op := fun hne hop => by
    subst hop
    exact s.taiWrite_op tag hne
  have ticks : s.taiReady = true → exec .taiOpApply s = .next s.tick := fun hready =>
    exec_fabric (guarded s.taiReady State.tick) hup (by rw [hready]; rfl) rfl
  refine ⟨fun hop => ⟨_, writes hop rfl, takes (by decide) hop⟩, fun hop => ⟨_, writes hop rfl, takes (by decide) hop⟩,
    fun hop => ⟨_, writes hop rfl, takes (by decide) hop⟩, fun hop => ⟨_, writes hop rfl, ?cancel⟩,
    fun hready hc ho => ⟨fun hop hns => ⟨_, ticks hready, ?set⟩, fun hop hns => ⟨_, ticks hready, ?setErr⟩,
      fun hop => ⟨fun hsum => ⟨_, ticks hready, ?add⟩, fun hsum => ⟨_, ticks hready, ?addErr⟩⟩,
      fun hop hadj => ⟨_, ticks hready, ?rate⟩⟩,
    fun hroll hnot hover => ⟨s.tick, exec_fabric (guarded s.rollsOver State.tick) hup (by rw [hroll]; rfl) rfl, ?rollover⟩,
    State.cycleEnd_of_no_cancel⟩
  case cancel =>
    rw [State.taiWrite_cancel s tag hop]
    exact ⟨rfl, (s.writeReg_write tag Reg.taiWrCtrl v).sameMem⟩
  case set =>
    rw [State.tick_of_ready hc ho, State.taiApply_set _ hop hns]
    obtain ⟨hgts, hsec, hns, hfrac, -, hvalid, hop, hmem, -⟩ := (State.engineTick_counts (State.cutGates
      { s.cycleEnd.timeTick with taiOp := none, taiSec := o.sec, taiNs := o.ns, taiFrac := 0, taiValid := true })).time
    exact ⟨hgts, hsec, hns, hfrac, hvalid, hop, hmem⟩
  case setErr =>
    rw [State.tick_of_ready hc ho, State.taiApply_set_err _ hop hns]
    obtain ⟨hgts, hsec, hns, hfrac, -, -, hop, -, hctrl⟩ :=
      (State.engineTick_counts (State.taiErr { s.cycleEnd.timeTick with taiOp := none })).time
    refine ⟨hgts, hop, by rw [hsec, hns, hfrac]; rfl, ?_⟩
    rw [← State.taiErr_rf { s.cycleEnd.timeTick with taiOp := none }]
    exact congrArg (W32.fld · F.taiWrCtrl_ERR) hctrl
  case add =>
    rw [State.tick_of_ready hc ho, State.taiApply_add _ hop (by rw [State.timeTick_taiAll]) hsum]
    obtain ⟨hgts, hsec, hns, hfrac, -, -, hop, -⟩ := (State.engineTick_counts (State.cutGates { s.cycleEnd.timeTick with
      taiOp := none, taiSec := _, taiNs := _ })).time
    exact ⟨hgts, hsec, hns, hfrac, hop⟩
  case addErr =>
    rw [State.tick_of_ready hc ho, State.taiApply_add_err _ hop (by rw [State.timeTick_taiAll]; exact hsum)]
    obtain ⟨-, hsec, hns, hfrac, -, -, -, -, hctrl⟩ :=
      (State.engineTick_counts (State.taiErr { s.cycleEnd.timeTick with taiOp := none })).time
    refine ⟨by rw [hsec, hns, hfrac]; rfl, ?_⟩
    rw [← State.taiErr_rf { s.cycleEnd.timeTick with taiOp := none }]
    exact congrArg (W32.fld · F.taiWrCtrl_ERR) hctrl
  case rate =>
    rw [State.tick_of_ready hc ho, State.taiApply_rate _ hop hadj]
    obtain ⟨hgts, hsec, hns, hfrac, hrate, -⟩ :=
      (State.engineTick_counts { s.cycleEnd.timeTick with taiOp := none, taiRate := sext 32 o.adj }).time
    exact ⟨hrate, by rw [hsec, hns, hfrac]; rfl, hgts⟩
  case rollover =>
    rw [State.tick_of_not_ready hnot]
    obtain ⟨hgts, hsec, -, -, -, -, -, hmem, -⟩ := (State.engineTick_counts s.cycleEnd.timeTick).time
    exact ⟨hsec.trans (State.taiNext_of_rollover hover), hgts, hmem⟩

end Sys2Proof.Machine
end

section
/-! SUPPORT. Comparators (R552 to R558). -/
namespace Sys2Proof.Machine
open Sys2Proof

/-! The status of a match. -/

/-- The GTS of the match is kept. -/
theorem State.rn_noteMatch (s : State) {status gtsReg : Nat} (late : Bool) (h : gtsReg ≠ status) :
    (s.noteMatch status gtsReg late).rn gtsReg = s.gts % 2 ^ 32 := by
  unfold State.noteMatch
  dsimp only
  split
  · rw [State.rn_wf_ne _ _ _ h, State.rn_wn_same]
  · exact State.rn_wn_same _ _ _

/-- The match is counted. -/
theorem State.rf_noteMatch (s : State) {status gtsReg : Nat} (late : Bool) (h : gtsReg ≠ status) :
    (s.noteMatch status gtsReg late).rf status F.tcmpStatus_MATCHES = (s.rf status F.tcmpStatus_MATCHES + 1) % 2 ^ 16 := by
  have hbump : ((s.bump status F.tcmpStatus_MATCHES).wn gtsReg (s.bump status F.tcmpStatus_MATCHES).gts).rf status F.tcmpStatus_MATCHES =
      (s.rf status F.tcmpStatus_MATCHES + 1) % 2 ^ 16 := by
    rw [State.rf_wn_ne _ _ _ h.symm]
    exact State.rf_wf_same _ _ _ _ (by decide) (by decide)
  unfold State.noteMatch
  dsimp only
  split
  · rw [State.rf_wf_apart _ _ _ _ _ (by decide) (by decide)]
    exact hbump
  · exact hbump

/-- A match writes the register file alone. -/
theorem State.noteMatch_regs (s : State) (status gtsReg : Nat) (late : Bool) : OnlyRegs s (s.noteMatch status gtsReg late) := by
  unfold State.noteMatch
  dsimp only
  split
  · exact ((OnlyRegs.wf _ _ _ _).trans (.wn _ _ _)).trans (.wf _ _ _ _)
  · exact (OnlyRegs.wf _ _ _ _).trans (.wn _ _ _)

theorem State.rn_addMissed (s : State) {status off : Nat} (k : Nat) (h : off ≠ status) : (s.addMissed status k).rn off = s.rn off :=
  State.rn_wf_ne _ _ _ h

theorem State.matches_addMissed (s : State) (status k : Nat) :
    (s.addMissed status k).rf status F.tcmpStatus_MATCHES = s.rf status F.tcmpStatus_MATCHES :=
  State.rf_wf_apart _ _ _ _ _ (by decide) (by decide)

@[simp] theorem State.tc_addMissed (s : State) (status k n : Nat) : (s.addMissed status k).tc n = s.tc n := rfl
@[simp] theorem State.pc_addMissed (s : State) (status k n : Nat) : (s.addMissed status k).pc n = s.pc n := rfl

/-! Time comparators. -/

/-- A time comparator after its match: disarmed, or at its next target past the present (R554, R558). -/
def State.tcNext (s : State) (x : Cmp) : Cmp :=
  if x.period = 0 then { x with armed := false, fresh := false }
  else { x with fresh := false, target := x.target + ((s.baseTime x.base - x.target) / x.period + 1) * x.period }

/-- A time comparator's match, before what it fires. -/
def State.tcMatched (s : State) (n : Nat) : State :=
  let x := s.tc n
  let u := (s.noteMatch (Reg.tcmpStatus n) (Reg.tcmpMatchGts n) x.fresh).setTc n (s.tcNext x)
  if x.period = 0 then u else u.addMissed (Reg.tcmpStatus n) ((s.baseTime x.base - x.target) / x.period + 1 - 1)

theorem State.baseTime_of_regs {s t : State} (h : OnlyRegs s t) (base : Nat) : t.baseTime base = s.baseTime base := by
  obtain ⟨l, rfl⟩ := h
  rfl

theorem State.tcmpMatch_of_due {s : State} {n : Nat} (harmed : (s.tc n).armed = true) (hmet : s.timeMet (s.tc n) = true)
    (hlate : (s.tc n).early s.gts = false) : s.tcmpMatch n = (s.tcMatched n).fireMatch Cls.timeComp n := by
  have hbase := State.baseTime_of_regs (s.noteMatch_regs (Reg.tcmpStatus n) (Reg.tcmpMatchGts n) (s.tc n).fresh) (s.tc n).base
  unfold State.tcmpMatch State.tcMatched State.tcNext
  dsimp only
  rw [harmed, hmet, hlate, hbase]
  refine (if_neg (by decide)).trans ?_
  split <;> rfl

theorem State.tcmpMatch_of_not_due {s : State} {n : Nat}
    (h : (s.tc n).armed = false ∨ s.timeMet (s.tc n) = false ∨ (s.tc n).early s.gts = true) : s.tcmpMatch n = s := by
  refine if_pos ?_
  rcases h with h | h | h <;> simp [h]

theorem State.tcMatched_gts (s : State) {n : Nat} : (s.tcMatched n).rn (Reg.tcmpMatchGts n) = s.gts % 2 ^ 32 := by
  have hne : Reg.tcmpMatchGts n ≠ Reg.tcmpStatus n := by simp [Reg.tcmpMatchGts, Reg.tcmpStatus]
  unfold State.tcMatched
  dsimp only
  split
  · exact s.rn_noteMatch _ hne
  · exact (State.rn_addMissed _ _ hne).trans (s.rn_noteMatch _ hne)

theorem State.tcMatched_matches (s : State) {n : Nat} : (s.tcMatched n).rf (Reg.tcmpStatus n) F.tcmpStatus_MATCHES =
    (s.rf (Reg.tcmpStatus n) F.tcmpStatus_MATCHES + 1) % 2 ^ 16 := by
  have hne : Reg.tcmpMatchGts n ≠ Reg.tcmpStatus n := by simp [Reg.tcmpMatchGts, Reg.tcmpStatus]
  unfold State.tcMatched
  dsimp only
  split
  · exact s.rf_noteMatch _ hne
  · exact (State.matches_addMissed _ _ _).trans (s.rf_noteMatch _ hne)

theorem State.tc_tcMatched (s : State) (n : Nat) : (s.tcMatched n).tc n = s.tcNext (s.tc n) := by
  unfold State.tcMatched
  dsimp only
  split <;> simp

/-- The next target is the first past the present. -/
theorem State.tcNext_target {s : State} {x : Cmp} (hperiod : 0 < x.period) (hmet : s.timeMet x = true) :
    s.baseTime x.base < (s.tcNext x).target ∧ (s.tcNext x).target ≤ s.baseTime x.base + x.period := by
  have hdue : x.target ≤ s.baseTime x.base := by
    unfold State.timeMet at hmet
    simpa using (Bool.and_eq_true_iff.1 hmet).2
  have htarget : (s.tcNext x).target = x.target + ((s.baseTime x.base - x.target) / x.period + 1) * x.period := by
    unfold State.tcNext
    rw [if_neg (Nat.ne_of_gt hperiod)]
  rw [htarget, Nat.add_one_mul]
  have hmod := Nat.mod_lt (s.baseTime x.base - x.target) hperiod
  have hdiv := Nat.div_add_mod' (s.baseTime x.base - x.target) x.period
  omega

/-- A comparator's holder arms it at the registers' target, after an old match (R555, R556). -/
theorem State.tcmpCtrl_arm {s : State} {n : Nat} {v : W32} (harm : v.fld F.tcmpCtrl_ARM = 1) (hbase : v.fld F.tcmpCtrl_BASE = 0)
    (hholds : s.holds Cls.timeComp n (v.fld F.tcmpCtrl_CLAIMANT) = true) :
    let m := s.tcmpMatch n
    let x : Cmp := { armed := true, armedAt := m.gts, base := 0, target := s.rn (Reg.tcmpT0 n) + m.rn (Reg.tcmpT1 n) * 2 ^ 32, period := m.rn (Reg.tcmpPeriod n) }
    s.tcmpCtrl n v = (m.setTc n { x with fresh := m.timeMet x }).wf (Reg.tcmpStatus n) F.tcmpStatus_MISSED 0 := by
  unfold State.tcmpCtrl
  dsimp only
  rw [hholds, harm, hbase]
  generalize s.tcmpMatch n = m
  simp

/-! Phase comparators. -/

/-- The pitches that a phase comparator's target moves at its match (R554, R558). -/
def State.pcSteps (s : State) (x : Cmp) : Nat := (sdiff48 (s.phase x.input).pos x.target).natAbs / (sext 32 x.period).natAbs + 1

/-- A phase comparator after its match: disarmed, or at its next target (R554, R558). -/
def State.pcNext (s : State) (x : Cmp) : Cmp :=
  if x.period = 0 then { x with armed := false, fresh := false }
  else { x with fresh := false, target := wrapN 48 ((x.target : Int) + (s.pcSteps x : Int) * sext 32 x.period) }

/-- A phase comparator's match, before what it fires. -/
def State.pcMatched (s : State) (n : Nat) : State :=
  let x := s.pc n
  let u := (s.noteMatch (Reg.pcmpStatus n) (Reg.pcmpMatchGts n) x.fresh).setPc n (s.pcNext x)
  if x.period = 0 then u else u.addMissed (Reg.pcmpStatus n) (s.pcSteps x - 1)

theorem State.pcSteps_of_regs {s t : State} (h : OnlyRegs s t) (x : Cmp) : t.pcSteps x = s.pcSteps x := by
  obtain ⟨l, rfl⟩ := h
  rfl

theorem State.pcmpMatch_of_due {s : State} {n : Nat} (harmed : (s.pc n).armed = true) (hmet : s.phaseMet (s.pc n) = true)
    (hlate : (s.pc n).early s.gts = false) : s.pcmpMatch n = (s.pcMatched n).fireMatch Cls.phaseComp n := by
  have hsteps := State.pcSteps_of_regs (s.noteMatch_regs (Reg.pcmpStatus n) (Reg.pcmpMatchGts n) (s.pc n).fresh) (s.pc n)
  unfold State.pcmpMatch State.pcMatched State.pcNext
  dsimp only
  rw [harmed, hmet, hlate, ← hsteps]
  refine (if_neg (by decide)).trans ?_
  split <;> rfl

theorem State.pcmpMatch_of_not_due {s : State} {n : Nat}
    (h : (s.pc n).armed = false ∨ s.phaseMet (s.pc n) = false ∨ (s.pc n).early s.gts = true) : s.pcmpMatch n = s := by
  refine if_pos ?_
  rcases h with h | h | h <;> simp [h]

theorem State.pcMatched_gts (s : State) {n : Nat} : (s.pcMatched n).rn (Reg.pcmpMatchGts n) = s.gts % 2 ^ 32 := by
  have hne : Reg.pcmpMatchGts n ≠ Reg.pcmpStatus n := by simp [Reg.pcmpMatchGts, Reg.pcmpStatus]
  unfold State.pcMatched
  dsimp only
  split
  · exact s.rn_noteMatch _ hne
  · exact (State.rn_addMissed _ _ hne).trans (s.rn_noteMatch _ hne)

theorem State.pcMatched_matches (s : State) {n : Nat} : (s.pcMatched n).rf (Reg.pcmpStatus n) F.tcmpStatus_MATCHES =
    (s.rf (Reg.pcmpStatus n) F.tcmpStatus_MATCHES + 1) % 2 ^ 16 := by
  have hne : Reg.pcmpMatchGts n ≠ Reg.pcmpStatus n := by simp [Reg.pcmpMatchGts, Reg.pcmpStatus]
  unfold State.pcMatched
  dsimp only
  split
  · exact s.rf_noteMatch _ hne
  · exact (State.matches_addMissed _ _ _).trans (s.rf_noteMatch _ hne)

theorem State.pc_pcMatched (s : State) (n : Nat) : (s.pcMatched n).pc n = s.pcNext (s.pc n) := by
  unfold State.pcMatched
  dsimp only
  split <;> simp

theorem State.pcmpCtrl_disarm {s : State} {n : Nat} {v : W32} (harm : v.fld F.pcmpCtrl_ARM = 0)
    (hholds : s.holds Cls.phaseComp n (v.fld F.pcmpCtrl_CLAIMANT) = true) :
    s.pcmpCtrl n v = (s.pcmpMatch n).disarm Cls.phaseComp n := by
  unfold State.pcmpCtrl
  dsimp only
  rw [hholds, harm]
  simp

theorem State.pcmpCtrl_arm_up {s : State} {n : Nat} {v : W32} (harm : v.fld F.pcmpCtrl_ARM = 1) (hdir : v.fld F.pcmpCtrl_DIR = 1)
    (hinput : v.fld F.pcmpCtrl_INPUT ≤ 8) (hpitch : 0 ≤ sext 32 (s.rn (Reg.pcmpPitch n)))
    (hholds : s.holds Cls.phaseComp n (v.fld F.pcmpCtrl_CLAIMANT) = true) :
    let m := s.pcmpMatch n
    let x : Cmp := { armed := true, armedAt := m.gts, dir := 1, input := v.fld F.pcmpCtrl_INPUT, target := m.rn (Reg.pcmpT0 n) + m.rf (Reg.pcmpT1 n) F.pcmpT1_VALUE * 2 ^ 32, period := m.rn (Reg.pcmpPitch n) }
    s.pcmpCtrl n v = (m.setPc n { x with fresh := m.phaseMet x }).wf (Reg.pcmpStatus n) F.pcmpStatus_MISSED 0 := by
  unfold State.pcmpCtrl
  dsimp only
  rw [hholds, harm, hdir]
  generalize s.pcmpMatch n = m
  simp [Nat.not_lt.2 hinput, not_lt.2 hpitch]

/-- Settles O35: what a control write leaves (`State.tcmpCtrl_arm`, `State.pcmpCtrl_arm_up`), and what a match leaves before it
fires its outputs (`State.tcMatched`, `State.pcMatched`). -/
theorem comparatorsArmAndMatch : Obligations.ComparatorsArmAndMatch := by
  intro s n v hup hn m p
  refine ⟨fun harm hbase hholds => ?armTime, fun hother => ?other, fun harm hholds => ?disarm,
    fun harm hdir hinput hpitch hholds => ?armPhase, fun harmed hmet hlate => ?matchTime, fun hnot => ?noTime,
    fun harmed hmet hlate => ?matchPhase, fun hnot => ?noPhase⟩
  case armTime =>
    refine ⟨_, exec_fabric_unit (·.tcmpCtrl n v) hup hn (State.tcmpCtrl_arm harm hbase hholds) rfl, ?_⟩
    generalize hm : s.tcmpMatch n = m'
    have hm' : m = m' := hm
    rw [hm']
    have htc : ∀ x w, ((m'.setTc n x).wf (Reg.tcmpStatus n) F.tcmpStatus_MISSED w).tc n = x := fun x w => State.tc_setTc_same _ _ _
    simp only [htc]
    exact ⟨trivial, trivial, trivial, trivial, trivial, State.rf_wf_same _ _ _ _ (by decide) (by decide),
      (sameRegs.of_live rfl _).trans ((sameRegs.refl _ _).wf List.mem_cons_self _ _), fun _ => ⟨rfl, rfl, rfl, rfl⟩⟩
  case other =>
    exact exec_fabric_unit (·.tcmpCtrl n v) hup hn (if_pos (by rw [hother]; rfl)) rfl
  case disarm =>
    refine ⟨_, exec_fabric_unit (·.pcmpCtrl n v) hup hn (State.pcmpCtrl_disarm harm hholds) rfl, ?_⟩
    exact ⟨congrArg Cmp.armed (State.pc_setPc_same p n { p.pc n with armed := false, fresh := false }), rfl, fun _ => ⟨rfl, rfl, rfl, rfl⟩⟩
  case armPhase =>
    refine ⟨_, exec_fabric_unit (·.pcmpCtrl n v) hup hn (State.pcmpCtrl_arm_up harm hdir hinput hpitch hholds) rfl, ?_⟩
    generalize hp : s.pcmpMatch n = p'
    have hp' : p = p' := hp
    rw [hp']
    have hpc : ∀ x w, ((p'.setPc n x).wf (Reg.pcmpStatus n) F.pcmpStatus_MISSED w).pc n = x := fun x w => State.pc_setPc_same _ _ _
    simp only [hpc]
    exact ⟨trivial, trivial, trivial, trivial, (sameRegs.of_live rfl _).trans ((sameRegs.refl _ _).wf List.mem_cons_self _ _)⟩
  case matchTime =>
    refine ⟨s.tcMatched n, exec_fabric_unit (·.tcmpMatch n) hup hn (State.tcmpMatch_of_due harmed hmet hlate) rfl,
      s.tcMatched_gts, s.tcMatched_matches, fun hone => ?_, fun hperiod => ?_⟩
    · rw [s.tc_tcMatched, State.tcNext, if_pos hone]
    · rw [s.tc_tcMatched]
      refine ⟨?_, State.tcNext_target hperiod hmet⟩
      rw [State.tcNext, if_neg (Nat.ne_of_gt hperiod)]
      exact harmed
  case noTime => exact exec_fabric_unit (·.tcmpMatch n) hup hn (State.tcmpMatch_of_not_due hnot) rfl
  case matchPhase =>
    refine ⟨s.pcMatched n, exec_fabric_unit (·.pcmpMatch n) hup hn (State.pcmpMatch_of_due harmed hmet hlate) rfl,
      s.pcMatched_gts, s.pcMatched_matches, fun hone => ?_, fun hperiod => ?_⟩
    · rw [s.pc_pcMatched, State.pcNext, if_pos hone]
    · rw [s.pc_pcMatched, State.pcNext, if_neg hperiod]
      exact ⟨harmed, s.pcSteps (s.pc n), Nat.succ_pos _, rfl⟩
  case noPhase => exact exec_fabric_unit (·.pcmpMatch n) hup hn (State.pcmpMatch_of_not_due hnot) rfl

end Sys2Proof.Machine
end

section
/-! SUPPORT. Requests of the firmware processors (R693, R696), and the tails of the service rings (R512, R695). -/
namespace Sys2Proof.Machine
open Sys2Proof

/-! Tails. -/

/-- A tail whose halves agree, within the ring, is the ring's tail. -/
theorem TailQ.write_of_fits {q : TailQ} {l : Nat} {v : W32} (hv : v.toNat / 65536 + v.toNat % 65536 = 65535)
    (hfit : (v.toNat % 65536 + 65536 - q.head) % 65536 ≤ 2 ^ l) : q.write l v = { q with tail := v.toNat % 65536 } := by
  have htail : q.tailOf l v = some (v.toNat % 65536) := by
    unfold TailQ.tailOf
    dsimp only
    rw [hv, decide_eq_true hfit]
    rfl
  unfold TailQ.write
  rw [htail]

theorem tailTwinOk_of {v : W32} (hv : v.toNat / 65536 + v.toNat % 65536 = 65535) : tailTwinOk v = true := by
  unfold tailTwinOk
  rw [hv]
  rfl

/-- Settles O11. -/
theorem serviceRingTailsAreTaken : Obligations.ServiceRingTailsAreTaken := by
  intro s v tail hup
  refine ⟨fun hv hfit => exec_fabric (·.tokTail v) hup ?tok rfl, fun hv hfit => exec_fabric (·.fwTail v) hup ?request rfl,
    fun hd => exec_fabric (·.fwRspRead v) hup ?response rfl⟩
  case tok =>
    unfold State.tokTail
    rw [if_pos (tailTwinOk_of hv), TailQ.write_of_fits hv hfit]
  case request =>
    unfold State.fwTail
    rw [if_pos (tailTwinOk_of hv), TailQ.write_of_fits hv hfit]
  case response =>
    unfold State.fwRspRead
    dsimp only
    rw [consume_eq, consumedCount, if_pos hd]

/-! Requests. -/

/-- What a service leaves: the request answered, once it has completed. -/
def FwReq.served (r : FwReq) : FwResult → State
  | (none, u) => u
  | (some (res, v), u) => u.reply r res v

/-- A request that its owner can serve leaves what the owner makes of it. -/
theorem exec_of_serves {s t : State} {c : Instr} {code owner : Nat} {r : FwReq} (f : FwReq → State → FwResult)
    (hs : s.serves code owner r) (howner : fwOwner code = some owner) (ht : r.served (f r s.fwPump) = t)
    (hc : exec c s = onFabric s fun s => s.fwServe code f) : exec c s = .next t := by
  obtain ⟨hup, hfind, hrun, hdram⟩ := hs
  refine exec_fabric (fun s => s.fwServe code f) hup ?_ hc
  unfold State.fwServe
  dsimp only
  rw [hfind]
  dsimp only
  rw [howner, Option.map_some, hrun, hdram]
  exact ht

/-- A request that its owner answers. -/
theorem exec_of_answered {s t : State} {c : Instr} {code owner res : Nat} {v : Option Nat} {r : FwReq} (f : FwReq → State → FwResult)
    (hs : s.serves code owner r) (howner : fwOwner code = some owner) (ht : f r s.fwPump = (some (res, v), t))
    (hc : exec c s = onFabric s fun s => s.fwServe code f) : exec c s = .next (t.reply r res v) :=
  exec_of_serves f hs howner (by rw [ht]; rfl) hc

/-! FWP4 (R753). -/

theorem State.powerSetCeil_unlocked {s : State} {r : FwReq} (hop : r.a0 ≤ 5) (hlock : s.floorLock = false) :
    s.powerSetCeil r = (some (Rs.ok, none), if s.pwr.op < r.a0
      then ({ s with pwr := { s.pwr with ceiling := r.a0 } } : State).fwp4Request r.a0
      else { s with pwr := { s.pwr with ceiling := r.a0 } }) := by
  unfold State.powerSetCeil
  rw [if_neg (Nat.not_lt.2 hop), hlock]
  rfl

theorem State.powerSetCeil_held {s : State} {r : FwReq} (hop : r.a0 ≤ 5) (hlock : s.floorLock = true) (hclk : s.clocksOn = true)
    (hfloor : s.floorOp < r.a0) (hnow : s.floorOp ≤ s.pwr.op) :
    s.powerSetCeil r = (some (Rs.floorHeld, none), { s with pwr := { s.pwr with ceiling := s.floorOp } }) := by
  unfold State.powerSetCeil
  rw [if_neg (Nat.not_lt.2 hop), hlock, hclk, decide_eq_true hfloor]
  exact congrArg (Prod.mk _) (if_neg (Nat.not_lt.2 hnow))

/-- Settles O12. -/
theorem powerRequestsAreServed : Obligations.PowerRequestsAreServed := by
  intro s r u
  refine ⟨fun hs => ⟨fun hcap => ?cap, fun hcap => ?badCap⟩, fun hs hop hlock => ⟨fun hle => ?lower, fun hlt => ?raise⟩,
    fun hs hop hlock hclk hfloor hnow => ?held, fun hs => ?get, fun hs hlock => ?lock, fun hs => ?train⟩
  case cap => exact exec_of_answered State.powerSetCap hs rfl (if_neg (by omega)) rfl
  case badCap => exact exec_of_answered State.powerSetCap hs rfl (if_pos hcap) rfl
  case lower =>
    exact exec_of_answered State.powerSetCeil hs rfl (by rw [State.powerSetCeil_unlocked hop hlock, if_neg (Nat.not_lt.2 hle)]) rfl
  case raise =>
    exact exec_of_answered State.powerSetCeil hs rfl (by rw [State.powerSetCeil_unlocked hop hlock, if_pos hlt]) rfl
  case held => exact exec_of_answered State.powerSetCeil hs rfl (State.powerSetCeil_held hop hlock hclk hfloor hnow) rfl
  case get => exact exec_of_answered (fun _ s => (some (Rs.ok, some s.powerGet), s)) hs rfl rfl rfl
  case lock => exact exec_of_answered State.powerFloorLock hs rfl (if_neg (Nat.not_lt.2 hlock)) rfl
  case train => exact exec_of_answered (fun _ s => (some (Rs.ok, none), s.maintRequest)) hs rfl rfl rfl

/-! FWP0 and PING (R693, R698 to R705, R712). -/

theorem State.slotRequest_eq {s : State} {r : FwReq} (h : r.a0 < 65536) :
    let other := 1 - s.rf Reg.bootStatus F.bootStatus_SLOT
    s.slotRequest r = if s.s1Check (s.slotImg other) = 0 ∧ (s.s1Comps (s.slotImg other)).all (s.compHashOk other) = true then
        (some (Rs.ok, none), s.writeSlotRec fun c => { c with request := 1, trialS := r.a0 })
      else (some (Rs.verifyFail, none), s) := if_neg (Nat.not_le_of_lt h)

theorem State.flashWrite_of_read {s w : State} {r : FwReq} {b : List Byte} {bad : Bool} (hdenied : s.flashDenied r.a0 r.a2 = false)
    (hend : r.a0 + r.a2 ≤ 2 ^ 32) (hread : s.vread { tag := 0x600 } r.a1 r.a2 = (some (b, bad), w)) :
    s.flashWrite true r = (some (Rs.ok, none), w.flashWr r.a0 b) := by
  unfold State.flashWrite
  rw [hdenied, if_neg Bool.false_ne_true, if_neg (Nat.not_lt.2 hend), hread]
  rfl

theorem State.attest_of_read {s w : State} {r : FwReq} {b : List Byte} {bad : Bool} (halign : r.a0 % 32 = 0)
    (hlock : s.keyLocked = false) (hread : s.vread { tag := 0x600 } (r.a0 + 0x10) 48 = (some (b, bad), w)) :
    let put := w.vwrite { tag := 0x600 } r.a0
      (w.attestBody b ++ (Config.ecdsaSign (sha384 (w.attestBody b)) ++ List.replicate 96 0#8).take 96)
    s.attest r = if put.1 = true then (some (Rs.ok, none), put.2) else (some (Rs.badArg, none), put.2.xlateFault 0x600) := by
  unfold State.attest
  rw [if_neg (not_not.2 halign), hlock, if_neg Bool.false_ne_true, hread]

theorem State.debugGrant_of_read {s w : State} {r : FwReq} {b : List Byte} {bad : Bool} (hlock : s.keyLocked = false)
    (hread : s.vread { tag := 0x600 } r.a0 128 = (some (b, bad), w)) :
    s.debugGrant r = if w.tokenOk b = true then (some (Rs.ok, none), w.wf Reg.intStatus F.intStatus_DEBUG_GRANT 1)
      else (some (Rs.tokenBad, none), w) := by
  unfold State.debugGrant
  rw [hlock, if_neg Bool.false_ne_true, hread]

/-- Settles O13. -/
theorem firmwareRequestsAreServed : Obligations.FirmwareRequestsAreServed := by
  intro s w r b bad ok u
  refine ⟨fun hs => ?ping, fun hs hproc => ?restart, fun hs harg => ?slot, fun hs hden hend hread => ?flash, fun hs hden => ?denied,
    fun hs halign hlock hread => ?attest, fun hs hlock hread => ?grant, fun hs hlock => ?locked, fun hs => ?revoke⟩
  case ping => exact exec_of_answered (fun _ s => (some (Rs.ok, none), s)) hs rfl rfl rfl
  case restart => exact exec_of_answered State.fwRestartReq hs rfl (if_pos hproc) rfl
  case slot =>
    refine exec_of_serves State.slotRequest hs rfl ?_ rfl
    rw [State.slotRequest_eq harg]
    exact apply_ite r.served _ _ _
  case flash => exact exec_of_answered (State.flashWrite true) hs rfl (State.flashWrite_of_read hden hend hread) rfl
  case denied => exact exec_of_answered (State.flashWrite ok) hs rfl (if_pos hden) rfl
  case attest =>
    refine exec_of_serves State.attest hs rfl ?_ rfl
    rw [State.attest_of_read halign hlock hread]
    exact apply_ite r.served _ _ _
  case grant =>
    refine exec_of_serves State.debugGrant hs rfl ?_ rfl
    rw [State.debugGrant_of_read hlock hread]
    exact apply_ite r.served _ _ _
  case locked => exact exec_of_answered State.debugGrant hs rfl (if_pos hlock) rfl
  case revoke => exact exec_of_answered (fun _ s => (some (Rs.ok, none), s.revokeDebug)) hs rfl rfl rfl

/-! Contexts (R475 to R479). -/

/-- A completed request of a slot raises its CONTEXT event. -/
theorem State.ctxDone_slot (s : State) (code k : Nat) (v : Option Nat) :
    s.ctxDone code Cx.ok (some k) v = (some (0, v), s.raiseDev 83 Ev.context (code * 2 ^ 24 + k % 64)) := by
  unfold State.ctxDone
  rw [show Cx.ok = 0 from rfl, Nat.zero_mul, Nat.add_zero]

/-- The lowest free slot is free, and those below it are not. -/
theorem State.freeSlot_spec {s : State} {k : Nat} (h : s.freeSlot = some k) :
    (s.ctx k).resident = false ∧ ∀ n < k, (s.ctx n).resident = true := by
  obtain ⟨hfree, -, hlow⟩ := List.find?_range_eq_some.1 h
  exact ⟨by simpa using hfree, fun n hn => by simpa using hlow n hn⟩

theorem State.ctxLoad_of_sound {s w : State} {r : FwReq} {b : List Byte} {bad : Bool} {k : Nat} (hlegacy : s.legacy = false)
    (hread : s.vread Who.fwp3 r.a0 1024 = (some (b, bad), w)) (halign : r.a0 % 1024 = 0) (hrec : ctxRecOk b = true)
    (hroot : u64 b 0x18 = w.ptRoot) (hnew : (w.ctxs.any fun e => e.2.resident && e.2.ctxId == u16 b 6) = false)
    (hfree : w.freeSlot = some k) :
    s.ctxLoad r = (some (0, some k), (w.setCtx k (Ctx.parse r.a0 b)).raiseDev 83 Ev.context (0x10 * 2 ^ 24 + k % 64)) := by
  unfold State.ctxLoad
  rw [hlegacy, if_neg Bool.false_ne_true, hread]
  dsimp only
  rw [if_neg (by rw [halign, hrec]; decide), if_neg (not_not.2 hroot), hnew, if_neg Bool.false_ne_true, hfree]
  exact State.ctxDone_slot ..

theorem State.ctxUnload_of_idle {s : State} {r : FwReq} (hlegacy : s.legacy = false) (hslot : r.a0 < 48)
    (hres : (s.ctx r.a0).resident = true) (hbusy : s.slotBusy r.a0 = false) (hwaits : s.ringWaits r.a0 = false)
    (hmap : s.mapped true (s.ctx r.a0).recVa 1024 = true) :
    s.ctxUnload r = (some (0, none), ((((s.ctx r.a0).fields.foldl (fun s e => (s.vwrite Who.fwp3 e.1 e.2).2) s).setCtx r.a0 {}).raiseDev
      83 Ev.context (0x11 * 2 ^ 24 + r.a0 % 64))) := by
  unfold State.ctxUnload
  dsimp only
  rw [hlegacy, if_neg Bool.false_ne_true, if_neg (Nat.not_le_of_lt hslot), hres, if_neg (by decide), hbusy, if_neg Bool.false_ne_true,
    hwaits, if_neg Bool.false_ne_true, hmap, if_neg (by decide)]
  exact State.ctxDone_slot ..

theorem State.ctxDestroy_eq {s : State} {r : FwReq} (hlegacy : s.legacy = false) (hslot : r.a0 < 48)
    (hres : (s.ctx r.a0).resident = true) :
    let closed := (s.ctxClose r.a0).settle
    s.ctxDestroy r = if closed.slotBusy r.a0 || closed.ringWaits r.a0 then (none, closed)
      else (some (0, none), (closed.ctxEnd r.a0).raiseDev 83 Ev.context (0x12 * 2 ^ 24 + r.a0 % 64)) := by
  unfold State.ctxDestroy
  dsimp only
  rw [hlegacy, if_neg Bool.false_ne_true, if_neg (Nat.not_le_of_lt hslot), hres, if_neg (by decide), State.ctxDone_slot]

/-- Settles O14. -/
theorem contextRequestsAreServed : Obligations.ContextRequestsAreServed := by
  intro s w r b bad k u event hlegacy
  refine ⟨fun hs hread halign hrec hroot hnew hfree => ⟨?load, State.freeSlot_spec hfree⟩,
    fun hs hslot hres hbusy hwaits hmap => ?unload, fun hs hslot hres => ⟨fun hopen => ?closing, fun hbusy hwaits => ?destroyed⟩⟩
  case load => exact exec_of_answered State.ctxLoad hs rfl (State.ctxLoad_of_sound hlegacy hread halign hrec hroot hnew hfree) rfl
  case unload => exact exec_of_answered State.ctxUnload hs rfl (State.ctxUnload_of_idle hlegacy hslot hres hbusy hwaits hmap) rfl
  case closing =>
    refine exec_of_serves State.ctxDestroy hs rfl ?_ rfl
    rw [State.ctxDestroy_eq hlegacy hslot hres, if_pos (Bool.or_eq_true_iff.2 hopen)]
    rfl
  case destroyed =>
    refine exec_of_answered State.ctxDestroy hs rfl ?_ rfl
    rw [State.ctxDestroy_eq hlegacy hslot hres]
    exact if_neg (by rw [hbusy, hwaits]; decide)

end Sys2Proof.Machine
end

section
/-! SUPPORT. Resets (R680, R681, R773, R822), POWER_ON, standby and the link (R693, R706, R709, R507). -/
namespace Sys2Proof.Machine
open Sys2Proof

/-! Memory and pairs that are built anew. -/

/-- Bytes that are written elsewhere leave a byte alone. -/
theorem Mem.rd_foldl_wr_ne (a : Nat) : ∀ (l : Mem) (f : Mem), (∀ e ∈ l, e.1 ≠ a) →
    Mem.rd (l.foldl (fun (f : Mem) (e : Nat × Byte) => Mem.wr f e.1 e.2) f) a = Mem.rd f a
  | [], _, _ => rfl
  | e :: l, _, h => (Mem.rd_foldl_wr_ne a l _ fun x hx => h x (List.mem_cons_of_mem _ hx)).trans
      (Table.get_put_ne _ _ _ _ (h e List.mem_cons_self).symm)

/-- Bytes of distinct addresses, written one by one, read back. -/
theorem Mem.rd_foldl_wr_mem : ∀ (l : Mem) (f : Mem), l.Pairwise (fun p q => p.1 ≠ q.1) → ∀ e ∈ l,
    Mem.rd (l.foldl (fun (f : Mem) (e : Nat × Byte) => Mem.wr f e.1 e.2) f) e.1 = e.2
  | [], _, _, _, he => by cases he
  | x :: l, f, h, e, he => by
    obtain ⟨hx, hl⟩ := List.pairwise_cons.1 h
    rcases List.mem_cons.1 he with rfl | he
    · exact (Mem.rd_foldl_wr_ne _ l _ fun y hy => (hx y hy).symm).trans (Table.get_put_same _ _ _ _)
    · exact Mem.rd_foldl_wr_mem l _ hl e he

/-- A table filled with pairs at stop holds pairs at stop. -/
theorem pairs_foldl_stopped (now : Nat) : ∀ (l : List Nat) (t : Table Pair), (∀ k, (Table.get {} t k).run = false) → ∀ k,
    (Table.get {} (l.foldl (fun t k => Table.put {} t k { since := now }) t) k).run = false
  | [], _, h, k => h k
  | n :: l, t, h, k => by
    refine pairs_foldl_stopped now l _ (fun j => ?_) k
    by_cases hj : j = n
    · rw [hj, Table.get_put_same]
    · rw [Table.get_put_ne _ _ _ _ hj]
      exact h j

/-- Pairs that are all stopped are stopped. -/
theorem pair_run_of_map {l : Table Pair} {f : Pair → Pair} (hf : ∀ p, (f p).run = false) (k : Nat) :
    (Table.get {} (l.map fun e => (e.1, f e.2)) k).run = false := by
  induction l with
  | nil => rfl
  | cons e l ih =>
    rw [List.map_cons, Table.get_cons]
    split
    · exact hf e.2
    · exact ih

/-! What a reset leaves. -/

/-- A command that acts unclocked, once its condition holds. -/
theorem exec_always {s t : State} {c : Instr} {p : Bool} (f : State → State) (hp : p = true) (ht : f s = t)
    (hc : exec c s = always s (guarded p f)) : exec c s = .next t := by
  rw [hc, hp, ← ht]
  rfl

/-- BOOT_CAUSE after a reset. -/
theorem State.resetFor_cause (s : State) {code : Nat} (m : Option ModePins) (h : code < 16) :
    (s.resetFor code m).rf Reg.bootCause F.bootCause_CAUSE = code := by
  have hnonce : ∀ u : State, (u.wf Reg.bootCause F.bootCause_CAUSE code).drawNonce.rf Reg.bootCause F.bootCause_CAUSE = code := by
    intro u
    rw [State.rf, State.drawNonce_rd _ _ (by decide), State.rd_wf_same, W32.fld_setFld_same _ _ _ (by decide) (by decide)]
    exact Nat.mod_eq_of_lt h
  exact hnonce _

/-- BOOT_STATUS after a reset. -/
theorem State.resetFor_rd_bootStatus (s : State) (code : Nat) (m : Option ModePins) : (s.resetFor code m).rd Reg.bootStatus =
    (((s.survivors (code == Rc.standbyWake)).wf Reg.bootStatus F.bootStatus_TAMPER (s.rf Reg.bootStatus F.bootStatus_TAMPER)).wf
      Reg.bootStatus F.bootStatus_KEY_LOCKED (s.rf Reg.bootStatus F.bootStatus_KEY_LOCKED)).rd Reg.bootStatus := by
  have hkeep : ((s.survivors (code == Rc.standbyWake)).keepFields s).rd Reg.bootStatus = (((s.survivors (code == Rc.standbyWake)).wf
      Reg.bootStatus F.bootStatus_TAMPER (s.rf Reg.bootStatus F.bootStatus_TAMPER)).wf
      Reg.bootStatus F.bootStatus_KEY_LOCKED (s.rf Reg.bootStatus F.bootStatus_KEY_LOCKED)).rd Reg.bootStatus :=
    rd_foldl _ _ _ _ fun u n hn => State.rd_wf_ne _ _ _ (by revert hn n; decide)
  have hlast : ∀ u : State, (u.wf Reg.bootCause F.bootCause_CAUSE code).drawNonce.rd Reg.bootStatus = u.rd Reg.bootStatus := fun u => by
    rw [State.drawNonce_rd _ _ (by decide), State.rd_wf_ne _ _ _ (by decide)]
  unfold State.resetFor
  dsimp only
  rw [hlast, ← hkeep]
  generalize (s.survivors (code == Rc.standbyWake)).keepFields s = u
  cases m with
  | none => exact State.rd_wr_ne _ _ (by decide)
  | some m =>
    unfold State.sampleModes
    rw [State.rd_wf_ne _ _ _ (by decide), State.rd_wf_ne _ _ _ (by decide), State.rd_wf_ne _ _ _ (by decide),
      State.rd_wf_ne _ _ _ (by decide)]

theorem State.rf_lt (s : State) (off : Nat) {f : Fld} : s.rf off f < 2 ^ f.width := W32.fld_lt _ _

/-- The tamper record survives a reset (R822). -/
theorem State.resetFor_tamper (s : State) (code : Nat) (m : Option ModePins) :
    (s.resetFor code m).rf Reg.bootStatus F.bootStatus_TAMPER = s.rf Reg.bootStatus F.bootStatus_TAMPER := by
  unfold State.rf
  rw [s.resetFor_rd_bootStatus code m]
  refine (State.rf_wf_apart _ _ _ _ _ (by decide) (by decide)).trans ?_
  rw [State.rf_wf_same _ _ _ _ (by decide) (by decide)]
  exact Nat.mod_eq_of_lt (s.rf_lt _)

theorem State.resetFor_keyLocked (s : State) (code : Nat) (m : Option ModePins) :
    (s.resetFor code m).rf Reg.bootStatus F.bootStatus_KEY_LOCKED = s.rf Reg.bootStatus F.bootStatus_KEY_LOCKED := by
  unfold State.rf
  rw [s.resetFor_rd_bootStatus code m]
  refine (State.rf_wf_same _ _ _ _ (by decide) (by decide)).trans ?_
  exact Nat.mod_eq_of_lt (s.rf_lt _)

/-- Settles O18: each reset is `State.deviceReset` with its own code, and `State.resetFor_frame` says what stands. -/
theorem resetsRestartTheDevice : Obligations.ResetsRestartTheDevice := by
  refine ⟨fun s m e w => ⟨fun hshut => ?pin, fun hshut hover => ?trial, fun hup hfw hreq => ?request, fun hstandby hwake => ?wake,
    fun hstandby htamper => ?tamper, fun hshut hstandby hsrc => ?pcie⟩, fun s code m hcode => ?keeps⟩
  case pin => exact exec_always (·.deviceReset Rc.pin e (some m)) (by rw [hshut]; rfl) rfl rfl
  case trial => exact exec_always (·.deviceReset Rc.trialExpired e (some m)) (by rw [hshut, hover]; rfl) rfl rfl
  case request =>
    obtain ⟨r, hr, hcode⟩ := hreq
    have hany : (s.fwPump.fwp.taken.any fun r => r.code == 0x55) = true := List.any_eq_true.2 ⟨r, hr, by rw [hcode]; rfl⟩
    exact exec_fabric (·.resetRequest m) hup (if_pos (by rw [hfw, hany]; rfl)) rfl
  case wake =>
    have hdue : s.wakeDue e w = true := by
      unfold State.wakeDue
      rw [hstandby]
      rcases hwake with hw | ⟨hne, hle⟩
      · rw [hw]
        rfl
      · rw [decide_eq_true (show s.boot.wakeAt ≤ s.gts + ceilDiv e 1000 * 1000 from hle)]
        simp [hne]
    exact exec_always (·.standbyWake e) hdue rfl rfl
  case tamper =>
    refine ⟨_, exec_always (·.tamperWake e) (by rw [hstandby, htamper]; rfl) rfl rfl, ?_⟩
    obtain ⟨l, hhold⟩ := ((s.leaveStandby e).resetFor Rc.tamperWake none).tamperHold_frame
    refine ⟨?_, State.tamperHold_bootStatus _, ?_, State.tamperHold_up _, fun p hp => State.tamperHold_fwUp _ p hp⟩
    · unfold State.tamperWake
      rw [hhold]
    · refine (congrArg (W32.fld · F.bootCause_CAUSE) (State.tamperHold_rd _ _ (by decide) (by decide))).trans ?_
      exact State.resetFor_cause _ none (by decide)
  case pcie => exact exec_always (·.deviceReset Rc.pcie 0 (some m)) (by rw [hshut, hstandby, hsrc]; rfl) rfl rfl
  case keeps =>
    have hcause := s.resetFor_cause m hcode
    have htamper := s.resetFor_tamper code m
    have hkey := s.resetFor_keyLocked code m
    obtain ⟨l, n, hreset⟩ := s.resetFor_frame code m
    dsimp only
    generalize s.resetFor code m = t at *
    refine ⟨hcause, by rw [hreset]; rfl, ?_, by rw [hreset]; rfl, by rw [hreset]; rfl, by rw [hreset]; rfl, by rw [hreset]; rfl, htamper,
      hkey, by rw [hreset]; rfl, by rw [hreset]; rfl, by rw [hreset]; rfl, by rw [hreset]; rfl, by rw [hreset]; rfl,
      by rw [hreset]; rfl, by rw [hreset]; rfl, by rw [hreset]; rfl, fun k => ?_⟩
    · rw [hreset]
      by_cases hwake : code = 5
      · subst hwake
        rfl
      · rw [if_neg hwake]
        exact if_neg (by simpa [Rc.standbyWake] using hwake)
    · rw [hreset]
      exact pairs_foldl_stopped s.gts _ [] (fun _ => rfl) k

/-! POWER_ON (R680, R770). -/

/-- The board that a POWER_ON finds. -/
def State.withBoard (s : State) : Option Board → State
  | some b =>
    let f := b.flash.foldl (fun (f : Mem) (e : Nat × Byte) => Mem.wr f e.1 e.2) []
    { s with boot := { s.boot with board := { b with flash := [] }, flash := f } }
  | none => s

theorem State.powerOn_eq (s : State) (m : ModePins) (b : Option Board) :
    s.powerOn m b = (((s.withBoard b).afterReset.sampleModes m).wf Reg.bootCause F.bootCause_CAUSE Rc.powerOn).drawNonce := by
  cases b <;> rfl

theorem State.powerOn_frame (s : State) (m : ModePins) (b : Option Board) :
    ∃ l n, s.powerOn m b = { (s.withBoard b).afterReset with live := l, freeCount := n } := by
  rw [State.powerOn_eq]
  obtain ⟨l, n, hnonce⟩ := State.drawNonce_frame (((s.withBoard b).afterReset.sampleModes m).wf Reg.bootCause F.bootCause_CAUSE Rc.powerOn)
  obtain ⟨k, hregs⟩ := (State.sampleModes_frame (s.withBoard b).afterReset m).trans (.wf _ Reg.bootCause F.bootCause_CAUSE Rc.powerOn)
  rw [hnonce, hregs]
  exact ⟨l, n, rfl⟩

/-- CHIP_MODE after a POWER_ON. -/
theorem State.powerOn_chipMode (s : State) (m : ModePins) (b : Option Board) :
    (s.powerOn m b).rd Reg.chipMode = ((s.withBoard b).afterReset.sampleModes m).rd Reg.chipMode := by
  rw [State.powerOn_eq, State.drawNonce_rd _ _ (by decide), State.rd_wf_ne _ _ _ (by decide)]

theorem State.powerOn_cause (s : State) (m : ModePins) (b : Option Board) :
    (s.powerOn m b).rf Reg.bootCause F.bootCause_CAUSE = 1 := by
  rw [State.powerOn_eq, State.rf, State.drawNonce_rd _ _ (by decide)]
  exact State.rf_wf_same _ _ _ _ (by decide) (by decide)

theorem State.sampleModes_bootSrc (s : State) (m : ModePins) : (s.sampleModes m).rf Reg.chipMode F.chipMode_BOOT_SRC = m.bootSrc % 4 := by
  unfold State.sampleModes
  rw [State.rf_wf_apart _ _ _ _ _ (by decide) (by decide), State.rf_wf_apart _ _ _ _ _ (by decide) (by decide)]
  exact State.rf_wf_same _ _ _ _ (by decide) (by decide)

theorem State.sampleModes_testEn (s : State) (m : ModePins) : (s.sampleModes m).rf Reg.chipMode F.chipMode_TEST_EN = b2n m.testEn := by
  unfold State.sampleModes
  rw [State.rf_wf_apart _ _ _ _ _ (by decide) (by decide), State.rf_wf_same _ _ _ _ (by decide) (by decide)]
  cases m.testEn <;> rfl

theorem State.sampleModes_legacy (s : State) (m : ModePins) : (s.sampleModes m).rf Reg.chipMode F.chipMode_LEGACY_1CTX = b2n m.legacy := by
  unfold State.sampleModes
  rw [State.rf_wf_apart _ _ _ _ _ (by decide) (by decide), State.rf_wf_apart _ _ _ _ _ (by decide) (by decide),
    State.rf_wf_apart _ _ _ _ _ (by decide) (by decide), State.rf_wf_same _ _ _ _ (by decide) (by decide)]
  cases m.legacy <;> rfl

/-- Settles O19: the state is `State.reset` with a board (`State.powerOn_frame`), the mode pins and BOOT_CAUSE. -/
theorem powerOnStartsFromNothing : Obligations.PowerOnStartsFromNothing := by
  intro s m b
  refine ⟨s.powerOn m b, rfl, ?_⟩
  have hcause := s.powerOn_cause m b
  have hmode := s.powerOn_chipMode m b
  have hsrc : (s.powerOn m b).rf Reg.chipMode F.chipMode_BOOT_SRC = m.bootSrc % 4 := by
    rw [State.rf, hmode]
    exact State.sampleModes_bootSrc _ m
  have htest : (s.powerOn m b).rf Reg.chipMode F.chipMode_TEST_EN = b2n m.testEn := by
    rw [State.rf, hmode]
    exact State.sampleModes_testEn _ m
  have hlegacy : (s.powerOn m b).rf Reg.chipMode F.chipMode_LEGACY_1CTX = b2n m.legacy := by
    rw [State.rf, hmode]
    exact State.sampleModes_legacy _ m
  obtain ⟨l, n, hframe⟩ := s.powerOn_frame m b
  generalize s.powerOn m b = t at *
  clear hmode
  subst hframe
  refine ⟨rfl, rfl, rfl, rfl, rfl, rfl, rfl, rfl, rfl, rfl, rfl, rfl, rfl, hcause, hsrc, ?_, ?_, fun hb => ?_, fun x hb => ?_⟩
  · rw [htest]
    cases m.testEn <;> decide
  · unfold State.legacy
    rw [hlegacy]
    cases m.legacy <;> decide
  · subst hb
    exact ⟨rfl, rfl⟩
  · subst hb
    exact ⟨rfl, fun hdistinct e he => Mem.rd_foldl_wr_mem x.flash [] hdistinct e he⟩

/-! Standby and the link (R693, R706, R507). -/

/-- Settles O22. -/
theorem standbyAndTheLinkGoDown : Obligations.StandbyAndTheLinkGoDown := by
  intro s r
  refine ⟨fun hs => ?standby, fun hup => ?link⟩
  case standby =>
    refine ⟨exec_of_answered State.enterStandby hs rfl rfl rfl, State.up_of_clockOn ?_, fun k =>
      pair_run_of_map (l := s.fwPump.pairs) (f := fun p => { p with run := false, fresh := false }) (fun _ => rfl) k⟩
    exact Bool.and_false _
  case link =>
    refine ⟨s.pcieDown, exec_fabric State.pcieDown hup rfl rfl, ?_⟩
    obtain ⟨l, e, i, p, hreports⟩ := ({ s with pcieUp := false } : State).breakGates_reports Owner.pcieHost
    refine ⟨?_, ?_, fun n hn => ?_⟩
    · unfold State.pcieDown
      rw [hreports]
    · unfold State.pcieDown
      rw [hreports]
      exact fun _ => ⟨rfl, rfl, rfl, rfl⟩
    · obtain ⟨hbreaks, hkeeps⟩ := ({ s with pcieUp := false } : State).breakGates_does Owner.pcieHost n hn
      exact ⟨fun h => ⟨(hbreaks h).1, (hbreaks h).2.1⟩, hkeeps⟩

end Sys2Proof.Machine
end

section
/-! SUPPORT. What the end of jobs can change (R58 to R73), and with it the end of a cycle (R489). -/
namespace Sys2Proof.Machine
open Sys2Proof

/-- The registers that the end of a job may write: those of an access to memory, the detectors of a breach and of an overrun, and
the cycle counts of the Fountains. -/
def endRegs : List Nat :=
  accessRegs ++ [Reg.detCount 0xD, Reg.detLast 0xD, Reg.detCount 0xE, Reg.detLast 0xE] ++ [0, 1, 2, 3].map Reg.ftnCycles

/-- What the end of jobs may change. -/
def OnlyEnds (s t : State) : Prop :=
  (∃ l e i p d c w m x g q f k n, t = { s with live := l, events := e, integ := i, pairs := p, ddr := d, freeCount := c, weir := w, dram := m, ctxs := x, pages := g, freeSeq := q, ftns := f, cores := k, skim := n }) ∧
  sameRegs s t endRegs

namespace OnlyEnds

theorem refl (s : State) : OnlyEnds s s := ⟨⟨_, _, _, _, _, _, _, _, _, _, _, _, _, _, rfl⟩, .refl s _⟩

theorem trans {s t u : State} : OnlyEnds s t → OnlyEnds t u → OnlyEnds s u := by
  rintro ⟨⟨_, _, _, _, _, _, _, _, _, _, _, _, _, _, rfl⟩, hst⟩ ⟨⟨l, e, i, p, d, c, w, m, x, g, q, f, k, n, rfl⟩, htu⟩
  exact ⟨⟨l, e, i, p, d, c, w, m, x, g, q, f, k, n, rfl⟩, hst.trans htu⟩

theorem ite {s t u : State} {p : Prop} [Decidable p] (ht : OnlyEnds s t) (hu : OnlyEnds s u) : OnlyEnds s (if p then t else u) := by
  split
  · exact ht
  · exact hu

theorem foldl {α : Type} {f : State → α → State} : ∀ {l : List α}, (∀ s, ∀ x ∈ l, OnlyEnds s (f s x)) → ∀ s, OnlyEnds s (l.foldl f s)
  | [], _, s => .refl s
  | x :: _, h, s => (h s x List.mem_cons_self).trans (foldl (fun s y hy => h s y (List.mem_cons_of_mem _ hy)) (f s x))

theorem of_access {s t : State} : DramAccess s t → OnlyEnds s t := by
  rintro ⟨⟨l, e, i, p, d, c, w, m, rfl⟩, hregs⟩
  exact ⟨⟨l, e, i, p, d, c, _, m, _, _, _, _, _, _, rfl⟩, fun off hoff => hregs off fun ho =>
    hoff (List.mem_append_left _ (List.mem_append_left _ ho))⟩

theorem of_weir {s t : State} : OnlyWeir s t → OnlyEnds s t := by
  rintro ⟨w, c, p, q, rfl⟩
  exact ⟨⟨_, _, _, _, _, _, w, _, c, p, q, _, _, _, rfl⟩, .of_live rfl _⟩

theorem of_reports {s t : State} (h : OnlyReports s t) (hregs : sameRegs s t endRegs) : OnlyEnds s t := by
  obtain ⟨l, e, i, p, rfl⟩ := h
  exact ⟨⟨l, e, i, p, _, _, _, _, _, _, _, _, _, _, rfl⟩, hregs⟩

theorem setCtx (s : State) (k : Nat) (c : Ctx) : OnlyEnds s (s.setCtx k c) := of_weir (.setCtx s k c)

theorem setFtn (s : State) (f : Nat) (x : Fountain) : OnlyEnds s (s.setFtn f x) :=
  ⟨⟨_, _, _, _, _, _, _, _, _, _, _, _, _, _, rfl⟩, .of_live rfl _⟩

theorem setCore (s : State) (c : Nat) (x : Core) : OnlyEnds s (s.setCore c x) :=
  ⟨⟨_, _, _, _, _, _, _, _, _, _, _, _, _, _, rfl⟩, .of_live rfl _⟩

theorem setSkim (s : State) (x : SkimS) : OnlyEnds s { s with skim := x } :=
  ⟨⟨_, _, _, _, _, _, _, _, _, _, _, _, _, _, rfl⟩, .of_live rfl _⟩

theorem xlateFault (s : State) (tag : Nat) : OnlyEnds s (s.xlateFault tag) := of_reports (.raiseDev ..) (.of_live rfl _)

/-- The clocks, the time and the boot stand, and so does a register that no end of a job writes. -/
theorem stands {s t : State} (h : OnlyEnds s t) :
    t.gts = s.gts ∧ t.clk = s.clk ∧ t.boot = s.boot ∧ t.pwr = s.pwr ∧ t.cistern = s.cistern ∧ t.pending = s.pending := by
  obtain ⟨⟨l, e, i, p, d, c, w, m, x, g, q, f, k, n, rfl⟩, -⟩ := h
  exact ⟨rfl, rfl, rfl, rfl, rfl, rfl⟩

theorem rd {s t : State} (h : OnlyEnds s t) {off : Nat} (hoff : off ∉ endRegs) : t.rd off = s.rd off := h.2 off hoff

end OnlyEnds

/-! The layers of a job leave their engines. -/

theorem State.chargeVt_ends (s : State) (e : Nat) (r : LayerRun) : OnlyEnds s (s.chargeVt e r) := by
  unfold State.chargeVt
  split
  · exact .refl s
  · exact .ite (.refl s) (.setCtx ..)

theorem State.halt_ends (s : State) (e : Nat) : OnlyEnds s (s.halt e) := by
  unfold State.halt State.haltFtn State.onCores
  exact .ite (.setSkim ..) ((OnlyEnds.setFtn ..).trans (.foldl (fun _ _ _ => .setCore ..) _))

theorem State.setRun_ends (s : State) (e : Nat) (r : Option LayerRun) : OnlyEnds s (s.setRun e r) :=
  .ite (.setSkim ..) (.setFtn ..)

theorem State.dropRun_ends (s : State) (e : Nat) : OnlyEnds s (s.dropRun e) := by
  unfold State.dropRun
  split
  · exact .refl s
  · exact ((s.chargeVt_ends e _).trans (State.halt_ends _ e)).trans (State.setRun_ends _ e none)

theorem State.dropOver_ends (s : State) {f : Nat} (hf : f < 4) : OnlyEnds s (s.dropOver f) := by
  have hcycles : Reg.ftnCycles f ∈ endRegs := by revert hf f; decide
  unfold State.dropOver
  split
  · exact .refl s
  · exact ((s.dropRun_ends f).trans (.of_reports (OnlyRegs.wn ..).reports ((sameRegs.refl _ _).wn hcycles _))).trans (.setFtn ..)

/-- A Fountain holds a commit of a job while the next layer is dispatched (R411). -/
def State.holdsOver (s : State) (id e : Nat) : Bool := decide (e < 4) && match (s.ftn e).ovl with
  | some o => o.run.job == id
  | none => false

/-- A job's layer leaves an engine. -/
def State.dropRunOf (s : State) (id e : Nat) : State := match s.runOf e with
  | some r => if r.job = id then s.dropRun e else s
  | none => s

theorem State.dropJob_eq (s : State) (id e : Nat) :
    s.dropJob id e = (if s.holdsOver id e then s.dropOver e else s).dropRunOf id e := rfl

theorem State.dropRunOf_ends (s : State) (id e : Nat) : OnlyEnds s (s.dropRunOf id e) := by
  unfold State.dropRunOf
  split
  · exact .ite (State.dropRun_ends ..) (.refl _)
  · exact .refl _

theorem State.dropJob_ends (s : State) (id e : Nat) : OnlyEnds s (s.dropJob id e) := by
  rw [State.dropJob_eq]
  refine OnlyEnds.trans ?_ (State.dropRunOf_ends _ id e)
  split
  · next h => exact s.dropOver_ends (of_decide_eq_true (Bool.and_eq_true_iff.1 h).1)
  · exact .refl s

/-! Reports, records and pages. -/

theorem State.cause_ends (s : State) (c : Nat) : OnlyEnds s (s.cause c) := .of_access (.cause s c)

theorem State.detCount_ends (s : State) (o : Occ) (hcount : Reg.detCount o.det ∈ endRegs) (hlast : Reg.detLast o.det ∈ endRegs) :
    OnlyEnds s (s.detCount o) :=
  .of_reports (s.detCount_reports o) fun _ hoff => State.detCount_rd _ _ _ (ne_of_mem_of_not_mem hcount hoff).symm
    (ne_of_mem_of_not_mem hlast hoff).symm

theorem State.occur_ends (s : State) (o : Occ) (b : Bool) (hcount : Reg.detCount o.det ∈ endRegs) (hlast : Reg.detLast o.det ∈ endRegs) :
    OnlyEnds s (s.occur o b) :=
  .of_reports (s.occur_reports o b) fun _ hoff => State.occur_rd _ _ _ _ (ne_of_mem_of_not_mem hcount hoff).symm
    (ne_of_mem_of_not_mem hlast hoff).symm

theorem State.endReports_ends (s : State) (j : Job) (status fault : Nat) : OnlyEnds s (s.endReports j status fault) := by
  unfold State.endReports State.breachEvents
  refine .ite ?_ (.ite ?_ (.refl s))
  · exact ((s.detCount_ends _ (show Reg.detCount 0xE ∈ endRegs by decide) (show Reg.detLast 0xE ∈ endRegs by decide)).trans
      (.of_reports ((OnlyReports.raise ..).trans (.raise ..)) (.of_live rfl _))).trans (State.cause_ends _ 0)
  · exact (s.occur_ends _ _ (show Reg.detCount 0xD ∈ endRegs by decide) (show Reg.detLast 0xD ∈ endRegs by decide)).trans
      (State.cause_ends _ 11)

theorem State.putCpl_ends (s : State) (slot : Nat) (r : CplRec) : OnlyEnds s (s.putCpl slot r) := by
  obtain ⟨f, hf, heq⟩ : ∃ f : State → Who → Nat → List Byte → Bool × State,
      (∀ s w va b, OnlyEnds s (f s w va b).2) ∧ State.vwrite = f := ⟨_, fun s w va b => .of_access (s.vwrite_access w va b), rfl⟩
  unfold State.putCpl
  rw [heq]
  exact .ite ((hf ..).trans (.setCtx ..)) ((hf ..).trans (.xlateFault ..))

theorem State.flushFinals_ends (s : State) (slot : Nat) : OnlyEnds s (s.flushFinals slot) :=
  .foldl (fun s r _ => .ite (.refl s) ((s.putCpl_ends slot r).trans (.setCtx ..))) s

theorem State.writeOutputs_ends (s : State) (j : Job) : OnlyEnds s (s.writeOutputs j) :=
  .foldl (fun s _ _ => .ite (.of_weir (.setPage ..)) (.refl s)) s

theorem State.releasePages_ends (s : State) : OnlyEnds s s.releasePages :=
  .foldl (fun s _ _ => .ite (.refl s) (.ite (.of_weir (.setPage ..)) (.of_weir (.freePage ..)))) s

theorem State.finalRecord_ends (s : State) (j : Job) (status fault gts : Nat) : OnlyEnds s (s.finalRecord j status fault gts) := by
  unfold State.finalRecord
  dsimp only
  refine OnlyEnds.trans ?_ (State.releasePages_ends _)
  have hrecord : ∀ c, OnlyEnds s (State.flushFinals j.slot (s.setCtx j.slot c)) := fun c =>
    (OnlyEnds.setCtx s j.slot c).trans (State.flushFinals_ends _ j.slot)
  exact .ite (((hrecord _).trans (.of_weir (.modJob ..))).trans (State.writeOutputs_ends ..)) ((hrecord _).trans (.of_weir (.weir ..)))

theorem State.endOne_ends (s : State) (j : Job) (status fault : Nat) : OnlyEnds s (s.endOne j status fault) := by
  unfold State.endOne
  exact ((OnlyEnds.foldl (fun s e _ => s.dropJob_ends j.id e) s).trans (State.endReports_ends ..)).trans (State.finalRecord_ends ..)

theorem State.endJobs_ends : ∀ (n : Nat) (l : List (Nat × Nat × Nat)) (s : State), OnlyEnds s (State.endJobs n l s)
  | 0, _, s => .refl s
  | _ + 1, [], s => .refl s
  | n + 1, (id, status, fault) :: rest, s => by
    unfold State.endJobs
    cases s.pending? id with
    | none => exact State.endJobs_ends n rest s
    | some j => exact .ite (State.endJobs_ends n rest s) ((s.endOne_ends j status fault).trans (State.endJobs_ends n _ _))

theorem State.endAll_ends (s : State) (l : List (Nat × Nat × Nat)) : OnlyEnds s (s.endAll l) := State.endJobs_ends _ l s

theorem State.settle_ends (s : State) : OnlyEnds s s.settle := .of_weir s.settle_weir

theorem State.cycleEnd_ends (s : State) : OnlyEnds s s.cycleEnd := .ite ((s.endAll_ends _).trans (State.settle_ends _)) (.refl s)

end Sys2Proof.Machine
end

section
/-! SUPPORT. The references and the root PLL (R725 to R736). -/
namespace Sys2Proof.Machine
open Sys2Proof

/-! Judging (R725). -/

/-- A window outside its band starts the judging again. -/
theorem Judge.window_of_out (j : Judge) {gts band agree : Nat} {d : Int} (h : band < d.natAbs) : j.window gts band agree d = {} :=
  if_pos h

/-- The first window is kept. -/
theorem Judge.window_first {gts band agree : Nat} {d : Int} (h : d.natAbs ≤ band) :
    Judge.window {} gts band agree d = { counts := [d] } := by
  unfold Judge.window
  rw [if_neg (Nat.not_lt.2 h)]
  simp

/-- The third of three windows that agree makes the reference good. -/
theorem Judge.window_third {gts band agree : Nat} {a b d : Int} (h : d.natAbs ≤ band) (hda : (d - a).natAbs ≤ agree)
    (hdb : (d - b).natAbs ≤ agree) (hab : (a - b).natAbs ≤ agree) :
    Judge.window { counts := [a, b] } gts band agree d = { counts := [d, a, b], good := true, since := gts } := by
  have had : (a - d).natAbs ≤ agree := by rwa [← Int.natAbs_neg, neg_sub]
  have hbd : (b - d).natAbs ≤ agree := by rwa [← Int.natAbs_neg, neg_sub]
  have hba : (b - a).natAbs ≤ agree := by rwa [← Int.natAbs_neg, neg_sub]
  unfold Judge.window
  rw [if_neg (Nat.not_lt.2 h)]
  simp [Nat.not_lt.2 hda, Nat.not_lt.2 hdb, Nat.not_lt.2 hab, Nat.not_lt.2 had, Nat.not_lt.2 hbd, Nat.not_lt.2 hba]

/-- A window of REF_CLK while the root PLL judges: its result is kept, and no reference is lost. -/
theorem State.judgeWindow_judging {s : State} (hsrc : s.clk.src = .judging) (d : Int) :
    s.judgeWindow false d = { s with clk := { s.clk with refClk := s.clk.refClk.window s.gts 200000 10000 d } } := by
  unfold State.judgeWindow State.setRefClk
  rw [if_neg Bool.false_ne_true, hsrc, if_neg (by decide)]
  simp [hsrc]

/-! Transfers (R728 to R732). -/

/-- A transfer changes the source, counts, and warns. -/
theorem State.transferTo_clk (s : State) (r : RefSrc) : (s.transferTo r).clk = { s.clk with
    src := r, transfers := (s.clk.transfers + 1) % 65536, recovWanted := s.clk.recovWanted && r != RefSrc.recovered } := by
  obtain ⟨l, e, h⟩ := State.warn_frame { s with clk := { s.clk with
    src := r, transfers := (s.clk.transfers + 1) % 65536, recovWanted := s.clk.recovWanted && r != RefSrc.recovered } } 7 0x15 0
  unfold State.transferTo
  rw [h]

theorem State.transferTo_gts (s : State) (r : RefSrc) : (s.transferTo r).gts = s.gts := by
  obtain ⟨l, e, h⟩ := State.warn_frame { s with clk := { s.clk with
    src := r, transfers := (s.clk.transfers + 1) % 65536, recovWanted := s.clk.recovWanted && r != RefSrc.recovered } } 7 0x15 0
  unfold State.transferTo
  rw [h]

theorem State.transferTo_sameRegs (s : State) (r : RefSrc) : sameRegs s (s.transferTo r) [Reg.detCount 7, Reg.detLast 7] := by
  intro off hoff
  simp only [List.mem_cons, List.not_mem_nil, or_false, not_or] at hoff
  exact State.warn_rd _ _ _ _ _ hoff.1 hoff.2

/-! The relock (R734 to R736). -/

theorem State.askWindow_frame (s : State) : ∃ w p, s.askWindow = { s with weir := w, pwr := p } := by
  unfold State.askWindow State.maintRequest
  split <;> exact ⟨_, _, rfl⟩

/-- The clocks run again after a gap: the state before the boot or the window that follows. -/
def State.relocked (s : State) (gapUs : Nat) : State :=
  let s := s.elapse (1000 * gapUs)
  let s := { s with clk := { s.clk with locked := true, gated := false, selfRefresh := false, src := .refClk } }
  (s.wn Reg.clkGapCount (s.rn Reg.clkGapCount + 1)).wn Reg.clkGapLast gapUs

theorem State.rn_relocked_last (s : State) (g : Nat) : (s.relocked g).rn Reg.clkGapLast = g % 2 ^ 32 := State.rn_wn_same _ _ _

theorem State.rn_relocked_count (s : State) (g : Nat) : (s.relocked g).rn Reg.clkGapCount = (s.rn Reg.clkGapCount + 1) % 2 ^ 32 := by
  unfold State.relocked
  dsimp only
  rw [State.rn_wn_ne _ _ (by decide), State.rn_wn_same]
  rfl

theorem State.rootRelock_of_started {s : State} (g : Nat) (h : s.boot.starting = false) :
    s.rootRelock g = (s.cycleEnd.relocked g).askWindow := by
  have hboot : (s.cycleEnd.relocked g).boot = s.boot := s.cycleEnd_ends.stands.2.2.1
  have hdef : s.rootRelock g = if (s.cycleEnd.relocked g).boot.starting && (s.cycleEnd.relocked g).bootState == Bs.rom
    then (s.cycleEnd.relocked g).bootGoes else (s.cycleEnd.relocked g).askWindow := rfl
  rw [hdef, hboot, h]
  rfl

/-- Settles O20: the judging (`Judge.window`), transfers (`State.transferTo_clk`), and a relock, before which the cycle that
ends decides its cancels, which change neither time nor clocks (`OnlyEnds.stands`). -/
theorem theRootPllLocksAndTransfers : Obligations.TheRootPllLocksAndTransfers := by
  refine ⟨fun s d a b g => ⟨fun hshut hstandby hsrc => ?judge, fun hgood hshut hstandby => ⟨fun hlocked hgated => ?lock,
    fun hgated hstarting hhold => ?relock⟩, fun hbad => ⟨?noLock, ?noRelock⟩⟩, fun s hup => ⟨fun hsrc hgood => ?loss,
    fun hsrc hgood => ?transfer, fun hsrc hwanted hgood hcfg => ?recovered, fun hsrc hrevert hcfg hgood => ⟨fun hlong => ?revert, fun hshort => ?wait⟩⟩⟩
  case judge =>
    have hexec := exec_always (c := .refJudgeWindow false d) (·.judgeWindow false d)
      (by rw [hshut, hstandby]; rfl) (State.judgeWindow_judging hsrc d) rfl
    refine ⟨fun hout => ⟨_, hexec, ?_⟩, fun hin hnew => ⟨_, hexec, ?_⟩, fun hin htwo hda hdb hab => ⟨_, hexec, ?_⟩⟩
    · rw [Judge.window_of_out _ hout]
    · rw [hnew, Judge.window_first hin]
    · rw [htwo, Judge.window_third hin hda hdb hab]
  case lock => exact exec_always State.rootLock (by rw [hlocked, hgated, hshut, hstandby, hgood]; rfl) rfl rfl
  case relock =>
    refine ⟨_, exec_always (·.rootRelock g) (by rw [hgated, hshut, hstandby, hgood]; rfl) (State.rootRelock_of_started g hstarting) rfl, ?_⟩
    obtain ⟨hgts, hclk, hboot, -, hcis, -⟩ := s.cycleEnd_ends.stands
    have hcount : s.cycleEnd.rn Reg.clkGapCount = s.rn Reg.clkGapCount :=
      congrArg BitVec.toNat (s.cycleEnd_ends.rd (by decide))
    have hlast := s.cycleEnd.rn_relocked_last g
    have hinc := s.cycleEnd.rn_relocked_count g
    rw [hcount] at hinc
    obtain ⟨w, p, hask⟩ := (s.cycleEnd.relocked g).askWindow_frame
    rw [hask]
    refine ⟨congrArg (· + 1000 * g) hgts, ?_, rfl, hlast, hinc, fun hnone => ?_⟩
    · unfold State.up State.clockOn
      show (!s.cycleEnd.clk.shutdown && !s.cycleEnd.clk.standby && !s.cycleEnd.boot.hold) = true
      rw [hclk, hboot, hshut, hstandby, hhold]
      rfl
    · rw [State.cycleEnd_of_no_cancel hnone]
      exact fun _ => ⟨rfl, rfl, rfl, rfl⟩
  case noLock => exact congrArg Host.Outcome.next (if_neg (by rw [hbad, Bool.and_false]; decide))
  case noRelock => exact congrArg Host.Outcome.next (if_neg (by rw [hbad, Bool.and_false]; decide))
  case loss =>
    refine ⟨_, exec_fabric (·.setRecov {}) hup rfl rfl, ?_⟩
    unfold State.setRecov
    rw [hgood, hsrc]
    rfl
  case transfer =>
    have hto : s.refTransfer = s.transferTo .refClk := by
      unfold State.refTransfer
      rw [hsrc, hgood]
      rfl
    exact ⟨_, exec_fabric State.refTransfer hup hto rfl, by rw [State.transferTo_clk], by rw [State.transferTo_clk],
      s.transferTo_sameRegs _, s.transferTo_gts _⟩
  case recovered =>
    have hto : s.refTransfer = s.transferTo .recovered := by
      unfold State.refTransfer
      rw [hsrc, hwanted, hgood, hcfg]
      rfl
    exact ⟨_, exec_fabric State.refTransfer hup hto rfl, by rw [State.transferTo_clk],
      by rw [State.transferTo_clk]; exact Bool.and_false _, by rw [State.transferTo_clk]⟩
  case revert =>
    have hto : s.refRevert = s.transferTo .recovered := by
      unfold State.refRevert
      rw [hsrc, hrevert, hcfg, hgood, decide_eq_true (show s.clk.recov.since + 10 * second ≤ s.gts from hlong)]
      rfl
    exact ⟨_, exec_fabric State.refRevert hup hto rfl, by rw [State.transferTo_clk], s.transferTo_gts _⟩
  case wait =>
    refine exec_fabric State.refRevert hup (if_neg ?_) rfl
    rw [decide_eq_false (show ¬ s.clk.recov.since + 10 * second ≤ s.gts from Nat.not_le_of_lt hshort), Bool.and_false]
    decide

end Sys2Proof.Machine
end

section
/-! SUPPORT. The boot (R685 to R689, R701, R702, R718, R719). -/
namespace Sys2Proof.Machine
open Sys2Proof

/-! BOOT_FAIL. -/

theorem State.bootFail_state (s : State) : s.bootFail.rf Reg.bootStatus F.bootStatus_STATE = 3 :=
  State.rf_wf_same s _ _ _ (by decide) (by decide)

theorem State.bootFail_fail (s : State) : s.bootFail.rf Reg.bootStatus F.bootStatus_FAIL = s.rf Reg.bootStatus F.bootStatus_FAIL :=
  State.rf_wf_apart s _ _ _ _ (by decide) (by decide)

theorem State.bootFail_pairs (s : State) (k : Nat) : (s.bootFail.pair k).run = false :=
  pair_run_of_map (l := s.pairs) (f := fun p => { p with run := false }) (fun _ => rfl) k

/-! The firmware takes nothing where nothing waits. -/

theorem State.fwSweep_of_nil {s : State} (h : s.fwp.taken = []) : s.fwSweep = s := by
  unfold State.fwSweep
  rw [h]
  rfl

theorem State.fwPump_of_idle {s : State} (htaken : s.fwp.taken = []) (hwait : s.fwp.req.waiting = 0) : s.fwPump = s := by
  have hno : s.fwCanTake = false := by
    unfold State.fwCanTake
    rw [hwait]
    simp
  unfold State.fwPump
  rw [State.fwSweep_of_nil htaken, State.fwPumpN, hno]
  rfl

/-! READY. -/

/-- DRAM is trained cold (R719). -/
def State.trainsCold (s : State) (tr : Training) : Bool := !s.boot.wake && (tr.retrained || !s.storedTraining tr.part)

/-- The state with the results of a cold training stored. -/
def State.afterTraining (s : State) (tr : Training) : State := if s.trainsCold tr then s.storeTraining tr.part else s

/-- The registers at READY. -/
def State.readyRegs (s : State) (cold : Bool) : State :=
  let s := s.wn Reg.ddrUsable s.boot.board.usable
  let s := s.wf Reg.bootStatus F.bootStatus_COLD_TRAINED (b2n cold)
  let s := ((s.trained.wn Reg.bootTDram (s.gts / 1000)).wn Reg.bootTReady (s.gts / 1000)).setBootState Bs.ready
  s.wf Reg.bootStatus F.bootStatus_READY 1

theorem State.bootReady_eq (s : State) (tr : Training) :
    s.bootReady tr true = ({ (s.afterTraining tr).readyRegs (s.trainsCold tr) with pcieUp := true } : State).fwPump :=
  if_neg (by decide)

theorem State.storeTraining_frame (s : State) (part : Nat) :
    ∃ b, b.usable = s.boot.board.usable ∧ s.storeTraining part = { s with boot := { s.boot with board := b } } := by
  refine ⟨(s.storeTraining part).boot.board, ?_, rfl⟩
  unfold State.storeTraining
  dsimp only
  split <;> rfl

theorem State.afterTraining_frame (s : State) (tr : Training) :
    ∃ b, b.usable = s.boot.board.usable ∧ s.afterTraining tr = { s with boot := { s.boot with board := b } } := by
  unfold State.afterTraining
  split
  · exact s.storeTraining_frame _
  · exact ⟨_, rfl, rfl⟩

theorem State.readyRegs_regs (s : State) (cold : Bool) : OnlyRegs s (s.readyRegs cold) :=
  (((OnlyRegs.wn ..).trans (.wf ..)).trans (((OnlyRegs.wf ..).trans (.wn ..)).trans ((OnlyRegs.wn ..).trans (.wf ..)))).trans (.wf ..)

theorem State.readyRegs_state (s : State) (cold : Bool) : (s.readyRegs cold).rf Reg.bootStatus F.bootStatus_STATE = 2 := by
  refine (State.rf_wf_apart _ _ _ _ _ (by decide) (by decide)).trans ?_
  exact State.rf_wf_same _ _ _ _ (by decide) (by decide)

theorem State.readyRegs_ready (s : State) (cold : Bool) : (s.readyRegs cold).rf Reg.bootStatus F.bootStatus_READY = 1 :=
  State.rf_wf_same _ _ _ _ (by decide) (by decide)

theorem State.readyRegs_cold (s : State) (cold : Bool) : (s.readyRegs cold).rf Reg.bootStatus F.bootStatus_COLD_TRAINED = b2n cold := by
  unfold State.readyRegs State.setBootState State.trained
  dsimp only
  rw [State.rf_wf_apart _ _ _ _ _ (by decide) (by decide), State.rf_wf_apart _ _ _ _ _ (by decide) (by decide),
    State.rf_wn_ne _ _ _ (by decide), State.rf_wn_ne _ _ _ (by decide), State.rf_wf_ne _ _ _ _ (by decide),
    State.rf_wf_same _ _ _ _ (by decide) (by decide)]
  cases cold <;> rfl

theorem State.readyRegs_usable (s : State) (cold : Bool) : (s.readyRegs cold).rn Reg.ddrUsable = s.boot.board.usable % 2 ^ 32 := by
  unfold State.readyRegs State.setBootState State.trained
  dsimp only
  rw [State.rn_wf_ne _ _ _ (by decide), State.rn_wf_ne _ _ _ (by decide), State.rn_wn_ne _ _ (by decide),
    State.rn_wn_ne _ _ (by decide), State.rn_wf_ne _ _ _ (by decide), State.rn_wf_ne _ _ _ (by decide), State.rn_wn_same]

theorem State.readyRegs_time (s : State) (cold : Bool) : (s.readyRegs cold).rn Reg.bootTReady = s.gts / 1000 % 2 ^ 32 := by
  unfold State.readyRegs State.setBootState State.trained
  dsimp only
  rw [State.rn_wf_ne _ _ _ (by decide), State.rn_wf_ne _ _ _ (by decide), State.rn_wn_same]
  rfl

/-! A confirm (R701, R702). -/

theorem State.bootConfirm_of_trial {s : State} {t0 : Nat} (htrial : s.boot.trialEnd = some t0) (hin : s.gts < t0)
    (hdown : s.fwUp 0 = false) : s.bootConfirm 0x0C0FF3F0#32 =
      ({ s with boot := { s.boot with trialEnd := none, confirming := true } } : State).wf Reg.bootStatus F.bootStatus_CONFIRM 1 := by
  have hfw : (({ s with boot := { s.boot with trialEnd := none, confirming := true } } : State).wf Reg.bootStatus
      F.bootStatus_CONFIRM 1).fwUp 0 = false := by
    unfold State.fwUp State.fwState at hdown ⊢
    rw [State.rf_wf_ne _ _ _ _ (by decide)]
    exact hdown
  unfold State.bootConfirm State.confirmCommit
  rw [htrial]
  dsimp only
  rw [hfw, Bool.and_false, if_neg Bool.false_ne_true, if_neg (Nat.not_le_of_lt hin)]
  rfl

/-- Settles O21. -/
theorem theBootGoesItsWay : Obligations.TheBootGoesItsWay := by
  intro s v tr t0 hup cold
  have goes : s.rf Reg.bootStatus F.bootStatus_STATE = 6 → exec (.bootPcieGo 1) s = .next s.pcieGo := fun hstate =>
    exec_fabric (guarded ((1 : W32) == 1#32 && s.bootState == Bs.waitPcie) State.pcieGo) hup
      (if_pos (by unfold State.bootState; rw [hstate]; rfl)) rfl
  refine ⟨goes, fun hstate hfail hcode => ⟨_, goes hstate, ?failed⟩, fun hv => ?notGo, fun hdue => ⟨?untrained, fun htaken hwait => ?ready⟩,
    fun htrial hin hdown => ?confirm, fun hv => ?twin⟩
  case failed =>
    unfold State.pcieGo
    rw [if_neg hfail]
    refine ⟨State.bootFail_state _, (State.bootFail_fail _).trans ?_, State.bootFail_pairs _⟩
    rw [State.rf_wf_same _ _ _ _ (by decide) (by decide)]
    exact Nat.mod_eq_of_lt hcode
  case notGo =>
    refine exec_fabric (guarded (v == 1#32 && s.bootState == Bs.waitPcie) State.pcieGo) hup (if_neg ?_) rfl
    rw [beq_false_of_ne (show v ≠ 1#32 from hv)]
    exact Bool.false_ne_true
  case untrained =>
    exact ⟨s.bootFail, exec_fabric (guarded s.readyDue fun s => s.bootReady tr false) hup (if_pos hdue) rfl, s.bootFail_state, s.bootFail_pairs⟩
  case ready =>
    have hboard : (s.afterTraining tr).boot.board = if cold = true then (s.storeTraining tr.part).boot.board else s.boot.board :=
      apply_ite (fun t : State => t.boot.board) _ _ _
    obtain ⟨b, husable, htrain⟩ := s.afterTraining_frame tr
    have hstate := (s.afterTraining tr).readyRegs_state (s.trainsCold tr)
    have hready := (s.afterTraining tr).readyRegs_ready (s.trainsCold tr)
    have hcold := (s.afterTraining tr).readyRegs_cold (s.trainsCold tr)
    have huse := (s.afterTraining tr).readyRegs_usable (s.trainsCold tr)
    have htime := (s.afterTraining tr).readyRegs_time (s.trainsCold tr)
    obtain ⟨l, hregs⟩ := (s.afterTraining tr).readyRegs_regs (s.trainsCold tr)
    refine ⟨_, exec_fabric (guarded s.readyDue fun s => s.bootReady tr true) hup (if_pos hdue) rfl, ?_⟩
    dsimp only
    rw [State.bootReady_eq, State.fwPump_of_idle (by rw [hregs, htrain]; exact htaken) (by rw [hregs, htrain]; exact hwait)]
    generalize (s.afterTraining tr).readyRegs (s.trainsCold tr) = u at *
    refine ⟨hstate, hready, hcold, ?_, rfl, huse.trans (by rw [htrain, husable]), htime.trans (by rw [htrain]), ?_⟩
    · rw [← hboard, hregs]
    · rw [hregs, htrain]
      exact fun _ => ⟨rfl, rfl, rfl, rfl⟩
  case confirm =>
    exact ⟨_, exec_fabric (·.bootConfirm 0x0C0FF3F0#32) hup (State.bootConfirm_of_trial htrial hin hdown) rfl, rfl, rfl,
      State.rf_wf_same _ _ _ _ (by decide) (by decide), (sameRegs.of_live rfl _).trans ((sameRegs.refl _ _).wf List.mem_cons_self _ _)⟩
  case twin =>
    exact ⟨_, exec_fabric (·.bootConfirm v) hup (if_pos hv) rfl, State.rf_wf_same _ _ _ _ (by decide) (by decide),
      (sameRegs.refl _ _).wf List.mem_cons_self _ _, _, rfl⟩

end Sys2Proof.Machine
end

section
/-! SUPPORT. What an alarm leaves alone: an occurrence of a detector, and a cause of the safety pairs. -/
namespace Sys2Proof.Machine
open Sys2Proof

/-- The states differ in registers, events and the safety pairs. -/
def OnlyAlarms (s t : State) : Prop := ∃ l e p, t = { s with live := l, events := e, pairs := p }

namespace OnlyAlarms

theorem refl (s : State) : OnlyAlarms s s := ⟨_, _, _, rfl⟩

theorem trans {s t u : State} : OnlyAlarms s t → OnlyAlarms t u → OnlyAlarms s u := by
  rintro ⟨_, _, _, rfl⟩ ⟨l, e, p, rfl⟩
  exact ⟨l, e, p, rfl⟩

theorem ite {s t u : State} {p : Prop} [Decidable p] (ht : OnlyAlarms s t) (hu : OnlyAlarms s u) : OnlyAlarms s (if p then t else u) := by
  split
  · exact ht
  · exact hu

theorem foldl {α : Type} {f : State → α → State} : ∀ {l : List α}, (∀ s x, OnlyAlarms s (f s x)) → ∀ s, OnlyAlarms s (l.foldl f s)
  | [], _, s => .refl s
  | x :: _, h, s => (h s x).trans (foldl h (f s x))

theorem of_regs {s t : State} : OnlyRegs s t → OnlyAlarms s t := by
  rintro ⟨l, rfl⟩
  exact ⟨l, _, _, rfl⟩

theorem setPair (s : State) (k : Nat) (p : Pair) : OnlyAlarms s (s.setPair k p) := ⟨_, _, _, rfl⟩

theorem raiseDev (s : State) (a b c : Nat) : OnlyAlarms s (s.raiseDev a b c) := ⟨_, _, _, rfl⟩

theorem sameMem {s t : State} : OnlyAlarms s t → sameMem s t := by
  rintro ⟨_, _, _, rfl⟩ _
  exact ⟨rfl, rfl, rfl, rfl⟩

/-- An alarm changes neither the integrity unit's own state nor the clocks, the firmware's queues or the time. -/
theorem stands {s t : State} : OnlyAlarms s t → t.integ = s.integ ∧ t.clk = s.clk ∧ t.fwp = s.fwp ∧ t.gts = s.gts ∧ t.weir = s.weir ∧
    t.boot = s.boot ∧ t.pwr = s.pwr := by
  rintro ⟨_, _, _, rfl⟩
  exact ⟨rfl, rfl, rfl, rfl, rfl, rfl, rfl⟩

end OnlyAlarms

theorem State.stopPair_alarms (s : State) (k c : Nat) : OnlyAlarms s (s.stopPair k c) :=
  ((OnlyAlarms.setPair s k _).trans (.of_regs ((OnlyRegs.bump ..).trans ((OnlyRegs.wf ..).trans (.wn ..))))).trans (.raiseDev ..)

theorem State.lowerCause_alarms (s : State) (k c : Nat) : OnlyAlarms s (s.lowerCause k c) :=
  .ite ((OnlyAlarms.of_regs (.wf ..)).trans ⟨_, _, _, rfl⟩) (.refl s)

theorem State.drivePair_alarms (s : State) (c k : Nat) : OnlyAlarms s (s.drivePair c k) := by
  unfold State.drivePair
  dsimp only
  split
  · exact ((OnlyAlarms.of_regs (.wr ..)).trans (.setPair ..)).trans (State.stopPair_alarms ..)
  · exact ((OnlyAlarms.of_regs (.wr ..)).trans ((OnlyAlarms.setPair ..).trans (.setPair ..))).trans (State.lowerCause_alarms ..)

theorem State.cause_alarms (s : State) (c : Nat) : OnlyAlarms s (s.cause c) :=
  .foldl (fun s k => .ite (s.drivePair_alarms c k) (.refl s)) s

/-- The states differ in registers and events. -/
def OnlyNotices (s t : State) : Prop := ∃ l e, t = { s with live := l, events := e }

theorem OnlyNotices.alarms {s t : State} : OnlyNotices s t → OnlyAlarms s t := by
  rintro ⟨l, e, rfl⟩
  exact ⟨l, e, _, rfl⟩

theorem OnlyNotices.pair {s t : State} (h : OnlyNotices s t) (k : Nat) : t.pair k = s.pair k := by
  obtain ⟨l, e, rfl⟩ := h
  rfl

/-- An occurrence that no correction made changes registers and events alone. -/
theorem State.detCount_regs (s : State) {o : Occ} (h : o.kind ≠ Kind.corrected) : OnlyRegs s (s.detCount o) := by
  have hno : (o.kind == Kind.corrected) = false := beq_false_of_ne h
  unfold State.detCount
  dsimp only
  rw [hno]
  exact .ite _ (.refl s) ((OnlyRegs.bumpSat ..).trans (.wn ..))

theorem State.occur_notices (s : State) {o : Occ} (b : Bool) (h : o.kind ≠ Kind.corrected) : OnlyNotices s (s.occur o b) := by
  obtain ⟨l, hcount⟩ := s.detCount_regs h
  unfold State.occur State.detRaise
  rw [hcount]
  dsimp only
  split
  · split <;> exact ⟨_, _, rfl⟩
  · exact ⟨_, _, rfl⟩

/-- What an occurrence leaves as the detector's last: its detail. -/
theorem State.occur_detLast (s : State) {o : Occ} (b : Bool) (h : s.detOn o.det = true ∨ detSilent o.det = false) :
    (s.occur o b).rn (Reg.detLast o.det) = o.detail % 2 ^ 32 := by
  have hcount : (s.detCount o).rd (Reg.detLast o.det) = BitVec.ofNat 32 o.detail := by
    have hwn := (s.bumpSat (Reg.detCount o.det) F.whole).rd_wn_same (Reg.detLast o.det) o.detail
    unfold State.detCount
    dsimp only
    rw [if_neg (by rcases h with h | h <;> simp [h])]
    generalize (s.bumpSat (Reg.detCount o.det) F.whole).wn (Reg.detLast o.det) o.detail = u at hwn ⊢
    split
    · rw [State.rd_integ]
      exact hwn
    · exact hwn
  have hrd : (s.occur o b).rd (Reg.detLast o.det) = BitVec.ofNat 32 o.detail := by
    unfold State.occur State.detRaise
    dsimp only
    split
    · split
      · rw [State.raiseDev_rd, hcount]
      · rw [State.raiseDev_rd, hcount]
    · exact hcount
  rw [State.rn, hrd, BitVec.toNat_ofNat]

/-- A bit that a cause latches. -/
theorem bit_of_or (a : W32) {c : Nat} (hc : c < 32) : (a ||| BitVec.ofNat 32 (2 ^ c)).getLsbD c = true := by
  rw [BitVec.getLsbD_or, BitVec.getLsbD_ofNat, decide_eq_true hc, Nat.testBit_two_pow_self]
  exact Bool.or_true _

/-- A pair whose mask names a cause has it latched, and does not run. -/
theorem State.cause_latches (s : State) {c k : Nat} (hc : c < 32) (hk : k < 4) (hmask : (s.pair k).mask.testBit c = true) :
    ((s.cause c).rd (Reg.safeCause k)).getLsbD c = true ∧ ((s.cause c).pair k).run = false := by
  obtain ⟨hrun, hbit⟩ := s.cause_does c k hk hmask
  rw [hbit]
  exact ⟨bit_of_or _ hc, hrun⟩

end Sys2Proof.Machine
end

section
/-! SUPPORT. Maintenance windows (R427 to R429, R760, R761). -/
namespace Sys2Proof.Machine
open Sys2Proof

theorem wrapN_lt (n : Nat) (x : Int) : wrapN n x < 2 ^ n := by
  unfold wrapN
  have hpos : (0 : Int) < 2 ^ n := by positivity
  have hlt := Int.emod_lt_of_pos x hpos
  have hnonneg := Int.emod_nonneg x (ne_of_gt hpos)
  zify
  omega

theorem State.checkEntries_of_twins {s : State} (h : ∀ j ∈ s.guarJobs, j.twinOk = true) : s.checkEntries = s := by
  have hnone : (s.guarJobs.filter fun j => !j.twinOk) = [] := List.filter_eq_nil_iff.2 fun j hj => by rw [h j hj]; decide
  unfold State.checkEntries
  rw [hnone]
  rfl

theorem State.maintEnd_of_open {s : State} {t0 : Nat} (k : Nat) (h : s.weir.maintStart = some t0) (hopen : s.gts < t0 + 40000) :
    s.maintEnd k = s := by
  unfold State.maintEnd
  rw [h]
  exact if_pos hopen

/-- The state at the end of a window, with the channels that failed. -/
def State.maintEnded (s : State) (k : Nat) : State :=
  ({ s with weir := { s.weir with maintStart := none } } : State).wf Reg.powerDdrTrain F.powerDdrTrain_FAIL_CH k

theorem State.maintEnd_of_over {s : State} {t0 : Nat} (k : Nat) (h : s.weir.maintStart = some t0) (hend : t0 + 40000 ≤ s.gts) :
    s.maintEnd k = if k % 256 = 0 then (s.maintEnded k).trained
      else ({ s.maintEnded k with pwr := { s.pwr with retrainAt := some (s.gts + 1000000) } } : State).checkPhy := by
  unfold State.maintEnd
  rw [h]
  exact if_neg (Nat.not_lt.2 hend)

theorem State.checkPhy_frame (s : State) : ∃ b, s.checkPhy = { s with weir := { s.weir with maintPending := b } } := by
  unfold State.checkPhy State.maintRequest
  dsimp only
  split
  · exact ⟨true, rfl⟩
  · exact ⟨s.weir.maintPending, rfl⟩

/-- Settles O24. -/
theorem maintenanceWindowsAreHeld : Obligations.MaintenanceWindowsAreHeld := by
  intro s t0 k hup
  refine ⟨exec_fabric State.maintRequest hup rfl rfl, fun hpending hidle htwins => ⟨fun hfits => ?starts, fun hfits => ?waits⟩,
    fun hstart => ⟨fun hopen => ?still, fun hover => ?ended⟩, fun hretrain hdue hrun => ?retry⟩
  case starts =>
    have hstart : s.maintTest = ({ s with weir := { s.weir with maintPending := false, maintStart := some s.gts } } : State).bumpSat
        Reg.weirMaint F.weirMaint_COUNT := by
      unfold State.maintTest
      rw [State.checkEntries_of_twins htwins]
      dsimp only
      rw [hpending, hidle, hfits]
      rfl
    exact ⟨_, exec_fabric State.maintTest hup hstart rfl, rfl,
      (sameRegs.of_live rfl _).trans ((sameRegs.refl _ _).wf List.mem_cons_self _ _), fun _ => ⟨rfl, rfl, rfl, rfl⟩⟩
  case waits =>
    refine exec_fabric State.maintTest hup ?_ rfl
    unfold State.maintTest
    rw [State.checkEntries_of_twins htwins]
    dsimp only
    rw [hfits, Bool.and_false]
    rfl
  case still => exact exec_fabric (fun s => (s.maintEnd k).settle) hup (congrArg State.settle (State.maintEnd_of_open k hstart hopen)) rfl
  case ended =>
    refine ⟨s.maintEnd k, exec_fabric (fun s => (s.maintEnd k).settle) hup rfl rfl, ?_⟩
    rw [State.maintEnd_of_over k hstart hover]
    have hfail : (s.maintEnded k).rf Reg.powerDdrTrain F.powerDdrTrain_FAIL_CH = k % 256 :=
      State.rf_wf_same _ _ _ _ (by decide) (by decide)
    have hregs : sameRegs s (s.maintEnded k) [Reg.powerDdrTrain] :=
      (sameRegs.of_live rfl _).trans ((sameRegs.refl _ _).wf List.mem_cons_self _ _)
    by_cases hk : k % 256 = 0
    · rw [if_pos hk]
      refine ⟨rfl, (State.rf_wf_apart _ _ _ _ _ (by decide) (by decide)).trans hfail, fun _ => ⟨rfl, rfl, rfl, rfl⟩,
        hregs.trans ((sameRegs.refl _ _).wf List.mem_cons_self _ _), fun _ => ?_, fun hne => absurd hk hne⟩
      refine (State.rf_wf_same _ _ _ _ (by decide) (by decide)).trans (Nat.mod_eq_of_lt ?_)
      exact wrapN_lt 16 _
    · rw [if_neg hk]
      obtain ⟨b, hphy⟩ := State.checkPhy_frame { s.maintEnded k with pwr := { s.pwr with retrainAt := some (s.gts + 1000000) } }
      rw [hphy]
      exact ⟨rfl, hfail, fun _ => ⟨rfl, rfl, rfl, rfl⟩, hregs.trans (.of_live rfl _), fun h0 => absurd h0 hk, fun _ => rfl⟩
  case retry =>
    refine exec_fabric State.retrainDue hup ?_ rfl
    unfold State.retrainDue
    rw [hretrain, hrun]
    dsimp only
    rw [decide_eq_true hdue]
    rfl

end Sys2Proof.Machine
end

section
/-! SUPPORT. Watchdogs (R670, R675). -/
namespace Sys2Proof.Machine
open Sys2Proof

theorem State.watchdogCause_reports (s : State) : OnlyReports s s.watchdogCause := by
  have hcause := State.cause_reports { s with integ := { s.integ with swExpired := true } } 5
  unfold State.watchdogCause
  exact (OnlyReports.integ s _).trans hcause

/-- A watchdog of a firmware processor that expires is reported, and its processor needs a restart. -/
theorem State.fwWatchdog_expired {s : State} {p : Nat} (hrun : s.fwUp p = true) (hon : 7 ∉ s.integ.stopped)
    (harmed : s.injArmed 0x17 0 6 p = false) :
    ∃ u, OnlyReports s u ∧ (∀ off, off ∉ safeRegs → off ≠ Reg.detCount 0xA → off ≠ Reg.detLast 0xA → u.rd off = s.rd off) ∧
      s.fwWatchdog p true = u.fwNeed p RstCause.watchdog := by
  have hstopped : s.integ.stopped.contains 7 = false := by simpa using hon
  have hoccur : OnlyReports s (s.occur ⟨0xA, Kind.occurrence, 0x19, p, false⟩) := s.occur_reports _ _
  have hkeeps : ∀ off, off ≠ Reg.detCount 0xA → off ≠ Reg.detLast 0xA → (s.occur ⟨0xA, Kind.occurrence, 0x19, p, false⟩).rd off = s.rd off :=
    fun off hcount hlast => State.occur_rd _ _ _ _ hcount hlast
  unfold State.fwWatchdog
  rw [hrun, hstopped, State.inject_of_not_armed harmed, if_neg (by decide)]
  dsimp only
  rw [if_neg (by decide), Option.isSome_none]
  generalize s.occur ⟨0xA, Kind.occurrence, 0x19, p, false⟩ = u at hoccur hkeeps
  refine ⟨if u.detOn 0xA && (u.rd (Reg.detThresh 0xA)).toNat.testBit 31 then u.watchdogCause else u, ?_, ?_, rfl⟩
  · split
    · exact hoccur.trans u.watchdogCause_reports
    · exact hoccur
  · intro off hsafe hcount hlast
    split
    · exact (State.cause_rd _ _ _ hsafe).trans (hkeeps off hcount hlast)
    · exact hkeeps off hcount hlast

theorem fwpState_not_alarm {p : Nat} (hp : p < 5) :
    Reg.fwpState p ∉ safeRegs ∧ Reg.fwpState p ≠ Reg.detCount 0xA ∧ Reg.fwpState p ≠ Reg.detLast 0xA := by
  revert hp p
  decide

/-- What a watchdog that expires leaves. -/
theorem State.fwNeed_of_up {s : State} {p cause : Nat} (hp : p < 5) (hrun : s.fwUp p = true) :
    s.fwNeed p cause = { s.setFw p Fw.restarting with fwp := { s.fwp with waiting := s.fwp.waiting ++ [(p, cause)] } } :=
  if_pos ⟨by omega, hrun⟩

/-- The software watchdog expires. -/
theorem State.swWatchdog_expired {s : State} (hon : 0 < s.swPeriod) (harmed : s.injArmed 0x17 0 6 5 = false)
    (hover : s.integ.swKick + 1000 * s.swPeriod ≤ s.gts) : s.swWatchdog =
      let u := (s.occur ⟨0xA, Kind.occurrence, 0x14, 5, false⟩).watchdogCause
      { u with integ := { u.integ with swKick := u.gts } } := by
  unfold State.swWatchdog
  rw [if_neg (Nat.ne_of_gt hon), State.inject_of_not_armed harmed]
  dsimp only
  rw [decide_eq_false (Nat.not_lt.2 hover)]
  rfl

/-- Settles O26. -/
theorem watchdogsExpire : Obligations.WatchdogsExpire := by
  intro s p v hup
  refine ⟨fun hp hrun hon harmed => ⟨?restarts, ?counts⟩, fun hon harmed => ⟨fun hover => ?expires, fun hin => ?runs⟩,
    exec_fabric (·.safeKick 0x5A3CA5C3#32) hup (if_pos rfl) rfl, fun hv => exec_fabric (·.safeKick v) hup (if_neg hv) rfl⟩
  case restarts =>
    obtain ⟨u, hreports, hkeeps, heq⟩ := State.fwWatchdog_expired hrun hon harmed
    have hstate : ∀ n < 5, u.fwState n = s.fwState n := fun n hn => by
      obtain ⟨hsafe, hcount, hlast⟩ := fwpState_not_alarm hn
      exact congrArg (W32.fld · F.fwpState_STATE) (hkeeps _ hsafe hcount hlast)
    have hurun : u.fwUp p = true := by
      unfold State.fwUp at hrun ⊢
      rw [hstate p hp]
      exact hrun
    refine ⟨_, exec_fabric_unit (·.fwWatchdog p true) hup hp (heq.trans (State.fwNeed_of_up hp hurun)) rfl, ?_, ?_, ?_, ?_⟩
    · exact u.fwState_setFw p Fw.restarting
    · obtain ⟨l, e, i, q, rfl⟩ := hreports
      rfl
    · exact hreports.sameMem.trans fun _ => ⟨rfl, rfl, rfl, rfl⟩
    · intro n hn hne
      rw [← hstate n hn]
      exact congrArg (W32.fld · F.fwpState_STATE) (u.rd_setFw_ne Fw.restarting (Reg.fwpState_ne hne))
  case counts =>
    have hstopped : s.integ.stopped.contains 7 = false := by simpa using hon
    refine exec_fabric_unit (·.fwWatchdog p false) hup hp ?_ rfl
    unfold State.fwWatchdog
    rw [hrun, hstopped, State.inject_of_not_armed harmed]
    rfl
  case expires =>
    refine ⟨_, exec_fabric State.swWatchdog hup (State.swWatchdog_expired hon harmed hover) rfl, ?_⟩
    have hnotices : OnlyNotices s (s.occur ⟨0xA, Kind.occurrence, 0x14, 5, false⟩) := s.occur_notices _ (by decide)
    have hpair := hnotices.pair
    have hgts := hnotices.alarms.stands.2.2.2.1
    have hmem := hnotices.alarms.sameMem
    unfold State.watchdogCause
    generalize s.occur ⟨0xA, Kind.occurrence, 0x14, 5, false⟩ = w at hpair hgts hmem ⊢
    obtain ⟨hinteg, -, -, hcgts, -⟩ := (State.cause_alarms { w with integ := { w.integ with swExpired := true } } 5).stands
    refine ⟨hcgts.trans hgts, congrArg IntegS.swExpired hinteg, ?_, fun k hk hmask => ?_⟩
    · exact hmem.trans ((State.cause_alarms { w with integ := { w.integ with swExpired := true } } 5).sameMem)
    · have hmask' : (({ w with integ := { w.integ with swExpired := true } } : State).pair k).mask.testBit 5 = true := by
        rw [← hmask, ← hpair k]
        rfl
      exact State.cause_latches _ (by decide) hk hmask'
  case runs =>
    refine exec_fabric State.swWatchdog hup ?_ rfl
    unfold State.swWatchdog
    rw [if_neg (Nat.ne_of_gt hon), State.inject_of_not_armed harmed]
    dsimp only
    rw [decide_eq_true hin]
    rfl

end Sys2Proof.Machine
end

section
/-! SUPPORT. The safety pairs' causes and their software stop (R675 to R679, R107). -/
namespace Sys2Proof.Machine
open Sys2Proof

/-! The causes that a write clears. -/

/-- A sum of rising powers of two has the bits that it names. -/
theorem testBit_foldl_two_pow (i : Nat) : ∀ (l : List Nat) (n : Nat), l.Pairwise (· < ·) → (∀ c ∈ l, n < 2 ^ c) →
    (l.foldl (fun n c => n + 2 ^ c) n).testBit i = (n.testBit i || decide (i ∈ l))
  | [], n, _, _ => by simp
  | c :: l, n, hl, hn => by
    obtain ⟨hc, hl⟩ := List.pairwise_cons.1 hl
    have hlt : n < 2 ^ c := hn c List.mem_cons_self
    have hor : n + 2 ^ c = 2 ^ c ||| n := by
      rw [Nat.add_comm]
      simpa using Nat.two_pow_add_eq_or_of_lt hlt 1
    have hnext : ∀ d ∈ l, n + 2 ^ c < 2 ^ d := fun d hd =>
      calc n + 2 ^ c < 2 ^ (c + 1) := by rw [pow_succ]; omega
        _ ≤ 2 ^ d := Nat.pow_le_pow_right (by decide) (hc d hd)
    rw [List.foldl_cons, testBit_foldl_two_pow i l _ hl hnext, hor, Nat.testBit_or, Nat.testBit_two_pow]
    by_cases hi : i = c
    · simp [hi]
    · simp [hi, Ne.symm hi]

/-- The causes that a pair may hold. -/
def causeList : List Nat := List.range 14 ++ (List.range 9).map (· + 16)

/-- A bit of a write of SAFE_CAUSE clears where its condition holds. -/
theorem State.clearable_testBit (s : State) (k : Nat) (v : W32) {c : Nat} (hc : c < 14 ∨ 16 ≤ c ∧ c ≤ 24) :
    (s.clearable k v).testBit c = (v.getLsbD c && s.causeClears k c && Table.get none (s.pair k).occAt c != some s.gts) := by
  have hmem : c ∈ causeList := by
    unfold causeList
    rw [List.mem_append, List.mem_map]
    exact hc.imp List.mem_range.2 fun h => ⟨c - 16, List.mem_range.2 (by omega), by omega⟩
  have hrise : causeList.Pairwise (· < ·) := by decide
  have hsum := testBit_foldl_two_pow c (causeList.filter fun c =>
    v.toNat.testBit c && s.causeClears k c && Table.get none (s.pair k).occAt c != some s.gts) 0 (hrise.filter _) fun d _ => Nat.two_pow_pos d
  unfold State.clearable
  refine hsum.trans ?_
  rw [Nat.zero_testBit, Bool.false_or, Bool.eq_iff_iff, decide_eq_true_iff, List.mem_filter, and_iff_right hmem]
  exact Iff.rfl

/-- The access codes of SAFE_CAUSE: its causes clear by writing 1. -/
theorem safeCause_row {k : Nat} (hk : k < 4) : ∃ r, RegRow.of? (Reg.safeCause k) = some r ∧ r.w1c = causeBits ∧
    ∀ c, c < 14 ∨ 16 ≤ c ∧ c ≤ 24 → (r.rw ||| r.rwl).getLsbD c = false := by
  have hrow : RegRow.of? (Reg.safeCause k) = RegRow.of? (Reg.safeCause 0) := by revert hk k; decide
  rw [hrow]
  refine ⟨_, rfl, rfl, fun c hc => ?_⟩
  have hclear : ∀ c < 25, (c < 14 ∨ 16 ≤ c ∧ c ≤ 24) → (0xFE00C000#32).getLsbD c = false := by decide
  exact hclear c (by omega) hc

/-- A cause after a write of SAFE_CAUSE. -/
theorem State.causeClear_bit (s : State) (tag : Nat) {k c : Nat} (v : W32) (hk : k < 4) (hc : c < 14 ∨ 16 ≤ c ∧ c ≤ 24) :
    ((s.causeClear tag k v).rd (Reg.safeCause k)).getLsbD c = ((s.rd (Reg.safeCause k)).getLsbD c &&
      !(v.getLsbD c && s.causeClears k c && Table.get none (s.pair k).occAt c != some s.gts)) := by
  obtain ⟨r, hrow, hw1c, hplain⟩ := safeCause_row hk
  have hbits : causeBits.getLsbD c = true := by
    have hcauses : ∀ c < 25, (c < 14 ∨ 16 ≤ c ∧ c ≤ 24) → causeBits.getLsbD c = true := by decide
    exact hcauses c (by omega) hc
  unfold State.causeClear
  rw [State.rd_writeReg_same s tag _ hrow, ← s.clearable_testBit k v hc]
  unfold RegRow.written
  dsimp only
  rw [hw1c]
  have hplain' := hplain c hc
  have hc32 : c < 32 := by omega
  generalize r.rw ||| r.rwl = plain at hplain'
  generalize s.rd (Reg.safeCause k) = old
  generalize s.clearable k v = n
  rw [BitVec.getLsbD_or, BitVec.getLsbD_or, BitVec.getLsbD_and, BitVec.getLsbD_and, BitVec.getLsbD_and, BitVec.getLsbD_and,
    BitVec.getLsbD_not, BitVec.getLsbD_not, BitVec.getLsbD_or, BitVec.getLsbD_or, BitVec.getLsbD_and, BitVec.getLsbD_not,
    BitVec.getLsbD_ofNat, hplain', hbits, decide_eq_true hc32]
  cases old.getLsbD c <;> cases n.testBit c <;> simp

/-! The software stop (R679). -/

theorem mem_pairs {k : Nat} (hk : k < 4) : k ∈ [0, 1, 2, 3] := by
  revert hk k
  decide

/-- Pairs that a list names are driven; the others are not. -/
theorem State.drives_does (c : Nat) (p : State → Nat → Bool) {k : Nat} (hp : ∀ (s t : State), t.pair k = s.pair k → p t k = p s k) :
    ∀ (l : List Nat) (s : State), l.Nodup → k ∈ l → p s k = true →
    ((l.foldl (fun s k => if p s k then s.drivePair c k else s) s).pair k).run = false ∧
      (l.foldl (fun s k => if p s k then s.drivePair c k else s) s).rd (Reg.safeCause k) =
        (s.rd (Reg.safeCause k) ||| BitVec.ofNat 32 (2 ^ c))
  | [], _, _, hk, _ => by cases hk
  | n :: l, s, hl, hk, hpk => by
    obtain ⟨hn, hl⟩ := List.nodup_cons.1 hl
    rw [List.foldl_cons]
    by_cases hkn : k = n
    · subst hkn
      obtain ⟨hpair, hrd⟩ := State.drives_other c p l k hn (if p s k then s.drivePair c k else s)
      rw [hpair, hrd, if_pos hpk]
      exact ⟨(s.drivePair_same c k).1, (s.drivePair_same c k).2.2⟩
    · have hkeep : (if p s n then s.drivePair c n else s).pair k = s.pair k ∧
          (if p s n then s.drivePair c n else s).rd (Reg.safeCause k) = s.rd (Reg.safeCause k) := by
        split
        · exact s.drivePair_other c hkn
        · exact ⟨rfl, rfl⟩
      obtain ⟨hpair, hrd⟩ := hkeep
      rw [← hrd]
      exact State.drives_does c p hp l _ hl ((List.mem_cons.1 hk).resolve_left hkn) ((hp _ _ hpair).trans hpk)

/-- A list of drives changes what an alarm changes. -/
theorem State.drives_alarms (c : Nat) (p : State → Nat → Bool) (l : List Nat) (s : State) :
    OnlyAlarms s (l.foldl (fun s k => if p s k then s.drivePair c k else s) s) :=
  .foldl (fun s k => .ite (s.drivePair_alarms c k) (.refl s)) s

/-- SAFE_SW_STOP takes both halves of a sound write. -/
def State.swStopRegs (s : State) (tag : Nat) (v : W32) : State :=
  ((s.writeReg tag Reg.safeSwStop v).wf Reg.safeSwStop F.safeSwStop_STOP (v.fld F.safeSwStop_STOP)).wf Reg.safeSwStop
    F.safeSwStop_STOP_C (15 - v.fld F.safeSwStop_STOP)

/-- A software stop names a pair whose mask has cause 13. -/
def stopNames (st : Nat) (s : State) (k : Nat) : Bool := st.testBit k && (s.pair k).mask.testBit 13

theorem State.swStop_of_sound {s : State} (tag : Nat) {v : W32} (h : v.fld F.safeSwStop_STOP_C + v.fld F.safeSwStop_STOP = 15) :
    s.swStop tag v = [0, 1, 2, 3].foldl (fun s k => if stopNames (v.fld F.safeSwStop_STOP) s k then s.drivePair 13 k else s)
      (s.swStopRegs tag v) := by
  unfold State.swStop
  dsimp only
  rw [h]
  rfl

theorem State.swStopRegs_frame (s : State) (tag : Nat) (v : W32) : OnlyWrite s (s.swStopRegs tag v) :=
  (s.writeReg_write tag Reg.safeSwStop v).trans ((OnlyRegs.wf ..).trans (.wf ..)).write

/-- Settles O27. -/
theorem pairsStopAndReturn : Obligations.PairsStopAndReturn := by
  intro s tag k st v hup
  refine ⟨fun hk => ?clears, fun hk hms hqual hstate => ?returns, fun hk hms => ?between, fun hst hstop hcompl => ?stops, fun hbad => ?twin⟩
  case clears =>
    refine ⟨_, exec_fabric_unit (·.causeClear tag k v) hup hk rfl rfl, s.writeReg_sameRegs tag _ _, ?_,
      (s.writeReg_write tag _ _).sameMem, fun c hc => s.causeClear_bit tag v hk hc⟩
    obtain ⟨_, _, _, _, h⟩ := s.writeReg_write tag (Reg.safeCause k) ((v &&& ~~~causeBits) ||| BitVec.ofNat 32 (s.clearable k v))
    unfold State.causeClear
    rw [h]
  case returns => exact exec_fabric_unit (·.pairReturn k) hup hk (if_pos ⟨hms, .inl hqual, hstate⟩) rfl
  case between => exact exec_fabric_unit (·.pairReturn k) hup hk (if_neg fun h => hms h.1) rfl
  case stops =>
    have hsum : v.fld F.safeSwStop_STOP_C + v.fld F.safeSwStop_STOP = 15 := by omega
    refine ⟨_, exec_fabric (·.swStop tag v) hup (State.swStop_of_sound tag hsum) rfl, ?_⟩
    have halarms := State.drives_alarms 13 (stopNames (v.fld F.safeSwStop_STOP)) [0, 1, 2, 3] (s.swStopRegs tag v)
    have hrd : ([0, 1, 2, 3].foldl (fun s k => if stopNames (v.fld F.safeSwStop_STOP) s k then s.drivePair 13 k else s)
        (s.swStopRegs tag v)).rd Reg.safeSwStop = (s.swStopRegs tag v).rd Reg.safeSwStop :=
      rd_foldl _ _ _ _ fun t n hn => by
        split
        · exact t.drivePair_rd 13 n _ (by simp at hn; omega) (by decide)
        · rfl
    have hlow : (s.swStopRegs tag v).rf Reg.safeSwStop F.safeSwStop_STOP = st := by
      refine (State.rf_wf_apart _ _ _ _ _ (by decide) (by decide)).trans ?_
      rw [State.rf_wf_same _ _ _ _ (by decide) (by decide), hstop]
      exact Nat.mod_eq_of_lt (Nat.lt_succ_of_le hst)
    have hhigh : (s.swStopRegs tag v).rf Reg.safeSwStop F.safeSwStop_STOP_C = 15 - st := by
      refine (State.rf_wf_same _ _ _ _ (by decide) (by decide)).trans ?_
      rw [hstop]
      exact Nat.mod_eq_of_lt (Nat.lt_succ_of_le (Nat.sub_le 15 st))
    refine ⟨?_, ?_, (s.swStopRegs_frame tag v).sameMem.trans halarms.sameMem, fun n hn hbit hmask => ?_⟩
    · exact (congrArg (W32.fld · F.safeSwStop_STOP) hrd).trans hlow
    · exact (congrArg (W32.fld · F.safeSwStop_STOP_C) hrd).trans hhigh
    · have hnames : stopNames (v.fld F.safeSwStop_STOP) (s.swStopRegs tag v) n = true := by
        obtain ⟨_, _, _, _, hframe⟩ := s.swStopRegs_frame tag v
        unfold stopNames
        rw [hstop, hbit, hframe]
        exact hmask
      obtain ⟨hrun, hcause⟩ := State.drives_does 13 (stopNames (v.fld F.safeSwStop_STOP)) (k := n)
        (fun a b hab => by unfold stopNames; rw [hab]) [0, 1, 2, 3] (s.swStopRegs tag v) (by decide) (mem_pairs hn) hnames
      rw [hcause]
      exact ⟨hrun, bit_of_or _ (by decide)⟩
  case twin =>
    exact exec_fabric (·.swStop tag v) hup (if_pos (by simpa using hbad)) rfl

end Sys2Proof.Machine
end

section
/-! SUPPORT. Twin words, monitors and injection points (R635 to R638, R661 to R668, R733). -/
namespace Sys2Proof.Machine
open Sys2Proof

/-! Twin words of safety class. -/

/-- Every pair goes to stop (R663). -/
def State.stopAll (s : State) : State := [0, 1, 2, 3].foldl (fun s k =>
  if (s.pair k).run then s.stopPair k 6 else s.setPair k { s.pair k with fresh := false }) s

/-- What a stop shows of a pair: its count, its cause, its time and its event (R678). -/
def State.stopShown (s : State) (k c : Nat) : State :=
  (((s.bump (Reg.safePairStatus k) F.safePairStatus_STOP_COUNT).wf (Reg.safePairStatus k) F.safePairStatus_LAST_CAUSE c).wn
    (Reg.safeStopGts k) s.gts).raiseDev (6 + k) Ev.safeStop (k * 256 + c)

theorem State.stopShown_pair (s : State) (k c n : Nat) : (s.stopShown k c).pair n = s.pair n := rfl

/-- A pair that is stopped does not run. -/
theorem State.stopPair_run (s : State) (k c : Nat) : ((s.stopPair k c).pair k).run = false :=
  congrArg Pair.run ((State.stopShown_pair _ k c k).trans (State.pair_setPair_same s k _))

theorem State.stopPair_other (s : State) {k n : Nat} (c : Nat) (h : n ≠ k) : (s.stopPair k c).pair n = s.pair n :=
  (State.stopShown_pair _ k c n).trans (State.pair_setPair_ne s _ h)

/-- A pair that is sent to stop, stopped or not, does not run. -/
theorem State.stopStep_run (s : State) (k : Nat) :
    ((if (s.pair k).run then s.stopPair k 6 else s.setPair k { s.pair k with fresh := false }).pair k).run = false := by
  split
  · exact s.stopPair_run k 6
  · next h => rw [State.pair_setPair_same]; simpa using h

theorem State.stopStep_other (s : State) {k n : Nat} (h : n ≠ k) :
    (if (s.pair k).run then s.stopPair k 6 else s.setPair k { s.pair k with fresh := false }).pair n = s.pair n := by
  split
  · exact s.stopPair_other 6 h
  · exact State.pair_setPair_ne s _ h

theorem State.stopAll_run (s : State) {n : Nat} (hn : n < 4) : (s.stopAll.pair n).run = false := by
  have hlist : ∀ (l : List Nat) (s : State), (n ∈ l ∨ (s.pair n).run = false) → ((l.foldl (fun s k =>
      if (s.pair k).run then s.stopPair k 6 else s.setPair k { s.pair k with fresh := false }) s).pair n).run = false := by
    intro l
    induction l with
    | nil => exact fun s h => h.resolve_left (List.not_mem_nil)
    | cons k l ih =>
      intro s h
      refine ih _ ?_
      by_cases hk : n = k
      · subst hk
        exact .inr (s.stopStep_run n)
      · rw [s.stopStep_other hk]
        exact h.imp (fun hm => (List.mem_cons.1 hm).resolve_left hk) id
  exact hlist _ s (.inl (mem_pairs hn))

theorem State.stopAll_alarms (s : State) : OnlyAlarms s s.stopAll :=
  .foldl (fun s k => .ite (s.stopPair_alarms k 6) (.setPair ..)) s

theorem State.safetyTwin_alarms (s : State) (unit index : Nat) (inj : Bool) : OnlyAlarms s (s.safetyTwin unit index inj) :=
  (s.occur_notices true (show Kind.occurrence ≠ Kind.corrected by decide)).alarms.trans (State.cause_alarms _ 6)

/-- The SAFETY section's mismatch is latched. -/
def State.latchMismatch (s : State) : State := { s with integ := { s.integ with safetyBad := true } }

theorem State.latchMismatch_bad (s : State) : s.latchMismatch.integ.safetyBad = true := rfl
theorem State.latchMismatch_pair (s : State) (k : Nat) : s.latchMismatch.pair k = s.pair k := rfl
theorem State.latchMismatch_sameMem (s : State) : sameMem s s.latchMismatch := fun _ => ⟨rfl, rfl, rfl, rfl⟩

theorem State.safetyMismatch_eq {s : State} (inj : Bool) (h : s.integ.safetyBad = false) :
    s.safetyMismatch inj = (s.safetyTwin 0x14 0 inj).stopAll.latchMismatch := by
  unfold State.safetyMismatch
  rw [h]
  rfl

/-- A pair's command path in mismatch stops the pair and latches cause 6. -/
theorem State.pairMismatch_does (s : State) {k : Nat} (inj : Bool) : ((s.pairMismatch k inj).pair k).run = false ∧
    ((s.pairMismatch k inj).rd (Reg.safeCause k)).getLsbD 6 = true ∧ sameMem s (s.pairMismatch k inj) := by
  have hmem := (s.occur_notices (o := ⟨4, Kind.occurrence, 0x14, k, inj⟩) true
    (show Kind.occurrence ≠ Kind.corrected by decide)).alarms.sameMem
  unfold State.pairMismatch
  dsimp only
  generalize s.occur ⟨4, Kind.occurrence, 0x14, k, inj⟩ true = u at hmem ⊢
  obtain ⟨hrun, -, hcause⟩ := u.drivePair_same 6 k
  have hothers : ∀ (l : List Nat) (w : State),
      (l.foldl (fun s i => if i != k && (s.pair i).mask.testBit 6 then s.drivePair 6 i else s) w).pair k = w.pair k ∧
      (l.foldl (fun s i => if i != k && (s.pair i).mask.testBit 6 then s.drivePair 6 i else s) w).rd (Reg.safeCause k) =
        w.rd (Reg.safeCause k) := by
    intro l
    induction l with
    | nil => exact fun w => ⟨rfl, rfl⟩
    | cons i l ih =>
      intro w
      obtain ⟨hpair, hrd⟩ := ih (if i != k && (w.pair i).mask.testBit 6 then w.drivePair 6 i else w)
      rw [List.foldl_cons, hpair, hrd]
      split
      · next h => exact w.drivePair_other 6 (by rintro rfl; simp at h)
      · exact ⟨rfl, rfl⟩
  obtain ⟨hpair, hrd⟩ := hothers [0, 1, 2, 3] (u.drivePair 6 k)
  rw [hpair, hrd, hcause]
  refine ⟨hrun, bit_of_or _ (by decide), hmem.trans ((u.drivePair_alarms 6 k).sameMem.trans ?_)⟩
  exact (State.drives_alarms 6 (fun s i => i != k && (s.pair i).mask.testBit 6) [0, 1, 2, 3] (u.drivePair 6 k)).sameMem

/-- What the Weir's settling leaves of the integrity unit and of the pairs. -/
theorem State.settle_integ (s : State) : s.settle.integ = s.integ ∧ s.settle.pairs = s.pairs ∧ s.settle.live = s.live ∧
    s.settle.clk = s.clk ∧ s.settle.boot = s.boot := by
  obtain ⟨w, c, p, q, h⟩ := s.settle_weir
  rw [h]
  exact ⟨rfl, rfl, rfl, rfl, rfl⟩

theorem State.settle_pair (s : State) (k : Nat) : s.settle.pair k = s.pair k := by
  unfold State.pair
  rw [s.settle_integ.2.1]

theorem State.settle_rd (s : State) (off : Nat) : s.settle.rd off = s.rd off := State.rd_of_live s.settle_integ.2.2.1 off

/-- Settles O28. -/
theorem twinMismatchesAreActedOn : Obligations.TwinMismatchesAreActedOn := by
  intro s k hup harmed
  refine ⟨fun hgood => ?safety, fun hgood => ?clocks, fun hk => ?pair, fun hk => ?sound⟩
  case safety =>
    have hcheck : s.twinCheck .safetySection true = s.safetyMismatch false := by
      unfold State.twinCheck
      dsimp only
      rw [State.inject_of_not_armed (harmed 1)]
      rfl
    refine ⟨_, exec_fabric (fun s => (s.twinCheck .safetySection true).settle) hup (congrArg State.settle hcheck) rfl, ?_⟩
    rw [State.safetyMismatch_eq false hgood]
    have hmem := ((s.safetyTwin_alarms 0x14 0 false).trans (State.stopAll_alarms _)).sameMem
    have hrun := fun (n : Nat) (hn : n < 4) => (s.safetyTwin 0x14 0 false).stopAll_run hn
    generalize (s.safetyTwin 0x14 0 false).stopAll = u at hmem hrun ⊢
    refine ⟨?_, (hmem.trans u.latchMismatch_sameMem).trans (State.settle_weir _).sameMem, fun n hn => ?_⟩
    · rw [u.latchMismatch.settle_integ.1, u.latchMismatch_bad]
    · rw [State.settle_pair, u.latchMismatch_pair]
      exact hrun n hn
  case clocks =>
    have hcheck : s.twinCheck .clocksSection true =
        ({ s with weir := { s.weir with clocksBad := true } } : State).safetyTwin 0x16 0 false := by
      unfold State.twinCheck
      dsimp only
      rw [State.inject_of_not_armed (harmed 2)]
      dsimp only
      rw [hgood]
      rfl
    refine ⟨_, exec_fabric (fun s => (s.twinCheck .clocksSection true).settle) hup (congrArg State.settle hcheck) rfl, ?_⟩
    have halarms := State.safetyTwin_alarms { s with weir := { s.weir with clocksBad := true } } 0x16 0 false
    obtain ⟨-, -, -, -, hweir, -, hpwr⟩ := halarms.stands
    refine ⟨congrArg WeirS.clocksBad hweir, ?_, fun a => halarms.sameMem a⟩
    unfold State.seqFrozen
    rw [hweir]
    rfl
  case pair =>
    have hcheck : s.twinCheck (.pairCommand k) true = s.pairMismatch k false := by
      unfold State.twinCheck
      dsimp only
      rw [if_neg (Nat.not_le_of_lt hk), State.inject_of_not_armed (harmed (3 + k))]
      rfl
    refine ⟨_, exec_fabric (fun s => (s.twinCheck (.pairCommand k) true).settle) hup (congrArg State.settle hcheck) rfl, ?_⟩
    obtain ⟨hrun, hcause, hmem⟩ := s.pairMismatch_does (k := k) false
    rw [State.settle_pair, State.settle_rd]
    exact ⟨hrun, hcause, hmem.trans (State.settle_weir _).sameMem⟩
  case sound =>
    refine exec_fabric (fun s => (s.twinCheck (.pairCommand k) false).settle) hup (congrArg State.settle ?_) rfl
    unfold State.twinCheck
    dsimp only
    rw [if_neg (Nat.not_le_of_lt hk), State.inject_of_not_armed (harmed (3 + k))]
    rfl

end Sys2Proof.Machine
end

section
/-! SUPPORT. Monitors (R665 to R668, R733), injection points (R635 to R638), and the errors that detectors record (R657 to R660,
R706 to R708, R792). -/
namespace Sys2Proof.Machine
open Sys2Proof

/-! Monitors. -/

/-- A clock of a Yes row that is newly out of its limit. -/
theorem State.monitor_clock {s : State} {n : Nat} {x : Int} (hon : s.detOn 7 = true) (harmed : s.injArmed 0x17 0 3 n = false)
    (hgated : s.clk.gated = false) (hnew : s.integ.clkOut.testBit n = false) (hoff : s.clockOff x = true)
    (hyes : yesClocks.contains n = true) : s.monitor false n x false =
      ((((s.noteRow false n true false).occur ⟨7, Kind.occurrence, 0x17, n, false⟩).cause 3).protectiveStop 7).rootLoss := by
  have hmem : n ∈ yesClocks := List.contains_iff_mem.1 hyes
  simp [State.monitor, hon, State.inject_of_not_armed harmed, hgated, hnew, hoff, hmem]

/-- A rail that is newly outside its window. -/
theorem State.monitor_rail {s : State} {n : Nat} {x : Int} (hon : s.detOn 8 = true) (harmed : s.injArmed 0x17 0 4 n = false)
    (hgated : s.clk.gated = false) (hnew : s.integ.railOut.testBit n = false) (hoff : s.railOff n x = true) :
    s.monitor true n x false =
      let u := ((s.noteRow true n true false).occur ⟨8, Kind.occurrence, 0x17, n, false⟩).cause 4
      if yesRails.contains n then u.protectiveStop 8 else u.rowStop (16 + n) := by
  simp [State.monitor, hon, State.inject_of_not_armed harmed, hgated, hnew, hoff]

theorem State.protectiveStop_protective (s : State) (det : Nat) : (s.protectiveStop det).integ.protective = true := rfl

/-- The finding of a row as its monitor reads it. -/
def IntegS.readRow (i : IntegS) (rail : Bool) (n : Nat) (out stopped : Bool) : IntegS :=
  if rail then { i with railOut := putBit i.railOut n out }
  else { i with clkOut := putBit i.clkOut n out, clkStopped := putBit i.clkStopped n stopped }

/-- A row that has come back into range is timed (R667, R668). -/
def State.timeRow (s : State) (row : Nat) : State :=
  { s with integ := { s.integ with cleared := Table.put 0 s.integ.cleared row s.gts, yesOk := if s.yesInRange then s.gts else s.integ.yesOk } }

theorem State.noteRow_eq (s : State) (rail : Bool) (n : Nat) (out stopped : Bool) : s.noteRow rail n out stopped =
    let row := if rail then 16 + n else n
    let u : State := { s with integ := s.integ.readRow rail n out stopped }
    if s.rowOut row && !u.rowOut row then u.timeRow row else u := rfl

theorem IntegS.readRow_protective (i : IntegS) (rail : Bool) (n : Nat) (out stopped : Bool) :
    (i.readRow rail n out stopped).protective = i.protective := by
  cases rail <;> rfl

/-- A reading changes the integrity unit alone, and not the protective stop. -/
theorem State.noteRow_frame (s : State) (rail : Bool) (n : Nat) (out stopped : Bool) :
    ∃ i, s.noteRow rail n out stopped = { s with integ := i } ∧ i.protective = s.integ.protective := by
  have hread := s.integ.readRow_protective rail n out stopped
  rw [State.noteRow_eq]
  generalize s.integ.readRow rail n out stopped = i at hread
  dsimp only
  generalize (if rail = true then 16 + n else n) = row
  split
  · exact ⟨_, rfl, hread⟩
  · exact ⟨_, rfl, hread⟩

/-- The stop of a row that is none of those with blocks of their own. -/
theorem State.rowStop_rail (s : State) (n : Nat) :
    s.rowStop (16 + n) = { s with integ := { s.integ with stopped := s.integ.stopped.erase (16 + n) ++ [16 + n] } } := by
  unfold State.rowStop
  dsimp only
  rw [if_neg (by omega), if_neg (by omega), if_neg (by omega), if_neg (by omega)]

/-- What runs is neither gated, nor shut down, nor in standby. -/
theorem State.up_clocks {s : State} (h : s.up = true) : s.clk.gated = false ∧ s.clk.shutdown = false ∧ s.clk.standby = false := by
  unfold State.up State.clockOn at h
  simp only [Bool.and_eq_true, Bool.not_eq_true'] at h
  obtain ⟨⟨⟨⟨-, hgated⟩, hshut⟩, hstandby⟩, -⟩ := h
  exact ⟨hgated, hshut, hstandby⟩

/-- A finding while the device runs. -/
theorem exec_clockMonFinding {s t : State} {rail : Bool} {n : Nat} {x : Int} (hup : s.up = true) (hn : n < if rail then 6 else 9)
    (ht : s.monitor rail n x false = t) : exec (.clockMonFinding rail n x false) s = .next t.settle := by
  obtain ⟨-, hshut, hstandby⟩ := State.up_clocks hup
  refine exec_always (fun s => (s.monitor rail n x false).settle) ?_ (congrArg State.settle ht) rfl
  rw [hup, hshut, hstandby, decide_eq_true hn]
  rfl

/-- Settles O29. -/
theorem monitorsActOnTheirRows : Obligations.MonitorsActOnTheirRows := by
  intro s n x hup
  obtain ⟨hgated, -, -⟩ := State.up_clocks hup
  refine ⟨fun hn hon harmed hnew hoff => ?clock, fun hn hon harmed hnew hoff => ?yesRail, fun hn hon harmed hnew hoff => ?noRail,
    fun hprot hyes hover => ?ended, fun hn hstop hin hover => ?resumed⟩
  case clock =>
    have hyes : yesClocks.contains n = true := by rcases hn with rfl | rfl | rfl | rfl <;> decide
    refine ⟨_, exec_clockMonFinding hup (by simp; omega) (State.monitor_clock hon harmed hgated hnew hoff hyes), ?_⟩
    generalize ((s.noteRow false n true false).occur ⟨7, Kind.occurrence, 0x17, n, false⟩).cause 3 = u
    have hprot := u.protectiveStop_protective 7
    generalize u.protectiveStop 7 = v at hprot
    obtain ⟨hinteg, -, -, hclk, -⟩ := v.rootLoss.settle_integ
    refine ⟨by rw [hclk]; rfl, by rw [hclk]; rfl, by rw [hclk]; rfl, by rw [hinteg]; exact hprot, State.up_of_clockOn ?_⟩
    unfold State.clockOn
    rw [hclk]
    rfl
  case yesRail =>
    have hyes : yesRails.contains n = true := by rcases hn with rfl | rfl | rfl <;> decide
    refine ⟨_, exec_clockMonFinding hup (by simp; omega) (State.monitor_rail hon harmed hgated hnew hoff), ?_⟩
    dsimp only
    rw [if_pos hyes, (State.settle_integ _).1]
    exact State.protectiveStop_protective _ 8
  case noRail =>
    have hno : yesRails.contains n = false := by rcases hn with rfl | rfl | rfl <;> decide
    obtain ⟨i, hnote, hsame⟩ := s.noteRow_frame true n true false
    refine ⟨_, exec_clockMonFinding hup (by simp; omega) (State.monitor_rail hon harmed hgated hnew hoff), ?_⟩
    dsimp only
    have halarms : OnlyAlarms (s.noteRow true n true false)
        (((s.noteRow true n true false).occur ⟨8, Kind.occurrence, 0x17, n, false⟩).cause 4) :=
      (State.occur_notices _ _ (show Kind.occurrence ≠ Kind.corrected by decide)).alarms.trans (State.cause_alarms _ 4)
    have hinteg := halarms.stands.1
    rw [hno, if_neg Bool.false_ne_true]
    generalize ((s.noteRow true n true false).occur ⟨8, Kind.occurrence, 0x17, n, false⟩).cause 4 = u at hinteg
    rw [(State.settle_integ _).1, State.rowStop_rail]
    refine ⟨List.mem_append_right _ List.mem_cons_self, ?_⟩
    show u.integ.protective = s.integ.protective
    rw [hinteg, hnote]
    exact hsame
  case ended =>
    refine exec_fabric (fun s => s.protectiveEnd.settle) hup (congrArg State.settle (if_pos ?_)) rfl
    rw [hprot, hyes, decide_eq_true hover]
    rfl
  case resumed =>
    have hcontains : s.integ.stopped.contains n = true := List.contains_iff_mem.2 hstop
    refine exec_fabric (·.domainResume n) hup (if_pos ?_) rfl
    rw [hcontains, hin, decide_eq_true hover]
    rfl

/-! Injection points. -/

/-- A state in which one injection point has two entries: behind the one that counts, at stage 1, an unlocked one. -/
def State.pointListedTwice : State := { State.reset with
  clk := { locked := true }, boot := { starting := false },
  integ := { injs := [(injKey 0x17 0, { stage := 1 }), (injKey 0x17 0, { stage := 2 })] } }

/-- Refutes O30: the statement takes any table of injection points, also one with two entries of a point. There the write that ends
a begun unlock sequence removes the first entry, which has become the default, and the unlocked one behind it counts. -/
theorem not_injectionPointsUnlockAndArm : ¬ Obligations.InjectionPointsUnlockAndArm := by
  intro h
  obtain ⟨-, -, -, hother, -⟩ := h State.pointListedTwice 0 0x17 0 1 (by decide +kernel) (by decide)
  obtain ⟨t, hexec, hstage, -⟩ := hother (by decide +kernel) (by decide) (by decide)
  have hunlocked : ∃ u, exec (.injUnlock 0x17 0 1) State.pointListedTwice = .next u ∧ (u.inj 0x17 0).stage = 2 :=
    ⟨_, rfl, by decide +kernel⟩
  obtain ⟨u, hexec', hstage'⟩ := hunlocked
  have htu : t = u := Host.Outcome.next.inj (hexec.symm.trans hexec')
  rw [htu, hstage'] at hstage
  exact absurd hstage (by decide)

/-! Detectors of errors. -/

/-- No injection point is armed. -/
def State.noneArmed (s : State) : Prop := ∀ b < 28, ∀ i < 16, s.rf (injBase b i + 8) F.inj_ARM = 0

theorem State.injArmed_of_noneArmed {s : State} (h : s.noneArmed) {b i : Nat} (hb : b < 28) (hi : i < 16) (site target : Nat) :
    s.injArmed b i site target = false := by
  unfold State.injArmed
  dsimp only
  rw [h b hb i hi]
  rfl

theorem State.inject_of_noneArmed {s : State} (h : s.noneArmed) {b i : Nat} (hb : b < 28) (hi : i < 16) (site target : Nat) :
    s.inject b i site target = (none, s) := State.inject_of_not_armed (State.injArmed_of_noneArmed h hb hi site target)

/-- An armed point's mode register lies in its block, apart from the registers of detectors and pairs. -/
theorem injMode_not_alarm : ∀ b < 28, ∀ i < 16, injBase b i + 8 ∉ safeRegs ∧ injBase b i + 8 ≠ Reg.bootStatus ∧ ∀ d < 0x11, injBase b i + 8 ≠ Reg.detCount d ∧
    injBase b i + 8 ≠ Reg.detLast d := by decide

theorem State.noneArmed.occur {s : State} (h : s.noneArmed) (o : Occ) (t : Bool) (ho : o.det < 0x11) : (s.occur o t).noneArmed := by
  intro b hb i hi
  obtain ⟨-, -, hdet⟩ := injMode_not_alarm b hb i hi
  rw [← h b hb i hi]
  exact congrArg (W32.fld · F.inj_ARM) (State.occur_rd _ _ _ _ (hdet _ ho).1 (hdet _ ho).2)

theorem State.noneArmed.cause {s : State} (h : s.noneArmed) (c : Nat) : (s.cause c).noneArmed := by
  intro b hb i hi
  obtain ⟨hsafe, -, -⟩ := injMode_not_alarm b hb i hi
  rw [← h b hb i hi]
  exact congrArg (W32.fld · F.inj_ARM) (State.cause_rd _ _ _ hsafe)

/-! Parity. -/

theorem State.paritySite_of_noneArmed {s : State} (h : s.noneArmed) {b i : Nat} (hb : b < 28) (hi : i < 16) (site : Nat)
    (regOf : Nat → Nat) : s.paritySite b i site regOf = s := by
  unfold State.paritySite
  dsimp only
  rw [State.inject_of_noneArmed h hb hi]
  split <;> rfl

/-- The sites of register parity that are not armed find nothing. -/
theorem State.paritySites_of_noneArmed {s : State} (h : s.noneArmed) :
    (List.range 16).foldl (fun s c => s.paritySite 8 c 7 fun t => 0x800000 + 0x10000 * c + t % 1024 * 4) s = s := by
  have hlist : ∀ l : List Nat, (∀ c ∈ l, c < 16) →
      l.foldl (fun s c => s.paritySite 8 c 7 fun t => 0x800000 + 0x10000 * c + t % 1024 * 4) s = s := by
    intro l
    induction l with
    | nil => exact fun _ => rfl
    | cons c l ih =>
      intro hl
      rw [List.foldl_cons, State.paritySite_of_noneArmed h (by decide) (hl c List.mem_cons_self)]
      exact ih fun d hd => hl d (List.mem_cons_of_mem _ hd)
  exact hlist _ fun c hc => List.mem_range.1 hc

theorem State.parityScan_of_noneArmed {s : State} {off : Nat} (h : (s.parityFail off false).noneArmed) :
    s.parityScan [off] [] = s.parityFail off false := by
  unfold State.parityScan
  dsimp only [List.foldl_cons, List.foldl_nil]
  rw [State.paritySite_of_noneArmed h (by decide) (by decide), State.paritySites_of_noneArmed h, List.filter_nil, List.append_nil]

/-- A register whose parity has failed is reported once. -/
theorem State.parityFail_again {s : State} {off : Nat} (h : off ∈ s.integ.parBad) : s.parityFail off false = s :=
  if_pos (by rw [List.contains_iff_mem.2 h, Bool.or_true])

/-- A register's parity fails. -/
theorem State.parityFail_new {s : State} {off : Nat} (hconfig : isConfig off = true) (hnew : off ∉ s.integ.parBad)
    (hunit : 9 ≤ off / 0x100000) : s.parityFail off false =
      let u := State.occur { s with integ := { s.integ with parBad := s.integ.parBad ++ [off] } } ⟨3, Kind.occurrence, unitOf off, parIndex off, false⟩
      if u.detOn 3 then u.cause 10 else u := by
  have hcontains : s.integ.parBad.contains off = false := by simpa using hnew
  have hunit' : 9 ≤ unitOf off := hunit
  unfold State.parityFail
  rw [hconfig, hcontains, if_neg (by decide)]
  dsimp only
  rw [if_neg (by omega), if_neg (by omega)]

theorem State.detOn_occur (s : State) (o : Occ) (t : Bool) {d : Nat} (hd : d < 0x11) (ho : o.det < 0x11) : (s.occur o t).detOn d = s.detOn d := by
  have hapart : ∀ d < 0x11, ∀ e < 0x11, Reg.detCtl d ≠ Reg.detCount e ∧ Reg.detCtl d ≠ Reg.detLast e := by decide
  obtain ⟨hcount, hlast⟩ := hapart d hd _ ho
  unfold State.detOn State.rf
  rw [State.occur_rd _ _ _ _ hcount hlast]

/-! Tamper. -/

/-- A sample while the device runs and no point is armed. -/
theorem State.tamperLoop_eq {s : State} (h : s.noneArmed) (loop : Nat) (follows : Bool) : s.tamperLoop loop follows =
    let all := if follows then 0 else Table.get 0 s.integ.tamper loop + 1
    let nat := if follows then 0 else Table.get 0 s.integ.tamper (2 + loop) + 1
    let u : State := { s with integ := { s.integ with tamper := Table.put 0 (Table.put 0 s.integ.tamper loop (min all 3)) (2 + loop) (min nat 3) } }
    if nat = 2 then u.tamperFire loop false else if all = 2 then u.tamperFire loop true else u := by
  unfold State.tamperLoop
  rw [State.inject_of_noneArmed h (by decide) (by decide)]
  cases s.up <;> cases follows <;> rfl

/-- A sample that follows leaves its loop's counts 0. -/
theorem State.tamperLoop_follows {s : State} (h : s.noneArmed) (loop : Nat) : s.tamperLoop loop true =
    { s with integ := { s.integ with tamper := Table.put 0 (Table.put 0 s.integ.tamper loop 0) (2 + loop) 0 } } :=
  State.tamperLoop_eq h loop true

/-- The alarm of a loop. -/
def State.tamperAlarm (s : State) (loop : Nat) : State :=
  ((s.detCount ⟨0x10, Kind.occurrence, 0x17, loop, false⟩).raiseDev (4 + loop) Ev.tamper loop).cause 2

/-- A loop has fired: its alarm, and the keys zeroised and locked. -/
def State.tamperFired (s : State) (loop : Nat) : State :=
  ((s.tamperAlarm loop).wf Reg.bootStatus F.bootStatus_TAMPER 1).wf Reg.bootStatus F.bootStatus_KEY_LOCKED 1

theorem State.tamperAlarm_reports (s : State) (loop : Nat) : OnlyReports s (s.tamperAlarm loop) :=
  ((s.detCount_reports _).trans (.raiseDev ..)).trans (State.cause_reports _ 2)

theorem State.tamperFired_reports (s : State) (loop : Nat) : OnlyReports s (s.tamperFired loop) :=
  (s.tamperAlarm_reports loop).trans ((OnlyRegs.wf ..).trans (.wf ..)).reports

/-- A natural tamper of a device that has started and is not in standby. -/
theorem State.tamperFire_natural {s : State} (loop : Nat) (hstandby : s.clk.standby = false) (hstarting : s.boot.starting = false) :
    s.tamperFire loop false = s.tamperFired loop := by
  have hkeys : s.tamperFire loop false = (s.tamperAlarm loop).tamperKeys := rfl
  rw [hkeys]
  unfold State.tamperKeys State.tamperFired
  obtain ⟨l, e, i, p, heq⟩ := s.tamperAlarm_reports loop
  rw [heq]
  exact (if_neg (by simpa using hstandby)).trans (if_neg (by simpa using hstarting))

theorem State.tamperFired_noneArmed {s : State} (h : s.noneArmed) (loop : Nat) : (s.tamperFired loop).noneArmed := by
  have hcount : ((s.detCount ⟨0x10, Kind.occurrence, 0x17, loop, false⟩).raiseDev (4 + loop) Ev.tamper loop).noneArmed := by
    intro b hb i hi
    obtain ⟨-, -, hdet⟩ := injMode_not_alarm b hb i hi
    rw [← h b hb i hi]
    refine congrArg (W32.fld · F.inj_ARM) ?_
    rw [State.raiseDev_rd]
    exact State.detCount_rd _ _ _ (hdet 0x10 (by decide)).1 (hdet 0x10 (by decide)).2
  intro b hb i hi
  obtain ⟨-, hboot, -⟩ := injMode_not_alarm b hb i hi
  rw [← hcount.cause 2 b hb i hi]
  exact (State.rf_wf_ne _ _ _ _ hboot).trans (State.rf_wf_ne _ _ _ _ hboot)

theorem State.tamperFired_tamper (s : State) (loop : Nat) : (s.tamperFired loop).rf Reg.bootStatus F.bootStatus_TAMPER = 1 :=
  (State.rf_wf_apart _ _ _ _ _ (by decide) (by decide)).trans (State.rf_wf_same _ _ _ _ (by decide) (by decide))

theorem State.tamperFired_keyLocked (s : State) (loop : Nat) : (s.tamperFired loop).rf Reg.bootStatus F.bootStatus_KEY_LOCKED = 1 :=
  State.rf_wf_same _ _ _ _ (by decide) (by decide)

theorem State.tamperFired_latches (s : State) (loop : Nat) {k : Nat} (hk : k < 4) (hmask : (s.pair k).mask.testBit 2 = true) :
    ((s.tamperFired loop).rd (Reg.safeCause k)).getLsbD 2 = true := by
  have hne : Reg.safeCause k ≠ Reg.bootStatus := by
    unfold Reg.safeCause Reg.bootStatus
    omega
  have hpair : ((s.detCount ⟨0x10, Kind.occurrence, 0x17, loop, false⟩).raiseDev (4 + loop) Ev.tamper loop).pair k = s.pair k := by
    obtain ⟨l, hcount⟩ := s.detCount_regs (o := ⟨0x10, Kind.occurrence, 0x17, loop, false⟩) (show Kind.occurrence ≠ Kind.corrected by decide)
    rw [hcount]
    rfl
  unfold State.tamperFired
  rw [State.rd_wf_ne _ _ _ hne, State.rd_wf_ne _ _ _ hne]
  exact (State.cause_latches _ (by decide) hk (by rw [hpair]; exact hmask)).1

/-- Settles O31. -/
theorem errorsAreDetected : Obligations.ErrorsAreDetected := by
  intro s off hup hnone
  have harmed : s.noneArmed := hnone
  obtain ⟨-, -, hstandby⟩ := State.up_clocks hup
  refine ⟨fun hconfig hnew hunit hon => ?parity, fun hbad => ?again, fun hall hnat hstarting => ?tamper, fun htamper => ?sound, ?tlp, ?soundTlp⟩
  case parity =>
    have hfail := State.parityFail_new hconfig hnew hunit
    have hlisted : State.noneArmed { s with integ := { s.integ with parBad := s.integ.parBad ++ [off] } } := harmed
    have hmem : sameMem s { s with integ := { s.integ with parBad := s.integ.parBad ++ [off] } } := fun _ => ⟨rfl, rfl, rfl, rfl⟩
    have hpairs : ∀ k, State.pair { s with integ := { s.integ with parBad := s.integ.parBad ++ [off] } } k = s.pair k := fun _ => rfl
    have hlist : State.integ { s with integ := { s.integ with parBad := s.integ.parBad ++ [off] } } =
      { s.integ with parBad := s.integ.parBad ++ [off] } := rfl
    have hdet : State.detOn { s with integ := { s.integ with parBad := s.integ.parBad ++ [off] } } 3 = true := hon
    generalize ({ s with integ := { s.integ with parBad := s.integ.parBad ++ [off] } } : State) = w at *
    have hnotices : OnlyNotices w (w.occur ⟨3, Kind.occurrence, unitOf off, parIndex off, false⟩) :=
      w.occur_notices _ (show Kind.occurrence ≠ Kind.corrected by decide)
    have hlast := w.occur_detLast (o := ⟨3, Kind.occurrence, unitOf off, parIndex off, false⟩) false (.inl hdet)
    have hquiet := hlisted.occur ⟨3, Kind.occurrence, unitOf off, parIndex off, false⟩ false (show 3 < 0x11 by decide)
    have hon' : (w.occur ⟨3, Kind.occurrence, unitOf off, parIndex off, false⟩).detOn 3 = true :=
      (w.detOn_occur _ _ (by decide) (show 3 < 0x11 by decide)).trans hdet
    dsimp only at hfail
    generalize w.occur ⟨3, Kind.occurrence, unitOf off, parIndex off, false⟩ = u at *
    rw [if_pos hon'] at hfail
    have hscan : s.parityScan [off] [] = u.cause 10 := by
      rw [State.parityScan_of_noneArmed (by rw [hfail]; exact hquiet.cause 10), hfail]
    refine ⟨u.cause 10, exec_fabric (fun s => (s.parityScan [off] []).settle) hup (congrArg State.settle hscan) rfl, ?_, ?_, ?_, fun k hk hmask => ?_⟩
    · rw [(State.cause_alarms u 10).stands.1, hnotices.alarms.stands.1, hlist]
    · rw [← hlast]
      exact congrArg BitVec.toNat (State.cause_rd _ _ _ (show Reg.detLast 3 ∉ safeRegs by decide))
    · exact (hmem.trans hnotices.alarms.sameMem).trans (State.cause_alarms u 10).sameMem
    · exact (u.cause_latches (by decide) hk (by rw [hnotices.pair, hpairs]; exact hmask)).1
  case again =>
    have hsame := State.parityFail_again hbad
    refine exec_fabric (fun s => (s.parityScan [off] []).settle) hup (congrArg State.settle ?_) rfl
    rw [State.parityScan_of_noneArmed (by rw [hsame]; exact harmed), hsame]
  case tamper =>
    have hloop := State.tamperLoop_eq harmed 0 false
    rw [if_neg Bool.false_ne_true, if_neg Bool.false_ne_true, hall, hnat] at hloop
    dsimp only at hloop
    rw [if_pos rfl] at hloop
    have hquiet : State.noneArmed { s with integ := { s.integ with tamper := Table.put 0 (Table.put 0 s.integ.tamper 0 (min (1 + 1) 3)) (2 + 0) (min (1 + 1) 3) } } := harmed
    have hmem : sameMem s { s with integ := { s.integ with tamper := Table.put 0 (Table.put 0 s.integ.tamper 0 (min (1 + 1) 3)) (2 + 0) (min (1 + 1) 3) } } :=
      fun _ => ⟨rfl, rfl, rfl, rfl⟩
    have hpairs : ∀ k, State.pair { s with integ := { s.integ with tamper := Table.put 0 (Table.put 0 s.integ.tamper 0 (min (1 + 1) 3)) (2 + 0) (min (1 + 1) 3) } } k = s.pair k :=
      fun _ => rfl
    rw [State.tamperFire_natural 0 (by exact hstandby) (by exact hstarting)] at hloop
    generalize ({ s with integ := { s.integ with tamper := Table.put 0 (Table.put 0 s.integ.tamper 0 (min (1 + 1) 3)) (2 + 0) (min (1 + 1) 3) } } : State) = w at *
    have hfired := State.tamperFired_noneArmed hquiet 0
    refine ⟨_, rfl, ?_⟩
    dsimp only
    rw [hloop, State.tamperLoop_follows hfired]
    refine ⟨State.tamperFired_tamper w 0, State.tamperFired_keyLocked w 0, hmem.trans (w.tamperFired_reports 0).sameMem, fun k hk hmask => ?_⟩
    exact w.tamperFired_latches 0 hk (by rw [hpairs]; exact hmask)
  case sound =>
    refine ⟨_, rfl, ?_⟩
    dsimp only
    have hempty : ∀ loop, s.tamperLoop loop true = s := fun loop => by
      rw [State.tamperLoop_follows harmed, htamper]
      exact congrArg (fun l => { s with integ := { s.integ with tamper := l } }) htamper.symm
    rw [hempty 0, hempty 1]
  case tlp =>
    have htlp : s.tlp 2 = s.occur ⟨6, Kind.uncorrectable, 0x11, 0, false⟩ := by
      unfold State.tlp
      rw [State.inject_of_noneArmed harmed (by decide) (by decide)]
      dsimp only
      rw [State.inject_of_noneArmed harmed (by decide) (by decide)]
      rfl
    exact ⟨_, exec_fabric (·.tlp 2) hup htlp rfl, s.occur_detLast false (.inr rfl), (s.occur_reports _ _).sameMem⟩
  case soundTlp =>
    refine exec_fabric (·.tlp 0) hup ?_ rfl
    unfold State.tlp
    rw [State.inject_of_noneArmed harmed (by decide) (by decide)]
    dsimp only
    rw [State.inject_of_noneArmed harmed (by decide) (by decide)]
    rfl

end Sys2Proof.Machine
end

section
/-! SUPPORT. Run-time claims (R136, R137), strobe group triggers (R139, R140), and invalidated and pinned translations
(R466, R472). -/
namespace Sys2Proof.Machine
open Sys2Proof

theorem guarded_of_true {c : Bool} (f : State → State) (s : State) (h : c = true) : guarded c f s = f s := by
  rw [h]
  rfl

/-! Run-time claims. -/

/-- A state in which only the claim of one unit has changed, besides registers and comparators. -/
def Reclaimed (s : State) (cls u o : Nat) (t : State) : Prop :=
  t.claimOf cls u = o ∧ ∀ k, k ≠ cls * 1024 + u → Table.get 0 t.claims k = Table.get 0 s.claims k

theorem setClaim_reclaimed (s : State) (cls u o : Nat) : Reclaimed s cls u o (s.setClaim cls u o) :=
  ⟨Table.get_put_same .., fun _ hk => Table.get_put_ne _ _ _ _ hk⟩

theorem Reclaimed.of_claims {s t t' : State} {cls u o : Nat} (h : Reclaimed s cls u o t) (hc : t'.claims = t.claims) :
    Reclaimed s cls u o t' := by
  unfold Reclaimed State.claimOf at h ⊢
  rwa [hc]

theorem disarm_claims (s : State) (cls n : Nat) : (s.disarm cls n).claims = s.claims := by
  unfold State.disarm
  split <;> rfl

theorem dropClaim_reclaimed (s : State) (cls u : Nat) : Reclaimed s cls u 0 (s.dropClaim cls u) := by
  refine (setClaim_reclaimed s cls u 0).of_claims ?_
  unfold State.dropClaim
  dsimp only
  split
  · rfl
  · split
    · exact disarm_claims ..
    · rfl

/-- What a request of run-time claims answers and leaves, besides PARTERRE_CLAIM_RESULT. -/
theorem claimReq_result {s t : State} {v : W32} {r o : Nat}
    (hrun : s.claimRun (v.fld F.parterreClaimReq_OP) (v.fld F.parterreClaimReq_RES_CLASS)
      (v.fld F.parterreClaimReq_RES_NUMBER) (v.fld F.parterreClaimReq_CLAIMANT) = (r, t)) (hr : r < 4)
    (ht : Reclaimed s (v.fld F.parterreClaimReq_RES_CLASS) (v.fld F.parterreClaimReq_RES_NUMBER) o t) :
    Reclaimed s (v.fld F.parterreClaimReq_RES_CLASS) (v.fld F.parterreClaimReq_RES_NUMBER) o (s.claimReq v) ∧
      (s.claimReq v).rf Reg.parterreClaimResult F.parterreClaimResult_RESULT = r := by
  unfold State.claimReq
  dsimp only
  rw [hrun]
  refine ⟨ht.of_claims rfl, ?_⟩
  dsimp only
  rw [State.rf_wf_apart _ _ _ _ _ (by decide) (by decide), State.rf_wf_apart _ _ _ _ _ (by decide) (by decide),
    State.rf_wf_apart _ _ _ _ _ (by decide) (by decide), State.rf_wf_same _ _ _ _ (by decide) (by decide)]
  exact Nat.mod_eq_of_lt hr

/-- Settles O8: the claim table changes at the unit's own key, and RESULT stands apart from the fields that echo the request. -/
theorem claimsAreGrantedAndReleased : Obligations.ClaimsAreGrantedAndReleased := by
  unfold Obligations.ClaimsAreGrantedAndReleased
  intro s v cls u o idle others hup hidle hunit hfree
  have hst : ¬ (s.rf Reg.parterreStatus F.parterreStatus_STATE = 1 ∨ s.rf Reg.parterreStatus F.parterreStatus_STATE = 2) := by
    rintro (h | h)
    · exact hidle.1 h
    · exact hidle.2 h
  refine ⟨fun hop hexists hun => ?_, fun hop hheld ho => ?_⟩
  · have hrun : s.claimRun (v.fld F.parterreClaimReq_OP) cls u o = (0, s.setClaim cls u o) := by
      have hbound : ¬ (cls = Cls.strobeGroup ∧ s.strobeOf u = none) := fun h => hexists h.1 h.2
      simp [State.claimRun, hst, hunit, hop, hbound, hfree, hun]
    obtain ⟨hclaim, hres⟩ := claimReq_result hrun (by decide) (setClaim_reclaimed s cls u o)
    exact ⟨_, exec_fabric (guarded _ (·.claimReq v)) hup (guarded_of_true _ s (by simp [hop])) rfl, hclaim.1, hres, hclaim.2⟩
  · have hrun : s.claimRun (v.fld F.parterreClaimReq_OP) cls u o = (0, s.dropClaim cls u) := by
      simp [State.claimRun, hst, hunit, hop, hfree, hheld, ho]
    obtain ⟨hclaim, hres⟩ := claimReq_result hrun (by decide) (dropClaim_reclaimed s cls u)
    exact ⟨_, exec_fabric (guarded _ (·.claimReq v)) hup (guarded_of_true _ s (by simp [hop])) rfl, hclaim.1, hres, hclaim.2⟩

/-! Strobe group triggers. -/

/-- A comparator that the claimant of a write holds. -/
theorem claimUnit_comparator {cls c : Nat} (hcls : cls = Cls.timeComp ∨ cls = Cls.phaseComp) (hc : c ≤ 63) :
    claimUnit cls c = true := by
  rcases hcls with rfl | rfl <;> simp [claimUnit, Cls.strobeGroup, Cls.timeComp, Cls.phaseComp, hc]

/-- Settles O9: with the group held and open, the write is refused only for a comparator that the claimant does not hold. -/
theorem strobeGroupsTakeTheirTrigger : Obligations.StrobeGroupsTakeTheirTrigger := by
  unfold Obligations.StrobeGroupsTakeTheirTrigger
  intro s tag g v e o t c hup hlo hhi hentry hopen ho hheld
  have hguard : (decide (1 ≤ g) && decide (g ≤ 15)) = true := by simp [hlo, hhi]
  refine ⟨fun hcomp => ?_, fun ht hother => ?_⟩ <;>
    refine exec_fabric (guarded _ (·.strobeCfg tag g v)) hup ((guarded_of_true _ s hguard).trans ?_) rfl
  · have htime : t = 1 → claimUnit Cls.timeComp c = true ∧ s.claimOf Cls.timeComp c = o := fun h =>
      ⟨claimUnit_comparator (.inl rfl) (hcomp.1 h).1, (hcomp.1 h).2⟩
    have hphase : t = 2 → claimUnit Cls.phaseComp c = true ∧ s.claimOf Cls.phaseComp c = o := fun h =>
      ⟨claimUnit_comparator (.inr rfl) (hcomp.2 h).1, (hcomp.2 h).2⟩
    simp only [State.strobeCfg, hentry]
    rw [if_neg (by simp [hopen, ho, hheld, o]), if_neg]
    simp only [Bool.or_eq_true, Bool.and_eq_true, beq_iff_eq, Bool.not_eq_true', not_or, not_and, Bool.not_eq_false]
    exact ⟨fun h => htime h, fun h => hphase h⟩
  · simp only [State.strobeCfg, hentry]
    rw [if_neg (by simp [hopen, ho, hheld, o]), if_pos]
    have ht' : v.fld F.parterreStrobeCfg_TRIGGER = 1 := ht
    simp [ht', show ¬ s.claimOf Cls.timeComp (v.fld F.parterreStrobeCfg_COMPARATOR) = v.fld F.parterreStrobeCfg_CLAIMANT from hother]

/-! Invalidated and pinned translations. -/

theorem Table.mem_clear {α : Type} {t : Table α} {p n : Nat} {e : Nat × α} (h : e ∈ Table.clear t p n) : e.1 < p ∨ p + n ≤ e.1 := by
  simpa [Table.clear, or_iff_not_imp_left] using (List.mem_filter.1 h).2

/-- What an invalidation leaves of the shared cache. -/
theorem invApply_cache {s : State} {p n : Nat} (h : s.weir.invPending = some (p, n)) :
    ∀ e ∈ s.invApply.weir.cache, s.weir.invAll = false ∧ (e.1 < p ∨ p + n ≤ e.1) := by
  intro e he
  cases hall : s.weir.invAll with
  | true => simp [State.invApply, hall] at he
  | false => exact ⟨rfl, Table.mem_clear (by simpa [State.invApply, hall, h] using he)⟩

theorem invApply_of_none {s : State} (h : s.weir.invPending = none) (hall : s.weir.invAll = false) :
    s.invApply.weir.cache = s.weir.cache := by
  simp [State.invApply, h, hall]

theorem xlateInv_frame (s : State) (tag : Nat) (v : W32) : (s.xlateInv tag v).rf Reg.weirXlateInv F.weirXlateInv_DONE = 0 ∧
    (s.xlateInv tag v).weir.locked = s.weir.locked ∧ (s.xlateInv tag v).weir.cache = s.invApply.weir.cache ∧
    sameMem s (s.xlateInv tag v) := by
  obtain ⟨l, g, j, b, hw⟩ := State.writeReg_write s.invApply tag Reg.weirXlateInv v
  unfold State.xlateInv
  rw [hw]
  exact ⟨State.rf_wf_same _ _ _ _ (by decide) (by decide), rfl, rfl, fun _ => ⟨rfl, rfl, rfl, rfl⟩⟩

/-- UNPIN of an object. -/
theorem pinWrite_unpin {s : State} {tag : Nat} {v : W32} (hop : v.fld F.weirPin_OP = 2) :
    (s.pinWrite tag v).weir.locked = s.weir.locked.filter fun e => e.1 != v.fld F.weirPin_HANDLE := by
  obtain ⟨l, g, j, b, hw⟩ := State.writeReg_write s tag Reg.weirPin v
  simp [State.pinWrite, hop, hw, State.unpin]

/-- PIN of an object whose pages translate and find room. -/
theorem pin_of_walked {s : State} {h : Nat} {l : List (Nat × Nat)} (hok : (s.readHandle h).ok = true)
    (hpin : (s.readHandle h).pinned = true)
    (hroom : (s.weir.locked.filter fun e => e.1 != h).length + (s.readHandle h).vpages.length ≤ 4096)
    (hwalk : (s.charge Who.walker (3 * (s.readHandle h).vpages.length)).walkAll (s.readHandle h).vpages = some l) :
    (s.pin h).1 = 0 ∧ ∀ e ∈ l, (h, e) ∈ (s.pin h).2.weir.locked := by
  have hfits : ¬ lockRoom < (s.weir.locked.filter fun e => e.1 != h).length + (s.readHandle h).vpages.length := Nat.not_lt.2 hroom
  simp only [State.pin, hok, hpin, Bool.not_true, Bool.or_self, Bool.false_eq_true, if_false, hfits, hwalk, true_and]
  exact fun e he => List.mem_append_right _ (List.mem_map.2 ⟨e, he, rfl⟩)

/-- Settles O10: the invalidation clears the cache by page number and never names the locked store; PIN and UNPIN change it for
their object. -/
theorem translationsAreInvalidatedAndUnpinned : Obligations.TranslationsAreInvalidatedAndUnpinned := by
  unfold Obligations.TranslationsAreInvalidatedAndUnpinned
  intro s tag v hup
  refine ⟨?_, fun p n hpending => ?_, fun hnone => ?_, fun hop => ?_, fun hop => ?_⟩
  · obtain ⟨hdone, hlocked, hcache, hmem⟩ := xlateInv_frame s tag v
    exact ⟨_, exec_fabric (·.xlateInv tag v) hup rfl rfl, hdone, rfl, rfl, hlocked,
      fun hnone hall => hcache.trans (invApply_of_none hnone hall), hmem⟩
  · have hrun : s.xlateInvDone = s.invApply.wf Reg.weirXlateInv F.weirXlateInv_DONE 1 := by simp [State.xlateInvDone, hpending]
    exact ⟨_, exec_fabric State.xlateInvDone hup hrun rfl, State.rf_wf_same _ _ _ _ (by decide) (by decide), rfl, invApply_cache hpending, rfl,
      fun _ => ⟨rfl, rfl, rfl, rfl⟩⟩
  · exact exec_fabric State.xlateInvDone hup (by simp [State.xlateInvDone, hnone]) rfl
  · exact ⟨_, exec_fabric (guarded _ (·.pinWrite tag v)) hup (guarded_of_true _ s (by simp [hop])) rfl, pinWrite_unpin hop⟩
  · intro u x w l hok hpin hroom hwalk
    obtain ⟨hres, hmem⟩ := pin_of_walked hok hpin hroom hwalk
    refine ⟨_, exec_fabric (guarded _ (·.pinWrite tag v)) hup (guarded_of_true _ s (by simp [hop])) rfl, ?_⟩
    simp only [State.pinWrite, hop, if_true]
    exact ⟨by rw [hres]; exact State.rf_wf_same _ _ _ _ (by decide) (by decide), hmem⟩

end Sys2Proof.Machine
end

section
/-! SUPPORT. Doorbells, the intake and cancels (R453, R480 to R489). -/
namespace Sys2Proof.Machine
open Sys2Proof

/-! Queues. -/

@[simp] theorem State.queue_setQueue_same (s : State) (slot q : Nat) (x : Queue) : (s.setQueue slot q x).queue slot q = x := by
  simp [State.queue, State.setQueue]

theorem State.queue_setQueue_ne (s : State) {slot q k n : Nat} (x : Queue) (h : k ≠ slot ∨ n ≠ q) :
    (s.setQueue slot q x).queue k n = s.queue k n := by
  by_cases hk : k = slot
  · subst hk
    have hn : n ≠ q := h.resolve_left fun h => h rfl
    simp [State.queue, State.setQueue, Table.get_put_ne _ _ _ _ hn]
  · simp [State.queue, State.setQueue, State.ctx_setCtx_ne _ _ hk]

theorem State.queue_of_ctxs {s t : State} (h : t.ctxs = s.ctxs) (slot q : Nat) : t.queue slot q = s.queue slot q := by
  unfold State.queue State.ctx
  rw [h]

/-- A state in which only one queue may have changed. -/
def OnlyQueue (s : State) (slot q : Nat) (t : State) : Prop :=
  (∀ k n, (k ≠ slot ∨ n ≠ q) → t.queue k n = s.queue k n) ∧ ∃ z, t = { s with ctxs := z }

theorem OnlyQueue.refl (s : State) (slot q : Nat) : OnlyQueue s slot q s := ⟨fun _ _ _ => rfl, _, rfl⟩

theorem OnlyQueue.setQueue {s t : State} {slot q : Nat} (h : OnlyQueue s slot q t) (x : Queue) :
    OnlyQueue s slot q (t.setQueue slot q x) := by
  obtain ⟨hother, z, rfl⟩ := h
  exact ⟨fun k n hkn => (State.queue_setQueue_ne _ x hkn).trans (hother k n hkn), _, rfl⟩

/-! Doorbells. -/

theorem Queue.settle_pointers (x : Queue) : x.settle.head = x.head ∧ x.settle.headC = x.headC ∧ x.settle.tail = x.tail :=
  ⟨rfl, rfl, rfl⟩

theorem Queue.latch_pointers (x : Queue) (tail : Nat) : (x.latch tail).head = x.head ∧ (x.latch tail).tail = tail % 65536 := by
  unfold Queue.latch
  split <;> exact ⟨rfl, rfl⟩

/-- The latch of a tail below 65,536. -/
theorem Queue.latch_of_lt {x : Queue} {tail : Nat} (h : tail < 65536) : x.latch tail =
    let y : Queue := { x with tail := tail, tailC := 65535 - tail }
    if x.doorbells.length < 256 then { y with doorbells := x.doorbells ++ [tail] }
    else { y with doorbells := x.doorbells.dropLast ++ [tail], coalesced := true } := by
  simp [Queue.latch, Queue.setTail, Nat.mod_eq_of_lt h]

section
variable {s : State} {slot q : Nat} {v : W32}

theorem usePointers_good (hclear : s.injArmed 2 0 3 (slot * 256 + q) = false) (hok : (s.queue slot q).twinOk = true) :
    s.usePointers slot q = (true, s.setQueue slot q (s.queue slot q)) := by
  simp [State.usePointers, State.inject_of_not_armed hclear, hok]

theorem usePointers_bad (hclear : s.injArmed 2 0 3 (slot * 256 + q) = false) (hbad : (s.queue slot q).twinOk = false) :
    s.usePointers slot q = (false, (s.setQueue slot q (s.queue slot q)).pointerTwin slot q false) := by
  simp [State.usePointers, State.inject_of_not_armed hclear, hbad]

theorem ringDoorbell_of_good (hagree : twinTail v = true) (hrun : (s.queue slot q).stopped = false)
    (hclear : s.injArmed 2 0 3 (slot * 256 + q) = false) (hok : (s.queue slot q).twinOk = true) :
    s.ringDoorbell slot q v =
      let x := s.queue slot q
      (s.setQueue slot q x).setQueue slot q
        (if 2 ^ x.log2 < (v.toNat % 65536 + 65536 - x.head) % 65536 then { x with twinBad := true }
          else (x.latch (v.toNat % 65536)).settle) := by
  simp only [State.ringDoorbell, hagree, hrun, usePointers_good hclear hok, State.queue_setQueue_same, Bool.not_true,
    Bool.false_eq_true, if_false]
  split <;> rfl

theorem ringDoorbell_of_bad (hagree : twinTail v = true) (hrun : (s.queue slot q).stopped = false)
    (hclear : s.injArmed 2 0 3 (slot * 256 + q) = false) (hbad : (s.queue slot q).twinOk = false) :
    s.ringDoorbell slot q v = (s.setQueue slot q (s.queue slot q)).pointerTwin slot q false := by
  simp [State.ringDoorbell, hagree, hrun, usePointers_bad hclear hbad]

theorem ringDoorbell_of_stopped (hagree : twinTail v = true) (hstop : (s.queue slot q).stopped = true) :
    s.ringDoorbell slot q v = s := by
  simp [State.ringDoorbell, hagree, hstop]

theorem ringDoorbell_of_disagree (hbad : twinTail v = false) : s.ringDoorbell slot q v = s.dbTwinBad slot q := by
  simp [State.ringDoorbell, hbad]

end

/-- A queue pointer that fails its twin check stops its queue and reports, no more. -/
theorem pointerTwin_frame (s : State) (slot q : Nat) (inj : Bool) :
    (s.pointerTwin slot q inj).queue slot q = { s.queue slot q with stopped := true } ∧
      (s.pointerTwin slot q inj).weir = s.weir ∧ sameMem s (s.pointerTwin slot q inj) := by
  unfold State.pointerTwin
  dsimp only
  obtain ⟨l, e, i, p, h⟩ := State.occur_reports (s.setQueue slot q { s.queue slot q with stopped := true })
    ⟨4, Kind.occurrence, 2, slot, inj⟩ false
  rw [h]
  exact ⟨State.queue_setQueue_same .., rfl, fun _ => ⟨rfl, rfl, rfl, rfl⟩⟩

theorem dbTwinBad_frame (s : State) (slot q : Nat) : (s.dbTwinBad slot q).queue slot q = { s.queue slot q with twinBad := true } ∧
    (s.dbTwinBad slot q).events = s.events ∧ (s.dbTwinBad slot q).weir = s.weir ∧ sameMem s (s.dbTwinBad slot q) := by
  unfold State.dbTwinBad
  obtain ⟨l, h⟩ := State.detCount_regs (s.setQueue slot q { s.queue slot q with twinBad := true })
    (o := ⟨4, Kind.occurrence, 2, slot, false⟩) (show Kind.occurrence ≠ Kind.corrected by decide)
  rw [h]
  exact ⟨State.queue_setQueue_same .., rfl, rfl, fun _ => ⟨rfl, rfl, rfl, rfl⟩⟩

/-- Settles O5: the native pages and LSQ_TAIL run one doorbell, which takes five ways. -/
theorem doorbellsLatchTheirTail : Obligations.DoorbellsLatchTheirTail := by
  unfold Obligations.DoorbellsLatchTheirTail
  intro s page v hup tail agree rung
  have hlt : tail < 65536 := Nat.mod_lt _ (by decide)
  have hagree : agree → twinTail v = true := fun h => beq_iff_eq.2 h
  have key : ∀ c slot q, exec c s = .next (s.ringDoorbell slot q v) → rung c slot q := by
    intro c slot q hexec
    refine ⟨fun ha hrun hclear hok => ⟨fun hfit => ?_, fun hout => ?_⟩, fun ha hrun hclear hbad => ?_, fun ha hstop => ?_,
      fun hna => ?_⟩
    · rw [ringDoorbell_of_good (hagree ha) hrun hclear hok] at hexec
      dsimp only at hexec
      rw [if_neg (Nat.not_lt.2 hfit), Queue.latch_of_lt hlt] at hexec
      refine ⟨_, hexec, State.queue_setQueue_same .., ?_, ?_, ((OnlyQueue.refl s slot q).setQueue _).setQueue _⟩
      · rw [State.queue_setQueue_same, ← Queue.latch_of_lt hlt, (Queue.settle_pointers _).2.2, (Queue.latch_pointers ..).2]
        exact Nat.mod_eq_of_lt hlt
      · rw [State.queue_setQueue_same, ← Queue.latch_of_lt hlt, (Queue.settle_pointers _).1, (Queue.latch_pointers ..).1]
    · rw [ringDoorbell_of_good (hagree ha) hrun hclear hok] at hexec
      dsimp only at hexec
      rw [if_pos hout] at hexec
      exact ⟨_, hexec, State.queue_setQueue_same .., ((OnlyQueue.refl s slot q).setQueue _).setQueue _⟩
    · obtain ⟨hqueue, hweir, hmem⟩ := pointerTwin_frame (s.setQueue slot q (s.queue slot q)) slot q false
      rw [State.queue_setQueue_same] at hqueue
      rw [ringDoorbell_of_bad (hagree ha) hrun hclear hbad] at hexec
      exact ⟨_, hexec, hqueue, hweir, hmem⟩
    · rwa [ringDoorbell_of_stopped (hagree ha) hstop] at hexec
    · rw [ringDoorbell_of_disagree (beq_eq_false_iff_ne.2 hna)] at hexec
      exact ⟨_, hexec, dbTwinBad_frame s slot q⟩
  refine ⟨fun hnative hopen => key _ _ _ ?_, fun hprofile hopen => key _ _ _ ?_, fun hclosed => ?_⟩
  · exact exec_fabric (guarded _ (·.ringDoorbell (page / 8) (page % 8) v)) hup (guarded_of_true _ s (by simp [hnative, hopen])) rfl
  · exact exec_fabric (guarded _ (·.ringDoorbell 0 0 v)) hup (guarded_of_true _ s (by simp [hprofile, hopen])) rfl
  · exact exec_fabric (guarded (!s.legacy && s.pageOpen (page / 8) (page % 8)) (·.ringDoorbell (page / 8) (page % 8) v)) hup
      (by rw [hclosed, Bool.and_false]; rfl) rfl

/-! The intake. -/

/-- The contexts and the intake stand. -/
def KeepsIntake (s t : State) : Prop := t.ctxs = s.ctxs ∧ t.weir.intake = s.weir.intake

theorem DramAccess.keepsIntake {s t : State} (h : DramAccess s t) : KeepsIntake s t := by
  obtain ⟨⟨_, _, _, _, _, _, _, _, rfl⟩, _⟩ := h
  exact ⟨rfl, rfl⟩

theorem handleList_keepsIntake (s : State) (d : Desc) : KeepsIntake s (s.handleList d).2.2 := by
  have hread := (s.vread_access Who.fwp3 d.listVa (4 * d.handleCount)).keepsIntake
  unfold State.handleList
  split
  · exact ⟨rfl, rfl⟩
  · generalize s.vread Who.fwp3 d.listVa (4 * d.handleCount) = r at hread
    obtain ⟨o, t⟩ := r
    cases o with
    | none => exact hread
    | some b => exact hread

/-- What taking a descriptor of a queue leaves. -/
theorem takeIn_spec (s : State) (slot q : Nat) (b : List Byte) :
    let x := s.queue slot q
    let t := s.takeIn slot q b
    (t.queue slot q).head = (x.head + 1) % 65536 ∧ (t.queue slot q).headC = 65535 - (x.head + 1) % 65536 ∧
      (t.queue slot q).tail = x.tail ∧ (t.ctx slot).cplHeld = (s.ctx slot).cplHeld + 2 ∧
      ∃ i : Intake, t.weir.intake = s.weir.intake ++ [i] ∧ i.slot = slot ∧ i.queue = q ∧ i.ringCount = x.head ∧
        i.desc = s.profileDesc (Desc.parse b) ∧ i.cancelled = false := by
  obtain ⟨hctxs, hintake⟩ := handleList_keepsIntake s (s.profileDesc (Desc.parse b))
  have hctx : (s.handleList (s.profileDesc (Desc.parse b))).2.2.ctx slot = s.ctx slot := by
    unfold State.ctx
    rw [hctxs]
  intro x t
  have hheld : (t.ctx slot).cplHeld = (s.ctx slot).cplHeld + 2 := by
    rw [← hctx]
    simp only [t, State.takeIn, State.ctx_setCtx_same, State.setQueue]
    rfl
  have hqueue : t.queue slot q = (x.setHead (x.head + 1)).settle := by
    simp [t, State.takeIn, State.queue, State.setQueue, x]
  rw [hqueue]
  exact ⟨rfl, rfl, rfl, hheld, _, congrArg (· ++ [_]) hintake, rfl, rfl, rfl, rfl, rfl⟩

/-- Settles O6: a queue whose pointers pass their check gives its next descriptor to the intake. -/
theorem descriptorsEnterTheIntake : Obligations.DescriptorsEnterTheIntake := by
  unfold Obligations.DescriptorsEnterTheIntake
  intro s u k b bad hup slot q x
  refine ⟨fun hserves hfw hroom hqueued hnext hclear hok hread => ?_, fun hnone => ?_⟩
  · obtain ⟨hctxs, hintake⟩ := (show DramAccess (s.setQueue slot q x) u by
      simpa [hread] using (s.setQueue slot q x).vread_access Who.fwp3 x.nextVa 128).keepsIntake
    have hqueue : u.queue slot q = x := (State.queue_of_ctxs hctxs slot q).trans (State.queue_setQueue_same ..)
    have hheld : (u.ctx slot).cplHeld = (s.ctx slot).cplHeld := by
      unfold State.ctx
      rw [hctxs]
      simp [State.setQueue, State.setCtx, Table.get_put_same, State.ctx]
    have hrun : s.takeDescriptor = u.takeIn slot q b := by
      have hgo : ¬ ((!s.fwUp 3) = true ∨ 64 ≤ s.weir.intake.length ∨ 65536 ≤ s.queuedCount) := by simp [hfw, hroom, hqueued]
      simp only [State.takeDescriptor, if_neg hgo, hnext]
      rw [usePointers_good hclear hok]
      dsimp only
      rw [State.queue_setQueue_same, hread]
    have hspec := takeIn_spec u slot q b
    rw [hqueue, hheld, hintake] at hspec
    exact ⟨_, exec_fabric (guarded _ State.takeDescriptor) hup ((guarded_of_true _ s hserves).trans hrun) rfl, hspec⟩
  · refine exec_fabric (guarded s.dramServes State.takeDescriptor) hup ?_ rfl
    rcases hnone with h | h | h | h | h
    · rw [h]
      rfl
    all_goals exact guarded_of_fixed (by simp [State.takeDescriptor, h]) _

/-! Cancels. -/

/-- The named descriptors of the intake marked for their cancel. -/
def State.markIntake (s : State) (named : Intake → Bool) : State :=
  { s with weir := { s.weir with intake := s.weir.intake.map fun i => if named i then { i with cancelled := true } else i } }

theorem mem_markIntake {s : State} {named : Intake → Bool} :
    ∀ i ∈ (s.markIntake named).weir.intake, named i = true → i.cancelled = true := by
  intro i hi hn
  obtain ⟨j, -, rfl⟩ := List.mem_map.1 hi
  by_cases hj : named j = true
  · rw [if_pos hj]
  · rw [if_neg hj] at hn
    contradiction

theorem mem_markCancel {s : State} {id : Nat} : ∀ k ∈ (s.markCancel id).weir.jobs, k.id = id → k.cancelAt = some s.gts := by
  intro k hk hid
  obtain ⟨j, -, rfl⟩ := List.mem_map.1 hk
  by_cases hj : j.id = id
  · rw [if_pos hj]
  · rw [if_neg hj] at hid
    contradiction

section
variable {s : State} {slot q : Nat} {v : W32}

/-- The jobs that a cancel may name, and the descriptors of the intake that it may. -/
def State.cancelJob (s : State) (slot q n : Nat) : Option Job :=
  s.pendingJobs.find? fun j => j.slot == slot && j.queue == q && j.ringCount == n
def Intake.named (slot q n : Nat) (i : Intake) : Bool := i.slot == slot && i.queue == q && i.ringCount == n

theorem cancel_of_agree (hagree : twinTail v = true) : s.cancel slot q v =
    match s.cancelJob slot q (v.toNat % 65536) with
    | some j => s.markCancel j.id
    | none =>
      if s.weir.intake.any (Intake.named slot q (v.toNat % 65536)) then s.markIntake (Intake.named slot q (v.toNat % 65536))
      else s.setQueue slot q { s.queue slot q with cancelIgnored := true } := by
  simp only [State.cancel, hagree, Bool.not_true, Bool.false_eq_true, if_false]
  rfl

theorem cancel_of_job {j : Job} (hagree : twinTail v = true) (h : s.cancelJob slot q (v.toNat % 65536) = some j) :
    s.cancel slot q v = s.markCancel j.id := by
  rw [cancel_of_agree hagree, h]

theorem cancel_of_intake (hagree : twinTail v = true) (h : s.cancelJob slot q (v.toNat % 65536) = none)
    (hany : s.weir.intake.any (Intake.named slot q (v.toNat % 65536)) = true) :
    s.cancel slot q v = s.markIntake (Intake.named slot q (v.toNat % 65536)) := by
  rw [cancel_of_agree hagree, h]
  exact if_pos hany

theorem cancel_of_none (hagree : twinTail v = true) (h : s.cancelJob slot q (v.toNat % 65536) = none)
    (hany : s.weir.intake.any (Intake.named slot q (v.toNat % 65536)) = false) :
    s.cancel slot q v = s.setQueue slot q { s.queue slot q with cancelIgnored := true } := by
  rw [cancel_of_agree hagree, h]
  exact if_neg (by rw [hany]; decide)

end

/-- Settles O7: a cancel finds a pending job, a descriptor of the intake, or nothing. -/
theorem cancelsMarkOrEndTheirJob : Obligations.CancelsMarkOrEndTheirJob := by
  unfold Obligations.CancelsMarkOrEndTheirJob
  intro s page v slot q n named job
  refine ⟨fun hup hnative hopen hagree => ?_, fun hmarked => if_pos hmarked⟩
  have htwin : twinTail v = true := beq_iff_eq.2 hagree
  have hexec : ∀ u, s.cancel slot q v = u → exec (.cancelWrite page v) s = .next u.settle := fun u hu =>
    exec_fabric (guarded _ fun s => (s.cancel slot q v).settle) hup
      ((guarded_of_true _ s (by simp [hnative, hopen, slot, q])).trans (congrArg State.settle hu)) rfl
  refine ⟨fun j hj => ?_, fun hnone hany => ?_, fun hnone hany => ?_⟩
  · exact ⟨s.markCancel j.id, hexec _ (cancel_of_job htwin hj), mem_markCancel, List.length_map .., _, rfl⟩
  · exact ⟨s.markIntake named, hexec _ (cancel_of_intake htwin hnone hany), List.length_map .., mem_markIntake, _, rfl⟩
  · exact ⟨_, hexec _ (cancel_of_none htwin hnone hany), by rw [State.queue_setQueue_same], rfl, fun _ => ⟨rfl, rfl, rfl, rfl⟩⟩

end Sys2Proof.Machine
end

section
/-! SUPPORT. The event rings and the vectors (R497, R500 to R502, R526). -/
namespace Sys2Proof.Machine
open Sys2Proof

/-! Rings. -/

@[simp] theorem State.ringSt_setRingSt (s : State) (r : Ring) (t : RingSt) : (s.setRingSt r t).ringSt r = t := by
  cases r with
  | dev => rfl
  | ctx k => simp [State.setRingSt, State.ringSt]

/-- Setting a ring's counts changes those alone. -/
theorem State.setRingSt_frame (s : State) (r : Ring) (t : RingSt) : (s.setRingSt r t).dram = s.dram ∧
    (s.setRingSt r t).live = s.live ∧ (s.setRingSt r t).events = s.events := by
  cases r <;> exact ⟨rfl, rfl, rfl⟩

theorem State.ringSt_takeEvent (s : State) (e : Event) (r : Ring) : (s.takeEvent e).ringSt r = s.ringSt r := by
  cases r <;> rfl

theorem State.room_takeEvent (s : State) (e d : Event) : (s.takeEvent d).room e = s.room e := by
  have hfree : (s.takeEvent d).ringFree e.ring = s.ringFree e.ring := by cases e.ring <;> rfl
  rw [State.room, hfree]
  rfl

/-- A record that is written: its ring counts it. -/
theorem putEvent_of_written {s w : State} {r : Ring} {e : Event} {va l : Nat} (hgeom : s.ringGeom r = some (va, l))
    (hwrite : s.vwrite Who.walker (va + 32 * ((s.ringSt r).written % 2 ^ l)) (e.bytes ((s.ringSt r).written + 1)) = (true, w)) :
    s.putEvent r e = w.setRingSt r { s.ringSt r with
      written := (s.ringSt r).written + 1
      unsig := (s.ringSt r).unsig + 1
      oldest := some ((s.ringSt r).oldest.getD s.gts)
      safetyNew := (s.ringSt r).safetyNew || e.safety } := by
  simp only [State.putEvent, hgeom, hwrite, if_true]

/-- The final records that wait for an event of a ring. -/
def State.finalsOf (s : State) : Ring → State
  | .dev => s
  | .ctx k => s.flushFinals k

theorem writeRing_eq (s : State) (r : Ring) : s.writeRing r = (s.eventRingWrite r).finalsOf r := by
  cases r <;> rfl

/-- An event whose time has come and that passes its check is delivered. -/
theorem eventRingWrite_of_checked {s u : State} {r : Ring} {e : Event} (hnext : s.nextEvent r = some e)
    (hage : e.gts + 512 ≤ s.gts) (hahead : s.behindOverflow e = false) (hcheck : s.checkEvent e = (true, u)) :
    s.eventRingWrite r = u.deliver e := by
  have hgo : ¬ (s.gts < e.gts + 512 ∨ s.behindOverflow e = true) := by simp [hahead, hage]
  simp only [State.eventRingWrite, hnext, if_neg hgo, hcheck, if_true]

/-! Vectors. -/

section
variable {s : State} {v : Nat}

/-- In endpoint mode with MODE 0 a vector goes to its MSI-X entry alone. -/
theorem signal_of_msix (hv : v < 64) (hmsix : s.msix = true) (hmode : s.rf Reg.weirIrqRoute F.weirIrqRoute_MODE = 0) :
    s.signal v = s.msixSend v := by
  simp [State.signal, Nat.not_le.2 hv, hmsix, hmode]

/-- The signals of an entry that is not masked are sent, each once. -/
theorem signalTimes_unmasked (hv : v < 64) : ∀ (n : Nat) (s : State), s.msix = true →
    s.rf Reg.weirIrqRoute F.weirIrqRoute_MODE = 0 → (Table.get {} s.msixVecs v).masked = false →
    Table.get 0 (State.signalTimes v n s).vectors v = Table.get 0 s.vectors v + n ∧
      (∀ k, k ≠ v → Table.get 0 (State.signalTimes v n s).vectors k = Table.get 0 s.vectors k) ∧
      ∃ a, State.signalTimes v n s = { s with vectors := a }
  | 0, s, _, _, _ => ⟨rfl, fun _ _ => rfl, _, rfl⟩
  | n + 1, s, hmsix, hmode, hmask => by
    have hsend : s.signal v = { s with vectors := Table.put 0 s.vectors v (Table.get 0 s.vectors v + 1) } := by
      rw [signal_of_msix hv hmsix hmode]
      simp [State.msixSend, hmask]
    rw [State.signalTimes, hsend]
    obtain ⟨hself, hothers, a, hframe⟩ := signalTimes_unmasked hv n
      { s with vectors := Table.put 0 s.vectors v (Table.get 0 s.vectors v + 1) } hmsix hmode hmask
    refine ⟨?_, fun k hk => ?_, a, by rw [hframe]⟩
    · rw [hself, Table.get_put_same]
      omega
    · rw [hothers k hk]
      exact Table.get_put_ne 0 0 s.vectors (Table.get 0 s.vectors v + 1) hk

/-- The signals of a masked entry leave it pending. -/
theorem signalTimes_masked (hv : v < 64) : ∀ (n : Nat) (s : State), s.msix = true →
    s.rf Reg.weirIrqRoute F.weirIrqRoute_MODE = 0 → (Table.get {} s.msixVecs v).masked = true →
    Table.get {} (State.signalTimes v (n + 1) s).msixVecs v = { Table.get {} s.msixVecs v with pending := true } ∧
      ∃ b, State.signalTimes v (n + 1) s = { s with msixVecs := b }
  | 0, s, hmsix, hmode, hmask => by
    simp only [State.signalTimes, signal_of_msix hv hmsix hmode, State.msixSend, hmask, if_true]
    exact ⟨Table.get_put_same .., _, rfl⟩
  | n + 1, s, hmsix, hmode, hmask => by
    have hsend : s.signal v =
        { s with msixVecs := Table.put {} s.msixVecs v { Table.get {} s.msixVecs v with pending := true } } := by
      rw [signal_of_msix hv hmsix hmode]
      simp [State.msixSend, hmask]
    rw [State.signalTimes, hsend]
    obtain ⟨hself, b, hframe⟩ := signalTimes_masked hv n
      { s with msixVecs := Table.put {} s.msixVecs v { Table.get {} s.msixVecs v with pending := true } } hmsix hmode
      (by simp [Table.get_put_same, hmask])
    refine ⟨?_, b, by rw [hframe]⟩
    rw [hself]
    simp [Table.get_put_same]

end

/-- Setting the counts of a ring that signals leaves everything but those. -/
theorem State.setSel_frame (s : State) (r : RingSel) (t : RingSt) : ∃ d c, s.setSel r t = { s with devRing := d, ctxs := c } := by
  cases r with
  | evt e => cases e <;> exact ⟨_, _, rfl⟩
  | cpl k => exact ⟨_, _, rfl⟩

/-- R501: when a ring signals. -/
theorem signalDue_of {s : State} {r : RingSel} {g : Nat}
    (h : if (s.ringSel r).2.1 = 0 then 0 < (s.ringSel r).1.unsig
      else (s.ringSel r).1.read < (s.ringSel r).1.written ∧ (s.ringSel r).1.oldest = some g ∧
        ((s.ringSel r).1.safetyNew = true ∨ g + 1000 * (s.ringSel r).2.1 ≤ s.gts)) : s.signalDue r = true := by
  unfold State.signalDue
  dsimp only
  split at h
  next hmod => rw [if_pos hmod]; exact decide_eq_true h
  next hmod =>
    obtain ⟨hnew, hold, hdue⟩ := h
    rw [if_neg hmod, hold]
    simp [hnew, hdue]

/-- Settles O3: a checked event is delivered by its ring's room, and a ring's signals go out one by one. -/
theorem eventsReachTheirRingAndSignal : Obligations.EventsReachTheirRingAndSignal := by
  unfold Obligations.EventsReachTheirRingAndSignal
  refine ⟨?_, ?_, ?_⟩
  · intro s u r e hup hserves hnext hring hage hahead hcheck finals
    have hfinals : ∀ t, t.finalsOf r = finals t := fun t => by cases r <;> rfl
    have hexec : ∀ x, u.deliver e = x → exec (.eventRingWrite r) s = .next (finals x) := fun x hx =>
      exec_fabric (guarded s.dramServes (·.writeRing r)) hup ((guarded_of_true _ s hserves).trans
        (by rw [writeRing_eq, eventRingWrite_of_checked hnext hage hahead hcheck, hx, hfinals])) rfl
    refine ⟨fun hfull => hexec _ ?_, fun va l w hroom hgeom hwrite => ⟨_, hexec _ rfl, ?_⟩⟩
    · simp [State.deliver, State.room_takeEvent, hfull, hring]
    · have hput : u.deliver e = (u.takeEvent e).putEvent r e := by simp [State.deliver, State.room_takeEvent, hroom, hring]
      rw [← u.ringSt_takeEvent e r] at hwrite ⊢
      rw [hput, putEvent_of_written hgeom hwrite, State.ringSt_setRingSt]
      obtain ⟨hd, hl, hev⟩ := w.setRingSt_frame r _
      exact ⟨rfl, rfl, hev, hd, hl⟩
  · intro s w r va l hup hserves hlost hfree hgeom hwrite
    have hdue : ¬ ((s.ringSt r).unreported = 0 ∨ s.ringFree r < 17) := by omega
    refine ⟨_, exec_fabric (guarded s.dramServes (·.overflow r)) hup (guarded_of_true _ s hserves) rfl, ?_⟩
    simp only [State.overflow, if_neg hdue, putEvent_of_written hgeom hwrite, State.ringSt_setRingSt]
    rw [if_neg (Nat.succ_ne_self _)]
    obtain ⟨hd, -, hev⟩ := State.setRingSt_frame (w.setRingSt r _) r _
    obtain ⟨hd', -, hev'⟩ := w.setRingSt_frame r _
    rw [State.ringSt_setRingSt]
    exact ⟨rfl, rfl, hd.trans hd', hev.trans hev'⟩
  · intro s r g q n x hup hdue
    have hexec : exec (.interruptSignal r) s =
        .next (State.signalTimes q.2.2 n (s.setSel r { q.1 with unsig := 0, oldest := none, safetyNew := false })) :=
      exec_fabric (·.interruptSignal r) hup (if_pos (signalDue_of hdue)) rfl
    refine ⟨hexec, fun hv hmsix hmode => ?_⟩
    obtain ⟨d, c, hsel⟩ := s.setSel_frame r { q.1 with unsig := 0, oldest := none, safetyNew := false }
    rw [hsel] at hexec
    refine ⟨fun hmask => ⟨_, hexec, ?_⟩, fun hmask => ⟨_, hexec, ?_⟩⟩
    · obtain ⟨hself, hothers, a, hframe⟩ := signalTimes_unmasked hv n { s with devRing := d, ctxs := c } hmsix hmode hmask
      exact ⟨hself, hothers, by rw [hframe]; exact fun _ => ⟨rfl, rfl, rfl, rfl⟩, by rw [hframe], by rw [hframe]⟩
    · have hpos : n ≠ 0 := by
        by_cases hmod : q.2.1 = 0
        · rw [if_pos hmod] at hdue
          rw [show n = q.1.unsig from if_pos hmod]
          omega
        · rw [show n = 1 from if_neg hmod]
          decide
      obtain ⟨m, hm⟩ := Nat.exists_eq_succ_of_ne_zero hpos
      obtain ⟨hself, b, hframe⟩ := signalTimes_masked hv m { s with devRing := d, ctxs := c } hmsix hmode hmask
      rw [hm]
      exact ⟨hself, by rw [hframe], by rw [hframe]; exact fun _ => ⟨rfl, rfl, rfl, rfl⟩, by rw [hframe], by rw [hframe]⟩

end Sys2Proof.Machine
end

section
/-! SUPPORT. The firmware processors restart and log (R705, R710 to R717). -/
namespace Sys2Proof.Machine
open Sys2Proof

/-! A processor that needs a restart. -/

section
variable {s : State} {p : Nat}

/-- While FWP0 is down, the restart of another processor waits. -/
theorem fwProcessorRestart_waits {cause : Nat} {u : State} {rest : List (Nat × Nat)} (hp : p < 5)
    (hneed : (if cause = RstCause.sramUe then s.fwSramUe p false else if cause = RstCause.exception then s.fwNeed p cause else s) = u)
    (hwaiting : u.fwp.waiting = (p, cause) :: rest) (hne : p ≠ 0) (hdown : u.fwUp 0 = false) : s.fwProcessorRestart p cause = u := by
  have h5 : ¬ 5 ≤ p := by omega
  simp only [State.fwProcessorRestart, if_neg h5, hneed, hwaiting]
  exact if_neg (by simp [hne, hdown])

/-- A processor that needs a restart, while nothing waits. -/
theorem fwNeed_first {cause : Nat} (hp : p < 5) (hrun : s.fwUp p = true) (hwaiting : s.fwp.waiting = []) (hne : p ≠ 0)
    (hdown : s.fwUp 0 = false) :
    (s.fwNeed p cause).rf (Reg.fwpState p) F.fwpState_STATE = Fw.restarting ∧ (s.fwNeed p cause).fwp.waiting = [(p, cause)] ∧
      (s.fwNeed p cause).fwUp 0 = false ∧ sameRegs s (s.fwNeed p cause) [Reg.fwpState p] ∧ sameMem s (s.fwNeed p cause) := by
  rw [State.fwNeed_of_up hp hrun, hwaiting]
  refine ⟨s.fwState_setFw p Fw.restarting, rfl, ?_, ?_, fun _ => ⟨rfl, rfl, rfl, rfl⟩⟩
  · rw [← hdown]
    exact congrArg (· == Fw.running) (s.fwState_setFw_ne Fw.restarting hne.symm)
  · exact fun off hoff => s.rd_setFw_ne Fw.restarting (by simpa using hoff)

/-- The registers that an uncorrectable error of SRAM is recorded in. -/
def sramUeRegs : List Nat := [Reg.detCount 1, Reg.detLast 1, Reg.intUeLo, Reg.intUeHi]

theorem fwpState_not_sramUe : ∀ n < 5, Reg.fwpState n ∉ sramUeRegs := by decide

/-- An uncorrectable error of a processor's SRAM is recorded, and the processor needs a restart. -/
theorem fwSramUe_of_up (hrun : s.fwUp p = true) : ∃ u, s.fwSramUe p false = u.fwNeed p RstCause.sramUe ∧
    u.fwp = s.fwp ∧ sameRegs s u sramUeRegs ∧ sameMem s u := by
  have hlog : ∀ u : State, sameRegs u (u.logUe Mc.fwSram ((s.draw 27).1 % 32768)) sramUeRegs := by
    intro u off hoff
    simp only [sramUeRegs, List.mem_cons, not_or] at hoff
    obtain ⟨-, -, hlo, hhi, -⟩ := hoff
    unfold State.logUe
    dsimp only
    split
    · rfl
    · rw [State.rd_wn_ne _ _ hhi, State.rd_wn_ne _ _ hlo]
  have hoccur := (s.draw 27).2.occur_reports ⟨1, Kind.uncorrectable, Mc.fwSram, p, false⟩ false
  refine ⟨((s.draw 27).2.occur ⟨1, Kind.uncorrectable, Mc.fwSram, p, false⟩).logUe Mc.fwSram ((s.draw 27).1 % 32768), ?_, ?_, ?_, ?_⟩
  · simp [State.fwSramUe, hrun]
  · obtain ⟨_, _, _, _, h⟩ := hoccur.trans (State.logUe_reports _ _ _)
    rw [h]
    rfl
  · refine fun off hoff => (hlog _ off hoff).trans ?_
    simp only [sramUeRegs, List.mem_cons, not_or] at hoff
    exact State.occur_rd _ _ _ _ hoff.1 hoff.2.1
  · obtain ⟨_, _, _, _, h⟩ := hoccur.trans (State.logUe_reports _ _ _)
    rw [h]
    exact fun _ => ⟨rfl, rfl, rfl, rfl⟩

end

/-! The fifth restart within 10 s. -/

theorem fwpRstCount_apart : ∀ p < 5, (∀ g < 64, Reg.fwpRstCount p ≠ Reg.gateState g) ∧ Reg.fwpRstCount p ≠ Reg.intStatus ∧
    Reg.fwpRstCount p ≠ Reg.fwpState p := by decide

theorem breakGates_rd (s : State) (o off : Nat) (h : ∀ g < 64, off ≠ Reg.gateState g) : (s.breakGates o).rd off = s.rd off := by
  refine rd_foldl _ off _ s fun u g hg => ?_
  split
  · exact (u.breakGate_does g).1 off (h g (List.mem_range.1 hg))
  · rfl

/-- A restart breaks the Gates that the processor holds, and FWP0's revokes the debug grant (R705, R716). -/
def State.fwRelease (s : State) (p : Nat) : State :=
  let t : State := { s with fwp := { s.fwp with restarts := Table.put [] s.fwp.restarts p (s.gts :: s.recentRestarts p) } }
  if p = 0 then (t.breakGates (Owner.fwp p)).revokeDebug else t.breakGates (Owner.fwp p)

theorem fwRelease_frame (s : State) {p : Nat} (hp : p < 5) :
    (s.fwRelease p).fwp.taken = s.fwp.taken ∧ (s.fwRelease p).rd (Reg.fwpRstCount p) = s.rd (Reg.fwpRstCount p) := by
  obtain ⟨hgates, hint, -⟩ := fwpRstCount_apart p hp
  unfold State.fwRelease
  generalize ht : ({ s with fwp := { s.fwp with restarts := Table.put [] s.fwp.restarts p (s.gts :: s.recentRestarts p) } } : State) = t
  have hs : t.fwp.taken = s.fwp.taken ∧ t.rd (Reg.fwpRstCount p) = s.rd (Reg.fwpRstCount p) := by
    subst ht
    exact ⟨rfl, rfl⟩
  obtain ⟨l, e, i, q, hreports⟩ := t.breakGates_reports (Owner.fwp p)
  have htaken : (t.breakGates (Owner.fwp p)).fwp.taken = s.fwp.taken := by
    rw [hreports]
    exact hs.1
  have hcount := (breakGates_rd t (Owner.fwp p) _ hgates).trans hs.2
  dsimp only
  split
  · exact ⟨htaken, (State.rd_wf_ne _ _ _ hint).trans hcount⟩
  · exact ⟨htaken, hcount⟩

/-- What a processor's restart is that follows four within 10 s. -/
theorem fwRestart_failed {s : State} {p c : Nat} (hp : p < 5) (hmany : 4 ≤ (s.recentRestarts p).length) (htaken : s.fwp.taken = []) :
    (s.fwRestart p c).rf (Reg.fwpState p) F.fwpState_STATE = Fw.failed ∧
      (s.fwRestart p c).rd (Reg.fwpRstCount p) = s.rd (Reg.fwpRstCount p) := by
  obtain ⟨htaken', hcount⟩ := fwRelease_frame s hp
  have heq : s.fwRestart p c = (((s.fwRelease p).setFw p Fw.failed).raiseDev (80 + p) Ev.fwRestart (2 ^ 31 + p)).fwSweep := if_pos hmany
  rw [heq, State.fwSweep_of_nil (show (((s.fwRelease p).setFw p Fw.failed).raiseDev _ _ _).fwp.taken = [] from htaken'.trans htaken)]
  exact ⟨(s.fwRelease p).fwState_setFw p Fw.failed,
    ((s.fwRelease p).rd_setFw_ne Fw.failed (fwpRstCount_apart p hp).2.2).trans hcount⟩

/-! The log ring. -/

/-- A point of a processor's log that finds its ring ready and empty of earlier records. -/
theorem fwLog_of_ready {s w : State} {p l pt a b d : Nat} (hready : s.logReady = true) (hearly : s.fwp.early = [])
    (hp : p ≤ 4) (hrun : s.fwUp p = true) (hl : l ≤ 3)
    (hlevel : l ≤ bitsOf (s.rf Reg.fwpTraceMask F.fwpTraceMask_LEVEL) (2 * p + 1) (2 * p))
    (hwrite : s.vwrite { tag := 0x600 + p } (s.logVa + 32 * (s.rn Reg.fwpLogCount % 2 ^ s.logLog2))
      (leBytes s.gts 8 ++ leBytes p 1 ++ leBytes l 1 ++ leBytes 0 2 ++ leBytes pt 4 ++ leBytes a 4 ++ leBytes b 4 ++ leBytes d 4 ++
        leBytes (s.rn Reg.fwpLogCount + 1) 4) = (true, w)) :
    s.fwLog p l pt a b d = w.wn Reg.fwpLogCount (s.rn Reg.fwpLogCount + 1) := by
  have hsound : ¬ (!(decide (p ≤ 4) && s.fwUp p && decide (l ≤ 3))) = true := by simp [hp, hrun, hl]
  have hearly' : ({ s with fwp := { s.fwp with early := [] } } : State) = s := by rw [← hearly]
  unfold State.fwLog
  rw [if_neg hsound, hready, if_pos rfl, hearly, List.foldl_nil, hearly']
  dsimp only
  rw [if_neg (Nat.not_lt.2 hlevel), hready, if_pos rfl]
  simp only [State.logPut, hwrite, if_true]

/-- Settles O23: while FWP0 is down nothing is performed, so the need alone shows; the fifth restart sets STATE and counts nothing. -/
theorem firmwareProcessorsRestartAndLog : Obligations.FirmwareProcessorsRestartAndLog := by
  unfold Obligations.FirmwareProcessorsRestartAndLog
  intro s w p c l pt a b d rest hup
  refine ⟨fun hp hrun hwaiting hne hdown => ⟨?_, ?_⟩, fun hp hc2 hc3 hwaiting hroot hon => ?_, fun hp hmany htaken => ?_,
    fun hready hearly hp hrun hl hlevel hwrite => ?_⟩
  · obtain ⟨hstate, hlist, hdown', hregs, hmem⟩ := fwNeed_first (cause := 3) (Nat.lt_succ_of_le hp) hrun hwaiting hne hdown
    exact ⟨_, exec_fabric (·.fwProcessorRestart p 3) hup
      (fwProcessorRestart_waits (Nat.lt_succ_of_le hp) rfl hlist hne hdown') rfl, hstate, hlist, hregs, hmem⟩
  · obtain ⟨u, hue, hfwp, huregs, humem⟩ := fwSramUe_of_up hrun
    have hkeep : ∀ n < 5, u.fwUp n = s.fwUp n := fun n hn =>
      congrArg (fun x => W32.fld x F.fwpState_STATE == Fw.running) (huregs _ (fwpState_not_sramUe n hn))
    obtain ⟨hstate, hlist, hdown', hregs, hmem⟩ := fwNeed_first (s := u) (cause := 2) (Nat.lt_succ_of_le hp)
      ((hkeep p (Nat.lt_succ_of_le hp)).trans hrun) (by rw [hfwp, hwaiting]) hne ((hkeep 0 (by decide)).trans hdown)
    exact ⟨_, exec_fabric (·.fwProcessorRestart p 2) hup
      (fwProcessorRestart_waits (Nat.lt_succ_of_le hp) hue hlist hne hdown') rfl, hstate, hlist, humem.trans hmem,
      (huregs.mono (List.subset_cons_self _ _)).trans (hregs.mono (by simp))⟩
  · have h5 : ¬ 5 ≤ p := by omega
    refine exec_fabric (·.fwProcessorRestart p c) hup ?_ rfl
    simp only [State.fwProcessorRestart, if_neg h5, if_neg (show ¬ c = RstCause.sramUe from hc2),
      if_neg (show ¬ c = RstCause.exception from hc3), hwaiting]
    exact if_pos ⟨trivial, hroot, by simpa using hon⟩
  · exact fwRestart_failed (Nat.lt_succ_of_le hp) hmany htaken
  · exact exec_fabric (·.fwLog p l pt a b d) hup (fwLog_of_ready hready hearly hp hrun hl hlevel hwrite) rfl

end Sys2Proof.Machine
end

section
/-! SUPPORT. The phase inputs' filters and counts (R542 to R546). -/
namespace Sys2Proof.Machine
open Sys2Proof

/-- A state in which only the phase inputs may have changed. -/
def OnlyPhases (s t : State) : Prop := ∃ z, t = { s with phases := z }

theorem OnlyPhases.setPhase {s t : State} (h : OnlyPhases s t) (n : Nat) (p : Phase) : OnlyPhases s (t.setPhase n p) := by
  obtain ⟨z, rfl⟩ := h
  exact ⟨_, rfl⟩

theorem OnlyPhases.refl (s : State) : OnlyPhases s s := ⟨_, rfl⟩

theorem OnlyPhases.live {s t : State} (h : OnlyPhases s t) : t.live = s.live := by
  obtain ⟨z, rfl⟩ := h
  rfl

theorem OnlyPhases.sameMem {s t : State} (h : OnlyPhases s t) : sameMem s t := by
  obtain ⟨z, rfl⟩ := h
  exact fun _ => ⟨rfl, rfl, rfl, rfl⟩

/-- A count with the sign that DIR gives it. -/
def State.signed (s : State) (n : Nat) (d : Int) : Int := if s.rf (Reg.phaseCfg n) F.phaseCfg_DIR = 1 then -d else d

/-- What a count leaves of its input. -/
theorem phase_countBy (s : State) (n : Nat) (d : Int) : (s.countBy n d).phase n =
    { s.phase n with pos := wrapN 48 (((s.phase n).pos : Int) + s.signed n d),
                     hist := (wrapN 48 (((s.phase n).pos : Int) + s.signed n d), s.gts) :: (s.phase n).hist } :=
  s.phase_setPhase_same n _

theorem countBy_only (s : State) (n : Nat) (d : Int) : OnlyPhases s (s.countBy n d) := (OnlyPhases.refl s).setPhase n _

/-! The filters. -/

theorem filtStep_same (need run : Nat) (acc : Bool) : filtStep need run acc acc = (acc, 0) := if_pos rfl

theorem filtStep_full {need run : Nat} (h : need ≤ run + 1) (acc : Bool) : filtStep need run acc (!acc) = (!acc, 0) := by
  simp [filtStep, h]

theorem filtStep_short {need run : Nat} (h : ¬ need ≤ run + 1) (acc : Bool) : filtStep need run acc (!acc) = (acc, run + 1) := by
  simp [filtStep, h]

theorem sampleDue_of {s : State} {last : Option Nat} (h : s.gts % 10 = 0 ∧ last ≠ some s.gts) : s.sampleDue last = true := by
  simp [State.sampleDue, h.1, h.2]

/-! A and B. -/

theorem phaseStatus_ne_errcnt (n : Nat) : Reg.phaseStatus n ≠ Reg.phaseErrcnt n := by
  unfold Reg.phaseStatus Reg.phaseErrcnt
  omega

/-- While OVERSPEED is set, a further reason keeps its GTS alone. -/
theorem overspeed_of_latched {s : State} {n : Nat} (h : s.rf (Reg.phaseStatus n) F.phaseStatus_OVERSPEED = 1) (reason : Nat)
    (inj : Bool) : s.overspeed n reason inj = s.setPhase n { s.phase n with reasonGts := s.gts } := if_pos h


section
variable {s : State} {n : Nat} {a b : Bool}

/-- A step of a quadrature input at a sample: what the filters accept counts. -/
theorem quadEdge_due {x y : Bool × Nat} (hdue : s.sampleDue (s.phase n).sampled = true)
    (hx : filtStep (s.filtLen n) (s.runAt (s.phase n).sampled (s.phase n).fa) (s.phase n).a a = x)
    (hy : filtStep (s.filtLen n) (s.runAt (s.phase n).sampled (s.phase n).fb) (s.phase n).b b = y) :
    s.quadEdge n a b =
      (s.setPhase n { s.phase n with fa := x.2, fb := y.2, sampled := some s.gts }).quadAccept n x.1 y.1 := by
  subst hx hy
  simp only [State.quadEdge, hdue, Bool.not_true, Bool.false_eq_true, if_false]

/-- An edge of A alone, in X4: A leads B upward. -/
theorem quadAccept_edge (hon : s.phaseOn n = true) (hmode : s.rf (Reg.phaseCfg n) F.phaseCfg_QMODE = 2)
    (ha : (s.phase n).a = a) (hb : (s.phase n).b = b) :
    s.quadAccept n (!a) b = (s.setPhase n { s.phase n with a := !a, b := b }).countBy n (if a = b then 1 else -1) := by
  have hon' : (s.setPhase n { s.phase n with a := !a, b := b }).phaseOn n = true := hon
  have hstep : quadStep 2 true (!a) b = if a = b then 1 else -1 := by cases a <;> cases b <;> rfl
  have hmove : (if a = b then (1 : Int) else -1) ≠ 0 := by split <;> decide
  have hmode' : (s.setPhase n { s.phase n with a := !a, b := b }).rf (Reg.phaseCfg n) F.phaseCfg_QMODE = 2 := hmode
  unfold State.quadAccept
  dsimp only
  rw [hon', ha, hb, hmode']
  simp [hstep, hmove]

/-- No edge. -/
theorem quadAccept_still (ha : (s.phase n).a = a) (hb : (s.phase n).b = b) :
    s.quadAccept n a b = s.setPhase n { s.phase n with a := a, b := b } := by
  simp [State.quadAccept, ha, hb]

/-- Both edges at once are an error; while OVERSPEED is set, no more. -/
theorem quadAccept_both (hon : s.phaseOn n = true) (ha : (s.phase n).a = a) (hb : (s.phase n).b = b)
    (hlatched : s.rf (Reg.phaseStatus n) F.phaseStatus_OVERSPEED = 1) :
    s.quadAccept n (!a) (!b) =
      ((s.setPhase n { s.phase n with a := !a, b := !b }).bumpSat (Reg.phaseErrcnt n) F.phaseErrcnt_QERR).setPhase n
        { s.phase n with a := !a, b := !b, reasonGts := s.gts } := by
  have hon' : (s.setPhase n { s.phase n with a := !a, b := !b }).phaseOn n = true := hon
  have herr : s.quadAccept n (!a) (!b) = ((s.setPhase n { s.phase n with a := !a, b := !b }).bumpSat (Reg.phaseErrcnt n)
      F.phaseErrcnt_QERR).overspeed n 2 false := by
    unfold State.quadAccept
    dsimp only
    rw [hon', ha, hb]
    simp
  have hstill : ((s.setPhase n { s.phase n with a := !a, b := !b }).bumpSat (Reg.phaseErrcnt n) F.phaseErrcnt_QERR).rf
      (Reg.phaseStatus n) F.phaseStatus_OVERSPEED = 1 := (State.rf_wf_ne _ _ _ _ (phaseStatus_ne_errcnt n)).trans hlatched
  rw [herr, overspeed_of_latched hstill]
  refine congrArg (State.setPhase _ n) ?_
  have hphase : ((s.setPhase n { s.phase n with a := !a, b := !b }).bumpSat (Reg.phaseErrcnt n) F.phaseErrcnt_QERR).phase n =
      { s.phase n with a := !a, b := !b } := s.phase_setPhase_same n _
  rw [hphase]
  rfl

end

/-- A count below its end goes up by one. -/
theorem bumpSat_count {s : State} {o : Nat} {f : Fld} (hf : f.lo ≤ f.hi) (hhi : f.hi < 32) (h : s.rf o f < 2 ^ f.width - 1) :
    (s.bumpSat o f).rf o f = s.rf o f + 1 := by
  unfold State.bumpSat
  rw [State.rf_wf_same _ _ _ _ hf hhi]
  have hfit : s.rf o f + 1 < 2 ^ f.width := by omega
  rw [satInc, if_pos hfit, Nat.mod_eq_of_lt hfit]

/-! Z. -/

section
variable {s : State} {n : Nat}

theorem zEdge_full (hdue : s.sampleDue (s.phase n).zSampled = true)
    (hfull : s.filtLen n ≤ s.runAt (s.phase n).zSampled (s.phase n).fz + 1) (hz : (s.phase n).z = false) :
    s.zEdge n true = (s.setPhase n { s.phase n with fz := 0, zSampled := some s.gts }).zAccept n true := by
  have hstep : filtStep (s.filtLen n) (s.runAt (s.phase n).zSampled (s.phase n).fz) (s.phase n).z true = (true, 0) := by
    rw [hz]
    exact filtStep_full hfull false
  simp only [State.zEdge, hdue, Bool.not_true, Bool.false_eq_true, if_false]
  rw [hstep]

/-- The position at the rising edge of Z is captured while no capture waits to be read. -/
theorem zAccept_captures (hon : s.phaseOn n = true) (hz : (s.phase n).z = false)
    (hvalid : s.rf (Reg.phaseZcapHi n) F.phaseZcapHi_VALID = 0) :
    (s.zAccept n true).rn (Reg.phaseZcapLo n) = (s.phase n).pos % 2 ^ 32 ∧
      (s.zAccept n true).rf (Reg.phaseZcapHi n) F.phaseZcapHi_VALID = 1 ∧
      (s.zAccept n true).rf (Reg.phaseZcapHi n) F.phaseZcapHi_POS_HI = (s.phase n).pos / 2 ^ 32 % 2 ^ 16 := by
  have hgo : ((s.setPhase n { s.phase n with z := true }).phaseOn n && true && !(s.phase n).z &&
      (s.setPhase n { s.phase n with z := true }).rf (Reg.phaseZcapHi n) F.phaseZcapHi_VALID == 0) = true := by
    rw [show (s.setPhase n { s.phase n with z := true }).phaseOn n = true from hon, hz,
      show (s.setPhase n { s.phase n with z := true }).rf (Reg.phaseZcapHi n) F.phaseZcapHi_VALID = 0 from hvalid]
    rfl
  have hne : Reg.phaseZcapLo n ≠ Reg.phaseZcapHi n := by
    unfold Reg.phaseZcapLo Reg.phaseZcapHi
    omega
  unfold State.zAccept
  dsimp only
  rw [if_pos hgo]
  refine ⟨?_, State.rf_wf_same _ _ _ _ (by decide) (by decide), ?_⟩
  · rw [State.rn_wf_ne _ _ _ hne, State.rn_wf_ne _ _ _ hne, State.rn_wn_same]
  · rw [State.rf_wf_apart _ _ _ _ _ (by decide) (by decide), State.rf_wf_same _ _ _ _ (by decide) (by decide)]
    rfl

theorem zAccept_keeps {z : Bool} (hvalid : s.rf (Reg.phaseZcapHi n) F.phaseZcapHi_VALID = 1) :
    OnlyPhases s (s.zAccept n z) := by
  have hstay : ¬ ((s.setPhase n { s.phase n with z := z }).phaseOn n && z && !(s.phase n).z &&
      (s.setPhase n { s.phase n with z := z }).rf (Reg.phaseZcapHi n) F.phaseZcapHi_VALID == 0) = true := by
    rw [show (s.setPhase n { s.phase n with z := z }).rf (Reg.phaseZcapHi n) F.phaseZcapHi_VALID = 1 from hvalid]
    simp
  unfold State.zAccept
  dsimp only
  rw [if_neg hstay]
  exact (OnlyPhases.refl s).setPhase n _

/-! Line pulses and the mains. -/

/-- A state in which a line's level was accepted as the other than it was. -/
def State.lineSampled (s : State) (n : Nat) : State := s.setPhase n { s.phase n with fl := 0, sampled := some s.gts }

theorem lineEdge_full (hdue : s.sampleDue (s.phase n).sampled = true)
    (hfull : s.filtLen n ≤ s.runAt (s.phase n).sampled (s.phase n).fl + 1) :
    s.lineEdge n = (s.lineSampled n).lineAccept n (!(s.phase n).level) := by
  simp only [State.lineEdge, hdue, Bool.not_true, Bool.false_eq_true, if_false]
  rw [filtStep_full hfull]
  rfl

/-- The state with the level of a line accepted. -/
def State.lineLevel (s : State) (n : Nat) (v : Bool) : State := s.setPhase n { s.phase n with level := v }

theorem lineAccept_pulse (hn : n ≠ 8) {v : Bool} (hv : (s.phase n).level = !v) (hon : s.phaseOn n = true) :
    s.lineAccept n v = if v then (s.lineLevel n v).countBy n 1 else s.lineLevel n v := by
  have hon' : (s.lineLevel n v).phaseOn n = true := hon
  unfold State.lineAccept
  dsimp only
  rw [if_neg (by rw [hv]; simp), if_neg hn]
  change (if v && (s.lineLevel n v).phaseOn n then _ else _) = _
  rw [hon', Bool.and_true]
  rfl

theorem lineAccept_mains {v : Bool} (hv : (s.phase 8).level = !v) : s.lineAccept 8 v = (s.lineLevel 8 v).mainsCount := by
  unfold State.lineAccept
  dsimp only
  rw [if_neg (by rw [hv]; simp), if_pos rfl]
  rfl

/-- The mains input's edges count outside the hold-off. -/
theorem mainsCount_eq {t0 : Nat} (hon : s.phaseOn 8 = true) (hlast : (s.phase 8).lastMains = some t0) : s.mainsCount =
    if s.gts < t0 + 1000 * s.rf (Reg.phaseCfg 8) F.phaseCfg_HOLDOFF_US then s
    else (s.setPhase 8 { s.phase 8 with lastMains := some s.gts }).countBy 8 1 := by
  unfold State.mainsCount
  rw [hlast]
  simp [hon]

end

theorem settle_phase (s : State) (n : Nat) : s.settle.phase n = s.phase n := by
  obtain ⟨w, c, p, q, h⟩ := s.settle_weir
  rw [h]
  rfl

theorem settle_rf (s : State) (off : Nat) (f : Fld) : s.settle.rf off f = s.rf off f := by
  obtain ⟨w, c, p, q, h⟩ := s.settle_weir
  rw [h]
  rfl

theorem rf_setPhase (s : State) (n : Nat) (p : Phase) (off : Nat) (f : Fld) : (s.setPhase n p).rf off f = s.rf off f := rfl

/-- Settles O37: a filter passes a level at its full run alone, and each accepted edge takes its one way. -/
theorem phaseInputsCount : Obligations.PhaseInputsCount := by
  unfold Obligations.PhaseInputsCount
  intro s n t0 a b hup x y dir due full on
  have hguard : n < 4 → s.phaseWired n = true → (decide (n < 4) && s.phaseWired n) = true := fun hn hw => by simp [hn, hw]
  have hquad : n < 4 → s.phaseWired n = true → ∀ {c d : Bool} {u : State}, s.quadEdge n c d = u →
      exec (.quadEdge n c d) s = .next u.settle := fun hn hw c d u hu =>
    exec_fabric (guarded _ fun s => (s.quadEdge n c d).settle) hup
      ((guarded_of_true _ s (hguard hn hw)).trans (congrArg State.settle hu)) rfl
  refine ⟨fun hn ⟨hwired, hon⟩ hdue hmode ha hb => ⟨fun hfull => ?_, fun hshort => ?_⟩,
    fun hn ⟨hwired, hon⟩ hdue hfa hfb ha hb hlatched hcount => ?_, fun hn hwired hdue => ?_, fun hn hwired => ?_,
    fun hn ⟨hwired, hon⟩ hdue hfull hz => ?_, fun hn ⟨hwired, hon⟩ hdue hfull => ?_,
    fun ⟨hwired, hon⟩ hdue hfull hlast => ?_⟩
  · have hx : filtStep (s.filtLen n) (s.runAt x.sampled x.fa) x.a (!a) = (!a, 0) := by rw [ha]; exact filtStep_full hfull a
    have hy : filtStep (s.filtLen n) (s.runAt x.sampled x.fb) x.b b = (b, 0) := by rw [hb]; exact filtStep_same ..
    obtain hrun := quadEdge_due (sampleDue_of hdue) hx hy
    rw [quadAccept_edge (s := s.setPhase n _) hon hmode (by rw [State.phase_setPhase_same]; exact ha)
      (by rw [State.phase_setPhase_same]; exact hb)] at hrun
    refine ⟨_, hquad hn hwired hrun, ?_, ?_, OnlyPhases.live ?_, OnlyPhases.sameMem ?_⟩
    · rw [phase_countBy, State.phase_setPhase_same, State.phase_setPhase_same]
      rfl
    · rw [phase_countBy, State.phase_setPhase_same]
    all_goals exact (((OnlyPhases.refl s).setPhase n _).setPhase n _).setPhase n _
  · have hx : filtStep (s.filtLen n) (s.runAt x.sampled x.fa) x.a (!a) = (a, s.runAt x.sampled x.fa + 1) := by
      rw [ha]; exact filtStep_short hshort a
    have hy : filtStep (s.filtLen n) (s.runAt x.sampled x.fb) x.b b = (b, 0) := by rw [hb]; exact filtStep_same ..
    obtain hrun := quadEdge_due (sampleDue_of hdue) hx hy
    rw [quadAccept_still (s := s.setPhase n _) (by rw [State.phase_setPhase_same]; exact ha)
      (by rw [State.phase_setPhase_same]; exact hb)] at hrun
    refine ⟨_, hquad hn hwired hrun, ?_, ?_, ?_, OnlyPhases.live ?_, OnlyPhases.sameMem ?_⟩
    · rw [State.phase_setPhase_same, State.phase_setPhase_same]
    · rw [State.phase_setPhase_same]
    · rw [State.phase_setPhase_same, State.phase_setPhase_same]
    all_goals exact ((OnlyPhases.refl s).setPhase n _).setPhase n _
  · have hx : filtStep (s.filtLen n) (s.runAt x.sampled x.fa) x.a (!a) = (!a, 0) := by rw [ha]; exact filtStep_full hfa a
    have hy : filtStep (s.filtLen n) (s.runAt x.sampled x.fb) x.b (!b) = (!b, 0) := by rw [hb]; exact filtStep_full hfb b
    obtain hrun := quadEdge_due (sampleDue_of hdue) hx hy
    rw [quadAccept_both (s := s.setPhase n _) hon (by rw [State.phase_setPhase_same]; exact ha)
      (by rw [State.phase_setPhase_same]; exact hb) hlatched] at hrun
    refine ⟨_, hquad hn hwired hrun, ?_, ?_⟩
    · rw [settle_phase, State.phase_setPhase_same, State.phase_setPhase_same]
    · have hbelow : s.rf (Reg.phaseErrcnt n) F.phaseErrcnt_QERR < 2 ^ F.phaseErrcnt_QERR.width - 1 :=
        lt_of_lt_of_le hcount (by decide)
      rw [settle_rf, rf_setPhase, bumpSat_count (by decide) (by decide) (by rw [rf_setPhase, rf_setPhase]; exact hbelow),
        rf_setPhase, rf_setPhase]
  · refine hquad hn hwired ?_
    have hno : s.sampleDue x.sampled = false := by
      unfold State.sampleDue
      simpa [due] using hdue
    simp only [State.quadEdge]
    rw [hno]
    rfl
  · exact exec_fabric (guarded (decide (n < 4) && s.phaseWired n) fun s => (s.quadEdge n a b).settle) hup
      (by rw [hwired, Bool.and_false]; rfl) rfl
  · have hexec : exec (.zCapture n true) s =
        .next ((s.setPhase n { s.phase n with fz := 0, zSampled := some s.gts }).zAccept n true) :=
      exec_fabric (guarded _ (·.zEdge n true)) hup ((guarded_of_true _ s (hguard hn hwired)).trans
        (zEdge_full (sampleDue_of hdue) hfull hz)) rfl
    refine ⟨fun hvalid => ⟨_, hexec, ?_⟩, fun hvalid => ⟨_, hexec, ?_⟩⟩
    · have hcap := zAccept_captures (s := s.setPhase n { s.phase n with fz := 0, zSampled := some s.gts }) hon
        (by rw [State.phase_setPhase_same]; exact hz) hvalid
      rwa [State.phase_setPhase_same] at hcap
    · exact (zAccept_keeps (s := s.setPhase n { s.phase n with fz := 0, zSampled := some s.gts }) hvalid).live
  · have hexec : ∀ u, (s.lineSampled n).lineAccept n (!x.level) = u → exec (.linePulse n) s = .next u := fun u hu =>
      exec_fabric (guarded ((n == 6 || n == 7) && s.phaseWired n) (·.lineEdge n)) hup
        ((guarded_of_true _ s (by rw [hwired]; simpa using hn)).trans ((lineEdge_full (sampleDue_of hdue) hfull).trans hu)) rfl
    have hne : n ≠ 8 := by omega
    have hphase : (s.lineSampled n).phase n = { x with fl := 0, sampled := some s.gts } := s.phase_setPhase_same n _
    have hlevel : ((s.lineSampled n).phase n).level = !!x.level := by
      rw [hphase]
      simp
    have hrun := lineAccept_pulse (s := s.lineSampled n) hne hlevel hon
    refine ⟨fun hlow => ⟨_, hexec _ hrun, ?_⟩, fun hhigh => ⟨_, hexec _ hrun, ?_⟩⟩
    · rw [hlow]
      refine ⟨?_, ?_, (countBy_only _ n 1).live⟩
      · rw [Bool.not_false, if_pos rfl, phase_countBy, State.lineLevel, State.phase_setPhase_same, hphase]
        rfl
      · rw [Bool.not_false, if_pos rfl, phase_countBy, State.lineLevel, State.phase_setPhase_same]
    · rw [hhigh]
      refine ⟨?_, ?_, rfl⟩
      · rw [Bool.not_true, if_neg (by decide), State.lineLevel, State.phase_setPhase_same, hphase]
      · rw [Bool.not_true, if_neg (by decide), State.lineLevel, State.phase_setPhase_same]
  · have hphase : (s.lineSampled 8).phase 8 = { y with fl := 0, sampled := some s.gts } := s.phase_setPhase_same 8 _
    have hlevel : ((s.lineSampled 8).phase 8).level = !!y.level := by
      rw [hphase]
      simp
    have hphase' : ((s.lineSampled 8).lineLevel 8 (!y.level)).phase 8 =
        { y with fl := 0, sampled := some s.gts, level := !y.level } := by
      rw [State.lineLevel, State.phase_setPhase_same, hphase]
    have hexec : exec .mainsEdge s = .next ((s.lineSampled 8).lineLevel 8 (!y.level)).mainsCount :=
      exec_fabric (guarded (s.phaseWired 8) (·.lineEdge 8)) hup ((guarded_of_true _ s hwired).trans
        ((lineEdge_full (sampleDue_of hdue) hfull).trans (lineAccept_mains hlevel))) rfl
    rw [mainsCount_eq (s := (s.lineSampled 8).lineLevel 8 (!y.level)) (t0 := t0) hon (by rw [hphase']; exact hlast)] at hexec
    refine ⟨fun hclear => ?_, fun hheld => ?_⟩
    · rw [if_neg (by exact Nat.not_lt.2 hclear)] at hexec
      refine ⟨_, hexec, ?_, ?_, ?_, (countBy_only _ 8 1).live⟩ <;> rw [phase_countBy, State.phase_setPhase_same, hphase']
      · rfl
      · rfl
    · rw [if_pos (by exact hheld)] at hexec
      refine ⟨_, hexec, ?_, ?_, ?_, rfl⟩ <;> rw [hphase']
      exact hlast

end Sys2Proof.Machine
end

section
/-! SUPPORT. Strobe groups and pin switches (R784, R814 to R819). -/
namespace Sys2Proof.Machine
open Sys2Proof

/-! The groups that a register of one bit for each names. -/

/-- The groups that a write with one bit set names. -/
theorem namedGroups_of_bit : ∀ g < 16, 1 ≤ g →
    ((List.range 16).filter fun k => 1 ≤ k && (BitVec.ofNat 32 (2 ^ g)).toNat.testBit k) = [g] := by decide

section
variable {s : State} {g : Nat}

theorem strobeFire_of_bit (hlo : 1 ≤ g) (hhi : g < 16) : s.strobeFire (BitVec.ofNat 32 (2 ^ g)) =
    if s.writeTrigger g then s.fire g
    else s.wr Reg.chipStrobeIgn (s.rd Reg.chipStrobeIgn ||| BitVec.ofNat 32 (2 ^ g)) := by
  unfold State.strobeFire
  rw [namedGroups_of_bit g hhi hlo]
  rfl

/-- The only staged value of a group. -/
theorem stagedIn_single {off : Nat} {x : W32} (h : s.staged = [(off, some x)]) (hg : s.groupOf (unitOf off) = g) :
    s.stagedIn g = [off] := by
  simp [State.stagedIn, h, hg]

theorem strobeDrop_of_bit (hlo : 1 ≤ g) (hhi : g < 16) {off : Nat} {x : W32} (h : s.staged = [(off, some x)])
    (hg : s.groupOf (unitOf off) = g) : s.strobeDrop (BitVec.ofNat 32 (2 ^ g)) =
      { s.unstage off with integ := { s.integ with stagedBad := s.integ.stagedBad.filter fun o => o != off } } := by
  unfold State.strobeDrop
  rw [namedGroups_of_bit g hhi hlo, List.foldl_cons, List.foldl_nil, stagedIn_single h hg]
  rfl

theorem unstage_single {off : Nat} {x : W32} (h : s.staged = [(off, some x)]) : (s.unstage off).staged = [] := by
  simp [State.unstage, State.stage, h, Table.put, Table.erase]

end

/-- A register whose staged value nothing refuses and that no pin group or phase input judges applies it. -/
theorem strobeReg_applies {b : State} {off : Nat} (hbad : b.integ.stagedBad = []) (hweir : b.weirRefused off = false)
    (hpcie : off ≠ Reg.pcieCfg) (hpin : pinOf off = none) (hphase : phaseOf off = none) : State.strobeReg b b off = b.applyReg off := by
  simp [State.strobeReg, hbad, hweir, hpcie, hpin, hphase]

theorem fire_single {s : State} {g off : Nat} {x : W32} (h : s.staged = [(off, some x)]) (hg : s.groupOf (unitOf off) = g)
    (hbad : s.integ.stagedBad = [])
    (hweir : (s.bump (Reg.chipStrobeCount g) F.chipStrobeCount_FIRES).weirRefused off = false)
    (hpcie : off ≠ Reg.pcieCfg) (hpin : pinOf off = none) (hphase : phaseOf off = none) :
    s.fire g = ((s.bump (Reg.chipStrobeCount g) F.chipStrobeCount_FIRES).applyReg off).taiStrobe g := by
  have hlist : (s.bump (Reg.chipStrobeCount g) F.chipStrobeCount_FIRES).stagedIn g = [off] := stagedIn_single h hg
  unfold State.fire
  dsimp only
  rw [hlist, List.foldl_cons, List.foldl_nil, strobeReg_applies (b := s.bump (Reg.chipStrobeCount g) F.chipStrobeCount_FIRES) hbad hweir
    hpcie hpin hphase]

/-! Pin switches. -/

section
variable {s : State} {g : Nat} {w : W32} {ctrlOff : Bool}

theorem pinApply_clear (hdue : (s.pinGroup g).due = some (w, 0)) (hold : pinCtrl (s.pinFn g) = false)
    (hnew : pinCtrl (w.fld F.pmxCfg_FUNCTION) = false) :
    s.pinApply g ctrlOff = (s.wr (Reg.pmxCfg g) w).setPinGroup g { switchAt := some s.gts } := by
  simp [State.pinApply, hdue, hold, hnew]

/-- A value whose verdict is that the old or the new function is not idle is discarded. -/
theorem pinApply_busy (hdue : (s.pinGroup g).due = some (w, 1)) : s.pinApply g ctrlOff =
    ((s.setPinGroup g { s.pinGroup g with due := none }).wr Reg.pmxStatus (s.rd Reg.pmxStatus ||| BitVec.ofNat 32 1)).wf
      Reg.pmxStatus F.pmxStatus_LAST_GROUP g := by
  simp only [State.pinApply, hdue, ite_self, show 1 / 2 * 2 + 1 = 1 from rfl]
  rfl

end

theorem fld_low_of_or (v : W32) : (v ||| BitVec.ofNat 32 1).fld F.pmxStatus_NOT_IDLE = 1 := by
  change (v ||| BitVec.ofNat 32 1).toNat / 2 ^ 0 % 2 = 1
  rw [pow_zero, Nat.div_one, BitVec.toNat_or, Nat.mod_two_eq_one_iff_testBit_zero, Nat.testBit_or]
  simp

/-- Settles O39: one bit names one group, and one staged value is all that its strobe or its drop finds. -/
theorem strobesFireAndDrop : Obligations.StrobesFireAndDrop := by
  unfold Obligations.StrobesFireAndDrop
  intro s g off t0 x w c hup
  refine ⟨fun hlo hhi htrig => ?_, fun hlo hhi htrig => ?_, fun hstaged hg hbad hweir hpcie hpin hphase => ?_,
    fun hlo hhi hstaged hg => ?_, fun hg hdue hold hnew => ?_, fun hg hdue => ?_, fun hg hswitch => ⟨fun hdone => ?_, fun hwait => ?_⟩⟩
  · exact exec_fabric (·.strobeFire _) hup ((strobeFire_of_bit hlo hhi).trans (if_pos htrig)) rfl
  · refine ⟨_, exec_fabric (·.strobeFire _) hup ((strobeFire_of_bit hlo hhi).trans (if_neg (by rw [htrig]; decide))) rfl, ?_,
      (sameRegs.refl s _).wr (by simp) _, rfl⟩
    rw [State.rd_wr_same]
    exact bit_of_or _ (by omega)
  · exact fire_single hstaged hg hbad hweir hpcie hpin hphase
  · exact ⟨_, exec_fabric (·.strobeDrop _) hup (strobeDrop_of_bit hlo hhi hstaged hg) rfl, unstage_single hstaged, rfl⟩
  · exact ⟨_, exec_fabric (guarded _ (·.pinApply g c)) hup ((guarded_of_true _ s (decide_eq_true hg)).trans
      (pinApply_clear hdue hold hnew)) rfl, State.rd_wr_same .., State.pinGroup_setPinGroup_same ..,
      (sameRegs.refl s _).wr (by simp) _, fun _ => ⟨rfl, rfl, rfl, rfl⟩⟩
  · refine ⟨_, exec_fabric (guarded _ (·.pinApply g c)) hup ((guarded_of_true _ s (decide_eq_true hg)).trans
      (pinApply_busy hdue)) rfl, ?_, ?_, ?_, ((sameRegs.refl s _).wr (by simp) _).wf (by simp) _ _⟩
    · exact congrArg PinGroup.due (State.pinGroup_setPinGroup_same ..)
    · rw [State.rf_wf_apart _ _ _ _ _ (by decide) (by decide)]
      unfold State.rf
      rw [State.rd_wr_same]
      exact fld_low_of_or _
    · rw [State.rf_wf_same _ _ _ _ (by decide) (by decide)]
      exact Nat.mod_eq_of_lt (lt_trans hg (by decide))
  · refine exec_fabric (guarded _ (·.pinDone g)) hup ((guarded_of_true _ s (decide_eq_true hg)).trans ?_) rfl
    simp only [State.pinDone, hswitch]
    exact if_pos hdone
  · refine exec_fabric (guarded _ (·.pinDone g)) hup ((guarded_of_true _ s (decide_eq_true hg)).trans ?_) rfl
    simp only [State.pinDone, hswitch]
    exact if_neg (Nat.not_le.2 hwait)

end Sys2Proof.Machine
end

section
/-! SUPPORT. Streams and their frames, records and registers (R571, R580 to R586, R594, R596). -/
namespace Sys2Proof.Machine
open Sys2Proof

/-! Registers whose every bit is plain. -/

theorem RegRow.written_plain {r : RegRow} (hrw : r.rw ||| r.rwl = BitVec.allOnes 32) (hw1c : r.w1c = 0) (old v : W32) :
    r.written old v = v := by
  unfold RegRow.written
  dsimp only
  rw [hrw, hw1c, BitVec.and_allOnes]
  simp

/-- Every bit of the registers that release frames and that select a tuning record is plain. -/
theorem csiVcRel_row {n : Nat} (hn : n < 64) : ∃ r, RegRow.of? (Reg.csiVcRel (n / 4) (n % 4)) = some r ∧
    r.rw ||| r.rwl = BitVec.allOnes 32 ∧ r.w1c = 0 := by
  have hrow : ∀ n < 64, RegRow.of? (Reg.csiVcRel (n / 4) (n % 4)) = RegRow.of? (Reg.csiVcRel 0 0) := by decide +kernel
  rw [hrow n hn]
  exact ⟨_, rfl, rfl, rfl⟩

theorem pipeTuneSel_row {p : Nat} (hp : p < 4) : ∃ r, RegRow.of? (Reg.pipeTuneSel p) = some r ∧
    r.rw ||| r.rwl = BitVec.allOnes 32 ∧ r.w1c = 0 := by
  have hrow : ∀ p < 4, RegRow.of? (Reg.pipeTuneSel p) = RegRow.of? (Reg.pipeTuneSel 0) := by decide
  rw [hrow p hp]
  exact ⟨_, rfl, rfl, rfl⟩

theorem rf_writeReg_plain (s : State) (tag : Nat) {off : Nat} (v : W32) (f : Fld)
    (h : ∃ r, RegRow.of? off = some r ∧ r.rw ||| r.rwl = BitVec.allOnes 32 ∧ r.w1c = 0) :
    (s.writeReg tag off v).rf off f = v.fld f := by
  obtain ⟨r, hrow, hrw, hw1c⟩ := h
  unfold State.rf
  rw [s.rd_writeReg_same tag v hrow, RegRow.written_plain hrw hw1c]

/-! What a stream's policy, pipe and release counts rest on. -/

theorem inlinePipe_of_sections {s t : State} (h : t.sections = s.sections) (n : Nat) : t.inlinePipe n = s.inlinePipe n := by
  unfold State.inlinePipe State.pipeMode State.pipePort State.pipeVc State.sec
  rw [h]

theorem stops_of_sections {s t : State} (h : t.sections = s.sections) (n : Nat) : t.stops n = s.stops n := by
  unfold State.stops State.policy State.sec
  rw [h]

/-- RELEASED rests on the stream, on the GTS and on the stream's register. -/
theorem slotFree_of {s t : State} {n : Nat} (hstream : t.stream n = s.stream n) (hgts : t.gts = s.gts)
    (hrel : t.rd (Reg.csiVcRel (n / 4) (n % 4)) = s.rd (Reg.csiVcRel (n / 4) (n % 4))) (frame log2 : Nat) :
    t.slotFree n frame log2 = s.slotFree n frame log2 := by
  have hreleased : t.released n = s.released n := by simp only [State.released, State.rf, hstream, hgts, hrel]
  simp only [State.slotFree, hreleased]

/-! Frames begin. -/

/-- An entry is read by one read of its bytes. `State.readEnt` is unfolded as a constant, without arguments: the kernel would
otherwise run the read, whose length is a numeral. -/
theorem readEnt_reads {s u : State} {w : Who} {n : Nat} {e : List Byte} (h : s.readEnt w n = (some e, u)) :
    ∃ bad, s.vread w (s.entVa n) 64 = (some (e, bad), u) := by
  generalize hg : State.readEnt = g at h
  delta State.readEnt at hg
  subst hg
  beta_reduce at h
  generalize s.vread w (s.entVa n) 64 = r at h ⊢
  obtain ⟨o, t⟩ := r
  cases o with
  | none => simp at h
  | some b =>
    obtain ⟨hb, rfl⟩ := Prod.mk.inj h
    obtain rfl := Option.some.inj hb
    exact ⟨_, rfl⟩

/-- A read that leaves DRAM as it was leaves memory as it was. -/
theorem DramAccess.sameMem {s t : State} (h : DramAccess s t) (hdram : t.dram = s.dram) : sameMem s t := by
  obtain ⟨⟨_, _, _, _, _, _, _, _, rfl⟩, -⟩ := h
  exact fun a => ⟨congrArg (Mem.rd · a) hdram, rfl, rfl, rfl⟩

theorem readEnt_of_some {s u : State} {w : Who} {n : Nat} {e : List Byte} (h : s.readEnt w n = (some e, u)) :
    DramAccess s u ∧ sameMem s u := by
  obtain ⟨bad, hread⟩ := readEnt_reads h
  have hacc := s.vread_access w (s.entVa n) 64
  have hdram := s.vread_dram w (s.entVa n) 64
  rw [hread] at hacc hdram
  exact ⟨hacc, hacc.sameMem hdram⟩

theorem cfaPeriod_draws (s : State) (t : Option (List Byte)) : ∃ c, (s.cfaPeriod t).2 = { s with freeCount := c } := by
  unfold State.cfaPeriod
  cases t with
  | none => exact ⟨_, rfl⟩
  | some b =>
    cases h : mosaicPeriod (Tune.mosaic b) with
    | none => exact ⟨s.freeCount + 1, by simp only [h]; rfl⟩
    | some p => exact ⟨s.freeCount, by simp only [h]⟩

theorem header_clean (s : State) (p vc : Nat) (inj : Bool) : s.header p vc 0 inj = (true, s) := if_pos rfl

theorem endFrame_of_none {s : State} {n : Nat} (h : (s.stream n).cur = none) : s.endFrame n = s := by
  simp only [State.endFrame, h]

/-- A frame start packet of an enabled stream. -/
theorem csiFrameStart_clean {s : State} {p vc fn : Nat} (hon : s.streamOn (streamOf p vc) = true) :
    s.csiFrameStart p vc fn 0 = s.frameStart (streamOf p vc) fn := by
  simp [State.csiFrameStart, header_clean, hon]

/-- A frame is the one that a raw stream begins. -/
def State.Opens (s : State) (n fn : Nat) (e : List Byte) (g : FrameS) : Prop :=
  g.stream = n ∧ g.frame = (s.stream n).begun ∧ g.slot = (s.stream n).begun % 2 ^ Ent.ringLog2 e ∧ g.fsGts = s.gts ∧
    g.csiFn = fn % 65536 ∧ g.ent = e ∧ g.marks = 0

/-- The state in which a stream receives its next frame. -/
def State.receives (s : State) (n : Nat) : State :=
  (s.setStreamSt n Sst.receiving).wf (Reg.csiVcStatus (n / 4) (n % 4)) F.csiVcStatus_FRAMES (s.stream n).begun

theorem csiVcRel_ne_status (n m : Nat) :
    Reg.csiVcRel (n / 4) (n % 4) ≠ Reg.csiVcStatus (m / 4) (m % 4) := by
  unfold Reg.csiVcRel Reg.csiVcStatus
  omega

theorem State.receives_sections (s : State) (n : Nat) : (s.receives n).sections = s.sections := rfl

theorem receives_slotFree (s : State) (n frame log2 : Nat) : (s.receives n).slotFree n frame log2 = s.slotFree n frame log2 := by
  have hrel : (s.receives n).rd (Reg.csiVcRel (n / 4) (n % 4)) = s.rd (Reg.csiVcRel (n / 4) (n % 4)) := by
    unfold State.receives State.setStreamSt
    rw [State.rd_wf_ne _ _ _ (csiVcRel_ne_status n n), State.rd_wf_ne _ _ _ (csiVcRel_ne_status n n)]
  exact slotFree_of (s := s) (t := s.receives n) rfl rfl hrel frame log2

/-- A frame of a raw stream that finds its slot free starts without a mark. -/
theorem startMark_raw {s : State} {n frame : Nat} {e : List Byte} {t : Option (List Byte)} (hinline : s.inlinePipe n = none)
    (hpipe : Ent.pipe e = false) (hfree : s.slotFree n frame (Ent.ringLog2 e) = true) : s.startMark n frame e t = none := by
  simp [State.startMark, hinline, hpipe, hfree]

/-- A frame of a raw stream begins in its free slot, its tuning record and CFA period already looked up. -/
theorem beginFrame_raw_of {s u v : State} {n fn per : Nat} {e : List Byte} {T : Option (List Byte)}
    (hent : s.readEnt (s.pipeWho n) n = (some e, u)) (hT : u.vpeek (u.tuneVa n) 1024 = T) (hper : u.cfaPeriod T = (per, v))
    (hinline : u.inlinePipe n = none) (hinline' : v.inlinePipe n = none)
    (hstart : (v.receives n).startMark n (v.stream n).begun e T = none) :
    ∃ g, s.beginFrame n fn = (v.receives n).setStream n
      { v.stream n with ent := e, begun := (v.stream n).begun + 1, since := v.gts, lateFs := none, cur := some g } ∧
      v.Opens n fn e g := by
  have hsel : (if (u.inlinePipe n).isSome = true then u.readTune n else (u.vpeek (u.tuneVa n) 1024, u)) = (T, u) := by
    rw [hinline, hT]
    rfl
  generalize hg : State.beginFrame = g
  delta State.beginFrame at hg
  subst hg
  beta_reduce
  rw [hent]
  dsimp only
  rw [hsel]
  dsimp only
  rw [hper]
  dsimp only
  unfold State.receives at hstart ⊢
  rw [hstart, hinline']
  exact ⟨_, rfl, rfl, rfl, rfl, rfl, rfl, rfl, rfl⟩

/-- What a draw of a free value leaves of a stream. -/
theorem drawn_frame {u v : State} {c : Nat} (hv : v = { u with freeCount := c }) (n frame log2 : Nat) :
    v.inlinePipe n = u.inlinePipe n ∧ v.stream n = u.stream n ∧ v.slotFree n frame log2 = u.slotFree n frame log2 := by
  subst hv
  exact ⟨rfl, rfl, rfl⟩

/-- A frame of a raw stream begins in its free slot. -/
theorem beginFrame_raw {s u : State} {n fn : Nat} {e : List Byte} (hinline : s.inlinePipe n = none)
    (hent : s.readEnt (s.pipeWho n) n = (some e, u)) (hpipe : Ent.pipe e = false)
    (hfree : u.slotFree n (u.stream n).begun (Ent.ringLog2 e) = true) (hsec : u.sections = s.sections) :
    ∃ v c g, v = { u with freeCount := c } ∧ s.beginFrame n fn = (v.receives n).setStream n
      { v.stream n with ent := e, begun := (v.stream n).begun + 1, since := v.gts, lateFs := none, cur := some g } ∧
      v.Opens n fn e g := by
  have hinline' : u.inlinePipe n = none := (inlinePipe_of_sections hsec n).trans hinline
  obtain ⟨c, hc⟩ := cfaPeriod_draws u (u.vpeek (u.tuneVa n) 1024)
  obtain ⟨hkeep, hstream, hslot⟩ := drawn_frame hc n (u.stream n).begun (Ent.ringLog2 e)
  have hv := hkeep.trans hinline'
  have hstart := startMark_raw (t := u.vpeek (u.tuneVa n) 1024) ((inlinePipe_of_sections (State.receives_sections _ n) n).trans hv) hpipe
    ((receives_slotFree _ n ..).trans (hslot.trans hfree))
  rw [← hstream] at hstart
  obtain ⟨g, hrun, hopens⟩ := beginFrame_raw_of (fn := fn) hent rfl (Prod.eta _).symm hinline' hv hstart
  exact ⟨_, c, g, hc, hrun, hopens⟩

theorem receives_streamSt (s : State) (n : Nat) : (s.receives n).streamSt n = 2 := by
  unfold State.receives State.streamSt State.setStreamSt
  rw [State.rf_wf_apart _ _ _ _ _ (by decide) (by decide), State.rf_wf_same _ _ _ _ (by decide) (by decide)]
  rfl

theorem streamSt_setStreamSt (s : State) (n v : Nat) (h : v < 16) : (s.setStreamSt n v).streamSt n = v := by
  unfold State.streamSt State.setStreamSt
  rw [State.rf_wf_same _ _ _ _ (by decide) (by decide)]
  exact Nat.mod_eq_of_lt h

/-! Frames end. -/

/-- A complete frame of a raw stream: its record is due. -/
theorem endFrame_raw {s : State} {n : Nat} {f : FrameS} (hcur : (s.stream n).cur = some f) (hn : f.stream = n)
    (hwhole : Ent.height f.ent ≤ f.got) (hinline : s.inlinePipe n = none) (hpipe : Ent.pipe f.ent = false) :
    s.endFrame n = (s.setStream n { s.stream n with cur := none }).recordDue { f with feGts := s.gts, closed := true } := by
  subst hn
  have hinline' : (s.setStream f.stream { s.stream f.stream with cur := none }).inlinePipe f.stream = none :=
    (inlinePipe_of_sections (s := s) rfl _).trans hinline
  simp only [State.endFrame, hcur, if_pos hwhole, State.closeFrame, hinline', hpipe, Bool.false_eq_true, if_false]
  rfl

theorem recordDue_raw {s : State} {f : FrameS} (hinline : s.inlinePipe f.stream = none) : s.recordDue f =
    s.setStream f.stream { s.stream f.stream with
      ready := (s.stream f.stream).ready ++ [{ f with doneGts := s.gts, rows := [], lastS := [], lastL := [] }] } := by
  simp only [State.recordDue, State.markRows, hinline]

/-- The frame end packet of a complete frame of a raw stream. -/
theorem csiFrameEnd_raw {s : State} {p vc n : Nat} {f : FrameS} (hport : streamOf p vc = n) (hon : s.streamOn n = true)
    (hst : s.streamSt n = 2) (hcur : (s.stream n).cur = some f) (hn : f.stream = n) (hwhole : Ent.height f.ent ≤ f.got)
    (hinline : s.inlinePipe n = none) (hpipe : Ent.pipe f.ent = false) :
    ∃ t, s.csiFrameEnd p vc 0 = t ∧ t.streamSt n = 1 ∧ (t.stream n).cur = none ∧ sameMem s t ∧
      ∃ g, (t.stream n).ready = (s.stream n).ready ++ [g] ∧ g.frame = f.frame ∧ g.slot = f.slot ∧ g.marks = f.marks ∧
        g.doneGts = s.gts := by
  subst hn
  have hend := endFrame_raw hcur rfl hwhole hinline hpipe
  rw [recordDue_raw (by exact (inlinePipe_of_sections (s := s) rfl _).trans hinline)] at hend
  have hst' : (s.endFrame f.stream).streamSt f.stream = Sst.receiving := by
    rw [hend]
    exact hst
  have hrun : s.csiFrameEnd p vc 0 = (s.endFrame f.stream).setStreamSt f.stream 1 := by
    simp only [State.csiFrameEnd, header_clean, hport]
    rw [if_neg (by simp [hst, Sst.receiving, hon]), if_pos hst']
    rfl
  rw [hend] at hrun
  refine ⟨_, hrun, streamSt_setStreamSt _ _ _ (by decide), ?_, fun _ => ⟨rfl, rfl, rfl, rfl⟩, ?_⟩
  · refine (congrArg StreamS.cur (State.stream_setStream_same ..)).trans ?_
    exact congrArg StreamS.cur (State.stream_setStream_same ..)
  · refine ⟨_, (congrArg StreamS.ready (State.stream_setStream_same ..)).trans (congrArg (· ++ [_]) ?_), rfl, rfl, rfl, rfl⟩
    have hready := congrArg StreamS.ready (s.stream_setStream_same f.stream { s.stream f.stream with cur := none })
    exact hready

/-! Link loss by time. -/

theorem discardOpen_of_none {s : State} {n mark : Nat} (h : (s.stream n).cur = none) : s.discardOpen n mark = s := by
  simp only [State.discardOpen, h]

theorem streamLost_waiting {s : State} {n mark : Nat} (hst : s.streamSt n = 1 ∨ s.streamSt n = 2) (hcur : (s.stream n).cur = none)
    (hgo : s.stops n = false) : s.streamLost n mark = s.setStreamSt n 4 := by
  have hwas : ¬ (s.streamSt n ≠ Sst.waitFs ∧ s.streamSt n ≠ Sst.receiving) := fun h => hst.elim h.1 h.2
  simp only [State.streamLost, if_neg hwas, discardOpen_of_none hcur, hgo, Bool.false_eq_true, if_false]
  rfl

theorem csiVcRel_not_access : ∀ n < 64, Reg.csiVcRel (n / 4) (n % 4) ∉ accessRegs := by decide +kernel

/-- Settles O40: a raw stream's frame begins with one read of its entry, and ends with its record due. -/
theorem framesBeginAndEnd : Obligations.FramesBeginAndEnd := by
  unfold Obligations.FramesBeginAndEnd
  intro s u p vc fn t0 e f n x hup hp hvc hport hon
  have hn : n < 64 := by omega
  have hguard : (decide (p < 16) && decide (vc < 4) && s.portOn p) = true := by simp [hp, hvc, hport]
  have hstart : ∀ t, s.frameStart n fn = t → exec (.csiFrameStart p vc fn 0) s = .next t := fun t ht =>
    exec_fabric (guarded _ (·.csiFrameStart p vc fn 0)) hup ((guarded_of_true _ s hguard).trans
      ((csiFrameStart_clean hon).trans ht)) rfl
  refine ⟨fun hst hcur hinline hent hpipe hfree => ?_, fun hst hcur => ?_, fun hst hcur hf hwhole hinline hpipe => ?_,
    fun hst hcur htime hne hgo => ?_⟩
  · obtain ⟨hacc, hmem⟩ := readEnt_of_some hent
    have hsame : u.sections = s.sections ∧ u.stream n = s.stream n ∧ u.gts = s.gts := by
      obtain ⟨⟨_, _, _, _, _, _, _, _, rfl⟩, -⟩ := hacc
      exact ⟨rfl, rfl, rfl⟩
    obtain ⟨hsec, hstream, hgts⟩ := hsame
    have hrel := csiVcRel_not_access n hn
    have hfree' : u.slotFree n (u.stream n).begun (Ent.ringLog2 e) = true := by
      rw [hstream, slotFree_of hstream hgts (hacc.2 _ hrel)]
      exact hfree
    obtain ⟨v, c, g, hv, hrun, hstream', hframe, hslot, hfs, hfn, hent', hmarks⟩ :=
      beginFrame_raw (fn := fn) hinline hent hpipe hfree' hsec
    have hv' : v.stream n = s.stream n ∧ v.gts = s.gts ∧ sameMem s v := by
      subst hv
      exact ⟨hstream, hgts, hmem⟩
    obtain ⟨hvstream, hvgts, hvmem⟩ := hv'
    rw [hvstream] at hframe hslot
    have hrun' : s.frameStart n fn = s.beginFrame n fn := by
      simp [State.frameStart, endFrame_of_none hcur, hst, Sst.stopped, Sst.waitFs]
    refine ⟨_, hstart _ (hrun'.trans hrun), ?_, receives_streamSt v n, hvmem, g, ?_, hstream', hframe, hslot, hfs.trans hvgts, hfn,
      hent', hmarks⟩
    · rw [State.stream_setStream_same, hvstream]
    · rw [State.stream_setStream_same]
  · refine hstart _ ?_
    simp only [State.frameStart, endFrame_of_none hcur, if_pos (show s.streamSt n = Sst.stopped from hst)]
    rfl
  · obtain ⟨t, hrun, hspec⟩ := csiFrameEnd_raw (rfl : streamOf p vc = n) hon hst hcur hf hwhole hinline hpipe
    exact ⟨t, exec_fabric (guarded _ (·.csiFrameEnd p vc 0)) hup ((guarded_of_true _ s hguard).trans hrun) rfl, hspec⟩
  · have hlost := streamLost_waiting (mark := Mk.timeout) (.inl hst) hcur hgo
    refine ⟨fun hdue => ?_, fun hwait => ?_⟩
    · refine exec_fabric (guarded _ (·.streamTimeout n)) hup ((guarded_of_true _ s (decide_eq_true hn)).trans ?_) rfl
      unfold State.streamTimeout
      dsimp only
      rw [if_neg (by rw [htime]; exact not_or.2 ⟨hne, Nat.not_lt.2 hdue⟩)]
      exact hlost
    · refine exec_fabric (guarded _ (·.streamTimeout n)) hup ((guarded_of_true _ s (decide_eq_true hn)).trans ?_) rfl
      unfold State.streamTimeout
      dsimp only
      rw [if_pos (by rw [htime]; exact .inr hwait)]

end Sys2Proof.Machine
end

section
/-! SUPPORT. Frame records, releases, tuning selections and RESTART (R580, R581, R585, R586, R594). -/
namespace Sys2Proof.Machine
open Sys2Proof

/-- The oldest record that is due is written, and its vector signalled. -/
theorem frameRecord_written {s w : State} {n : Nat} {f : FrameS} {l : List FrameS} (hn : n < 64) (hready : (s.stream n).ready = f :: l)
    (hwrite : (s.setStream n { s.stream n with ready := l, recs := (s.stream n).recs + 1 }).vwrite (s.pipeWho n)
      (Ent.recVa f.ent + 64 * ((s.stream n).recs % 2 ^ Ent.recLog2 f.ent)) (f.record ((s.stream n).recs + 1)) = (true, w)) :
    s.frameRecord n = w.signal (Ent.vector f.ent) := by
  unfold State.frameRecord
  dsimp only
  rw [hready]
  dsimp only
  rw [if_pos hn, hwrite]
  rfl

theorem frameRecord_none {s : State} {n : Nat} (hready : (s.stream n).ready = []) : s.frameRecord n = s := by
  unfold State.frameRecord
  dsimp only
  rw [hready]

theorem stream_of_vwrite {s w : State} {who : Who} {va : Nat} {b : List Byte} {o : Bool} (h : s.vwrite who va b = (o, w)) (n : Nat) :
    w.stream n = s.stream n := by
  have hacc := s.vwrite_access who va b
  rw [h] at hacc
  obtain ⟨⟨_, _, _, _, _, _, _, _, rfl⟩, -⟩ := hacc
  rfl

/-! Writes of the stream registers. -/

theorem csiVcStatus_kept {n : Nat} (s : State) (tag : Nat) (v : W32) :
    (s.writeReg tag (Reg.csiVcCtrl (n / 4) (n % 4)) v).streamSt n = s.streamSt n := by
  refine s.rf_writeReg_ne tag v _ ?_ (not_mem_errRegs ?_)
  · unfold Reg.csiVcStatus Reg.csiVcCtrl
    omega
  · unfold Reg.csiVcStatus
    omega

theorem setStreamSt_stream (s : State) (n v m : Nat) : (s.setStreamSt n v).stream m = s.stream m := rfl
theorem setStreamSt_gts (s : State) (n v : Nat) : (s.setStreamSt n v).gts = s.gts := rfl

/-- RESTART of a stopped stream without a frame start of its own. -/
theorem csiRestart_stopped {s : State} {tag n : Nat} {v : W32} (hgo : v.fld F.csiVcCtrl_RESTART = 1) (hst : s.streamSt n = 3)
    (hlate : (s.stream n).lateFs = none) :
    s.csiRestart tag (n / 4) (n % 4) v = ((s.writeReg tag (Reg.csiVcCtrl (n / 4) (n % 4)) v).setStreamSt n 1).setStream n
      { s.stream n with since := s.gts, lateFs := none } := by
  have hst' := (csiVcStatus_kept (n := n) s tag v).trans hst
  obtain ⟨_, _, _, _, hw⟩ := s.writeReg_write tag (Reg.csiVcCtrl (n / 4) (n % 4)) v
  have hstream : (s.writeReg tag (Reg.csiVcCtrl (n / 4) (n % 4)) v).stream n = s.stream n ∧
      (s.writeReg tag (Reg.csiVcCtrl (n / 4) (n % 4)) v).gts = s.gts := by
    rw [hw]
    exact ⟨rfl, rfl⟩
  obtain ⟨hstream, hgts⟩ := hstream
  have hport : streamOf (n / 4) (n % 4) = n := by unfold streamOf; omega
  unfold State.csiRestart
  dsimp only
  rw [hport, if_neg (by rw [hgo, hst']; decide), setStreamSt_stream, hstream, setStreamSt_gts, hgts, hlate]
  rfl

/-- Without RESTART a write of CSI_VC_CTRL is a write of the register alone. -/
theorem csiRestart_none {s : State} {tag n : Nat} {v : W32} (hgo : v.fld F.csiVcCtrl_RESTART = 0) :
    s.csiRestart tag (n / 4) (n % 4) v = s.writeReg tag (Reg.csiVcCtrl (n / 4) (n % 4)) v := if_pos (.inl hgo)

/-- Settles O41: each write keeps what stood before its cycle, and the registers it writes are plain. -/
theorem streamsAreRecordedAndReleased : Obligations.StreamsAreRecordedAndReleased := by
  unfold Obligations.StreamsAreRecordedAndReleased
  intro s w tag n p v f l hup
  refine ⟨fun hn hserves hready hwrite => ⟨?_, ?_, ?_⟩, fun hn hidle => ?_, fun hn => ?_, fun hlo hhi => ?_, fun hp => ?_,
    fun hn hgo hst hlate => ?_, fun hn hgo => ?_⟩
  · exact exec_fabric (guarded _ (·.frameRecord n)) hup ((guarded_of_true _ s (by simp [hserves]; omega)).trans
      (frameRecord_written hn hready hwrite)) rfl
  · rw [stream_of_vwrite hwrite]
    exact congrArg StreamS.ready (s.stream_setStream_same n _)
  · rw [stream_of_vwrite hwrite]
    exact congrArg StreamS.recs (s.stream_setStream_same n _)
  · refine exec_fabric (guarded (decide (n < 128) && s.dramServes) (·.frameRecord n)) hup ?_ rfl
    rcases hidle with h | h
    · exact guarded_of_fixed (frameRecord_none h) _
    · rw [h, Bool.and_false]
      rfl
  · have hrun : s.csiRel tag n v = (s.keepRel n).writeReg tag (Reg.csiVcRel (n / 4) (n % 4)) v := if_pos hn
    have hrel := rf_writeReg_plain (s.keepRel n) tag v F.csiVcRel_RELEASED (csiVcRel_row hn)
    have hregs := (s.keepRel n).writeReg_sameRegs tag (Reg.csiVcRel (n / 4) (n % 4)) v
    have hwrite := (s.keepRel n).writeReg_write tag (Reg.csiVcRel (n / 4) (n % 4)) v
    have hstream : ((s.keepRel n).writeReg tag (Reg.csiVcRel (n / 4) (n % 4)) v).stream n =
        { s.stream n with relOld := s.released n, relAt := some s.gts } := by
      obtain ⟨_, _, _, _, hw⟩ := hwrite
      rw [hw]
      exact s.stream_setStream_same n _
    refine ⟨_, exec_fabric (guarded _ (·.csiRel tag n v)) hup ((guarded_of_true _ s (decide_eq_true (by omega))).trans hrun) rfl,
      ?_, ?_, hrel, hregs, ?_⟩
    · rw [hstream]
    · rw [hstream]
    · exact hwrite.sameMem
  · have hrun : s.csiRel tag n v = (s.keepRel n).setStream n { (s.keepRel n).stream n with rel := v.toNat % 65536 } :=
      if_neg (Nat.not_lt.2 hlo)
    exact ⟨_, exec_fabric (guarded _ (·.csiRel tag n v)) hup ((guarded_of_true _ s (decide_eq_true hhi)).trans hrun) rfl,
      congrArg StreamS.rel ((s.keepRel n).stream_setStream_same n _), rfl⟩
  · have hrel := rf_writeReg_plain (s.setPipe p { s.pipe p with selOld := s.tuneSel p, selAt := some s.gts }) tag v
      F.pipeTuneSel_SEL (pipeTuneSel_row hp)
    have hregs := (s.setPipe p { s.pipe p with selOld := s.tuneSel p, selAt := some s.gts }).writeReg_sameRegs tag (Reg.pipeTuneSel p) v
    have hpipe : (s.tuneSelWrite tag p v).pipe p = { s.pipe p with selOld := s.tuneSel p, selAt := some s.gts } := by
      obtain ⟨_, _, _, _, hw⟩ :=
        (s.setPipe p { s.pipe p with selOld := s.tuneSel p, selAt := some s.gts }).writeReg_write tag (Reg.pipeTuneSel p) v
      unfold State.tuneSelWrite
      rw [hw]
      exact s.pipe_setPipe_same p _
    refine ⟨_, exec_fabric (guarded _ (·.tuneSelWrite tag p v)) hup (guarded_of_true _ s (decide_eq_true hp)) rfl, ?_, ?_, hrel, hregs⟩
    · rw [hpipe]
    · rw [hpipe]
  · have hguard : (decide (n / 4 < 16) && decide (n % 4 < 4)) = true := by simp; omega
    refine ⟨_, exec_fabric (guarded _ (·.csiRestart tag (n / 4) (n % 4) v)) hup ((guarded_of_true _ s hguard).trans
      (csiRestart_stopped hgo hst hlate)) rfl, streamSt_setStreamSt _ n 1 (by decide), ?_, ?_⟩
    · exact congrArg StreamS.since (State.stream_setStream_same _ n _)
    · exact (s.writeReg_write tag (Reg.csiVcCtrl (n / 4) (n % 4)) v).sameMem
  · have hguard : (decide (n / 4 < 16) && decide (n % 4 < 4)) = true := by simp; omega
    refine ⟨_, exec_fabric (guarded _ (·.csiRestart tag (n / 4) (n % 4) v)) hup ((guarded_of_true _ s hguard).trans
      (csiRestart_none hgo)) rfl, csiVcStatus_kept s tag v, ?_⟩
    obtain ⟨_, _, _, _, hw⟩ := s.writeReg_write tag (Reg.csiVcCtrl (n / 4) (n % 4)) v
    rw [hw]

end Sys2Proof.Machine
end

section
/-! SUPPORT. Lines, link loss and return, and the discovery of cameras (R569, R574, R575, R596 to R598). -/
namespace Sys2Proof.Machine
open Sys2Proof

/-! Lines. -/

/-- What places a frame and counts its lines. -/
def FrameS.place (f : FrameS) : Nat × Nat × Nat × Nat := (f.got, f.lines, f.frame, f.slot)

/-- The marks of a line change the marks alone. -/
theorem lineMarks_frame (f : FrameS) (d : List Byte) : ∃ m, f.lineMarks d = { f with marks := m } := by
  unfold FrameS.lineMarks
  dsimp only
  split_ifs <;> exact ⟨_, rfl⟩

theorem place_spillLine (f : FrameS) (mode fill y : Nat) (whole : Bool) (l : List (Option Nat)) :
    (f.spillLine mode fill y whole l).2.place = f.place := by
  unfold FrameS.spillLine
  dsimp only
  split <;> split <;> rfl

theorem place_passLine (s : State) (f : FrameS) (l : List Nat) :
    (s.passLine f l).1.place = (f.got + 1, f.lines, f.frame, f.slot) := by
  unfold State.passLine
  dsimp only
  split <;> rfl

section
variable {s : State} {p vc dt : Nat} {d : List Byte}

/-- A line packet of a channel that is not enabled. -/
theorem csiLine_off (hone : s.injArmed 0xE 0 1 (streamOf p vc) = false) (hoff : s.streamOn (streamOf p vc) = false) :
    s.csiLine p vc false dt 0 true d = s.bumpSat (Reg.csiPortErr p) F.csiPortErr_VC_OTHER := by
  simp [State.csiLine, State.inject_of_not_armed hone, header_clean, hoff]

/-- A line packet of another data type. -/
theorem csiLine_other (hone : s.injArmed 0xE 0 1 (streamOf p vc) = false) (hon : s.streamOn (streamOf p vc) = true)
    (hdt : dt ≠ Ent.dt (s.stream (streamOf p vc)).ent) (hcur : (s.stream (streamOf p vc)).cur = none) :
    s.csiLine p vc false dt 0 true d = s.bumpSat (Reg.csiVcErr p vc) F.csiVcErr_DT_OTHER := by
  have hstay : (s.bumpSat (Reg.csiVcErr p vc) F.csiVcErr_DT_OTHER).modOpen (streamOf p vc) (fun f => f.mark Mk.dtOther) =
      s.bumpSat (Reg.csiVcErr p vc) F.csiVcErr_DT_OTHER := by
    have hcur' : ((s.bumpSat (Reg.csiVcErr p vc) F.csiVcErr_DT_OTHER).stream (streamOf p vc)).cur = none := hcur
    simp only [State.modOpen, hcur']
  simp only [State.csiLine, State.inject_of_not_armed hone, header_clean, hon, Bool.not_true, Bool.or_self, Bool.false_eq_true,
    if_false, if_pos hdt, hstay]

/-- A sound line packet of an open frame. -/
theorem csiLine_sound {f : FrameS} (hone : s.injArmed 0xE 0 1 (streamOf p vc) = false)
    (htwo : s.injArmed 0xE 0 2 (streamOf p vc) = false) (hon : s.streamOn (streamOf p vc) = true)
    (hdt : dt = Ent.dt (s.stream (streamOf p vc)).ent) (hcur : (s.stream (streamOf p vc)).cur = some f) :
    s.csiLine p vc false dt 0 true d = s.frameLine f true d := by
  simp [State.csiLine, State.inject_of_not_armed hone, State.inject_of_not_armed htwo, header_clean, hon, hdt, hcur]

end

/-- A sound line of an open frame goes on, and the frame counts it. -/
theorem frameLine_sound {s : State} {f : FrameS} {d : List Byte} (hroom : f.got < Ent.height f.ent) (hgo : s.stops f.stream = false) :
    ∃ g, ((s.frameLine f true d).stream f.stream).cur = some g ∧ g.place = (f.got + 1, f.lines + 1, f.frame, f.slot) := by
  obtain ⟨m, hm⟩ := lineMarks_frame f d
  unfold State.frameLine
  dsimp only
  rw [if_pos rfl, if_neg (Nat.not_le.2 hroom), if_pos rfl, hm, hgo]
  refine ⟨_, congrArg StreamS.cur (State.stream_setStream_same ..), ?_⟩
  rw [place_passLine]
  have hplace := place_spillLine { f with marks := m, lines := f.lines + 1 } (s.policy f.stream).1 (s.policy f.stream).2 f.got
    (!true) (lineSamples f.ent d)
  obtain ⟨hgot, hrest⟩ := Prod.mk.inj hplace
  exact Prod.ext (congrArg (· + 1) hgot) hrest

/-! One stream of a port's four. -/

/-- A fold that changes a part of the state at one item of its list alone. -/
theorem foldl_once {σ α β : Type} {g : σ → α → σ} {φ : σ → β} {ψ : β → β} {x : α} (hx : ∀ s, φ (g s x) = ψ (φ s))
    (hne : ∀ s y, y ≠ x → φ (g s y) = φ s) : ∀ (l : List α) (s : σ), l.Nodup → x ∈ l → φ (l.foldl g s) = ψ (φ s)
  | [], _, _, hmem => by cases hmem
  | y :: l, s, hnd, hmem => by
    obtain ⟨hy, hl⟩ := List.nodup_cons.1 hnd
    rw [List.foldl_cons]
    by_cases hyx : y = x
    · subst hyx
      rw [← hx s]
      clear hx hmem
      have hrest : ∀ (l : List α) (s : σ), y ∉ l → φ (l.foldl g s) = φ s := by
        intro l
        induction l with
        | nil => exact fun _ _ => rfl
        | cons z l ih =>
          intro s hz
          obtain ⟨hz, hl⟩ := not_or.1 (fun h => hz (List.mem_cons.2 h))
          exact (ih _ hl).trans (hne s z fun h => hz h.symm)
      exact hrest l _ hy
    · rw [foldl_once hx hne l _ hl ((List.mem_cons.1 hmem).resolve_left fun h => hyx h.symm), hne s y hyx]

/-! Link loss and return. -/

/-- A state in which only streams and pipes may have changed. -/
def OnlyCamera (s t : State) : Prop := ∃ a b, t = { s with streams := a, pipes := b }

theorem OnlyCamera.trans {s t u : State} : OnlyCamera s t → OnlyCamera t u → OnlyCamera s u := by
  rintro ⟨a, b, rfl⟩ ⟨a', b', rfl⟩
  exact ⟨a', b', rfl⟩

theorem OnlyCamera.refl (s : State) : OnlyCamera s s := ⟨_, _, rfl⟩

theorem OnlyCamera.setStream (s : State) (n : Nat) (x : StreamS) : OnlyCamera s (s.setStream n x) := ⟨_, _, rfl⟩

theorem OnlyCamera.setPipe (s : State) (n : Nat) (x : PipeS) : OnlyCamera s (s.setPipe n x) := ⟨_, _, rfl⟩

theorem OnlyCamera.frame {s t : State} (h : OnlyCamera s t) : t.live = s.live ∧ t.sections = s.sections := by
  obtain ⟨a, b, rfl⟩ := h
  exact ⟨rfl, rfl⟩

theorem OnlyCamera.ite {s t u : State} (c : Prop) [Decidable c] (ht : OnlyCamera s t) (hu : OnlyCamera s u) :
    OnlyCamera s (if c then t else u) := by split <;> assumption

theorem markRows_camera (s : State) (f : FrameS) : OnlyCamera s (s.markRows f) := by
  unfold State.markRows
  cases s.inlinePipe f.stream with
  | none => exact .refl s
  | some p => exact .ite _ (.setPipe ..) (.refl s)

theorem recordDue_camera (s : State) (f : FrameS) : OnlyCamera s (s.recordDue f) :=
  (markRows_camera s f).trans (.setStream ..)

theorem jetAbandon_camera (s : State) (n frame : Nat) : OnlyCamera s (s.jetAbandon n frame) := by
  unfold State.jetAbandon
  cases s.inlinePipe n with
  | none => exact .refl s
  | some p => exact .ite _ (.setPipe ..) (.refl s)

theorem discard_camera (s : State) (f : FrameS) : OnlyCamera s (s.discard f) := (jetAbandon_camera ..).trans (recordDue_camera ..)

theorem discardOpen_camera (s : State) (n mark : Nat) : OnlyCamera s (s.discardOpen n mark) := by
  unfold State.discardOpen
  cases (s.stream n).cur with
  | none => exact .refl s
  | some f => exact (OnlyCamera.setStream ..).trans (discard_camera ..)

theorem csiVcStatus_not_safe : ∀ n < 64, Reg.csiVcStatus (n / 4) (n % 4) ∉ safeRegs := by decide +kernel

theorem csiVcStatus_ne {m n : Nat} (h : m ≠ n) : Reg.csiVcStatus (m / 4) (m % 4) ≠ Reg.csiVcStatus (n / 4) (n % 4) := by
  unfold Reg.csiVcStatus
  omega

/-- A stream enters STOPPED. -/
theorem stopStream_frame (s : State) (n : Nat) : (s.stopStream n).sections = s.sections ∧
    ∀ off, off ∉ safeRegs → (s.stopStream n).rd off = (s.setStreamSt n 3).rd off := by
  refine ⟨?_, fun off hoff => State.cause_rd _ _ _ hoff⟩
  obtain ⟨_, _, _, _, h⟩ := (s.setStreamSt n Sst.stopped).cause_reports 12
  exact (congrArg State.sections h).trans rfl

/-- The state that a stream's link loss leaves it in. -/
def lostSt (st : Nat) (stops : Bool) : Nat := if st = 1 ∨ st = 2 then if stops then 3 else 4 else st

theorem streamLost_frame (s : State) (n mark : Nat) : (s.streamLost n mark).sections = s.sections ∧
    (∀ off, off ∉ safeRegs → off ≠ Reg.csiVcStatus (n / 4) (n % 4) → (s.streamLost n mark).rd off = s.rd off) ∧
    (n < 64 → (s.streamLost n mark).streamSt n = lostSt (s.streamSt n) (s.stops n)) := by
  obtain ⟨hlive, hsec⟩ := (discardOpen_camera s n mark).frame
  have hstops : (s.discardOpen n mark).stops n = s.stops n := stops_of_sections hsec n
  have hrd : ∀ off, off ≠ Reg.csiVcStatus (n / 4) (n % 4) → ∀ v, ((s.discardOpen n mark).setStreamSt n v).rd off = s.rd off :=
    fun off hne v => (State.rd_wf_ne _ _ _ hne).trans (State.rd_of_live hlive off)
  by_cases hst : s.streamSt n = 1 ∨ s.streamSt n = 2
  · have hlost : s.streamLost n mark = if s.stops n then (s.discardOpen n mark).stopStream n
        else (s.discardOpen n mark).setStreamSt n 4 := by
      unfold State.streamLost
      dsimp only
      rw [if_neg fun h => hst.elim h.1 h.2, hstops]
      rfl
    rw [hlost, lostSt, if_pos hst]
    cases s.stops n with
    | true =>
      obtain ⟨hsec', hrd'⟩ := stopStream_frame (s.discardOpen n mark) n
      refine ⟨hsec'.trans hsec, fun off hsafe hne => (hrd' off hsafe).trans (hrd off hne 3), fun hn => ?_⟩
      refine (congrArg (W32.fld · F.csiVcStatus_STATE) (hrd' _ (csiVcStatus_not_safe n hn))).trans ?_
      exact streamSt_setStreamSt _ n 3 (by decide)
    | false => exact ⟨hsec, fun off _ hne => hrd off hne 4, fun _ => streamSt_setStreamSt _ n 4 (by decide)⟩
  · have hlost : s.streamLost n mark = s := by
      unfold State.streamLost
      dsimp only
      exact if_pos (not_or.1 hst)
    rw [hlost, lostSt, if_neg hst]
    exact ⟨rfl, fun _ _ _ => rfl, fun _ => rfl⟩

/-! FWP1's view of the cameras. -/

theorem setCam_rd (s : State) (n st off : Nat) (h : off ≠ Reg.fwpCam n) : (s.setCam n st).rd off = s.rd off := by
  unfold State.setCam
  split
  · rfl
  · rw [State.rd_wf_ne _ _ _ h, State.rd_wf_ne _ _ _ h]

theorem setCam_state (s : State) (n st : Nat) (h : st < 16) : (s.setCam n st).rf (Reg.fwpCam n) F.fwpCam_STATE = st := by
  unfold State.setCam
  split
  next hst => exact hst
  next =>
    rw [State.rf_wf_apart _ _ _ _ _ (by decide) (by decide), State.rf_wf_same _ _ _ _ (by decide) (by decide)]
    exact Nat.mod_eq_of_lt h

/-- The registers of a port's receiver and of its streams stand apart from those of FWP1. -/
theorem fwpCam_apart : (∀ p < 16, ∀ n < 64, Reg.csiPortStatus p ≠ Reg.fwpCam n) ∧
    ∀ m < 64, ∀ n < 64, Reg.csiVcStatus (m / 4) (m % 4) ≠ Reg.fwpCam n := by
  refine ⟨fun p _ n _ => ?_, fun m _ n _ => ?_⟩
  · unfold Reg.csiPortStatus Reg.fwpCam
    omega
  · unfold Reg.csiVcStatus Reg.fwpCam
    omega

theorem csiPortStatus_apart : ∀ p < 16, Reg.csiPortStatus p ∉ safeRegs ∧
    ∀ n < 64, Reg.csiPortStatus p ≠ Reg.csiVcStatus (n / 4) (n % 4) := by
  refine fun p hp => ⟨?_, fun n _ => ?_⟩
  · revert p
    decide
  · unfold Reg.csiPortStatus Reg.csiVcStatus
    omega

/-- A port's link goes down, as the receiver shows it. -/
def State.linkLost (s : State) (p : Nat) : State := (s.setLink p 0).wf (Reg.csiPortStatus p) F.csiPortStatus_DESKEWED 0

/-- The four streams of a port lose their link. -/
def State.portLost (s : State) (p : Nat) : State :=
  [0, 1, 2, 3].foldl (fun s v => s.streamLost (streamOf p v) Mk.linkDown) s

/-- FWP1 shows the loss of a port's link. -/
def State.camsLost (s : State) (p : Nat) : State :=
  [0, 1, 2, 3].foldl (fun s v =>
    let n := streamOf p v
    if s.rf (Reg.fwpCam n) F.fwpCam_STATE = Cam.streaming then s.setCam n Cam.linkDown else s) s

theorem linkDown_eq (s : State) (p : Nat) : s.linkDown p =
    if !((s.linkLost p).portLost p).fwUp 1 then (s.linkLost p).portLost p else ((s.linkLost p).portLost p).camsLost p := rfl

theorem camsLost_rd (s : State) {p off : Nat} (hp : p < 16) (h : ∀ n < 64, off ≠ Reg.fwpCam n) :
    (s.camsLost p).rd off = s.rd off := by
  refine rd_foldl _ off _ s fun u v hv => ?_
  have hv : v < 4 := by simp at hv; omega
  dsimp only
  split
  · exact setCam_rd _ _ _ _ (h _ (by unfold streamOf; omega))
  · rfl

theorem linkDown_rd (s : State) {p off : Nat} (hp : p < 16) (h : ∀ n < 64, off ≠ Reg.fwpCam n) :
    (s.linkDown p).rd off = ((s.linkLost p).portLost p).rd off := by
  rw [linkDown_eq]
  split
  · rfl
  · exact camsLost_rd _ hp h

theorem streamOf_inj {p vc v : Nat} (h : v ≠ vc) : streamOf p v ≠ streamOf p vc := by
  unfold streamOf
  omega

/-- A port's link loss takes each of its streams by its policy. -/
theorem portLost_streamSt (s : State) {p vc : Nat} (hp : p < 16) (hvc : vc < 4) :
    (s.portLost p).streamSt (streamOf p vc) = lostSt (s.streamSt (streamOf p vc)) (s.stops (streamOf p vc)) := by
  have hn : streamOf p vc < 64 := by unfold streamOf; omega
  have hfold := foldl_once (g := fun s v => State.streamLost s (streamOf p v) Mk.linkDown)
    (φ := fun s => (s.streamSt (streamOf p vc), s.stops (streamOf p vc))) (ψ := fun r => (lostSt r.1 r.2, r.2)) (x := vc)
    (fun u => by
      obtain ⟨hsec, -, hst⟩ := streamLost_frame u (streamOf p vc) Mk.linkDown
      exact Prod.ext (hst hn) (stops_of_sections hsec _))
    (fun u v hv => by
      obtain ⟨hsec, hrd, -⟩ := streamLost_frame u (streamOf p v) Mk.linkDown
      exact Prod.ext (congrArg (W32.fld · F.csiVcStatus_STATE)
        (hrd _ (csiVcStatus_not_safe _ hn) (csiVcStatus_ne (streamOf_inj hv).symm))) (stops_of_sections hsec _))
    [0, 1, 2, 3] s (by decide) (by simp; omega)
  exact congrArg Prod.fst hfold

theorem portLost_rd (s : State) {p off : Nat} (hp : p < 16) (hsafe : off ∉ safeRegs)
    (h : ∀ n < 64, off ≠ Reg.csiVcStatus (n / 4) (n % 4)) : (s.portLost p).rd off = s.rd off :=
  rd_foldl _ off _ s fun u v hv => (streamLost_frame u _ _).2.1 off hsafe (h _ (by
    have hv : v < 4 := by simp at hv; omega
    unfold streamOf
    omega))

theorem linkLost_streamSt (s : State) {p n : Nat} (hp : p < 16) (hn : n < 64) : (s.linkLost p).streamSt n = s.streamSt n := by
  have hne := ((csiPortStatus_apart p hp).2 n hn).symm
  unfold State.linkLost State.setLink State.streamSt
  rw [State.rf_wf_ne _ _ _ _ hne, State.rf_wf_ne _ _ _ _ hne]

/-- What a port's link loss leaves. -/
theorem linkDown_spec (s : State) {p vc : Nat} (hp : p < 16) (hvc : vc < 4) :
    (s.linkDown p).rf (Reg.csiPortStatus p) F.csiPortStatus_LINK = 0 ∧
      (s.linkDown p).streamSt (streamOf p vc) = lostSt (s.streamSt (streamOf p vc)) (s.stops (streamOf p vc)) := by
  have hn : streamOf p vc < 64 := by unfold streamOf; omega
  obtain ⟨hsafe, hne⟩ := csiPortStatus_apart p hp
  have hlink := (linkDown_rd s hp (fwpCam_apart.1 p hp)).trans (portLost_rd (s.linkLost p) hp hsafe hne)
  refine ⟨(congrArg (W32.fld · F.csiPortStatus_LINK) hlink).trans ?_, ?_⟩
  · change (s.linkLost p).rf (Reg.csiPortStatus p) F.csiPortStatus_LINK = 0
    unfold State.linkLost State.setLink
    rw [State.rf_wf_apart _ _ _ _ _ (by decide) (by decide), State.rf_wf_same _ _ _ _ (by decide) (by decide)]
    rfl
  · refine (congrArg (W32.fld · F.csiVcStatus_STATE) (linkDown_rd s hp (fwpCam_apart.2 _ hn))).trans ?_
    refine (portLost_streamSt (s.linkLost p) hp hvc).trans ?_
    rw [linkLost_streamSt s hp hn]
    rfl

/-- A port's link is back, as the receiver shows it. -/
def State.linkBack (s : State) (p : Nat) : State := (s.setLink p 2).wf (Reg.csiPortStatus p) F.csiPortStatus_DESKEWED (b2n true)

/-- A stream that lost its link waits for a frame start. -/
def State.streamBack (s : State) (n : Nat) : State :=
  if s.streamSt n = Sst.linkDown then (s.setStreamSt n Sst.waitFs).setStream n { s.stream n with since := s.gts } else s

/-- The four streams of a port have their link back. -/
def State.portBack (s : State) (p : Nat) : State := [0, 1, 2, 3].foldl (fun s v => s.streamBack (streamOf p v)) s

/-- FWP1 shows the return of a port's link. -/
def State.camsBack (s : State) (p : Nat) : State :=
  [0, 1, 2, 3].foldl (fun s v =>
    let n := streamOf p v
    let c := s.rf (Reg.fwpCam n) F.fwpCam_STATE
    if c = Cam.configuring ∨ c = Cam.linkDown then s.setCam n Cam.streaming else s) s

theorem linkUp_eq {s : State} {p : Nat} (hon : s.portOn p = true) : s.linkUp p true =
    if !((s.linkBack p).portBack p).fwUp 1 then (s.linkBack p).portBack p else ((s.linkBack p).portBack p).camsBack p :=
  if_neg (by rw [hon]; decide)

theorem camsBack_rd (s : State) {p off : Nat} (hp : p < 16) (h : ∀ n < 64, off ≠ Reg.fwpCam n) :
    (s.camsBack p).rd off = s.rd off := by
  refine rd_foldl _ off _ s fun u v hv => ?_
  have hv : v < 4 := by simp at hv; omega
  dsimp only
  split
  · exact setCam_rd _ _ _ _ (h _ (by unfold streamOf; omega))
  · rfl

theorem streamBack_rd (s : State) (n off : Nat) (h : off ≠ Reg.csiVcStatus (n / 4) (n % 4)) : (s.streamBack n).rd off = s.rd off := by
  unfold State.streamBack
  split
  · exact State.rd_wf_ne _ _ _ h
  · rfl

theorem streamBack_streamSt (s : State) (n : Nat) : (s.streamBack n).streamSt n = if s.streamSt n = 4 then 1 else s.streamSt n := by
  by_cases h : s.streamSt n = 4
  · rw [State.streamBack, if_pos (show s.streamSt n = Sst.linkDown from h), if_pos h]
    exact streamSt_setStreamSt s n 1 (by decide)
  · rw [State.streamBack, if_neg (show ¬ s.streamSt n = Sst.linkDown from h), if_neg h]

/-- What the return of a port's link leaves. -/
theorem linkUp_spec {s : State} {p vc : Nat} (hp : p < 16) (hvc : vc < 4) (hon : s.portOn p = true) :
    (s.linkUp p true).rf (Reg.csiPortStatus p) F.csiPortStatus_LINK = 2 ∧
      (s.linkUp p true).rf (Reg.csiPortStatus p) F.csiPortStatus_DESKEWED = 1 ∧
      (s.linkUp p true).streamSt (streamOf p vc) = if s.streamSt (streamOf p vc) = 4 then 1 else s.streamSt (streamOf p vc) := by
  have hn : streamOf p vc < 64 := by unfold streamOf; omega
  obtain ⟨-, hne⟩ := csiPortStatus_apart p hp
  have hcams : ∀ off, (∀ n < 64, off ≠ Reg.fwpCam n) → (s.linkUp p true).rd off = ((s.linkBack p).portBack p).rd off := by
    intro off hoff
    rw [linkUp_eq hon]
    split
    · rfl
    · exact camsBack_rd _ hp hoff
  have hport : (s.linkUp p true).rd (Reg.csiPortStatus p) = (s.linkBack p).rd (Reg.csiPortStatus p) :=
    (hcams _ (fwpCam_apart.1 p hp)).trans (rd_foldl _ _ _ _ fun u v hv => streamBack_rd u _ _ (hne _ (by
      have hv : v < 4 := by simp at hv; omega
      unfold streamOf
      omega)))
  refine ⟨(congrArg (W32.fld · F.csiPortStatus_LINK) hport).trans ?_, (congrArg (W32.fld · F.csiPortStatus_DESKEWED) hport).trans ?_, ?_⟩
  · change (s.linkBack p).rf (Reg.csiPortStatus p) F.csiPortStatus_LINK = 2
    unfold State.linkBack State.setLink
    rw [State.rf_wf_apart _ _ _ _ _ (by decide) (by decide), State.rf_wf_same _ _ _ _ (by decide) (by decide)]
    rfl
  · change (s.linkBack p).rf (Reg.csiPortStatus p) F.csiPortStatus_DESKEWED = 1
    unfold State.linkBack
    rw [State.rf_wf_same _ _ _ _ (by decide) (by decide)]
    rfl
  · refine (congrArg (W32.fld · F.csiVcStatus_STATE) (hcams _ (fwpCam_apart.2 _ hn))).trans ?_
    have hfold := foldl_once (g := fun s v => State.streamBack s (streamOf p v)) (φ := fun s => s.streamSt (streamOf p vc))
      (ψ := fun st => if st = 4 then 1 else st) (x := vc) (fun u => streamBack_streamSt u _)
      (fun u v hv => congrArg (W32.fld · F.csiVcStatus_STATE) (streamBack_rd u _ _ (csiVcStatus_ne (streamOf_inj hv).symm)))
      [0, 1, 2, 3] (s.linkBack p) (by decide) (by simp; omega)
    refine hfold.trans ?_
    have hst : (s.linkBack p).streamSt (streamOf p vc) = s.streamSt (streamOf p vc) := by
      unfold State.linkBack State.setLink State.streamSt
      rw [State.rf_wf_ne _ _ _ _ (hne _ hn).symm, State.rf_wf_ne _ _ _ _ (hne _ hn).symm]
    rw [hst]

/-! Discovery. -/

/-- What FWP1's probe of a port does with one of its channels, once its scripts fit. -/
def State.probeOne (s : State) (t : List Byte) (port : Nat) (answers : List Nat) (v : Nat) : State :=
  let n := streamOf port v
  let c := camCand t port v
  if c = 0xFF then s.setCam n Cam.notListed
  else
    let a := answers.getD v 0
    if a = 0 then s.setCam n Cam.absent
    else if a = 1 then
      let s := s.wf (Reg.fwpCam n) F.fwpCam_SENSOR c
      s.setCam n (if s.rf (Reg.csiPortStatus port) F.csiPortStatus_LINK = 2 then Cam.streaming else Cam.configuring)
    else if a = 2 then s.setCam n Cam.unknownId
    else (s.wf (Reg.fwpCam n) F.fwpCam_SENSOR c).setCam n Cam.configFail

theorem probe_of_fits {s : State} {p : Nat} {ans : List Nat} (hok : camTableOk s.boot.camTable = true)
    (hfit : (([0, 1, 2, 3].filter fun v => camCand s.boot.camTable p v != 0xFF).map fun v =>
      scriptUs s.boot.camTable (camCand s.boot.camTable p v)).sum ≤ 25000) :
    s.probe p ans = [0, 1, 2, 3].foldl (fun s' v => s'.probeOne s.boot.camTable p ans v)
      (if s.rf (Reg.csiPortStatus p) F.csiPortStatus_LINK = 0 then s.setLink p 1 else s) := by
  unfold State.probe
  dsimp only
  rw [if_neg (by rw [hok]; decide)]
  refine congrArg (List.foldl · _ [0, 1, 2, 3]) ?_
  funext u v
  rw [if_neg (Nat.not_lt.2 hfit)]
  rfl

theorem probeOne_rd (s : State) (t : List Byte) (p : Nat) (ans : List Nat) (v off : Nat) (h : off ≠ Reg.fwpCam (streamOf p v)) :
    (s.probeOne t p ans v).rd off = s.rd off := by
  unfold State.probeOne
  dsimp only
  split_ifs
  all_goals rw [setCam_rd _ _ _ _ h]
  all_goals exact State.rd_wf_ne _ _ _ h

theorem probeOne_state (s : State) (t : List Byte) (p : Nat) (ans : List Nat) (v : Nat) :
    (camCand t p v = 0xFF → (s.probeOne t p ans v).rf (Reg.fwpCam (streamOf p v)) F.fwpCam_STATE = 7) ∧
    (camCand t p v ≠ 0xFF → ans.getD v 0 = 0 → (s.probeOne t p ans v).rf (Reg.fwpCam (streamOf p v)) F.fwpCam_STATE = 1) := by
  unfold State.probeOne
  dsimp only
  refine ⟨fun hc => ?_, fun hc ha => ?_⟩
  · rw [if_pos hc]
    exact setCam_state _ _ 7 (by decide)
  · rw [if_neg hc, if_pos ha]
    exact setCam_state _ _ 1 (by decide)

theorem fwpCam_ne {m n : Nat} (h : m ≠ n) : Reg.fwpCam m ≠ Reg.fwpCam n := by
  unfold Reg.fwpCam
  omega

/-- The state that a probe of a port leaves one of its channels in, where it is the same whatever it was. -/
theorem probe_state {s : State} {p vc st : Nat} {ans : List Nat} (hvc : vc < 4) (hok : camTableOk s.boot.camTable = true)
    (hfit : (([0, 1, 2, 3].filter fun v => camCand s.boot.camTable p v != 0xFF).map fun v =>
      scriptUs s.boot.camTable (camCand s.boot.camTable p v)).sum ≤ 25000)
    (hst : ∀ u : State, (u.probeOne s.boot.camTable p ans vc).rf (Reg.fwpCam (streamOf p vc)) F.fwpCam_STATE = st) :
    (s.probe p ans).rf (Reg.fwpCam (streamOf p vc)) F.fwpCam_STATE = st := by
  rw [probe_of_fits hok hfit]
  exact foldl_once (φ := fun u : State => u.rf (Reg.fwpCam (streamOf p vc)) F.fwpCam_STATE) (ψ := fun _ => st) (x := vc) hst
    (fun u v hv => congrArg (W32.fld · F.fwpCam_STATE) (probeOne_rd u _ _ _ _ _ (fwpCam_ne (streamOf_inj hv).symm)))
    [0, 1, 2, 3] _ (by decide) (by simp; omega)

/-- Settles O42: a port's command treats its four channels one by one, and each channel's registers are its own. -/
theorem linesAndLinks : Obligations.LinesAndLinks := by
  unfold Obligations.LinesAndLinks
  intro s p vc dt d f ans r n hup hp hvc
  refine ⟨fun hport hone htwo => ?_, ?_, fun hport => ?_, fun hrun hdue => ?_, fun hdue => ?_, fun hs ha => ?_, fun hok hfit => ?_⟩
  · have hexec : ∀ t, s.csiLine p vc false dt 0 true d = t → exec (.csiLine p vc false dt 0 true d) s = .next t := fun t ht =>
      exec_fabric (guarded _ (·.csiLine p vc false dt 0 true d)) hup
        ((guarded_of_true _ s (by simp [hp, hvc, hport])).trans ht) rfl
    refine ⟨fun hoff => hexec _ (csiLine_off hone hoff), fun hon hdt hcur => hexec _ (csiLine_other hone hon hdt hcur),
      fun hon hdt hcur hf hroom hgo => ?_⟩
    obtain ⟨g, hg, hplace⟩ := frameLine_sound (d := d) hroom (hf ▸ hgo)
    rw [hf] at hg
    simp only [FrameS.place, Prod.mk.injEq] at hplace
    exact ⟨_, hexec _ (csiLine_sound hone htwo hon hdt hcur), g, hg, hplace⟩
  · obtain ⟨hlink, hst⟩ := linkDown_spec s hp hvc
    refine ⟨_, exec_fabric (guarded _ (·.linkDown p)) hup (guarded_of_true _ s (decide_eq_true hp)) rfl, hlink, fun h => ?_,
      fun h1 h2 => ?_⟩
    · exact hst.trans (if_pos h)
    · exact hst.trans (if_neg (not_or.2 ⟨h1, h2⟩))
  · exact ⟨_, exec_fabric (guarded _ (·.linkUp p true)) hup (guarded_of_true _ s (decide_eq_true hp)) rfl, linkUp_spec hp hvc hport⟩
  · exact exec_fabric (guarded _ (·.probeCycle p ans)) hup (guarded_of_true _ s (by simp [hp, hrun, hdue])) rfl
  · exact exec_fabric (guarded (decide (p < 16) && s.fwUp 1 && s.probeDue p) (·.probeCycle p ans)) hup
      (by rw [hdue, Bool.and_false]; rfl) rfl
  · exact exec_of_answered (State.camProbe ans) hs rfl (if_neg (Nat.not_le.2 ha)) rfl
  · exact ⟨fun hc => probe_state hvc hok hfit fun u => (probeOne_state u _ p ans vc).1 hc,
      fun hc ha => probe_state hvc hok hfit fun u => (probeOne_state u _ p ans vc).2 hc ha⟩

end Sys2Proof.Machine
end

section
/-! SUPPORT. The Weir's admission test (R20, R21, R424, R426, R490, R491, R312). -/
namespace Sys2Proof.Machine
open Sys2Proof

/-! The decision of a test. -/

/-- What the test makes of its oldest descriptor, when the words of the descriptor agree. -/
theorem admissionTest_eq {s u : State} {i : Intake} {rest : List Intake} {c : Option Cert} (hin : s.weir.intake = i :: rest)
    (hheld : s.testsHeld = false) (htwin : i.desc.twinOk = true)
    (hcert : ({ s with weir := { s.weir with intake := rest } } : State).loadCert i.desc.certVa = (c, u))
    (hentries : i.desc.guar = true → ∀ j ∈ s.guarJobs, j.twinOk = true) :
    s.admissionTest = (if i.desc.guar then u.noteTest i.desc.fountain (u.verdict i c).reason else u).conclude i (u.verdict i c) := by
  have hcheck : (if i.desc.guar then ({ s with weir := { s.weir with intake := rest } } : State).checkEntries
      else { s with weir := { s.weir with intake := rest } }) = { s with weir := { s.weir with intake := rest } } := by
    split
    · next hg => exact State.checkEntries_of_twins (hentries hg)
    · rfl
  unfold State.admissionTest
  rw [hin]
  dsimp only
  rw [hheld, hcheck, htwin, if_neg Bool.false_ne_true, if_pos rfl, hcert]

/-! The reason of a decision. -/

section
variable {s : State} {i : Intake} {k : Cert}

theorem verdict_of_twinBad (c : Option Cert) (h : i.desc.twinOk = false) : (s.verdict i c).reason = 0x27 := by
  unfold State.verdict State.decideBe
  rw [h]
  cases i.desc.guar <;> rfl

theorem verdict_none (h : i.desc.twinOk = true) : (s.verdict i none).reason = 0x26 := by
  unfold State.verdict State.decideBe
  rw [h]
  cases i.desc.guar
  · simp [Rs.descInvalid]
  · rfl

/-- The certificate is not found, or a rule of its descriptor is broken. -/
theorem verdict_of_invalid (h : i.desc.twinOk = true) (hbad : s.descOk i = false ∨ s.certFound i k = false) :
    (s.verdict i (some k)).reason = 0x26 := by
  unfold State.verdict State.decideBe
  rw [h]
  cases i.desc.guar <;> rcases hbad with hbad | hbad <;> simp [hbad, Rs.descInvalid]

section
variable (htwin : i.desc.twinOk = true) (hdesc : s.descOk i = true) (hcert : s.certFound i k = true)
include htwin hdesc hcert

theorem verdict_be (hg : i.desc.guar = false) : s.verdict i (some k) =
    if s.ftnWidth i.desc.fountain < k.pw then ⟨Rs.width, 0, s.newJob i k⟩
    else if s.beMemoryRefused (s.newJob i k) then ⟨Rs.memory, 0, s.newJob i k⟩ else ⟨0, 0, s.newJob i k⟩ := by
  unfold State.verdict State.decideBe
  simp only [htwin, hdesc, hcert, hg, Bool.not_true, Bool.not_false, Bool.or_self, Bool.false_eq_true, if_false, if_true,
    Option.getD_some, State.newJob]

theorem verdict_guar (hg : i.desc.guar = true) : s.verdict i (some k) = s.decideGuar i k := by
  unfold State.verdict
  simp [htwin, hdesc, hcert, hg]

end

/-- The width of the Fountain comes first. -/
theorem decideGuar_width (hw : s.ftnWidth i.desc.fountain < k.pw) : (s.decideGuar i k).reason = 0x21 := by
  unfold State.decideGuar
  dsimp only
  rw [if_pos (by split <;> exact hw)]
  rfl

section
variable (hw : k.pw ≤ s.ftnWidth i.desc.fountain)
include hw

theorem decideGuar_full (hfull : 256 ≤ s.guarJobs.length) : (s.decideGuar i k).reason = 0x22 := by
  unfold State.decideGuar
  dsimp only
  rw [if_neg (by split <;> exact Nat.not_lt.2 hw), if_pos hfull]
  rfl

theorem decideGuar_belowFloor (hroom : s.guarJobs.length < 256) (hfloor : s.belowFloor = true) :
    (s.decideGuar i k).reason = 0x25 := by
  unfold State.decideGuar
  dsimp only
  rw [if_neg (by split <;> exact Nat.not_lt.2 hw), if_neg (Nat.not_le.2 hroom), if_pos hfloor]
  rfl

theorem decideGuar_producer (hroom : s.guarJobs.length < 256) (hfloor : s.belowFloor = false) (hphase : i.desc.phase = false)
    (hnone : s.producers k = none) : (s.decideGuar i k).reason = 0x28 := by
  unfold State.decideGuar
  dsimp only
  rw [hphase, if_neg (by exact Nat.not_lt.2 hw), if_neg (Nat.not_le.2 hroom), hfloor, hnone]
  rfl

end

end

/-! Joining the pending jobs. -/

/-- A FREE page that a new job lists is all there is: it returns to RESIDENT. -/
theorem revive_single {s : State} {j : Job} {n : Nat} {q : Page} (hpages : s.pages = [(n, q)]) (hfree : q.st = Pg.free)
    (hweight : q.weight = true) (hlists : j.lists q = true) : s.revive j = s.setPage n { q with st := Pg.resident } := by
  unfold State.revive
  rw [hpages]
  simp [hfree, hweight, hlists]

/-- Settles O49: the order of the reasons is the order of the tests in `State.decideBe` and `State.decideGuar`. -/
theorem jobsAreAdmitted : Obligations.JobsAreAdmitted := by
  unfold Obligations.JobsAreAdmitted
  intro s u i rest c k j
  refine ⟨fun hup => ⟨fun h => ?_, fun hin hheld htwin hcert => ⟨fun hg => ?_, fun hg hentries => ?_⟩⟩, verdict_of_twinBad c,
    fun htwin => ⟨verdict_none htwin, verdict_of_invalid htwin, fun hdesc hcert => ⟨fun hw => ?_, fun hw =>
      ⟨fun hg => ?_, fun hg hfull => ?_, fun hg hroom hfloor => ?_, fun hg hroom hfloor hphase hnone => ?_⟩⟩⟩,
    fun hva hg => ?_, fun n q hpages hfree hweight hlists => ?_⟩
  · refine exec_fabric (fun s => s.admissionTest.settle) hup (congrArg State.settle ?_) rfl
    unfold State.admissionTest
    cases hin : s.weir.intake with
    | nil => rfl
    | cons i rest => exact if_pos (h.resolve_left (by simp [hin]))
  · refine exec_fabric (fun s => s.admissionTest.settle) hup (congrArg State.settle ?_) rfl
    rw [admissionTest_eq hin hheld htwin hcert (by simp [hg]), if_neg (by simp [hg])]
  · refine exec_fabric (fun s => s.admissionTest.settle) hup (congrArg State.settle ?_) rfl
    rw [admissionTest_eq hin hheld htwin hcert fun _ => hentries, if_pos hg]
  · cases hg : i.desc.guar with
    | false => rw [verdict_be htwin hdesc hcert hg, if_pos hw]; rfl
    | true => rw [verdict_guar htwin hdesc hcert hg, decideGuar_width hw]
  · rw [verdict_be htwin hdesc hcert hg, if_neg (Nat.not_lt.2 hw)]
    split <;> rfl
  · rw [verdict_guar htwin hdesc hcert hg, decideGuar_full hw hfull]
  · rw [verdict_guar htwin hdesc hcert hg, decideGuar_belowFloor hw hroom hfloor]
  · rw [verdict_guar htwin hdesc hcert hg, decideGuar_producer hw hroom hfloor hphase hnone]
  · unfold State.accept
    rw [if_pos hva, hg]
    rfl
  · rw [revive_single hpages hfree hweight hlists]
    exact ⟨State.page_setPage_same _ _ _, rfl, fun _ => ⟨rfl, rfl, rfl, rfl⟩⟩

end Sys2Proof.Machine
end

section
/-! SUPPORT. The tokeniser's requests (R511, R513, R609 to R611). -/
namespace Sys2Proof.Machine
open Sys2Proof

/-- The state in which the tokeniser reads its next request. -/
def State.tokBusy (s : State) : State := s.wf Reg.cisTokStatus F.cisTokStatus_STATE 1

theorem tokRequest_of_idle {s : State} (h : s.tok.waiting = 0 ∨ s.tokEnd.isSome = true) : s.tokRequest = s := if_pos h

section
variable {s u : State} {b : List Byte} (hwait : s.tok.waiting ≠ 0) (hnone : s.tokEnd = none)
include hwait hnone

/-- A malformed request ends with result 3. -/
theorem tokRequest_of_malformed (hread : s.tokBusy.vread Who.tok (s.tokBusy.tokVa s.tok.head) 64 = (some (b, false), u))
    (hbad : tokReqOk b = false) : s.tokRequest = u.tokEnds b 3 0 := by
  unfold State.tokBusy at hread
  generalize hg : State.tokRequest = g
  delta State.tokRequest at hg
  subst hg
  beta_reduce
  rw [if_neg (by simp [hwait, hnone])]
  extract_lets s1
  rw [show s1.vread Who.tok (s1.tokVa s1.tok.head) 64 = (some (b, false), u) from hread]
  simp [hbad]

/-- A sound request stores the tokens of its run. -/
theorem tokRequest_of_sound {v w : State} {d : Dict} {inp : List Byte}
    (hread : s.tokBusy.vread Who.tok (s.tokBusy.tokVa s.tok.head) 64 = (some (b, false), u))
    (hok : tokReqOk b = true) (hdict : u.dict = (some d, v))
    (hinp : v.vread Who.tok (u64 b 8) (u32 b 4) = (some (inp, false), w)) :
    s.tokRequest =
      let r := State.tokRun d (w.policy 128).1 (w.policy 128).2 (u32 b 0x18) inp.length w (utf8Mark 0 inp) [] 0
      (r.2.wf Reg.cisTokStatus F.cisTokStatus_SPILLED
        (min 65535 (r.2.rf Reg.cisTokStatus F.cisTokStatus_SPILLED + r.1.spilled))).tokStore b r.1 := by
  unfold State.tokBusy at hread
  generalize hg : State.tokRequest = g
  delta State.tokRequest at hg
  subst hg
  beta_reduce
  rw [if_neg (by simp [hwait, hnone])]
  extract_lets s1
  rw [show s1.vread Who.tok (s1.tokVa s1.tok.head) 64 = (some (b, false), u) from hread]
  dsimp only
  rw [if_neg (by simp [hok]), hdict]
  dsimp only
  rw [hinp]

end

/-- What TOKENS_DONE leaves once the count is written. -/
theorem tokensDone_of_written {s w : State} {e : TokEnd} {k : Nat} (hend : s.tokEnd = some e) (hslot : s.slotOf e.ctxId = some k)
    (hwrite : (({ s with tokEnd := none, tok := s.tok.next } : State).wf Reg.cisTokStatus F.cisTokStatus_STATE 0).vwrite Who.tok
      e.countVa (leBytes e.count 4) = (true, w)) :
    s.tokensDone = (w.wf Reg.cisTokStatus F.cisTokStatus_LAST_RESULT e.result).raiseCtx k 37 Ev.tokensDone
      (e.result * 2 ^ 29 + e.count % 2 ^ 17) e.cookie ∧ w.tokEnd = none ∧ w.tok = s.tok.next := by
  have hacc := (({ s with tokEnd := none, tok := s.tok.next } : State).wf Reg.cisTokStatus F.cisTokStatus_STATE 0).vwrite_access
    Who.tok e.countVa (leBytes e.count 4)
  rw [hwrite] at hacc
  obtain ⟨⟨_, _, _, _, _, _, _, _, hw⟩, -⟩ := hacc
  dsimp only at hw
  have hw' : w.slotOf e.ctxId = some k := by rw [hw]; exact hslot
  refine ⟨?_, by rw [hw]; rfl, by rw [hw]; rfl⟩
  unfold State.tokensDone
  rw [hend]
  dsimp only
  rw [hwrite]
  dsimp only
  rw [if_pos rfl, if_pos rfl, hw']

/-- Settles O45: the branches of `State.tokRequest` and of `State.tokensDone`. -/
theorem theTokeniserEndsItsRequests : Obligations.TheTokeniserEndsItsRequests := by
  unfold Obligations.TheTokeniserEndsItsRequests
  intro s u v w b inp d e k hup s1
  refine ⟨fun hserves hwait hnone hread => ⟨fun hbad => ?_, fun hok hdict hinp => ?_⟩, fun h => ?_, fun hserves hend hslot hwrite => ?_⟩
  · refine ⟨_, exec_fabric (guarded _ (·.tokRequest)) hup ((guarded_of_true _ s hserves).trans
      (tokRequest_of_malformed hwait hnone hread hbad)) rfl, rfl, ?_⟩
    have hacc := s1.vread_access Who.tok (s1.tokVa s.tok.head) 64
    have hdram := s1.vread_dram Who.tok (s1.tokVa s.tok.head) 64
    rw [hread] at hacc hdram
    exact hacc.sameMem hdram
  · exact exec_fabric (guarded _ (·.tokRequest)) hup ((guarded_of_true _ s hserves).trans
      (tokRequest_of_sound hwait hnone hread hok hdict hinp)) rfl
  · refine exec_fabric (guarded s.dramServes (·.tokRequest)) hup ?_ rfl
    cases hserves : s.dramServes with
    | false => rfl
    | true => exact guarded_of_fixed (f := State.tokRequest) (tokRequest_of_idle (by simpa [hserves] using h)) true
  · obtain ⟨heq, htok, hring⟩ := tokensDone_of_written hend hslot hwrite
    refine ⟨_, exec_fabric (guarded _ (·.tokensDone)) hup ((guarded_of_true _ s hserves).trans heq) rfl, htok, hring, rfl,
      State.rf_wf_same _ _ _ _ (by decide) (by decide), _, rfl, rfl, rfl⟩

end Sys2Proof.Machine
end

section
/-! SUPPORT. The Spout's requests (R599, R602 to R606, R827). -/
namespace Sys2Proof.Machine
open Sys2Proof

/-! What the Spout's work leaves of its own state. -/

/-- A change that no work of the Spout's transfers goes beyond: the Spout's state and the time stand. -/
def KeepsSpout (s t : State) : Prop := t.spout = s.spout ∧ t.gts = s.gts

theorem OnlyEnds.keepsSpout {s t : State} : OnlyEnds s t → KeepsSpout s t := by
  rintro ⟨⟨_, _, _, _, _, _, _, _, _, _, _, _, _, _, rfl⟩, -⟩
  exact ⟨rfl, rfl⟩

theorem spoutWrite_ends (s : State) (va : Nat) (b : List Byte) : OnlyEnds s (s.spoutWrite va b) := by
  have hacc := OnlyEnds.of_access (s.vwrite_access Who.spout va b)
  unfold State.spoutWrite
  exact .ite hacc (hacc.trans (.xlateFault ..))

theorem spoutWalk_ends (s : State) (r : SpoutReq) : OnlyEnds s (s.spoutWalk r) :=
  OnlyEnds.foldl (fun s _ _ => .of_access (s.xfill_access ..)) s

theorem spoutFault_ends (s : State) (r : SpoutReq) : OnlyEnds s (s.spoutFault r) := by
  unfold State.spoutFault
  refine OnlyEnds.trans (.ite (.of_access (s.xfaulted_walks ..).1) ?_) (.xlateFault ..)
  exact (spoutWalk_ends s r).trans (.of_access (State.xfaulted_walks ..).1)

/-- The rows of a part. -/
theorem spoutRows_ends (s0 s : State) (r : SpoutReq) (d k : Nat) :
    OnlyEnds s ((List.range k).foldl (fun s y => (s0.spoutRow r d y).foldl (fun s w => s.spoutWrite w.1 w.2) s) s) :=
  OnlyEnds.foldl (fun s _ _ => OnlyEnds.foldl (fun s w _ => spoutWrite_ends s w.1 w.2) s) s

/-! Taking a request. -/

/-- A split request joins the parts; it starts at once where no part runs. -/
def State.addPart (s : State) (n : Nat) (b : List Byte) (k est : Nat) : State :=
  { s with spout := { s.spout with parts := s.spout.parts ++ [SpoutPart.mk n b k est (if s.spout.parts = [] then some s.gts else none)] } }

theorem addPart_of_spout {s t : State} (n : Nat) (b : List Byte) (k est : Nat) (h : KeepsSpout s t) :
    (t.addPart n b k est).spout = (s.addPart n b k est).spout := by
  obtain ⟨hspout, hgts⟩ := h
  unfold State.addPart
  rw [hspout, hgts]

/-- The state in which the Spout reads the request that it takes. -/
def State.spoutTook (s : State) : State := { s with spout := { s.spout with req := s.spout.req.next } }

section
variable {s u : State} {b : List Byte} {bad : Bool} (hwait : s.spout.req.waiting ≠ 0) (hfree : 2 ≤ s.hostFree)
  (hread : s.spoutTook.vread Who.spout (s.spoutVa s.spout.req.head) 64 = (some (b, bad), u))

include hread in
/-- The read of a request leaves the Spout its state and the time. -/
theorem spoutTook_kept : KeepsSpout s.spoutTook u := by
  have hacc := s.spoutTook.vread_access Who.spout (s.spoutVa s.spout.req.head) 64
  rw [hread] at hacc
  exact (OnlyEnds.of_access hacc).keepsSpout

include hwait hfree hread

theorem spoutTake_eq : s.spoutTake =
    let r := SpoutReq.parse b
    if !r.ok then u.spoutEnd s.spout.req.head 0 true true
    else if !u.spoutMaps r then (u.spoutFault r).spoutEnd s.spout.req.head 0 true true
    else if r.split u.spoutBacklog = 0 then u.finishPart s.spout.req.head 0 r
    else (u.spoutWrite (u.spoutVa s.spout.req.head + 0x38) (leBytes (r.split u.spoutBacklog) 4)).addPart s.spout.req.head b
      (r.split u.spoutBacklog) (r.est (r.split u.spoutBacklog)) := by
  generalize hg : State.spoutTake = g
  delta State.spoutTake at hg
  subst hg
  beta_reduce
  rw [if_neg (not_or.2 ⟨hwait, Nat.not_lt.2 hfree⟩)]
  generalize hs1 : ({ s with spout := { s.spout with req := s.spout.req.next } } : State) = s1
  extract_lets +onlyGivenNames n s2
  rw [show s2.vread Who.spout (s2.spoutVa n) 64 = (some (b, bad), u) by subst hs1; exact hread]
  rfl

/-- A sound request that is split becomes a part. -/
theorem spoutTake_of_split (hok : (SpoutReq.parse b).ok = true) (hmaps : u.spoutMaps (SpoutReq.parse b) = true)
    (hsplit : 0 < (SpoutReq.parse b).split u.spoutBacklog) :
    s.spoutTake.spout.req = s.spout.req.next ∧
      s.spoutTake.spout.parts = s.spout.parts ++ [SpoutPart.mk s.spout.req.head b ((SpoutReq.parse b).split u.spoutBacklog)
        ((SpoutReq.parse b).est ((SpoutReq.parse b).split u.spoutBacklog)) (if s.spout.parts = [] then some s.gts else none)] := by
  have hkept := spoutWrite_ends u (u.spoutVa s.spout.req.head + 0x38) (leBytes ((SpoutReq.parse b).split u.spoutBacklog) 4)
  rw [(spoutTake_eq hwait hfree hread).trans ((if_neg (by simp [hok])).trans ((if_neg (by simp [hmaps])).trans
    (if_neg hsplit.ne'))), addPart_of_spout _ _ _ _ hkept.keepsSpout, addPart_of_spout _ _ _ _ (spoutTook_kept hread)]
  exact ⟨rfl, rfl⟩

end

/-! The end of a part. -/

/-- The parts once the first has run: the next one starts. -/
def State.partsNext (s : State) : List SpoutPart → List SpoutPart
  | q :: m => { q with start := some s.gts } :: m
  | [] => []

/-- The state in which the rows of the first part are made. -/
def State.partRuns (s : State) (l : List SpoutPart) : State := { s with spout := { s.spout with parts := s.partsNext l } }

theorem partsNext_tail (s : State) (l : List SpoutPart) : (s.partsNext l).tail = l.tail := by cases l <;> rfl

theorem partsNext_head (s : State) (l : List SpoutPart) :
    (s.partsNext l).head?.map SpoutPart.start = l.head?.map fun _ => some s.gts := by cases l <;> rfl

theorem spoutMaps_partRuns (s : State) (l : List SpoutPart) (r : SpoutReq) : (s.partRuns l).spoutMaps r = s.spoutMaps r := rfl

section
variable {s : State} {q : SpoutPart} {l : List SpoutPart} (hparts : s.spout.parts = q :: l)
include hparts

theorem spoutDone_of_full (hrows : q.k < (SpoutReq.parse q.req).rows) (hfull : s.hostFree = 0) : s.spoutDone = s := by
  unfold State.spoutDone
  rw [hparts]
  exact if_pos ⟨hrows, hfull⟩

theorem spoutDone_eq (hroom : (SpoutReq.parse q.req).rows ≤ q.k ∨ s.hostFree ≠ 0) : s.spoutDone =
    let r := SpoutReq.parse q.req
    let s := s.partRuns l
    if !s.spoutMaps r then (s.spoutFault r).spoutEnd q.count q.k true true else
    let d := (s.spoutWalk r).draw 18
    let s := d.2.charge Who.spout (linesOf r.inVa r.inBytes)
    let s0 := s
    let r := { r with packed := s.packedAt r.inVa }
    let s := (List.range q.k).foldl (fun s y => (s0.spoutRow r d.1 y).foldl (fun s w => s.spoutWrite w.1 w.2) s) s
    s.finishPart q.count q.k r := by
  unfold State.spoutDone
  rw [hparts]
  dsimp only
  rw [if_neg (by rintro ⟨h, h'⟩; exact hroom.elim (fun hr => absurd h (Nat.not_lt.2 hr)) fun hr => hr h')]
  cases l <;> rfl

theorem spoutDone_of_unmapped (hroom : (SpoutReq.parse q.req).rows ≤ q.k ∨ s.hostFree ≠ 0)
    (hmaps : s.spoutMaps (SpoutReq.parse q.req) = false) :
    ∃ x : State, s.spoutDone = x.spoutEnd q.count q.k true true ∧ x.spout.parts.tail = l.tail := by
  have hkept := (spoutFault_ends (s.partRuns l) (SpoutReq.parse q.req)).keepsSpout.1
  refine ⟨(s.partRuns l).spoutFault (SpoutReq.parse q.req), ?_, ?_⟩
  · rw [spoutDone_eq hparts hroom]
    exact if_pos (by rw [spoutMaps_partRuns, hmaps]; rfl)
  · rw [hkept]
    exact partsNext_tail s l

theorem spoutDone_of_mapped (hroom : (SpoutReq.parse q.req).rows ≤ q.k ∨ s.hostFree ≠ 0)
    (hmaps : s.spoutMaps (SpoutReq.parse q.req) = true) :
    ∃ (x : State) (z : SpoutReq), s.spoutDone = x.finishPart q.count q.k z ∧ z.rows = (SpoutReq.parse q.req).rows ∧
      x.spout = (s.partRuns l).spout := by
  rw [spoutDone_eq hparts hroom]
  extract_lets r s1 d s2 s3 r2 s4
  refine ⟨s4, r2, ?_, rfl, ?_⟩
  · exact if_neg (by rw [show s1.spoutMaps r = true from hmaps]; decide)
  · exact (spoutRows_ends s3 s2 r2 d.1 q.k).keepsSpout.1.trans (spoutWalk_ends s1 r).keepsSpout.1

end

/-- Settles O44: the branches of `State.spoutTake` and of `State.spoutDone`. -/
theorem theSpoutSplitsItsRequests : Obligations.TheSpoutSplitsItsRequests := by
  unfold Obligations.TheSpoutSplitsItsRequests
  intro s u v b bad q l hup tail
  refine ⟨fun hv hfit => exec_fabric (fun s => (s.touch 9).spoutTail v) hup ?tail rfl,
    fun hd => exec_fabric (fun s => (s.touch 9).spoutHostRead v) hup ?read rfl, fun h => ?idle,
    fun hserves hwait hfree hread => ⟨fun hok => ?bad, fun hok hmaps => ?unmapped, fun hok hmaps =>
      ⟨fun hsplit => ?none, fun hsplit => ?split⟩⟩,
    fun hparts => ⟨fun hrows hfull => ?full, fun hserves hroom hmaps => ?lost, fun hserves hroom hmaps => ?done⟩⟩
  case tail =>
    refine (if_pos (tailTwinOk_of hv)).trans ?_
    exact congrArg (fun q => ({ s.touch 9 with spout := { s.spout with req := q } } : State)) (TailQ.write_of_fits hv hfit)
  case read =>
    unfold State.spoutHostRead
    dsimp only
    rw [consume_eq]
    exact congrArg (fun n => ({ s.touch 9 with spout := { s.spout with read := n } } : State)) (if_pos hd)
  case idle =>
    refine exec_fabric (guarded s.dramServes (·.spoutTake)) hup ?_ rfl
    cases hserves : s.dramServes with
    | false => rfl
    | true =>
      have hidle : s.spoutTake = s := if_pos (by simpa [hserves] using h)
      exact guarded_of_fixed (f := State.spoutTake) hidle true
  case bad =>
    refine exec_fabric (guarded _ (·.spoutTake)) hup ((guarded_of_true _ s hserves).trans ?_) rfl
    rw [spoutTake_eq hwait hfree hread]
    exact if_pos (by simp [hok])
  case unmapped =>
    refine exec_fabric (guarded _ (·.spoutTake)) hup ((guarded_of_true _ s hserves).trans ?_) rfl
    rw [spoutTake_eq hwait hfree hread]
    exact (if_neg (by simp [hok])).trans (if_pos (by simp [hmaps]))
  case none =>
    refine exec_fabric (guarded _ (·.spoutTake)) hup ((guarded_of_true _ s hserves).trans ?_) rfl
    rw [spoutTake_eq hwait hfree hread]
    exact (if_neg (by simp [hok])).trans ((if_neg (by simp [hmaps])).trans (if_pos hsplit))
  case split =>
    obtain ⟨hreq, hp⟩ := spoutTake_of_split hwait hfree hread hok hmaps hsplit
    exact ⟨_, exec_fabric (guarded _ (·.spoutTake)) hup (guarded_of_true _ s hserves) rfl, hreq, hp⟩
  case full =>
    exact exec_fabric (guarded s.dramServes State.spoutDone) hup (guarded_of_fixed (spoutDone_of_full hparts hrows hfull) _) rfl
  case lost =>
    obtain ⟨x, hx, htail⟩ := spoutDone_of_unmapped hparts hroom hmaps
    exact ⟨x, exec_fabric (guarded _ (·.spoutDone)) hup ((guarded_of_true _ s hserves).trans hx) rfl, htail⟩
  case done =>
    obtain ⟨x, z, hx, hrows, hspout⟩ := spoutDone_of_mapped hparts hroom hmaps
    refine ⟨x, z, exec_fabric (guarded _ (·.spoutDone)) hup ((guarded_of_true _ s hserves).trans hx) rfl, hrows, ?_, ?_, ?_⟩
    · rw [hspout]; rfl
    · rw [hspout]; exact partsNext_tail s l
    · rw [hspout]; exact partsNext_head s l

end Sys2Proof.Machine
end

section
/-! SUPPORT. The image pipes and their Jets (R350 to R355, R472, R587, R588, R592). -/
namespace Sys2Proof.Machine
open Sys2Proof

/-! What a write of a memory's words leaves of the rest, for every memory. -/

theorem State.logPoison_reports (s : State) (u a : Nat) : OnlyReports s (s.logPoison u a) := by
  unfold State.logPoison
  dsimp only
  exact (OnlyRegs.trans (by split; exacts [.refl s, (OnlyRegs.wn ..).trans (OnlyRegs.wn ..)]) (OnlyRegs.wn ..)).reports

theorem State.writeMark_reports (code inst lo n : Nat) (s : State) (e : Nat × Mark) :
    OnlyReports s (State.writeMark code inst lo n s e) := by
  unfold State.writeMark
  dsimp only
  split
  · exact .integ ..
  · cases e.2 with
    | clean => exact .refl s
    | single => exact ((State.occur_reports ..).trans (State.ceBump_reports ..)).trans (.integ ..)
    | double => exact ((State.occur_reports ..).trans (State.logPoison_reports ..)).trans (.integ ..)
    | poison => exact ((State.occur_reports ..).trans (State.logPoison_reports ..)).trans (.integ ..)

theorem State.injectWord_reports (code inst : Nat) (s : State) (a : Nat) : OnlyReports s (State.injectWord code inst s a) := by
  have hinj := s.inject_reports (Mc.site code inst a).1 (Mc.site code inst a).2.1 (Mc.site code inst a).2.2.1
    (Mc.site code inst a).2.2.2
  unfold State.injectWord
  dsimp only
  generalize s.inject (Mc.site code inst a).1 (Mc.site code inst a).2.1 (Mc.site code inst a).2.2.1
    (Mc.site code inst a).2.2.2 = r at hinj
  obtain ⟨_ | e, u⟩ := r
  · exact hinj
  · exact hinj.trans (.integ ..)

/-- A write of a memory's words changes what a report changes. -/
theorem State.writeEcc_reports (s : State) (code inst lo n : Nat) : OnlyReports s (s.writeEcc code inst lo n) := by
  have hmarks := OnlyReports.foldl (State.writeMark code inst lo n) (fun s e => State.writeMark_reports code inst lo n s e)
    (s.marksIn code inst lo n) s
  unfold State.writeEcc
  dsimp only
  exact .ite _ (.refl s) (.ite _ (hmarks.trans (OnlyReports.foldl _ (fun s a => State.injectWord_reports code inst s a) _ _)) hmarks)

/-! Memory-path frames. -/

/-- What a frame's lines leave of the frame: its place. -/
def FrameS.name (f : FrameS) : Nat × Nat × Nat := (f.frame, f.stream, f.slot)

theorem name_spillLine (f : FrameS) (mode fill y : Nat) (whole : Bool) (l : List (Option Nat)) :
    (f.spillLine mode fill y whole l).2.name = f.name := by
  unfold FrameS.spillLine
  dsimp only
  split <;> split <;> rfl

theorem readRaw_sections (s : State) (who : Who) (f : FrameS) (y : Nat) : (s.readRaw who f y).2.sections = s.sections := by
  have hstep : ∀ (r : List Byte × List Nat × State) (k : Nat),
      (match r.2.2.vread who (f.rawLine y + 64 * k) 64 with
        | (some (l, bad), s) => (r.1 ++ l, (if bad then r.2.1 ++ [k] else r.2.1), s)
        | (none, s) => (r.1 ++ List.replicate 64 0#8, r.2.1 ++ [k], s)).2.2.sections = r.2.2.sections := by
    intro r k
    obtain ⟨⟨_, _, _, _, _, _, _, _, hacc⟩, -⟩ := r.2.2.vread_access who (f.rawLine y + 64 * k) 64
    have hsec := congrArg State.sections hacc
    cases hread : r.2.2.vread who (f.rawLine y + 64 * k) 64 with
    | mk o u =>
      rw [hread] at hsec
      cases o with
      | none => exact hsec
      | some b => exact hsec
  have hfold : ∀ (l : List Nat) (r : List Byte × List Nat × State),
      (l.foldl (fun (r : List Byte × List Nat × State) k =>
        match r.2.2.vread who (f.rawLine y + 64 * k) 64 with
        | (some (l, bad), s) => (r.1 ++ l, (if bad then r.2.1 ++ [k] else r.2.1), s)
        | (none, s) => (r.1 ++ List.replicate 64 0#8, r.2.1 ++ [k], s)) r).2.2.sections = r.2.2.sections := by
    intro l
    induction l with
    | nil => exact fun _ => rfl
    | cons k l ih => exact fun r => (ih _).trans (hstep r k)
  exact hfold _ ([], [], s)

/-- Without the stop policy a frame is read to its last line, in its place. -/
theorem readFrame_of_going {s : State} {who : Who} {f : FrameS} (hgo : s.stops f.stream = false) : ∀ n,
    (s.readFrame who n f).1 = false ∧ (s.readFrame who n f).2.1.name = f.name ∧
      (s.readFrame who n f).2.2.2.sections = s.sections
  | 0 => ⟨rfl, rfl, rfl⟩
  | n + 1 => by
    obtain ⟨hrun, hname, hsec⟩ := readFrame_of_going (who := who) hgo n
    unfold State.readFrame
    dsimp only
    rw [hrun, hgo, if_neg Bool.false_ne_true, Bool.false_and, if_neg Bool.false_ne_true]
    exact ⟨rfl, (name_spillLine ..).trans hname, (readRaw_sections ..).trans hsec⟩

/-- What a pipe does with a frame of its queue once the tuning record is read. -/
def State.memoryWork (u : State) (p : Nat) (who : Who) (f : FrameS) (o : Option (List Byte)) : State :=
  if !(o.map Tune.ok).getD false || !u.slotFree f.stream f.frame (Ent.ringLog2 f.ent) then u.discard (f.mark Mk.dropped) else
  let (per, s) := u.cfaPeriod o
  let n := f.stream
  let f := { f with tune := o.getD [], period := per, lastS := [], lastL := [] }
  let m := s.lineMemory p
  if m.1 then m.2.discard (f.mark Mk.dropped) else
  let r := m.2.readFrame who (Ent.height f.ent) f
  if r.1 then (r.2.2.2.discard (r.2.1.mark Mk.stopped)).stopStream n else
  let f := r.2.1.mark Mk.piped
  let s := (List.range (Ent.height f.ent)).foldl (fun s y => (s.pipeOut who f r.2.2.1 true y).2) r.2.2.2
  (s.frameTail who f true).recordDue f

/-- The read of the tuning record is taken as a variable: the kernel would otherwise run it, whose length is a numeral. -/
theorem memoryFrame_eq {s u : State} {p : Nat} {f : FrameS} {o : Option (List Byte)} (hnext : nextFrame (s.pipe p).queue = some f)
    (htune : (s.setPipe p { s.pipe p with queue := (s.pipe p).queue.erase f }).readTune f.stream = (o, u)) :
    ∃ who, s.memoryFrame p = u.memoryWork p who f o := by
  generalize hg : State.memoryFrame = g
  delta State.memoryFrame at hg
  subst hg
  beta_reduce
  obtain ⟨read, hread⟩ := exists_eq (a' := State.readTune)
  rw [← hread] at htune ⊢
  clear hread
  rw [hnext]
  dsimp only
  rw [htune]
  exact ⟨_, rfl⟩

theorem memoryWork_of_lost {u : State} {p : Nat} {who : Who} {f : FrameS} {o : Option (List Byte)}
    (h : (o.map Tune.ok).getD false = false ∨ u.slotFree f.stream f.frame (Ent.ringLog2 f.ent) = false) :
    u.memoryWork p who f o = u.discard (f.mark Mk.dropped) := by
  unfold State.memoryWork
  exact if_pos (by rcases h with h | h <;> simp [h])

theorem lineMemory_of_not_armed {s : State} {p : Nat} (h : s.injArmed 0x17 0 1 (9 * 256 + p) = false) : s.lineMemory p = (false, s) := by
  unfold State.lineMemory
  rw [State.inject_of_not_armed h]

theorem memoryWork_of_sound {u : State} {p : Nat} {who : Who} {f : FrameS} {o : Option (List Byte)}
    (hok : (o.map Tune.ok).getD false = true) (hfree : u.slotFree f.stream f.frame (Ent.ringLog2 f.ent) = true)
    (harmed : u.injArmed 0x17 0 1 (9 * 256 + p) = false) (hgo : u.stops f.stream = false) :
    ∃ (x : State) (g : FrameS), u.memoryWork p who f o = x.recordDue g ∧ g.frame = f.frame ∧ g.stream = f.stream ∧
      g.slot = f.slot ∧ g.marks.testBit Mk.piped = true := by
  obtain ⟨c, hdraw⟩ := cfaPeriod_draws u o
  have harmed' : (u.cfaPeriod o).2.injArmed 0x17 0 1 (9 * 256 + p) = false := by rw [hdraw]; exact harmed
  have hgo' : (u.cfaPeriod o).2.stops f.stream = false := by rw [hdraw]; exact hgo
  unfold State.memoryWork
  rw [if_neg (by simp [hok, hfree])]
  dsimp only
  rw [lineMemory_of_not_armed harmed', if_neg Bool.false_ne_true]
  obtain ⟨hrun, hname, -⟩ := readFrame_of_going (s := (u.cfaPeriod o).2) (who := who)
    (f := { f with tune := o.getD [], period := (u.cfaPeriod o).1, lastS := [], lastL := [] }) hgo' (Ent.height f.ent)
  rw [if_neg (by rw [hrun]; exact Bool.false_ne_true)]
  obtain ⟨hframe, hrest⟩ := Prod.mk.inj hname
  obtain ⟨hstr, hslot⟩ := Prod.mk.inj hrest
  refine ⟨_, _, rfl, hframe, hstr, hslot, ?_⟩
  simp [FrameS.mark, Nat.testBit_or]

/-! Rows of a Jet. -/

theorem cisWr_rows (a : Nat) : ∀ (l : List (Nat × List Byte)) (s : State),
    (l.foldl (fun s w => s.cisWr (a + w.1) w.2) s).dram = s.dram ∧
      (l.foldl (fun s w => s.cisWr (a + w.1) w.2) s).cistern = l.foldl (fun c w => Mem.wrBytes c (a + w.1) w.2) s.cistern
  | [], _ => ⟨rfl, rfl⟩
  | w :: l, s => by
    obtain ⟨_, _, _, _, hecc⟩ := s.writeEcc_reports Mc.cistern 0 (a + w.1) w.2.length
    have hdram : (s.cisWr (a + w.1) w.2).dram = s.dram := by unfold State.cisWr; rw [hecc]
    have hcis : (s.cisWr (a + w.1) w.2).cistern = Mem.wrBytes s.cistern (a + w.1) w.2 := by unfold State.cisWr; rw [hecc]
    obtain ⟨hd, hc⟩ := cisWr_rows a l (s.cisWr (a + w.1) w.2)
    exact ⟨hd.trans hdram, hc.trans (by rw [hcis]; rfl)⟩

section
variable {s : State} {p : Nat} {j : JetRun} (hjet : (s.pipe p).jet = some j) (hrow : j.oy < j.hOut p)
  (hlines : j.needs p ≤ j.lines.length)
include hjet hrow hlines

theorem jetRowComplete_of_small (hnone : s.jetRowAt p j = none) : s.jetRowComplete p = s.jetOverrun p j.frame := by
  unfold State.jetRowComplete
  dsimp only
  rw [hjet]
  dsimp only
  rw [if_neg (by omega), hnone]

/-- A row that is complete and whose place is free enters the ring. -/
theorem jetRowComplete_of_room {at_ : Nat} (hact : j.act p ≠ 3) (hat : s.jetRowAt p j = some at_)
    (hroom : ∀ q ∈ (s.pipe p).ring, s.jetFirst p * 0x10000 + at_ + j.pitch p ≤ q.addr ∨
      q.addr + q.pitch ≤ s.jetFirst p * 0x10000 + at_) :
    ∃ (x : PipeS) (q : JetRow), s.jetRowComplete p =
        ((j.row p 0).foldl (fun t w => t.cisWr (s.jetFirst p * 0x10000 + at_ + w.1) w.2) s).setPipe p x ∧
      x.ringAt = at_ + j.pitch p ∧ x.ring = (s.pipe p).ring ++ [q] ∧ q.addr = s.jetFirst p * 0x10000 + at_ ∧ q.pitch = j.pitch p ∧
      q.frame = j.frame ∧ q.marks = j.marks ∧ q.last = decide (j.oy + 1 = j.hOut p) := by
  have hapart : ((s.pipe p).ring.any fun r => decide (s.jetFirst p * 0x10000 + at_ < r.addr + r.pitch) &&
      decide (r.addr < s.jetFirst p * 0x10000 + at_ + j.pitch p)) = false := by
    refine List.any_eq_false.2 fun q hq => ?_
    have hq := hroom q hq
    simp only [Bool.and_eq_true, decide_eq_true_eq]
    omega
  unfold State.jetRowComplete
  dsimp only
  rw [hjet]
  dsimp only
  rw [if_neg (by omega), hat]
  dsimp only
  rw [hapart, if_neg Bool.false_ne_true, if_neg hact]
  exact ⟨_, _, rfl, rfl, rfl, rfl, rfl, rfl, rfl, rfl⟩

end

/-! The transfer of a row. -/

section
variable {s u w : State} {p : Nat} {r : JetRow} {l : List JetRow} {b : List Byte} (hring : (s.pipe p).ring = r :: l)
  (hread : (s.setPipe p { s.pipe p with ring := l }).cisRd r.addr r.pitch = (b, false, u))
  (hlocked : u.lockedRange r.dst r.pitch = true)
  (hwrite : u.vwrite { tag := 0x200 + p, holder := some (2 ^ 40 + p) } r.dst b = (true, w))
include hring hread hlocked hwrite

theorem jetRowTransfer_eq : s.jetRowTransfer p =
    if !r.last then w else
    let s := w.wn (Reg.jetFrame p) (w.rn (Reg.jetFrame p) + 1)
    let m := s.jetMarks p r
    s.raiseDev (40 + p) Ev.jetFrame (r.frame % 2 * 2 ^ 31 + b2n (m.testBit Mk.overrun) * 2 ^ 30 + b2n (csiMarked m) * 2 ^ 29 +
      s.rn (Reg.jetFrame p) % 2 ^ 29) := by
  unfold State.jetRowTransfer
  dsimp only
  rw [hring]
  dsimp only
  rw [hread]
  dsimp only
  rw [hlocked, if_neg (by decide), hwrite]
  rfl

end

/-- Settles O43: the branches of `State.memoryWork`, `State.inlineLine`, `State.jetRowComplete` and `State.jetRowTransfer`. -/
theorem pipesAndJetsMoveFrames : Obligations.PipesAndJetsMoveFrames := by
  unfold Obligations.PipesAndJetsMoveFrames
  intro s u w p at_ f o j r l b hup hp hon
  refine ⟨fun hserves henable hheld hnext htune => ?memory, fun hstart hinl => ?overflow, fun hheld hinl hy => ?held,
    fun hinl hrows => ?waits, fun hjet hrow hlines hact hat => ?row, fun hjet hrow hlines hnone => ?overrun,
    fun hserves hring hread hlocked hwrite => ⟨fun hlast => ?part, fun hlast => ?last⟩⟩
  case memory =>
    obtain ⟨who, heq⟩ := memoryFrame_eq hnext htune
    have hexec : ∀ t, u.memoryWork p who f o = t → exec (.pipeMemoryFrame p) s = .next t := fun t ht =>
      exec_fabric (guarded _ (·.memoryFrame p)) hup ((guarded_of_true _ s (by simp [hp, hon, hserves, hheld, henable])).trans
        (heq.trans ht)) rfl
    refine ⟨fun hlost => hexec _ (memoryWork_of_lost hlost), fun hok hfree harmed hgo => ?_⟩
    obtain ⟨x, g, hx, hg⟩ := memoryWork_of_sound (who := who) hok hfree harmed hgo
    exact ⟨x, g, hexec _ hx, hg⟩
  case overflow =>
    refine exec_fabric (guarded _ (·.inlineLine p true)) hup ((guarded_of_true _ s ?_).trans ?_) rfl
    · rw [hinl]
      rcases hstart with h | h <;> simp [hp, hon, h]
    · simp only [State.inlineLine, hinl, if_true]
  case held =>
    refine exec_fabric (guarded (decide (p < 4) && s.pipesOn &&
      !(s.startHeld Tag.streams && (s.inlineFrame p).any fun f => f.outY == 0)) (·.inlineLine p true)) hup ?_ rfl
    rw [hheld, hinl, Option.any_some, hy]
    simp [guarded]
  case waits =>
    refine exec_fabric (guarded _ (·.inlineLine p false)) hup (guarded_of_fixed ?_ _) rfl
    simp only [State.inlineLine, hinl, Bool.false_eq_true, if_false, if_pos (Or.inl hrows)]
  case row =>
    intro a hroom
    obtain ⟨x, q, heq, hx, hring, hq⟩ := jetRowComplete_of_room hjet hrow hlines hact hat hroom
    obtain ⟨hdram, hcis⟩ := cisWr_rows a (j.row p 0) s
    refine ⟨_, exec_fabric (guarded _ (·.jetRowComplete p)) hup ((guarded_of_true _ s (by simp [hp, hon])).trans heq) rfl,
      hdram, hcis, ?_, ?_⟩
    · rw [State.pipe_setPipe_same, hx]
    · rw [State.pipe_setPipe_same, hring]
      exact ⟨q, rfl, hq⟩
  case overrun =>
    exact exec_fabric (guarded _ (·.jetRowComplete p)) hup ((guarded_of_true _ s (by simp [hp, hon])).trans
      (jetRowComplete_of_small hjet hrow hlines hnone)) rfl
  case part =>
    refine exec_fabric (guarded _ (·.jetRowTransfer p)) hup ((guarded_of_true _ s (by simp [hp, hon, hserves])).trans ?_) rfl
    rw [jetRowTransfer_eq hring hread hlocked hwrite, if_pos (by simp [hlast])]
  case last =>
    refine ⟨_, exec_fabric (guarded _ (·.jetRowTransfer p)) hup ((guarded_of_true _ s (by simp [hp, hon, hserves])).trans
      ((jetRowTransfer_eq hring hread hlocked hwrite).trans (if_neg (by simp [hlast])))) rfl, ?_, ?_, rfl⟩
    · exact State.rn_wn_same ..
    · exact List.length_append

end Sys2Proof.Machine
end

section
/-! SUPPORT. The Cistern's pages (R307 to R315, R402, R434 to R437). -/
namespace Sys2Proof.Machine
open Sys2Proof

/-! The next page of a job. -/

section
variable {v : State} {job dma m : Nat} {j : Job} {p : CertPage} (hjob : v.pending? job = some j)
include hjob

theorem fillStart_of_present (hnext : v.nextFill j = none) : v.fillStart job dma = v := by
  simp only [State.fillStart, hjob, hnext]

section
variable (hnext : v.nextFill j = some p)
include hnext

/-- The page goes into the page of its pool that has been FREE longest. -/
theorem fillStart_of_free (hmay : j.guar = true ∨ v.bePages < v.beLimit)
    (hfree : v.oldestFree (if p.weight then Pool.weight else Pool.feature) = some m) :
    v.fillStart job dma = v.placePage j p m dma := by
  have hfull : (!j.guar && decide (v.beLimit ≤ v.bePages)) = false := by
    rcases hmay with h | h
    · rw [h]; rfl
    · rw [decide_eq_false (Nat.not_le.2 h), Bool.and_false]
  simp only [State.fillStart, hjob, hnext, hfull, Bool.false_eq_true, if_false, hfree]

/-- A best-effort job that finds no page does not make room for a later layer. -/
theorem fillStart_of_ahead (hbe : j.guar = false)
    (hnone : v.beLimit ≤ v.bePages ∨ v.oldestFree (if p.weight then Pool.weight else Pool.feature) = none)
    (hahead : v.firstWaiting j < p.first) : v.fillStart job dma = v := by
  have hstuck : (if !j.guar && decide (v.beLimit ≤ v.bePages) then none
      else v.oldestFree (if p.weight then Pool.weight else Pool.feature)) = none := by
    rcases hnone with h | h
    · exact if_pos (by rw [hbe, decide_eq_true h]; rfl)
    · rw [h, ite_self]
  have hlate : (!j.guar && decide (p.first ≤ v.firstWaiting j)) = false := by
    rw [decide_eq_false (Nat.not_le.2 hahead), Bool.and_false]
  simp only [State.fillStart, hjob, hnext, hstuck, hlate, Bool.not_false, if_true]

/-- It makes room for its next layer. -/
theorem fillStart_of_reclaim (hbe : j.guar = false) (hmay : v.bePages < v.beLimit)
    (hnone : v.oldestFree (if p.weight then Pool.weight else Pool.feature) = none) (hsoon : p.first ≤ v.firstWaiting j)
    (hreclaim : v.reclaim (v.poolPages (if p.weight then Pool.weight else Pool.feature)) (some j) = some m) :
    v.fillStart job dma = v.evict m := by
  have hfull : decide (v.beLimit ≤ v.bePages) = false := decide_eq_false (Nat.not_le.2 hmay)
  simp only [State.fillStart, hjob, hnext, hbe, hfull, Bool.and_false, Bool.false_eq_true, if_false, hnone, hsoon, decide_true,
    Bool.not_false, Bool.and_self, Bool.not_true, hreclaim]

end

end

/-! Fills and writebacks. -/

/-- A fill copies the page's bytes into the Cistern. -/
theorem copyIn_memory (s : State) (n pa : Nat) : (s.copyIn n pa).2.cistern = Mem.copy s.cistern (n * 0x10000) s.dram pa 0x10000 ∧
    (s.copyIn n pa).2.dram = s.dram := by
  obtain ⟨_, _, _, _, hcheck⟩ := ((s.charge (s.page n).who 1024).dramCheck_reports (pa - dramBase) 0x10000)
  obtain ⟨_, _, _, _, hecc⟩ :=
    ((s.charge (s.page n).who 1024).dramCheck (pa - dramBase) 0x10000).2.writeEcc_reports Mc.cistern 0 (n * 0x10000) 0x10000
  unfold State.copyIn
  dsimp only
  rw [hecc, hcheck]
  exact ⟨rfl, rfl⟩

/-- A writeback copies the page's bytes into DRAM. -/
theorem copyOut_memory (s : State) (n pa : Nat) : (s.copyOut n pa).dram = Mem.copy s.dram pa s.cistern (n * 0x10000) 0x10000 ∧
    (s.copyOut n pa).cistern = s.cistern := by
  obtain ⟨_, _, _, _, hread⟩ := s.readEcc_reports Mc.cistern 0 (n * 0x10000) 0x10000
  unfold State.copyOut
  dsimp only
  obtain ⟨_, _, _, _, hecc⟩ := State.writeEcc_reports ((s.readEcc Mc.cistern 0 (n * 0x10000) 0x10000).2.charge
    ((s.readEcc Mc.cistern 0 (n * 0x10000) 0x10000).2.backWho ((s.readEcc Mc.cistern 0 (n * 0x10000) 0x10000).2.page n)) 1024)
    Mc.dram 0 (pa - dramBase) 0x10000
  rw [hecc, hread]
  exact ⟨rfl, rfl⟩

/-- A clean page in its frame that is released stays or becomes FREE; memory stands. -/
theorem releasePage_clean {s : State} {n : Nat} (hst : (s.page n).st = Pg.resident) (hclean : (s.page n).dirty = false) :
    (s.releasePage n).dram = s.dram ∧ (s.releasePage n).cistern = s.cistern ∧ ((s.releasePage n).page n).dirty = false ∧
      (((s.releasePage n).page n).st = Pg.resident ∨ ((s.releasePage n).page n).st = Pg.free) := by
  unfold State.releasePage
  split
  · exact ⟨rfl, rfl, hclean, .inl hst⟩
  · have hevict : s.evict n = s.freePage n := by simp only [State.evict, hclean, Bool.false_eq_true, if_false]
    have hpage : (s.freePage n).page n = _ := State.page_setPage_same s n _
    rw [hevict, hpage]
    exact ⟨rfl, rfl, rfl, .inr rfl⟩

section
variable {s u : State} {n a b : Nat} (hva : (s.page n).va = some a)
include hva

/-- The walk of the translation is taken as a variable: the kernel would otherwise run it. -/
theorem fillDone_of_mapped (hst : (s.page n).st = Pg.filling)
    (hmap : s.xlateFor (s.page n).who false (a * 0x10000) = (some b, u)) :
    s.fillDone n = ((u.copyIn n b).2.setPage n { s.page n with st := Pg.resident, poison := (u.copyIn n b).1 }).releasePages := by
  generalize hg : State.fillDone = g
  delta State.fillDone at hg
  subst hg
  beta_reduce
  obtain ⟨walk, hwalk⟩ := exists_eq (a' := State.xlateFor)
  obtain ⟨copy, hcopy⟩ := exists_eq (a' := State.copyIn)
  rw [← hwalk] at hmap ⊢
  rw [← hcopy]
  dsimp only
  rw [hst, hva]
  dsimp only
  rw [hmap]
  rfl

theorem writebackDone_of_mapped (hst : (s.page n).st = Pg.writeback)
    (hmap : s.xlateFor (s.backWho (s.page n)) true (a * 0x10000) = (some b, u)) (hopen : ∀ k ∈ s.pendingJobs, k.doneAt = none) :
    s.writebackDone n = ((u.copyOut n b).setPage n { s.page n with st := Pg.resident, dirty := false }).releasePage n := by
  have hnone : (s.pendingJobs.filter fun j => j.doneAt.isSome && j.outputPage (s.page n)) = [] :=
    List.filter_eq_nil_iff.2 fun k hk => by simp [hopen k hk]
  generalize hg : State.writebackDone = g
  delta State.writebackDone at hg
  subst hg
  beta_reduce
  obtain ⟨walk, hwalk⟩ := exists_eq (a' := State.xlateFor)
  obtain ⟨copy, hcopy⟩ := exists_eq (a' := State.copyOut)
  rw [← hwalk] at hmap ⊢
  rw [← hcopy]
  dsimp only
  rw [hnone, hst, hva]
  dsimp only
  rw [hmap]
  rfl

end

theorem fillDone_of_scratch {s : State} {n : Nat} (hst : (s.page n).st = Pg.filling) (hva : (s.page n).va = none) :
    s.fillDone n = s.setPage n { s.page n with st := Pg.resident } := by
  unfold State.fillDone
  dsimp only
  rw [if_neg (by simp [hst])]
  cases h : (s.page n).va with
  | none => rfl
  | some a => rw [hva] at h; cases h

/-- Settles O52: the branches of `State.fillStart`, of `State.fillDone` and of `State.writebackDone`. -/
theorem pagesMoveWithTheirJobs : Obligations.PagesMoveWithTheirJobs := by
  unfold Obligations.PagesMoveWithTheirJobs
  intro s u job dma n m a b j p hup v q
  have hstart : ∀ t, v.fillStart job dma = t → dma < 32 → exec (.pageFillStart job dma) s = .next t.noteReady := fun t ht hdma =>
    exec_fabric_unit (fun s => (s.grantAll.fillStart job dma).noteReady) hup hdma (congrArg State.noteReady ht) rfl
  refine ⟨fun hdma hnone => hstart v ?_ hdma, fun hdma hjob => ⟨fun hnext => hstart _ (fillStart_of_present hjob hnext) hdma,
      fun hnext hmay hfree => hstart _ (fillStart_of_free hjob hnext hmay hfree) hdma,
      fun hnext hbe hnone hahead => hstart _ (fillStart_of_ahead hjob hnext hbe hnone hahead) hdma,
      fun hnext hbe hmay hnone hsoon hreclaim => hstart _ (fillStart_of_reclaim hjob hnext hbe hmay hnone hsoon hreclaim) hdma⟩,
    fun hserves => ⟨exec_fabric (guarded s.dramServes fun s => (s.fillDone n).settle) hup (by rw [hserves]; rfl) rfl,
      exec_fabric (guarded s.dramServes fun s => (s.writebackDone n).settle) hup (by rw [hserves]; rfl) rfl⟩, fun hserves => ?_⟩
  · simp only [State.fillStart, hnone]
  have hfill : ∀ t, s.fillDone n = t → exec (.pageFillDone n) s = .next t.settle := fun t ht =>
    exec_fabric (guarded _ fun s => (s.fillDone n).settle) hup ((guarded_of_true _ s hserves).trans (congrArg State.settle ht)) rfl
  have hback : ∀ t, s.writebackDone n = t → exec (.pageWritebackDone n) s = .next t.settle := fun t ht =>
    exec_fabric (guarded _ fun s => (s.writebackDone n).settle) hup
      ((guarded_of_true _ s hserves).trans (congrArg State.settle ht)) rfl
  refine ⟨fun hst => hfill _ ?_, fun hst hva => hfill _ ?_, fun hst hva hmap =>
      ⟨hfill _ (fillDone_of_mapped hva hst hmap), copyIn_memory u n b⟩, fun hst => hback _ ?_, fun hst hva hmap hopen => ?_⟩
  · exact if_pos (by simpa using hst)
  · exact fillDone_of_scratch hst hva
  · exact if_pos (by simpa using hst)
  · obtain ⟨hdram, hcis⟩ := copyOut_memory u n b
    have hpage := State.page_setPage_same (u.copyOut n b) n { s.page n with st := Pg.resident, dirty := false }
    obtain ⟨hrd, hrc, hdirty, hstate⟩ := releasePage_clean (congrArg Page.st hpage) (congrArg Page.dirty hpage)
    exact ⟨_, hback _ (writebackDone_of_mapped hva hst hmap hopen), hrd.trans hdram, hrc.trans hcis, hdirty, hstate⟩

end Sys2Proof.Machine
end

section
/-! SUPPORT. The Weir's watches (R13, R14, R49 to R56, R60, R67, R73, R182, R401, R412, R416, R440, R454, R455, R564). -/
namespace Sys2Proof.Machine
open Sys2Proof

/-! What pages and engines leave of the rest. -/

/-- A state in which only the Cistern's pages may have changed. -/
def OnlyPages (s t : State) : Prop := ∃ p q, t = { s with pages := p, freeSeq := q }

theorem OnlyPages.refl (s : State) : OnlyPages s s := ⟨_, _, rfl⟩

theorem OnlyPages.trans {s t u : State} : OnlyPages s t → OnlyPages t u → OnlyPages s u := by
  rintro ⟨p, q, rfl⟩ ⟨p', q', rfl⟩
  exact ⟨p', q', rfl⟩

theorem OnlyPages.ite {s t u : State} (c : Prop) [Decidable c] (ht : OnlyPages s t) (hu : OnlyPages s u) :
    OnlyPages s (if c then t else u) := by split <;> assumption

theorem OnlyPages.foldl {α : Type} {f : State → α → State} (h : ∀ s x, OnlyPages s (f s x)) :
    ∀ (l : List α) (s : State), OnlyPages s (l.foldl f s)
  | [], s => .refl s
  | x :: l, s => (h s x).trans (foldl h l (f s x))

theorem OnlyPages.setPage (s : State) (n : Nat) (p : Page) : OnlyPages s (s.setPage n p) := ⟨_, _, rfl⟩

theorem OnlyPages.frame {s t : State} (h : OnlyPages s t) : t.events = s.events ∧ t.weir = s.weir := by
  obtain ⟨_, _, rfl⟩ := h
  exact ⟨rfl, rfl⟩

theorem freePage_pages (s : State) (n : Nat) : OnlyPages s (s.freePage n) := ⟨_, _, rfl⟩

theorem releasePages_pages (s : State) : OnlyPages s s.releasePages :=
  OnlyPages.foldl (fun s n => .ite _ (.refl s) (.ite _ (.setPage ..) (freePage_pages s n))) _ s

theorem writeOutputs_pages (s : State) (j : Job) : OnlyPages s (s.writeOutputs j) :=
  OnlyPages.foldl (fun s _ => .ite _ (.setPage ..) (.refl s)) _ s

/-- A state in which only contexts and engines may have changed. -/
def OnlyEngines (s t : State) : Prop := ∃ x f k n, t = { s with ctxs := x, ftns := f, cores := k, skim := n }

theorem OnlyEngines.refl (s : State) : OnlyEngines s s := ⟨_, _, _, _, rfl⟩

theorem OnlyEngines.trans {s t u : State} : OnlyEngines s t → OnlyEngines t u → OnlyEngines s u := by
  rintro ⟨_, _, _, _, rfl⟩ ⟨x, f, k, n, rfl⟩
  exact ⟨x, f, k, n, rfl⟩

theorem OnlyEngines.ite {s t u : State} (c : Prop) [Decidable c] (ht : OnlyEngines s t) (hu : OnlyEngines s u) :
    OnlyEngines s (if c then t else u) := by split <;> assumption

theorem OnlyEngines.setFtn (s : State) (f : Nat) (x : Fountain) : OnlyEngines s (s.setFtn f x) := ⟨_, _, _, _, rfl⟩

theorem OnlyEngines.setSkim (s : State) (x : SkimS) : OnlyEngines s { s with skim := x } := ⟨_, _, _, _, rfl⟩

theorem chargeVt_engines (s : State) (e : Nat) (r : LayerRun) : OnlyEngines s (s.chargeVt e r) := by
  unfold State.chargeVt
  cases s.job? r.job with
  | none => exact .refl s
  | some j => exact .ite _ (.refl s) ⟨_, _, _, _, rfl⟩

theorem chargeVt_ftn (s : State) (e : Nat) (r : LayerRun) (f : Nat) : (s.chargeVt e r).ftn f = s.ftn f := by
  unfold State.chargeVt
  cases s.job? r.job with
  | none => rfl
  | some j => dsimp only; split <;> rfl

/-- A change of a Fountain's cores changes the cores alone. -/
theorem onCores_cores (s : State) (f : Nat) (g : Core → Core) : ∃ k, s.onCores f g = { s with cores := k } := by
  unfold State.onCores
  have hfold : ∀ (l : List Nat) (t : State), ∃ k, l.foldl (fun s c => s.setCore c (g (s.core c))) t = { t with cores := k } := by
    intro l
    induction l with
    | nil => exact fun t => ⟨_, rfl⟩
    | cons c l ih =>
      intro t
      obtain ⟨k, hk⟩ := ih (t.setCore c (g (t.core c)))
      exact ⟨k, hk⟩
  exact hfold _ s

theorem haltFtn_engines (s : State) (f : Nat) : OnlyEngines s (s.haltFtn f) := by
  obtain ⟨k, hk⟩ := onCores_cores (s.setFtn f (s.ftn f).halt) f Core.halt
  unfold State.haltFtn
  rw [hk]
  exact ⟨_, _, _, _, rfl⟩

theorem haltFtn_ftn (s : State) (f : Nat) : (s.haltFtn f).ftn f = (s.ftn f).halt := by
  obtain ⟨k, hk⟩ := onCores_cores (s.setFtn f (s.ftn f).halt) f Core.halt
  unfold State.haltFtn
  rw [hk]
  exact State.ftn_setFtn_same s f _

theorem halt_engines (s : State) (e : Nat) : OnlyEngines s (s.halt e) := .ite _ (.setSkim ..) (haltFtn_engines s e)

theorem setRun_engines (s : State) (e : Nat) (r : Option LayerRun) : OnlyEngines s (s.setRun e r) := .ite _ (.setSkim ..) (.setFtn ..)

theorem dropRun_engines (s : State) (e : Nat) : OnlyEngines s (s.dropRun e) := by
  unfold State.dropRun
  cases s.runOf e with
  | none => exact .refl s
  | some r => exact ((chargeVt_engines s e r).trans (halt_engines _ e)).trans (setRun_engines _ e none)

theorem runOf_setRun (s : State) (e : Nat) (r : Option LayerRun) : (s.setRun e r).runOf e = r := by
  unfold State.setRun State.runOf
  split
  · rfl
  · rw [State.ftn_setFtn_same]

theorem runOf_ftn {s : State} {f : Nat} (hf : f < 4) : s.runOf f = (s.ftn f).run := if_neg (by unfold Eng.skim; omega)

theorem dropRun_ftn {s : State} {f : Nat} {r : LayerRun} (hf : f < 4) (hrun : (s.ftn f).run = some r) :
    (s.dropRun f).ftn f = { (s.ftn f).halt with run := none } := by
  have hne : f ≠ Eng.skim := by unfold Eng.skim; omega
  unfold State.dropRun
  rw [runOf_ftn hf, hrun]
  dsimp only
  rw [State.halt, if_neg hne, State.setRun, if_neg hne, State.ftn_setFtn_same, haltFtn_ftn, chargeVt_ftn]

/-! The end of a job. -/

theorem pending?_of_jobs {s t : State} (h : t.weir.jobs = s.weir.jobs) (id : Nat) : t.pending? id = s.pending? id := by
  unfold State.pending? State.pendingJobs
  rw [h]

theorem OnlyPages.pending? {s t : State} (h : OnlyPages s t) (id : Nat) : t.pending? id = s.pending? id := by
  obtain ⟨_, _, rfl⟩ := h
  rfl

/-- No job is pending under the number of one that has its final record. -/
theorem finalRecord_pending (s : State) (j : Job) (status fault gts : Nat) : (s.finalRecord j status fault gts).pending? j.id = none := by
  unfold State.finalRecord
  dsimp only
  generalize State.flushFinals j.slot (s.setCtx j.slot _) = u
  rw [(releasePages_pages _).pending?]
  split
  · rw [(writeOutputs_pages _ j).pending?]
    refine List.find?_eq_none.2 fun k hk => ?_
    obtain ⟨hmem, hopen⟩ := List.mem_filter.1 hk
    obtain ⟨k', -, rfl⟩ := List.mem_map.1 hmem
    by_cases h : k'.id = j.id
    · simp [h] at hopen
    · simp [h]
  · refine List.find?_eq_none.2 fun k hk => ?_
    obtain ⟨hmem, -⟩ := List.mem_filter.1 hk
    simpa using (List.mem_filter.1 hmem).2

/-! The watches. -/

theorem endAll_nil (s : State) : s.endAll [] = s := rfl

theorem exec_settles {s t : State} {c : Instr} (f : State → State) (hup : s.up = true) (ht : f s = t)
    (hc : exec c s = onFabric s fun s => (f s).settle) : exec c s = .next t.settle :=
  exec_fabric (fun s => (f s).settle) hup (congrArg State.settle ht) hc

theorem exec_unit_settles {s t : State} {c : Instr} {n bound : Nat} (f : State → State) (hup : s.up = true) (hn : n < bound)
    (ht : f s = t) (hc : exec c s = onFabric s (guarded (decide (n < bound)) fun s => (f s).settle)) : exec c s = .next t.settle :=
  exec_fabric_unit (fun s => (f s).settle) hup hn (congrArg State.settle ht) hc

section
variable {s : State} {id : Nat} {j : Job}

theorem deadlineMiss_of_due (hjob : s.checkEntries.pending? id = some j) (hguar : j.guar = true) (hdone : j.doneAt = none)
    (hdue : j.deadline ≤ s.checkEntries.gts) : s.deadlineMiss id = s.checkEntries.breach id Br.unexplained := by
  simp only [State.deadlineMiss, hjob, hguar, hdone, Bool.not_true, Option.isSome_none, Bool.or_self, Bool.false_eq_true, if_false,
    if_pos hdue]

theorem deadlineMiss_of_early (hjob : s.checkEntries.pending? id = some j) (hearly : s.checkEntries.gts < j.deadline)
    (harmed : s.checkEntries.injArmed 0x17 0 9 0 = false) : s.deadlineMiss id = s.checkEntries := by
  simp only [State.deadlineMiss, hjob, if_neg (Nat.not_le.2 hearly), State.inject_of_not_armed harmed, ite_self]

theorem stopTime_of_due (hjob : s.pending? id = some j) (hguar : j.guar = false) (hstop : j.deadline ≠ 0)
    (hdue : j.deadline ≤ s.gts) : s.stopTime id = s.endWith id St.partial_ := by
  simp [State.stopTime, hjob, hguar, hstop, hdue]

theorem stopTime_of_early (hjob : s.pending? id = some j) (hearly : s.gts < j.deadline) : s.stopTime id = s := by
  simp [State.stopTime, hjob, Nat.not_le.2 hearly]

end

section
variable {s : State} {f : Nat} {r : LayerRun}

theorem budgetOut_of_spent (hrun : (s.ftn f).run = some r) (hgo : r.stoppedAt = none) (hcommit : (s.ftn f).committing = false)
    (hstart : (s.ftn f).started = true) (hspent : s.rn (Reg.ftnBudget f) ≤ s.rn (Reg.ftnCycles f)) :
    s.budgetOut f = s.endWith r.job St.certOverrun := by
  simp [State.budgetOut, hrun, hgo, hcommit, hstart, hspent]

theorem budgetOut_of_left (hrun : (s.ftn f).run = some r) (hleft : s.rn (Reg.ftnCycles f) < s.rn (Reg.ftnBudget f)) :
    s.budgetOut f = s := by
  simp [State.budgetOut, hrun, Nat.not_le.2 hleft]

theorem skimBudgetOut_of_spent (hrun : s.skim.run = some r) (hgo : r.stoppedAt = none)
    (hspent : r.ent.bound - 64 ≤ s.rn Reg.skimCycles) : s.skimBudgetOut = s.endWith r.job St.certOverrun := by
  simp only [State.skimBudgetOut, hrun, hgo, decide_eq_true hspent, Option.isNone_none, Bool.and_self, if_true]

theorem skimBudgetOut_of_left (hrun : s.skim.run = some r) (hleft : s.rn Reg.skimCycles < r.ent.bound - 64) :
    s.skimBudgetOut = s := by
  simp only [State.skimBudgetOut, hrun, decide_eq_false (Nat.not_le.2 hleft), Bool.and_false, Bool.false_eq_true, if_false]

end

theorem phaseCheck_of_far {s : State} (h : ∀ k ∈ s.pendingJobs, ∀ q, k.phase = some q → s.targetReached q = false) : s.phaseCheck = s := by
  unfold State.phaseCheck
  rw [List.filter_eq_nil_iff.2]
  · exact endAll_nil s
  · intro k hk
    cases hp : k.phase with
    | none => simp
    | some q => simp [h k hk q hp]

theorem phaseCheck_of_reached {s : State} {j : Job} {p : PhaseDl} (hjobs : s.pendingJobs = [j]) (hphase : j.phase = some p)
    (hreached : s.targetReached p = true) : s.phaseCheck = s.breach j.id Br.phaseReached := by
  unfold State.phaseCheck
  rw [hjobs]
  simp only [List.filter_cons, List.filter_nil, hphase, hreached, if_true]
  rfl

section
variable {s : State} {f g t0 : Nat} {v : Bool} {r : LayerRun} {j : Job} (hrun : (s.ftn f).run = some r)
  (hwait : (s.ftn f).waitf = some (g, v, t0)) (hjob : s.pending? r.job = some j)
include hrun hwait hjob

theorem waitfTimeout_of_late (hflag : s.gateFlag g ≠ v) (hguar : j.guar = true) (hlate : t0 + 1000 < s.gts) :
    s.waitfTimeout f = s.breach j.id Br.producerFailed := by
  simp [State.waitfTimeout, hrun, hwait, hjob, hflag, hguar, hlate]

theorem waitfTimeout_of_early (hearly : s.gts ≤ t0 + 1000) : s.waitfTimeout f = s := by
  simp [State.waitfTimeout, hrun, hwait, hjob, Nat.not_lt.2 hearly]

theorem waitfPreempt_of_ready (hflag : s.gateFlag g ≠ v) (hbe : j.guar = false)
    (hready : (s.guarJobs.any fun k => k.fountain == f && s.ftnReady k) = true) :
    s.waitfPreempt f = (s.dropRun f).setFtn f { (s.dropRun f).ftn f with stopped := false } := by
  simp only [State.waitfPreempt, hrun, hwait, hjob, hbe, bne_iff_ne.2 hflag, hready, Bool.not_false, Bool.and_self, if_true]

theorem waitfPreempt_of_none (hready : (s.guarJobs.any fun k => k.fountain == f && s.ftnReady k) = false) : s.waitfPreempt f = s := by
  simp only [State.waitfPreempt, hrun, hwait, hjob, hready, Bool.and_false, Bool.false_eq_true, if_false]

end

section
variable {s : State} {h : Job × Nat × Nat × Bool} (hgts : s.gts % 1000 = 0) (hholders : s.holders = [h])
include hgts hholders

theorem deadlockWalk_of_free (hfree : onCycle s.waitEdges h.1.node = false) : s.deadlockWalk = s := by
  simp only [State.deadlockWalk, hgts, hholders, List.map_cons, List.map_nil, List.filter_cons, List.filter_nil, hfree,
    Bool.false_eq_true, if_false, List.foldl_nil, ne_eq, not_true_eq_false]

theorem deadlockWalk_of_cycle (hcycle : onCycle s.waitEdges h.1.node = true) :
    s.deadlockWalk = (s.bumpSat Reg.weirDeadlocks F.weirDeadlocks_COUNT).endWith h.1.id St.failedDeadlock := by
  simp only [State.deadlockWalk, hgts, hholders, List.map_cons, List.map_nil, List.filter_cons, List.filter_nil, hcycle, if_true,
    List.foldl_cons, List.foldl_nil, ne_eq, not_true_eq_false, if_false]

end

/-! Faults. -/

/-- A fault is charged to the layer that stands on an engine: `State.chargeFault` without R412. -/
def State.chargeRun (s : State) (e det : Nat) (input : Bool) : State :=
  match s.runOf e with
  | none => s
  | some r =>
    match s.pending? r.job with
    | none => s
    | some j =>
      if r.stoppedAt.isSome then s else
      let s := ((s.chargeVt e r).halt e).setRun e (some { r with stoppedAt := some s.gts })
      let s := if e < 4 then s.setFtn e { s.ftn e with stats := [] } else s
      let s := if det = 1 ∧ (input ∨ j.reserve ≤ j.replays) then s.cause 9 else s
      if input then s.failJob j Br.inputLost det
      else if j.replays < j.reserve then
        s.modJob j.id fun j => { j with replays := j.replays + 1, lastDet := det }
      else (if det = 0x0B then s.cause 7 else s).failJob j Br.replayExhausted det

theorem chargeFault_eq (s : State) (e det : Nat) (input : Bool) :
    s.chargeFault e det input = (if e < 4 ∧ !(s.ftn e).started then s.dropOver e else s).chargeRun e det input := rfl

theorem dropOver_of_none {s : State} {f : Nat} (h : (s.ftn f).ovl = none) : s.dropOver f = s := by
  simp only [State.dropOver, h]

/-- A fault while no commit is overlapped, or once the next layer has issued, is the standing layer's. -/
theorem chargeFault_of_run {s : State} {e : Nat} (det : Nat) (input : Bool)
    (h : e < 4 → (s.ftn e).ovl = none ∨ (s.ftn e).started = true) : s.chargeFault e det input = s.chargeRun e det input := by
  have hkeep : (if e < 4 ∧ !(s.ftn e).started then s.dropOver e else s) = s := by
    split
    · next hover => exact dropOver_of_none ((h hover.1).resolve_right (by simpa using hover.2))
    · rfl
  rw [chargeFault_eq, hkeep]

section
variable {s : State} {e det : Nat} {r : LayerRun} {j : Job}

/-- The state in which a layer has stopped for its replay. -/
def State.stopped (s : State) (e : Nat) (r : LayerRun) : State :=
  let s := ((s.chargeVt e r).halt e).setRun e (some { r with stoppedAt := some s.gts })
  if e < 4 then s.setFtn e { s.ftn e with stats := [] } else s

theorem runOf_stopped (s : State) (e : Nat) (r : LayerRun) : (s.stopped e r).runOf e = some { r with stoppedAt := some s.gts } := by
  unfold State.stopped
  dsimp only
  split
  · next hlt =>
    rw [runOf_ftn hlt]
    refine (congrArg Fountain.run (State.ftn_setFtn_same _ e _)).trans ?_
    rw [← runOf_ftn hlt, runOf_setRun]
  · exact runOf_setRun ..

theorem ovl_stopped (s : State) {e : Nat} (he : e < 4) (r : LayerRun) : ((s.stopped e r).ftn e).ovl = (s.ftn e).ovl := by
  have hne : e ≠ Eng.skim := by unfold Eng.skim; omega
  unfold State.stopped
  dsimp only
  rw [if_pos he]
  refine (congrArg Fountain.ovl (State.ftn_setFtn_same _ e _)).trans ?_
  rw [State.setRun, if_neg hne]
  refine (congrArg Fountain.ovl (State.ftn_setFtn_same _ e _)).trans ?_
  rw [State.halt, if_neg hne, haltFtn_ftn, chargeVt_ftn]
  rfl

/-- A layer within its replay reserve stops for its replay. -/
theorem chargeRun_of_reserve (hrun : s.runOf e = some r) (hjob : s.pending? r.job = some j) (hgo : r.stoppedAt = none)
    (hleft : j.replays < j.reserve) : s.chargeRun e det false =
      (s.stopped e r).modJob j.id fun j => { j with replays := j.replays + 1, lastDet := det } := by
  have hcause : ∀ t : State, (if det = 1 ∧ (False ∨ j.reserve ≤ j.replays) then t.cause 9 else t) = t := fun t =>
    if_neg fun h => h.2.elim id (Nat.not_le.2 hleft)
  unfold State.chargeRun
  rw [hrun]
  dsimp only
  rw [hjob]
  simp only [hgo, Option.isSome_none, Bool.false_eq_true, if_false, hcause, if_pos hleft]
  rfl

/-- A Fountain whose committing layer is its own again (R412). -/
def Fountain.recommit (x : Fountain) (c : Over) : Fountain :=
  { x with run := some c.run, ovl := none, stopped := false, committing := true, held := c.held, tileNow := c.tileNow,
           stats := c.stats, drainSet := c.drainSet }

/-- A fault while a commit is overlapped is the committing layer's (R412). -/
theorem chargeFault_of_overlap {c : Over} (he : e < 4) (hovl : (s.ftn e).ovl = some c) (hstart : (s.ftn e).started = false)
    (hjob : s.pending? c.run.job = some j) (hgo : c.run.stoppedAt = none) (hleft : j.replays < j.reserve) :
    ((s.chargeFault e det false).ftn e).ovl = none ∧
      (s.chargeFault e det false).runOf e = some { c.run with stoppedAt := some s.gts } := by
  obtain ⟨_, _, _, _, hdrop⟩ := dropRun_engines s e
  have hover : s.dropOver e = ((s.dropRun e).wn (Reg.ftnCycles e) c.cycles).setFtn e
      (((s.dropRun e).wn (Reg.ftnCycles e) c.cycles).ftn e |>.recommit c) := by
    simp only [State.dropOver, hovl]
    rfl
  have hftn := State.ftn_setFtn_same ((s.dropRun e).wn (Reg.ftnCycles e) c.cycles) e
    (((s.dropRun e).wn (Reg.ftnCycles e) c.cycles).ftn e |>.recommit c)
  rw [← hover] at hftn
  have hrun : (s.dropOver e).runOf e = some c.run := by rw [runOf_ftn he, hftn]; rfl
  have hjob' : (s.dropOver e).pending? c.run.job = some j := by rw [hover, hdrop]; exact hjob
  have hgts : (s.dropOver e).gts = s.gts := by rw [hover, hdrop]; rfl
  rw [chargeFault_eq, if_pos ⟨he, by rw [hstart]; rfl⟩, chargeRun_of_reserve hrun hjob' hgo hleft]
  exact ⟨(ovl_stopped _ he _).trans (congrArg Fountain.ovl hftn), (runOf_stopped _ e _).trans (by rw [hgts])⟩

end

/-! The report of a fault. -/

/-- The occurrence of a fault. -/
def State.faultOccurs (s : State) (det unit index : Nat) : State :=
  s.occur ⟨det, if det = 1 ∨ det = 2 then Kind.uncorrectable else Kind.occurrence, unit, index, false⟩

theorem ftnSize_of_sections {s t : State} (h : t.sections = s.sections) : t.ftnSize = s.ftnSize := by
  funext f
  unfold State.ftnSize State.sec
  rw [h]

theorem ftnCores_of_sections {s t : State} (h : t.sections = s.sections) (f : Nat) : t.ftnCores f = s.ftnCores f := by
  unfold State.ftnCores State.ftnFirst
  rw [ftnSize_of_sections h]

theorem faultOccurs_frame (s : State) (det unit index : Nat) :
    ∃ l e i p, s.faultOccurs det unit index = { s with live := l, events := e, integ := i, pairs := p } := s.occur_reports _ _

theorem faultOccurs_ftn (s : State) (det unit index n : Nat) : (s.faultOccurs det unit index).ftn n = s.ftn n := by
  obtain ⟨_, _, _, _, h⟩ := faultOccurs_frame s det unit index
  rw [h]
  rfl

section
variable {s : State} {e core det unit index : Nat} {input : Bool} (hrun : (s.runOf e).isSome = true)
  (hgo : ∀ q, s.runOf e = some q → q.stoppedAt = none)
include hrun hgo

theorem faultCharged_eq : s.faultCharged e core det unit index input =
    let s := s.faultOccurs det unit index
    let s := if det = 0x0B ∧ core < 16 then
        let (v, s) := s.draw 8
        s.residueNote core (v % 4) (v / 4 % 32) (v / 2 ^ 7 % 64) (v / 2 ^ 13 % 16) (v / 2 ^ 17 % 8)
      else s
    let s := if (s.ftnCores e).contains core then s.wf (Reg.coreStatus core) F.coreStatus_FAULT 1 else s
    s.chargeFault e det input := by
  obtain ⟨q, hq⟩ := Option.isSome_iff_exists.1 hrun
  unfold State.faultCharged
  rw [hq]
  dsimp only
  rw [hgo q hq, Option.isSome_none, if_neg Bool.false_ne_true]
  rfl

theorem faultCharged_of_elsewhere (hcore : (s.ftnCores e).contains core = false) (hdet : det ≠ 0xB ∨ 16 ≤ core) :
    s.faultCharged e core det unit index input = (s.faultOccurs det unit index).chargeFault e det input := by
  have hcore' : ((s.faultOccurs det unit index).ftnCores e).contains core = false := by
    obtain ⟨_, _, _, _, h⟩ := faultOccurs_frame s det unit index
    rw [ftnCores_of_sections (s := s) (by rw [h])]
    exact hcore
  have hdet' : ¬ (det = 0xB ∧ core < 16) := fun h => hdet.elim (fun hd => hd h.1) (Nat.not_le.2 h.2)
  rw [faultCharged_eq hrun hgo]
  dsimp only
  rw [if_neg hdet', if_neg (by rw [hcore']; exact Bool.false_ne_true)]

end

/-! Residue failures (R182). -/

theorem residueCount_ne_log : ∀ c < 16, Reg.residueCount c ≠ Reg.residueLog c := by decide

theorem residueNote_count {s : State} {c a i col fmt mode : Nat} (hc : c < 16)
    (hcount : s.rf (Reg.residueCount c) F.residueCount_COUNT < 65535) :
    (s.residueNote c a i col fmt mode).rf (Reg.residueCount c) F.residueCount_COUNT =
      s.rf (Reg.residueCount c) F.residueCount_COUNT + 1 := by
  have hne : Reg.residueCount c ≠ Reg.residueLog c := residueCount_ne_log c hc
  have hbump : (s.bumpSat (Reg.residueCount c) F.residueCount_COUNT).rf (Reg.residueCount c) F.residueCount_COUNT =
      s.rf (Reg.residueCount c) F.residueCount_COUNT + 1 := bumpSat_count (by decide) (by decide) (lt_of_lt_of_le hcount (by decide))
  unfold State.residueNote
  dsimp only
  split
  · exact hbump
  · rw [State.rf, State.rd_wr_ne _ _ hne]
    exact hbump

theorem residueNote_valid (s : State) (c a i col fmt mode : Nat) :
    (s.residueNote c a i col fmt mode).rf (Reg.residueLog c) F.residueLog_VALID = 1 := by
  unfold State.residueNote
  dsimp only
  split
  · next h => exact h
  · rw [State.rf, State.rd_wr_same, W32.fld_setFld_apart _ _ _ _ (by decide) (by decide),
      W32.fld_setFld_apart _ _ _ _ (by decide) (by decide), W32.fld_setFld_apart _ _ _ _ (by decide) (by decide),
      W32.fld_setFld_apart _ _ _ _ (by decide) (by decide), W32.fld_setFld_apart _ _ _ _ (by decide) (by decide),
      W32.fld_setFld_same _ _ _ (by decide) (by decide)]
    decide

theorem coreStatus_ne_residue : ∀ c < 16, Reg.residueCount c ≠ Reg.coreStatus c ∧ Reg.residueLog c ≠ Reg.coreStatus c := by decide

theorem residueCount_ne_det : ∀ c < 16, Reg.residueCount c ≠ Reg.detCount 0xB ∧ Reg.residueCount c ≠ Reg.detLast 0xB := by decide

theorem faultCharged_of_residue {s : State} {e core unit index : Nat} {input : Bool} (hrun : (s.runOf e).isSome = true)
    (hgo : ∀ q, s.runOf e = some q → q.stoppedAt = none) (hc : core < 16)
    (hcount : s.rf (Reg.residueCount core) F.residueCount_COUNT < 65535) :
    ∃ y : State, s.faultCharged e core 0xB unit index input = y.chargeFault e 0xB input ∧
      y.rf (Reg.residueCount core) F.residueCount_COUNT = s.rf (Reg.residueCount core) F.residueCount_COUNT + 1 ∧
      y.rf (Reg.residueLog core) F.residueLog_VALID = 1 := by
  obtain ⟨hcountNe, hlogNe⟩ := coreStatus_ne_residue core hc
  obtain ⟨hdet, hlast⟩ := residueCount_ne_det core hc
  have hoccur : (s.faultOccurs 0xB unit index).rf (Reg.residueCount core) F.residueCount_COUNT =
      s.rf (Reg.residueCount core) F.residueCount_COUNT := congrArg (W32.fld · F.residueCount_COUNT) (s.occur_rd _ _ _ hdet hlast)
  rw [faultCharged_eq hrun hgo]
  dsimp only
  rw [if_pos (show 0x0B = 0x0B ∧ core < 16 from ⟨rfl, hc⟩)]
  generalize hdraw : (s.faultOccurs 0xB unit index).draw 8 = w
  have hw : w.2.rf (Reg.residueCount core) F.residueCount_COUNT = s.rf (Reg.residueCount core) F.residueCount_COUNT := by
    rw [← hdraw]
    exact hoccur
  have hcounted := residueNote_count (a := w.1 % 4) (i := w.1 / 4 % 32) (col := w.1 / 2 ^ 7 % 64) (fmt := w.1 / 2 ^ 13 % 16)
    (mode := w.1 / 2 ^ 17 % 8) hc (lt_of_eq_of_lt hw hcount)
  have hvalid := residueNote_valid w.2 core (w.1 % 4) (w.1 / 4 % 32) (w.1 / 2 ^ 7 % 64) (w.1 / 2 ^ 13 % 16) (w.1 / 2 ^ 17 % 8)
  refine ⟨_, rfl, ?_, ?_⟩
  · split
    · rw [State.rf_wf_ne _ _ _ _ hcountNe, hcounted, hw]
    · rw [hcounted, hw]
  · split
    · rw [State.rf_wf_ne _ _ _ _ hlogNe, hvalid]
    · exact hvalid

/-! The last writeback. -/

theorem jobWritten_of_clean {s : State} {id : Nat} {j : Job} (hjob : s.job? id = some j) (hended : j.ended.isSome = true)
    (hclean : s.dirtyOutputs j = 0) : ∃ q : Event, (s.jobWritten id).events = s.events ++ [q] ∧ q.type = Ev.writebackDone ∧
      q.detail = min j.wbPages 768 ∧ q.cookie = j.cookie ∧
      (s.jobWritten id).weir.jobs = s.weir.jobs.filter fun k => k.id != id := by
  have hopen : (j.ended.isNone || s.dirtyOutputs j != 0) = false := by
    obtain ⟨st, hst⟩ := Option.isSome_iff_exists.1 hended
    simp [hst, hclean]
  unfold State.jobWritten
  rw [hjob]
  dsimp only
  rw [hopen, if_neg Bool.false_ne_true]
  exact ⟨_, (releasePages_pages _).frame.1, rfl, rfl, rfl, congrArg WeirS.jobs (releasePages_pages _).frame.2⟩

/-- Settles O51: each watch by the branch of its own condition. -/
theorem theWeirWatchesItsJobs : Obligations.TheWeirWatchesItsJobs := by
  unfold Obligations.TheWeirWatchesItsJobs
  intro s id f e core det unit index g t0 st ft at_ v r j p h x u o
  have hftn : ∀ n, o.ftn n = s.ftn n := faultOccurs_ftn s det unit index
  have hcharged : ∀ {b : Bool} {t : State}, s.up = true → e < 5 → 1 ≤ det → det ≤ 0x11 →
      s.faultCharged e core det unit index b = t → exec (.faultCharged e core det unit index b) s = .next t.settle :=
    fun hup he h1 h17 ht => exec_fabric (guarded _ fun s => (s.faultCharged e core det unit index _).settle) hup
      ((guarded_of_true _ s (by simp [he, h1, h17])).trans (congrArg State.settle ht)) rfl
  refine ⟨finalRecord_pending s j st ft at_, fun hup => ⟨fun hjob hguar hdone => ⟨fun hdue => ?_, fun hearly harmed => ?_⟩,
    fun hjob hguar hstop => ⟨fun hdue => ?_, fun hearly => ?_⟩,
    fun hf hrun hgo hcommit hstart => ⟨fun hspent => ?_, fun hleft => ?_⟩,
    fun hrun hgo => ⟨fun hspent => ?_, fun hleft => ?_⟩, fun hfar => ?_, fun hjobs hphase hreached => ?_,
    fun hf hrun hwait hjob hflag => ⟨fun hguar => ⟨fun hlate => ?_, fun hearly => ?_⟩, fun hbe hready => ?_, fun hbe hready => ?_⟩,
    fun hgts => ?_, fun hgts hholders => ⟨fun hfree => ?_, fun hcycle => ?_⟩,
    fun he h1 h17 hrun hgo hcore hdet input => ⟨?_, ?_, ?_⟩, fun he hcore hrun hgo hcount input => ?_,
    fun hjob hended => ⟨fun hdirty => ?_, fun hclean => ?_⟩⟩⟩
  · exact exec_settles (·.deadlineMiss id) hup (deadlineMiss_of_due hjob hguar hdone hdue) rfl
  · exact exec_settles (·.deadlineMiss id) hup (deadlineMiss_of_early hjob hearly harmed) rfl
  · exact exec_settles (·.stopTime id) hup (stopTime_of_due hjob hguar hstop hdue) rfl
  · exact exec_settles (·.stopTime id) hup (stopTime_of_early hjob hearly) rfl
  · exact exec_unit_settles (·.budgetOut f) hup hf (budgetOut_of_spent hrun hgo hcommit hstart hspent) rfl
  · exact exec_unit_settles (·.budgetOut f) hup hf (budgetOut_of_left hrun hleft) rfl
  · exact exec_settles (·.skimBudgetOut) hup (skimBudgetOut_of_spent hrun hgo hspent) rfl
  · exact exec_settles (·.skimBudgetOut) hup (skimBudgetOut_of_left hrun hleft) rfl
  · exact exec_settles (·.phaseCheck) hup (phaseCheck_of_far hfar) rfl
  · exact exec_settles (·.phaseCheck) hup (phaseCheck_of_reached hjobs hphase hreached) rfl
  · exact exec_unit_settles (·.waitfTimeout f) hup hf (waitfTimeout_of_late hrun hwait hjob hflag hguar hlate) rfl
  · exact exec_unit_settles (·.waitfTimeout f) hup hf (waitfTimeout_of_early hrun hwait hjob hearly) rfl
  · obtain ⟨_, _, _, _, hdrop⟩ := dropRun_engines s f
    refine ⟨_, exec_unit_settles (·.waitfPreempt f) hup hf (waitfPreempt_of_ready hrun hwait hjob hflag hbe hready) rfl, ?_, ?_, ?_⟩
    · rw [State.ftn_setFtn_same, dropRun_ftn hf hrun]
    · rw [hdrop]; rfl
    · rw [hdrop]; rfl
  · exact exec_unit_settles (·.waitfPreempt f) hup hf (waitfPreempt_of_none hrun hwait hjob hready) rfl
  · exact exec_settles (·.deadlockWalk) hup (if_pos hgts) rfl
  · exact exec_settles (·.deadlockWalk) hup (deadlockWalk_of_free hgts hholders hfree) rfl
  · exact exec_settles (·.deadlockWalk) hup (deadlockWalk_of_cycle hgts hholders hcycle) rfl
  · exact hcharged hup he h1 h17 (faultCharged_of_elsewhere hrun hgo hcore hdet)
  · intro hover hrun' hjob hgo' hin hleft
    have hover' : e < 4 → (o.ftn e).ovl = none ∨ (o.ftn e).started = true := by rw [hftn]; exact hover
    subst hin
    refine ⟨_, hcharged hup he h1 h17 (faultCharged_of_elsewhere hrun hgo hcore hdet), ?_⟩
    exact (congrArg (State.runOf · e) ((chargeFault_of_run det false hover').trans
      (chargeRun_of_reserve hrun' hjob hgo' hleft))).trans (runOf_stopped o e r)
  · intro c he4 hovl hstart hjob hgo' hin hleft
    subst hin
    exact ⟨_, hcharged hup he h1 h17 (faultCharged_of_elsewhere hrun hgo hcore hdet),
      chargeFault_of_overlap he4 ((congrArg Fountain.ovl (hftn e)).trans hovl) ((congrArg Fountain.started (hftn e)).trans hstart)
        hjob hgo' hleft⟩
  · obtain ⟨y, hy, hcounted, hvalid⟩ := faultCharged_of_residue (unit := unit) (index := index) (input := input) hrun hgo hcore hcount
    refine ⟨y, ?_, hcounted, hvalid⟩
    exact exec_fabric (guarded _ fun s => (s.faultCharged e core 0xB unit index input).settle) hup
      ((guarded_of_true _ s (by simp [he])).trans (congrArg State.settle hy)) rfl
  · refine exec_settles (·.jobWritten id) hup ?_ rfl
    simp [State.jobWritten, hjob, hdirty]
  · obtain ⟨q, hevents, hq⟩ := jobWritten_of_clean hjob hended hclean
    obtain ⟨htype, hdetail, hcookie, hjobs⟩ := hq
    exact ⟨_, q, exec_settles (·.jobWritten id) hup rfl rfl, hevents, htype, hdetail, hcookie, hjobs⟩

end Sys2Proof.Machine
end

section
/-! SUPPORT. A slot of a bundle (R197 to R203, R252 to R254, R67): what its command does at each branch of the fetch, of the
presenting and of the bundle's tests. -/
namespace Sys2Proof.Machine
open Sys2Proof

/-! The command. -/

/-- A command that presents a slot does so while the fabric works. -/
theorem exec_of_slotOf? {cmd : Instr} {f : Nat} {o : SlotOp} {last : Bool} (h : slotOf? cmd = some (f, o, last)) {s : State}
    (hup : s.up = true) : exec cmd s = .next (s.slot f o last) := by
  have hslot : exec cmd s = onFabric s fun s => s.slot f o last := by
    unfold slotOf? at h
    split at h
    all_goals cases h
    all_goals rfl
  exact exec_of_up hslot hup

/-! The fetch (R197, R253). -/

theorem State.fetch_of_beyond {s : State} {f : Nat} (hir : (s.ftn f).ir = []) (h : (s.ftn f).count ≤ (s.ftn f).pc) :
    s.fetch f = (false, s.progFault f Pf.fetchRange (s.ftn f).bank (s.ftn f).pc) := by
  unfold State.fetch
  extract_lets x
  exact (if_neg (by simp [x, hir])).trans (if_pos h)

theorem State.fetch_of_read {s u : State} {f : Nat} {bad : Bool} (hir : (s.ftn f).ir = [])
    (hpc : (s.ftn f).pc < (s.ftn f).count)
    (hread : s.readEcc Mc.imem f ((s.ftn f).bank * 0x20000 + 32 * (s.ftn f).pc) 32 = (bad, u)) :
    s.fetch f = if bad = true then (false, u.chargeFault f 1 false)
      else (true, u.setFtn f { u.ftn f with ir := Mem.rdBytes ((s.ftn f).imem (s.ftn f).bank) (32 * (s.ftn f).pc) 32 }) := by
  -- The read is made opaque: the kernel would evaluate it to compare two forms of the branch on it.
  generalize hfetch : State.fetch = fetch
  delta State.fetch at hfetch
  subst hfetch
  beta_reduce
  obtain ⟨read, hopaque⟩ := exists_eq (a' := State.readEcc)
  rw [← hopaque] at hread ⊢
  dsimp only
  rw [hir, hread]
  exact if_neg (Nat.not_le.2 hpc)

/-! The slot's way to the bundle. -/

/-- The Fountain runs a layer, so its slots are taken (R197). -/
def State.takesSlots (s : State) (f : Nat) : Prop := f < 4 ∧ s.ftnLive f = true ∧ (s.ftn f).committing = false

theorem State.slot_of_spent {s : State} {f : Nat} (h : s.takesSlots f) (hspent : s.spent f = true) (o : SlotOp) (last : Bool) :
    s.slot f o last = (s.overrun f).settle := by
  obtain ⟨hf, hlive, hcommitting⟩ := h
  simp [State.slot, hf, hlive, hcommitting, hspent]

theorem State.slot_of_no_fetch {s u : State} {f : Nat} (h : s.takesSlots f) (hspent : s.spent f = false)
    (hfetch : s.fetch f = (false, u)) (o : SlotOp) (last : Bool) : s.slot f o last = u.settle := by
  obtain ⟨hf, hlive, hcommitting⟩ := h
  simp [State.slot, hf, hlive, hcommitting, hspent, hfetch]

theorem State.slot_of_illegal {s u : State} {f : Nat} (h : s.takesSlots f) (hspent : s.spent f = false)
    (hfetch : s.fetch f = (true, u)) (hnone : (decodeBundle (u.ftn f).ir).filter bundleOk = none) (o : SlotOp) (last : Bool) :
    s.slot f o last = (u.progFault f Pf.illegal (u.ftn f).bank (u.ftn f).pc).settle := by
  obtain ⟨hf, hlive, hcommitting⟩ := h
  simp [State.slot, hf, hlive, hcommitting, hspent, hfetch, hnone]

theorem State.slot_of_legal {s u : State} {f : Nat} {all : List SlotOp} (h : s.takesSlots f) (hspent : s.spent f = false)
    (hfetch : s.fetch f = (true, u)) (hall : (decodeBundle (u.ftn f).ir).filter bundleOk = some all) (o : SlotOp)
    (last : Bool) : s.slot f o last = u.present s f all o last := by
  obtain ⟨hf, hlive, hcommitting⟩ := h
  simp [State.slot, hf, hlive, hcommitting, hspent, hfetch, hall]

/-! The presenting (R198, R199). -/

theorem State.present_of_not_taken {u : State} {f : Nat} {all : List SlotOp} {o : SlotOp}
    (h : o ∉ all ∨ o ∈ (u.ftn f).asm) (s : State) (last : Bool) : u.present s f all o last = s := by
  unfold State.present
  refine if_pos ?_
  simpa using h

theorem State.present_of_not_last {u : State} {f : Nat} {all : List SlotOp} {o : SlotOp} (hall : o ∈ all)
    (hasm : o ∉ (u.ftn f).asm) (s : State) :
    u.present s f all o false = u.setFtn f { u.ftn f with asm := (u.ftn f).asm ++ [o] } := by
  simp [State.present, hall, hasm]

theorem State.present_of_missing {u : State} {f : Nat} {all : List SlotOp} {o : SlotOp}
    (h : ∃ p ∈ all, slotNop p = false ∧ p ∉ (u.ftn f).asm ∧ p ≠ o) (s : State) : u.present s f all o true = s := by
  obtain ⟨p, hp, hnop, hasm, hne⟩ := h
  have hmissing : allPresented all ((u.ftn f).asm ++ [o]) = false :=
    List.all_eq_false.2 ⟨p, hp, by simp [hnop, hasm, hne]⟩
  simp [State.present, hmissing]

theorem State.present_of_complete {u : State} {f : Nat} {all : List SlotOp} {o : SlotOp} (hall : o ∈ all)
    (hasm : o ∉ (u.ftn f).asm) (h : ∀ p ∈ all, slotNop p = true ∨ p ∈ (u.ftn f).asm ∨ p = o) (s : State) :
    u.present s f all o true = (u.bundle f all).settle := by
  have hpresented : allPresented all ((u.ftn f).asm ++ [o]) = true :=
    List.all_eq_true.2 fun p hp => by simpa using h p hp
  simp [State.present, hall, hasm, hpresented]

/-! The tests of a complete bundle, in their order (R203, R239, R253, R254). -/

section
variable {u : State} {f : Nat} {all : List SlotOp}

theorem State.bundle_of_swapNone {g : Nat} (hswap : SlotOp.bar g true ∈ all.filter (u.ftn f).runs)
    (hnext : u.nextSeg f = none) (hquiet : u.quiet f true = true) :
    u.bundle f all = u.progFault f Pf.swapNone (u.ftn f).bank (u.ftn f).pc := by
  unfold State.bundle
  refine if_pos ?_
  rw [hnext, hquiet, List.any_eq_true.2 ⟨_, hswap, rfl⟩]
  rfl

/-- A bundle that does not ask for a segment that is not there passes the first test. -/
theorem State.bundle_of_swap (h : (¬∃ g, SlotOp.bar g true ∈ all.filter (u.ftn f).runs) ∨ (u.nextSeg f).isSome = true) :
    u.bundle f all =
      if (all.filter (u.ftn f).runs).any (u.slotHolds f) then u.holdBundle f (all.filter (u.ftn f).runs)
      else if !((all.filter (u.ftn f).runs).flatMap (u.slotFaults f (all.filter (u.ftn f).runs))).eraseDups.isEmpty then
        u.faultOf f ((all.filter (u.ftn f).runs).flatMap (u.slotFaults f (all.filter (u.ftn f).runs))).eraseDups (u.ftn f).bank
          (u.ftn f).pc
      else if u.overHeld f (all.filter (u.ftn f).runs) then u.overrun f
      else u.issue f (all.filter (u.ftn f).runs) := by
  unfold State.bundle
  refine if_neg fun hstop => ?_
  simp only [Bool.and_eq_true, List.any_eq_true] at hstop
  obtain ⟨⟨hnone, q, hq, hbar⟩, -⟩ := hstop
  obtain hswap | hsome := h
  · split at hbar
    · exact hswap ⟨_, hq⟩
    · exact Bool.false_ne_true hbar
  · rw [Option.isNone_iff_eq_none.1 hnone] at hsome
    exact Bool.false_ne_true hsome

end

/-- Settles O55: the command presents its slot; the lemmas above take the fetch, the presenting and the bundle's tests one by one. -/
theorem bundlesHoldOrIssue : Obligations.BundlesHoldOrIssue := by
  intro s u cmd f k o all last bad hslot hup hf hlive hcommitting x
  have htakes : s.takesSlots f := ⟨hf, hlive, hcommitting⟩
  have hexec := exec_of_slotOf? hslot hup
  refine ⟨fun hspent => ?spent, State.fetch_of_ir_ne_nil, State.fetch_of_read,
    fun hspent => ⟨fun hir hpc => ?beyond, fun hfetch => ?noFetch, fun hfetch => ⟨fun hnone => ?illegal, fun hall => ?legal⟩⟩⟩
  case spent => rw [hexec, State.slot_of_spent htakes hspent]
  case beyond => rw [hexec, State.slot_of_no_fetch htakes hspent (State.fetch_of_beyond hir hpc)]
  case noFetch => rw [hexec, State.slot_of_no_fetch htakes hspent hfetch]
  case illegal => rw [hexec, State.slot_of_illegal htakes hspent hfetch hnone]
  case legal =>
    rw [hexec, State.slot_of_legal htakes hspent hfetch hall]
    refine ⟨fun hnot => congrArg _ (State.present_of_not_taken hnot ..), fun hmem hasm => ⟨?notLast, ?missing, ?complete⟩⟩
    case notLast =>
      rintro rfl
      exact congrArg _ (State.present_of_not_last hmem hasm s)
    case missing =>
      rintro rfl hmissing
      exact congrArg _ (State.present_of_missing hmissing s)
    case complete =>
      rintro rfl hcomplete
      rw [State.present_of_complete hmem hasm hcomplete]
      refine ⟨fun ⟨g, hswap⟩ hnext hquiet => by rw [State.bundle_of_swapNone hswap hnext hquiet], fun hpass => ?_⟩
      rw [State.bundle_of_swap hpass]
      refine ⟨fun hholds => by rw [if_pos hholds], fun hholds => ?_⟩
      rw [hholds]
      refine ⟨fun hfault => by rw [hfault]; rfl, fun hnone => ?_⟩
      rw [hnone]
      exact ⟨fun hheld => by rw [hheld]; rfl, fun hheld => by rw [hheld]; rfl⟩

end Sys2Proof.Machine
end

section
/-! SUPPORT. The Parterre checker (R114 to R132, R826): what its reads keep, PARTERRE_CTRL, the failure and the application. -/
namespace Sys2Proof.Machine
open Sys2Proof

/-! What the checker's reads of an image keep. -/

/-- The sections in force and PARTERRE_STATUS stand. -/
def KeepsVerdict (s t : State) : Prop := t.sections = s.sections ∧ t.rd Reg.parterreStatus = s.rd Reg.parterreStatus

namespace KeepsVerdict

theorem refl (s : State) : KeepsVerdict s s := ⟨rfl, rfl⟩

theorem trans {s t u : State} : KeepsVerdict s t → KeepsVerdict t u → KeepsVerdict s u := by
  rintro ⟨hsec, hrd⟩ ⟨hsec', hrd'⟩
  exact ⟨hsec'.trans hsec, hrd'.trans hrd⟩

theorem of_reports {s t : State} (h : OnlyReports s t) (hrd : t.rd Reg.parterreStatus = s.rd Reg.parterreStatus) :
    KeepsVerdict s t := by
  obtain ⟨_, _, _, _, rfl⟩ := h
  exact ⟨rfl, hrd⟩

theorem of_access {s t : State} (h : DramAccess s t) : KeepsVerdict s t := by
  obtain ⟨⟨_, _, _, _, _, _, _, _, rfl⟩, hrd⟩ := h
  exact ⟨rfl, hrd _ (by decide)⟩

/-- A read that goes on over a list keeps what each part of it keeps. -/
theorem foldl {α β : Type} {f : β × Bool × State → α → β × Bool × State} (h : ∀ r x, KeepsVerdict r.2.2 (f r x).2.2) :
    ∀ (l : List α) (r : β × Bool × State), KeepsVerdict r.2.2 (l.foldl f r).2.2
  | [], r => .refl r.2.2
  | x :: l, r => (h r x).trans (foldl h l (f r x))

end KeepsVerdict

theorem rd_bumpSat_ne (s : State) {o off : Nat} (f : Fld) (h : off ≠ o) : (s.bumpSat o f).rd off = s.rd off :=
  State.rd_wf_ne _ _ _ h

theorem cisternUeNote_status (s : State) (a : Nat) : (s.ueNote Mc.cistern a).rd Reg.parterreStatus = s.rd Reg.parterreStatus := by
  have hlog : ∀ u n, (s.logUe u n).rd Reg.parterreStatus = s.rd Reg.parterreStatus := fun u n => by
    unfold State.logUe
    dsimp only
    split
    · rfl
    · rw [State.rd_wn_ne _ _ (by decide), State.rd_wn_ne _ _ (by decide)]
  unfold State.ueNote
  dsimp only
  have hdram : Mc.cistern ≠ Mc.dram := by decide
  rw [if_neg hdram, if_neg hdram, if_pos rfl]
  split
  · rw [State.rd_wf_ne _ _ _ (by decide), State.rd_wf_ne _ _ _ (by decide), hlog]
  · exact hlog _ _

/-- A read of a Cistern word records nothing in PARTERRE_STATUS. -/
theorem cisternReadMark_verdict (r : Bool × State) (e : Nat × Mark) :
    KeepsVerdict r.2 (State.readMark Mc.cistern 0 r e).2 := by
  refine .of_reports (State.readMark_reports ..) ?_
  have hdet : Mc.det Mc.cistern = 1 := rfl
  have hoccur : ∀ o : Occ, o.det = 1 → (r.2.occur o).rd Reg.parterreStatus = r.2.rd Reg.parterreStatus := fun o ho =>
    State.occur_rd _ _ _ _ (by rw [ho]; decide) (by rw [ho]; decide)
  unfold State.readMark
  dsimp only
  split
  · rfl
  · exact (rd_bumpSat_ne _ _ (by decide)).trans (hoccur _ hdet)
  · exact (cisternUeNote_status ..).trans (hoccur _ hdet)
  · exact (cisternUeNote_status ..).trans (hoccur _ hdet)

theorem cisRd_verdict (s : State) (a n : Nat) : KeepsVerdict s (s.cisRd a n).2.2 := by
  have hfold : ∀ (l : List (Nat × Mark)) (r : Bool × State), KeepsVerdict r.2 (l.foldl (State.readMark Mc.cistern 0) r).2 := by
    intro l
    induction l with
    | nil => exact fun r => .refl r.2
    | cons e l ih => exact fun r => (cisternReadMark_verdict r e).trans (ih _)
  change KeepsVerdict s (s.readEcc Mc.cistern 0 a n).2
  unfold State.readEcc
  split
  · exact .refl s
  · exact hfold _ (false, s)

theorem checkerRegByte_verdict (s : State) (off : Nat) : KeepsVerdict s (s.checkerRegByte off).2.2 := by
  unfold State.checkerRegByte
  split
  · exact .of_reports (State.chipErr_regs ..).reports (State.chipErr_sameRegs _ _ _ _ _ (by decide))
  · exact .refl s

theorem checkerLine_verdict (s : State) (a n : Nat) : KeepsVerdict s (s.checkerLine a n).2.2 := by
  -- The reads are made opaque: the kernel would evaluate them to compare two forms of a fold over them.
  have hcis := cisRd_verdict
  have hreg := checkerRegByte_verdict
  have hdram : ∀ (s : State) w pa n, KeepsVerdict s (s.dramRd w pa n).2.2 := fun s w pa n => .of_access (s.dramRd_access w pa n)
  generalize hline : State.checkerLine = line
  delta State.checkerLine at hline
  subst hline
  beta_reduce
  obtain ⟨readCis, hopaqueCis⟩ := exists_eq (a' := State.cisRd)
  obtain ⟨readReg, hopaqueReg⟩ := exists_eq (a' := State.checkerRegByte)
  obtain ⟨readDram, hopaqueDram⟩ := exists_eq (a' := State.dramRd)
  rw [← hopaqueCis] at hcis ⊢
  rw [← hopaqueReg] at hreg ⊢
  rw [← hopaqueDram] at hdram ⊢
  split
  · refine KeepsVerdict.foldl (fun r i => ?_) _ ([], false, s)
    apply hreg
  · split
    · refine KeepsVerdict.foldl (fun r i => ?_) _ ([], false, s)
      apply hcis
    · split
      · apply hdram
      · exact .refl s

theorem checkerRead_verdict (s : State) (a n : Nat) : KeepsVerdict s (s.checkerRead a n).2.2 := by
  unfold State.checkerRead
  refine KeepsVerdict.foldl (fun r i => ?_) _ ([], false, s)
  exact checkerLine_verdict r.2.2 _ _

theorem readImage_verdict (s : State) (a : Nat) : KeepsVerdict s (s.readImage a).2.2 :=
  (checkerRead_verdict s a 12).trans (checkerRead_verdict (s.checkerRead a 12).2.2 _ _)

/-! PARTERRE_CTRL (R127, R132). -/

theorem rf_of_rd {s t : State} {off : Nat} (h : t.rd off = s.rd off) (f : Fld) : t.rf off f = s.rf off f := congrArg (W32.fld · f) h

theorem checking_of_rf {s t : State}
    (h : t.rf Reg.parterreStatus F.parterreStatus_STATE = s.rf Reg.parterreStatus F.parterreStatus_STATE) : t.checking = s.checking := by
  unfold State.checking
  rw [h]

/-- The lock that a write of PARTERRE_CTRL leaves (R132). -/
def State.lockAfter (s : State) (v : W32) : Bool := s.imageLocked || v.fld F.parterreCtrl_LOCK == 1

/-- PARTERRE_CTRL written, and the lock with it. -/
def State.ctrlWritten (s : State) (tag : Nat) (v : W32) : State :=
  if s.lockAfter v then ((s.writeReg tag Reg.parterreCtrl v).wf Reg.parterreCtrl F.parterreCtrl_LOCK 0).setLock
  else (s.writeReg tag Reg.parterreCtrl v).wf Reg.parterreCtrl F.parterreCtrl_LOCK 0

theorem parterreCtrl_of_go {v : W32} (h : v.fld F.parterreCtrl_GO = 1) (s : State) (tag : Nat) (on : List Nat) :
    s.parterreCtrl tag on v = (s.ctrlWritten tag v).parterreGo on := if_pos h

theorem parterreCtrl_of_no_go {v : W32} (h : v.fld F.parterreCtrl_GO = 0) (s : State) (tag : Nat) (on : List Nat) :
    s.parterreCtrl tag on v = s.ctrlWritten tag v := if_neg (by rw [h]; decide)

/-- The registers that a write of PARTERRE_CTRL may change. -/
def ctrlRegs : List Nat := [Reg.parterreStatus, Reg.parterreCtrl] ++ errRegs

theorem ctrlWritten_regs (s : State) (tag : Nat) (v : W32) : sameRegs s (s.ctrlWritten tag v) ctrlRegs := by
  have hwrite : sameRegs s ((s.writeReg tag Reg.parterreCtrl v).wf Reg.parterreCtrl F.parterreCtrl_LOCK 0) ctrlRegs :=
    ((s.writeReg_sameRegs tag Reg.parterreCtrl v).mono (by decide)).wf (by decide) _ _
  unfold State.ctrlWritten
  split
  · exact (hwrite.wf (by decide) _ _).wf (by decide) _ _
  · exact hwrite

theorem ctrlWritten_write (s : State) (tag : Nat) (v : W32) : OnlyWrite s (s.ctrlWritten tag v) := by
  have hwrite := (s.writeReg_write tag Reg.parterreCtrl v).trans (OnlyRegs.wf _ Reg.parterreCtrl F.parterreCtrl_LOCK 0).write
  unfold State.ctrlWritten
  split
  · exact hwrite.trans ((OnlyRegs.wf ..).trans (.wf ..)).write
  · exact hwrite

theorem rd_written_status (s : State) (tag : Nat) (v : W32) :
    ((s.writeReg tag Reg.parterreCtrl v).wf Reg.parterreCtrl F.parterreCtrl_LOCK 0).rd Reg.parterreStatus =
      s.rd Reg.parterreStatus :=
  (State.rd_wf_ne _ _ _ (by decide)).trans (State.rd_writeReg_ne s tag v (by decide) (by decide))

theorem setLock_locked (s : State) : s.setLock.imageLocked = true := by
  unfold State.imageLocked State.setLock
  rw [State.rf_wf_ne _ _ _ _ (by decide), State.rf_wf_same _ _ _ _ (by decide) (by decide)]
  rfl

theorem setLock_state (s : State) :
    s.setLock.rf Reg.parterreStatus F.parterreStatus_STATE = s.rf Reg.parterreStatus F.parterreStatus_STATE := by
  unfold State.setLock
  rw [State.rf_wf_ne _ _ _ _ (by decide), State.rf_wf_apart _ _ _ _ _ (by decide) (by decide)]

theorem ctrlWritten_checking (s : State) (tag : Nat) (v : W32) : (s.ctrlWritten tag v).checking = s.checking := by
  unfold State.ctrlWritten
  split
  · exact checking_of_rf ((setLock_state _).trans (rf_of_rd (rd_written_status s tag v) _))
  · exact checking_of_rf (rf_of_rd (rd_written_status s tag v) _)

theorem ctrlWritten_locked (s : State) (tag : Nat) (v : W32) : (s.ctrlWritten tag v).imageLocked = s.lockAfter v := by
  unfold State.ctrlWritten
  split
  case isTrue hlock => rw [setLock_locked, hlock]
  case isFalse hfree =>
    have hnot : s.imageLocked = false := (Bool.or_eq_false_iff.1 (Bool.eq_false_iff.2 hfree)).1
    rw [Bool.eq_false_iff.2 hfree, ← hnot]
    exact congrArg (· == 1) (rf_of_rd (rd_written_status s tag v) _)

/-! GO (R127, R826). -/

theorem parterreGo_of_checking {s : State} (h : s.checking = true) (on : List Nat) :
    s.parterreGo on = s.wf Reg.parterreStatus F.parterreStatus_OVERLAP 1 := if_pos h

/-- Where the image that GO names lies. -/
def State.imageAt (s : State) : Nat :=
  s.rf Reg.parterreSrcLo F.parterreSrcLo_ADDR * 8 + s.rf Reg.parterreSrcHi F.parterreSrcHi_ADDR * 2 ^ 32

theorem parterreGo_of_idle {s : State} (h : s.checking = false) (on : List Nat) : s.parterreGo on = s.checkAt on false s.imageAt :=
  if_neg (by rw [h]; decide)

theorem checkAt_of_read {s u : State} {a : Nat} {b : List Byte} {bad : Bool} (hread : s.readImage a = (b, bad, u))
    (on : List Nat) (boot : Bool) : s.checkAt on boot a =
      (if bad then u.wf Reg.parterreStatus F.parterreStatus_READ_ERR 1 else u).checkBegins on boot b := by
  -- The read is made opaque: the kernel would evaluate it to compare two forms of the branch on it.
  generalize hcheck : State.checkAt = check
  delta State.checkAt at hcheck
  subst hcheck
  beta_reduce
  obtain ⟨read, hopaque⟩ := exists_eq (a' := State.readImage)
  rw [← hopaque] at hread ⊢
  rw [hread]

section
variable (s : State) (on : List Nat) (boot : Bool) (b : List Byte)

theorem checkBegins_checking : (s.checkBegins on boot b).checking = true := by
  have hstate : (s.checkBegins on boot b).rf Reg.parterreStatus F.parterreStatus_STATE = 1 :=
    State.rf_wf_same _ _ _ _ (by decide) (by decide)
  unfold State.checking
  rw [hstate]
  rfl

theorem checkBegins_checker : (s.checkBegins on boot b).checker.copy = b ∧ (s.checkBegins on boot b).checker.boot = boot ∧
    (s.checkBegins on boot b).checker.lockAtStart = s.imageLocked ∧ (s.checkBegins on boot b).sections = s.sections :=
  ⟨rfl, rfl, rfl, rfl⟩

theorem checkBegins_readErr : (s.checkBegins on boot b).rf Reg.parterreStatus F.parterreStatus_READ_ERR =
    s.rf Reg.parterreStatus F.parterreStatus_READ_ERR := by
  unfold State.checkBegins
  rw [State.rf_wf_apart _ _ _ _ _ (by decide) (by decide)]
  rfl

end

/-- A check begins on the image that the checker has read (R826). -/
theorem checkAt_begins (s : State) (on : List Nat) (boot : Bool) (a : Nat) :
    (s.checkAt on boot a).checking = true ∧ (s.checkAt on boot a).checker.copy = (s.readImage a).1 ∧
    (s.checkAt on boot a).checker.lockAtStart = s.imageLocked ∧ (s.checkAt on boot a).checker.boot = boot ∧
    ((s.readImage a).2.1 = true → (s.checkAt on boot a).rf Reg.parterreStatus F.parterreStatus_READ_ERR = 1) ∧
    (s.checkAt on boot a).sections = s.sections := by
  have hkept := readImage_verdict s a
  generalize hread : s.readImage a = r at hkept ⊢
  obtain ⟨b, bad, u⟩ := r
  obtain ⟨hsec, hrd⟩ := hkept
  rw [checkAt_of_read hread]
  have hlocked : (if bad then u.wf Reg.parterreStatus F.parterreStatus_READ_ERR 1 else u).imageLocked = s.imageLocked := by
    refine Eq.trans ?_ (congrArg (· == 1) (rf_of_rd hrd F.parterreStatus_LOCKED))
    split
    · exact congrArg (· == 1) (State.rf_wf_apart _ _ _ _ _ (by decide) (by decide))
    · rfl
  have hsections : (if bad then u.wf Reg.parterreStatus F.parterreStatus_READ_ERR 1 else u).sections = s.sections := by
    split <;> exact hsec
  obtain ⟨hcopy, hboot, hlock, hsame⟩ :=
    checkBegins_checker (if bad then u.wf Reg.parterreStatus F.parterreStatus_READ_ERR 1 else u) on boot b
  refine ⟨checkBegins_checking .., hcopy, hlock.trans hlocked, hboot, fun hbad => ?_, hsame.trans hsections⟩
  have hb : bad = true := hbad
  rw [checkBegins_readErr, if_pos hb, State.rf_wf_same _ _ _ _ (by decide) (by decide)]
  rfl

/-! The verdict (R116, R119, R124 to R129). -/

section
variable (s : State) (code tag st : Nat)

theorem setVerdict_regs : OnlyRegs s (s.setVerdict code tag st) := ((OnlyRegs.wf ..).trans (.wf ..)).trans (.wf ..)

theorem setVerdict_check : (s.setVerdict code tag st).rf Reg.parterreStatus F.parterreStatus_CHECK = code % 256 := by
  unfold State.setVerdict
  rw [State.rf_wf_apart _ _ _ _ _ (by decide) (by decide), State.rf_wf_apart _ _ _ _ _ (by decide) (by decide),
    State.rf_wf_same _ _ _ _ (by decide) (by decide)]
  rfl

theorem setVerdict_state : (s.setVerdict code tag st).rf Reg.parterreStatus F.parterreStatus_STATE = st % 16 :=
  State.rf_wf_same _ _ _ _ (by decide) (by decide)

theorem setVerdict_locked : (s.setVerdict code tag st).imageLocked = s.imageLocked := by
  unfold State.imageLocked State.setVerdict
  rw [State.rf_wf_apart _ _ _ _ _ (by decide) (by decide), State.rf_wf_apart _ _ _ _ _ (by decide) (by decide),
    State.rf_wf_apart _ _ _ _ _ (by decide) (by decide)]

theorem setVerdict_rd {off : Nat} (h : off ≠ Reg.parterreStatus) : (s.setVerdict code tag st).rd off = s.rd off := by
  unfold State.setVerdict
  rw [State.rd_wf_ne _ _ _ h, State.rd_wf_ne _ _ _ h, State.rd_wf_ne _ _ _ h]

end

/-! A check that fails. -/

/-- The registers that report a conflict. -/
def conflictRegs : List Nat := [Reg.parterreConflictRes, Reg.parterreConflictA, Reg.parterreConflictB]

/-- The verdict of a failed check and its offset, without a conflict's own registers. -/
def State.failNoted (s : State) (f : CkFail) : State :=
  (s.setVerdict f.code (f.tag % 256) s.failedState).wn Reg.parterreFailOffset f.off

theorem checkFails_of_noted (s : State) (f : CkFail) :
    OnlyRegs (s.failNoted f) (s.checkFails f) ∧ sameRegs (s.failNoted f) (s.checkFails f) conflictRegs := by
  unfold State.checkFails State.failNoted
  dsimp only
  split
  · exact ⟨.refl _, .refl _ _⟩
  · exact ⟨((((OnlyRegs.wf ..).trans (.wf ..)).trans (.wf ..)).trans (.wn ..)).trans (.wn ..),
      (((((sameRegs.refl _ _).wf (by decide) _ _).wf (by decide) _ _).wf (by decide) _ _).wn (by decide) _).wn (by decide) _⟩

theorem checkFails_regs (s : State) (f : CkFail) : OnlyRegs s (s.checkFails f) :=
  ((setVerdict_regs ..).trans (.wn ..)).trans (checkFails_of_noted s f).1

theorem checkFails_status (s : State) (f : CkFail) : (s.checkFails f).rd Reg.parterreStatus =
    (s.setVerdict f.code (f.tag % 256) s.failedState).rd Reg.parterreStatus :=
  ((checkFails_of_noted s f).2 _ (by decide)).trans (State.rd_wn_ne _ _ (by decide))

theorem checkFails_offset (s : State) (f : CkFail) : (s.checkFails f).rn Reg.parterreFailOffset = f.off % 2 ^ 32 :=
  (congrArg BitVec.toNat ((checkFails_of_noted s f).2 Reg.parterreFailOffset (by decide))).trans (State.rn_wn_same ..)

theorem failedState_lt (s : State) : s.failedState % 16 = s.failedState ∧ (s.failedState = 4 ∨ s.failedState = 5) := by
  unfold State.failedState
  split
  · exact ⟨rfl, .inr rfl⟩
  · exact ⟨rfl, .inl rfl⟩

/-! The end of a check. -/

section
variable (s : State)

theorem checkEnds_live : s.checkEnds.live = s.live := rfl
theorem checkEnds_inForce : s.checkEnds.checker.inForce = s.checker.inForce := rfl
theorem checkEnds_sameMem : sameMem s s.checkEnds := fun _ => ⟨rfl, rfl, rfl, rfl⟩

/-- The event of the end (R127). -/
theorem checkEnds_events (hlegacy : s.legacy = false) : ∃ e : Event, s.checkEnds.events = s.events ++ [e] ∧ e.ring = .dev ∧
    e.type = Ev.parterre ∧ e.detail = s.checkEnds.rn Reg.parterreStatus := by
  refine ⟨_, rfl, ?_, rfl, rfl⟩
  exact if_neg (by rw [Bool.eq_false_iff] at hlegacy; exact hlegacy)

end

/-- The time of the application of the boot image is noted (R718). -/
def State.noteApplied (s : State) : State :=
  if s.checker.boot && s.checker.inForce then s.wn Reg.bootTParterre (s.gts / 1000) else s

theorem noteApplied_frame (s : State) : OnlyRegs s s.noteApplied ∧ sameRegs s s.noteApplied [Reg.bootTParterre] := by
  unfold State.noteApplied
  split
  · exact ⟨.wn .., (sameRegs.refl _ _).wn List.mem_cons_self _⟩
  · exact ⟨.refl _, .refl _ _⟩

theorem parterreCheck_of_failed {s : State} {on : List Nat} {f : CkFail} (hlegacy : s.legacy = false)
    (h : s.runChecks on = some f) (hboot : (s.checker.boot && s.checker.inForce) = false) :
    s.parterreCheck on = (s.checkFails f).checkEnds := by
  obtain ⟨_, hfails⟩ := checkFails_regs s f
  have hchecker : (s.checkFails f).checker = s.checker := by rw [hfails]
  have hcheck : s.parterreCheck on = (s.checkFails f).noteApplied.checkEnds := by
    unfold State.parterreCheck
    rw [hlegacy, h]
    rfl
  rw [hcheck, State.noteApplied, hchecker, hboot, if_neg Bool.false_ne_true]

/-- The state that a failed check leaves. -/
theorem failedCheck {s : State} {f : CkFail} (hlegacy : s.legacy = false) :
    let t := (s.checkFails f).checkEnds
    t.rf Reg.parterreStatus F.parterreStatus_CHECK = f.code % 256 ∧
    t.rf Reg.parterreStatus F.parterreStatus_STATE = (if (Pi.reload s.checker.copy || s.checker.inForce) = true then 5 else 4) ∧
    t.rn Reg.parterreFailOffset = f.off % 2 ^ 32 ∧ t.sections = s.sections ∧ t.checker.inForce = s.checker.inForce ∧
    t.checking = false ∧ sameMem s t ∧
    ∃ e, t.events = s.events ++ [e] ∧ e.ring = .dev ∧ e.type = Ev.parterre ∧ e.detail = t.rn Reg.parterreStatus := by
  intro t
  have hregs := checkFails_regs s f
  have hmem := hregs.sameMem
  have hstatus : t.rd Reg.parterreStatus = (s.setVerdict f.code (f.tag % 256) s.failedState).rd Reg.parterreStatus :=
    (State.rd_of_live (checkEnds_live _) _).trans (checkFails_status s f)
  obtain ⟨hsmall, hcases⟩ := failedState_lt s
  have hstate : t.rf Reg.parterreStatus F.parterreStatus_STATE = s.failedState :=
    (rf_of_rd hstatus _).trans ((setVerdict_state ..).trans hsmall)
  have hchecking : t.checking = false := by
    unfold State.checking
    rw [hstate]
    obtain h | h := hcases <;> rw [h] <;> rfl
  have hlegacy' : (s.checkFails f).legacy = false := by
    refine Eq.trans (congrArg (fun v => W32.fld v F.chipMode_LEGACY_1CTX == 1) ?_) hlegacy
    exact ((checkFails_of_noted s f).2 _ (by decide)).trans
      ((State.rd_wn_ne _ _ (by decide)).trans (setVerdict_rd _ _ _ _ (by decide)))
  have hevents := checkEnds_events (s.checkFails f) hlegacy'
  have hoffset : t.rn Reg.parterreFailOffset = f.off % 2 ^ 32 :=
    (congrArg BitVec.toNat (State.rd_of_live (checkEnds_live _) _)).trans (checkFails_offset s f)
  obtain ⟨l, hfails⟩ := hregs
  have hold : (s.checkFails f).sections = s.sections ∧ (s.checkFails f).checker = s.checker ∧
      (s.checkFails f).events = s.events := by rw [hfails]; exact ⟨rfl, rfl, rfl⟩
  obtain ⟨hsec, hchecker, hev⟩ := hold
  rw [hev] at hevents
  exact ⟨(rf_of_rd hstatus _).trans (setVerdict_check ..), hstate, hoffset, hsec, (checkEnds_inForce _).trans (congrArg CheckerS.inForce hchecker), hchecking,
    hmem.trans (checkEnds_sameMem _), hevents⟩

/-! An image that applies (R121 to R124, R129). -/

/-- A change that keeps the sections in force. -/
def KeepsSections (f : State → State) : Prop := ∀ s, (f s).sections = s.sections

theorem KeepsSections.foldl {α : Type} {f : State → α → State} (h : ∀ x, KeepsSections fun s => f s x) (l : List α) :
    KeepsSections fun s => l.foldl f s := by
  induction l with
  | nil => exact fun _ => rfl
  | cons x l ih => exact fun s => (ih (f s x)).trans (h x s)

theorem applyPins_keepsSections : KeepsSections State.applyPins := by
  refine KeepsSections.foldl (fun g s => ?_) _
  dsimp only
  split <;> rfl

theorem applyPair_keepsSections (k : Nat) : KeepsSections fun s => s.applyPair k := fun s =>
  KeepsSections.foldl (f := fun s c => s.wr (Reg.safeCause k) (s.rd (Reg.safeCause k) ||| BitVec.ofNat 32 (2 ^ c)))
    (fun _ _ => rfl) _ s

theorem applySafety_keepsSections : KeepsSections State.applySafety := fun s =>
  KeepsSections.foldl (f := State.applyPair) applyPair_keepsSections _ { s with integ := { s.integ with safetyBad := false } }

theorem applyDetectors_keepsSections : KeepsSections State.applyDetectors := by
  intro s
  unfold State.applyDetectors
  dsimp only
  refine KeepsSections.foldl (fun d s => ?_) _ s
  rfl

theorem sectionApplied_keepsSections (tag : Nat) : KeepsSections fun s => s.sectionApplied tag := by
  intro s
  unfold State.sectionApplied
  split
  · rfl
  · split
    · exact applyPins_keepsSections s
    · split
      · rfl
      · split
        · exact applySafety_keepsSections s
        · split
          · exact applyDetectors_keepsSections s
          · rfl

theorem disarm_keepsSections (cls n : Nat) : KeepsSections fun s => s.disarm cls n := by
  intro s
  unfold State.disarm
  split <;> rfl

theorem disarmGone_keepsSections (old : List (Nat × Nat)) : KeepsSections fun s => s.disarmGone old :=
  fun s => KeepsSections.foldl (f := fun s (c : Nat × Nat) => s.disarm c.1 c.2) (fun c => disarm_keepsSections c.1 c.2) _ s

/-- The sections of an application take the place of those in force. -/
def State.putSections (s : State) (new : List (Nat × List Byte)) : State :=
  new.foldl (fun s x => { s with sections := Table.put [] s.sections x.1 x.2 }) s

theorem sec_putSections {x : Nat × List Byte} : ∀ {new : List (Nat × List Byte)}, (∀ y ∈ new, y.1 = x.1 → y = x) →
    ∀ s : State, x ∈ new ∨ s.sec x.1 = x.2 → (s.putSections new).sec x.1 = x.2
  | [], _, s, h => by
    obtain h | h := h
    · exact absurd h List.not_mem_nil
    · exact h
  | y :: new, honly, s, h => by
    refine sec_putSections (fun z hz => honly z (List.mem_cons_of_mem _ hz))
      { s with sections := Table.put [] s.sections y.1 y.2 } ?_
    by_cases heq : y.1 = x.1
    · obtain rfl := honly y List.mem_cons_self heq
      exact .inr (Table.get_put_same _ _ _ _)
    · obtain h | h := h
      · obtain rfl | h := List.mem_cons.1 h
        · exact absurd rfl heq
        · exact .inl h
      · exact .inr ((Table.get_put_ne _ _ _ _ (Ne.symm heq)).trans h)

theorem sec_applySections {s : State} {new : List (Nat × List Byte)} {x : Nat × List Byte} (hx : x ∈ new)
    (honly : ∀ y ∈ new, y.1 = x.1 → y = x) : (s.applySections new).sec x.1 = x.2 := by
  unfold State.applySections
  dsimp only
  refine Eq.trans (congrArg (Table.get [] · x.1) ?_) 
    (sec_putSections honly ((s.discardStaged (new.flatMap fun x => sectionBlocks x.1)).fire 0) (.inl hx))
  exact (disarmGone_keepsSections _ _).trans
    (KeepsSections.foldl (f := fun s x => s.sectionApplied x.1) (fun x => sectionApplied_keepsSections x.1) new _)

/-- An image in force, before its lock and its verdict (R124). -/
def State.imageNoted (s : State) (b : List Byte) : State :=
  { (s.wn Reg.parterreImageId (Pi.imageId b)).wf Reg.parterreStatus F.parterreStatus_SIGNED (b2n (Pi.signed b)) with
    checker := { s.checker with inForce := true } }

theorem imageNoted_id (s : State) (b : List Byte) : (s.imageNoted b).rn Reg.parterreImageId = Pi.imageId b % 2 ^ 32 :=
  (State.rn_wf_ne (s.wn Reg.parterreImageId (Pi.imageId b)) _ _ (by decide)).trans (State.rn_wn_same ..)

theorem putInForce_eq (s : State) (b : List Byte) : s.putInForce b =
    (if Pi.lockAtApply b then (s.imageNoted b).setLock else s.imageNoted b).setVerdict 0 0 Ps.applied := rfl

/-- What an image in force shows (R124, R129, R132). -/
theorem putInForce_shows (s : State) (b : List Byte) :
    (s.putInForce b).checker.inForce = true ∧ (s.putInForce b).sections = s.sections ∧
    (s.putInForce b).rf Reg.parterreStatus F.parterreStatus_STATE = 3 ∧
    (s.putInForce b).rf Reg.parterreStatus F.parterreStatus_CHECK = 0 ∧
    (s.putInForce b).rn Reg.parterreImageId = Pi.imageId b % 2 ^ 32 ∧
    (Pi.lockAtApply b = true → (s.putInForce b).imageLocked = true) := by
  have hforce : (s.imageNoted b).checker.inForce = true := rfl
  have hsec : (s.imageNoted b).sections = s.sections := rfl
  have hid := imageNoted_id s b
  rw [putInForce_eq]
  generalize s.imageNoted b = u at hforce hsec hid ⊢
  have hkept : OnlyRegs u (if Pi.lockAtApply b then u.setLock else u) := .ite _ ((OnlyRegs.wf ..).trans (.wf ..)) (.refl u)
  have hid' : (if Pi.lockAtApply b then u.setLock else u).rn Reg.parterreImageId = Pi.imageId b % 2 ^ 32 := by
    split
    · exact (State.rn_wf_ne _ _ _ (by decide)).trans ((State.rn_wf_ne _ _ _ (by decide)).trans hid)
    · exact hid
  have hlock : Pi.lockAtApply b = true → (if Pi.lockAtApply b then u.setLock else u).imageLocked = true := fun h => by
    rw [if_pos h]
    exact setLock_locked u
  generalize (if Pi.lockAtApply b then u.setLock else u) = w at hkept hid' hlock ⊢
  obtain ⟨_, hshown⟩ := hkept.trans (setVerdict_regs w 0 0 Ps.applied)
  refine ⟨?_, ?_, setVerdict_state .., setVerdict_check .., (congrArg BitVec.toNat (setVerdict_rd _ _ _ _ (by decide))).trans hid',
    fun h => (setVerdict_locked ..).trans (hlock h)⟩
  · rw [hshown]
    exact hforce
  · rw [hshown]
    exact hsec

/-- The sections of an image that an application outside the profile takes. -/
def imageSections (b : List Byte) : List (Nat × List Byte) :=
  ((Pi.frames b).1.filter fun f => f.tag != Tag.legacy).map fun f => (f.tag, f.payload b)

theorem parterreCheck_of_passed {s : State} {on : List Nat} (hlegacy : s.legacy = false) (h : s.runChecks on = none) :
    s.parterreCheck on =
      ((s.applySections (imageSections s.checker.copy)).putInForce s.checker.copy).noteApplied.checkEnds := by
  unfold State.parterreCheck State.applyImage
  rw [hlegacy, h]
  rfl

/-- Settles O47: GO reads and begins, the lock is kept by PARTERRE_CTRL, and the checks' result fails or applies the image. -/
theorem theCheckerJudgesImages : Obligations.TheCheckerJudgesImages := by
  intro s tag on v f hup st at_
  have hwritten := ctrlWritten_write s tag v
  have hregs := ctrlWritten_regs s tag v
  refine ⟨fun hgo => ⟨fun hchecking => ?overlap, fun hidle => ?begins⟩, fun hno => ?lock, fun hchecking hready hserves hlegacy => ?check⟩
  case overlap =>
    have hguard : (v.fld F.parterreCtrl_GO == 1) = true := by rw [hgo]; rfl
    refine ⟨_, exec_fabric (guarded _ fun s => s.parterreCtrl tag on v) hup ((guarded_of_true _ s hguard).trans
      ((parterreCtrl_of_go hgo s tag on).trans (parterreGo_of_checking ((ctrlWritten_checking s tag v).trans hchecking) on))) rfl,
      ?_, ?_, ?_, hwritten.sameMem.wf _ _ _, hregs.wf (by decide) _ _⟩
    · exact State.rf_wf_same _ _ _ _ (by decide) (by decide)
    · obtain ⟨_, _, _, _, h⟩ := hwritten
      rw [h]
      rfl
    · obtain ⟨_, _, _, _, h⟩ := hwritten
      rw [h]
      rfl
  case begins =>
    have hguard : (v.fld F.parterreCtrl_GO == 1) = true := by rw [hgo]; rfl
    have hat : (s.ctrlWritten tag v).imageAt = at_ := by
      unfold State.imageAt
      rw [rf_of_rd (hregs Reg.parterreSrcLo (by decide)), rf_of_rd (hregs Reg.parterreSrcHi (by decide))]
    obtain ⟨hstarted, hcopy, hlock, hboot, herr, hsec⟩ := checkAt_begins (s.ctrlWritten tag v) on false at_
    have hexec := exec_fabric (c := .parterreGo tag on v) (guarded _ fun s => s.parterreCtrl tag on v) hup
      ((guarded_of_true _ s hguard).trans ((parterreCtrl_of_go hgo s tag on).trans
        (parterreGo_of_idle ((ctrlWritten_checking s tag v).trans hidle) on))) rfl
    rw [hat] at hexec
    have hsections : (s.ctrlWritten tag v).sections = s.sections := by
      obtain ⟨_, _, _, _, h⟩ := hwritten
      rw [h]
    refine ⟨s.ctrlWritten tag v, ?_, ?_, hsections, _, hexec, hstarted, hcopy, hlock.trans (ctrlWritten_locked s tag v), hboot,
      herr, hsec.trans hsections⟩
    · obtain ⟨_, _, _, _, h⟩ := hwritten
      rw [h]
    · obtain ⟨_, _, _, _, h⟩ := hwritten
      rw [h]
  case lock =>
    have hguard : (v.fld F.parterreCtrl_GO == 0) = true := by rw [hno]; rfl
    refine ⟨_, exec_fabric (guarded _ fun s => s.parterreCtrl tag [] v) hup ((guarded_of_true _ s hguard).trans
      (parterreCtrl_of_no_go hno s tag [])) rfl, ctrlWritten_locked s tag v, ?_, hwritten.sameMem, hregs⟩
    obtain ⟨_, _, _, _, h⟩ := hwritten
    rw [h]
  case check =>
    have hguard : (s.checking && s.checkReady && s.dramServes) = true := by rw [hchecking, hready, hserves]; rfl
    have hexec : ∀ t, s.parterreCheck on = t → exec (.parterreCheck on) s = .next t := fun t ht =>
      exec_fabric (guarded _ (·.parterreCheck on)) hup ((guarded_of_true _ s hguard).trans ht) rfl
    refine ⟨fun hfail hboot => ?failed, fun hpass => ?passed⟩
    case failed =>
      have hend := hexec _ (parterreCheck_of_failed hlegacy hfail hboot)
      exact ⟨hend, _, hend, failedCheck hlegacy⟩
    case passed =>
      refine ⟨_, hexec _ (parterreCheck_of_passed hlegacy hpass), ?_⟩
      obtain ⟨hforce, hsec, hstate, hcheck, hid, hlock⟩ :=
        putInForce_shows (s.applySections (imageSections s.checker.copy)) s.checker.copy
      generalize (s.applySections (imageSections s.checker.copy)).putInForce s.checker.copy = u at hforce hsec hstate hcheck hid hlock ⊢
      obtain ⟨⟨l, hnoted⟩, hrd⟩ := noteApplied_frame u
      have hold : u.noteApplied.sections = u.sections ∧ u.noteApplied.checker = u.checker := by
        rw [hnoted]
        exact ⟨rfl, rfl⟩
      obtain ⟨hsections, hchecker⟩ := hold
      have hkept : ∀ off, off ≠ Reg.bootTParterre → u.noteApplied.checkEnds.rd off = u.rd off := fun off hoff =>
        (State.rd_of_live (checkEnds_live _) off).trans (hrd off (by simpa using hoff))
      have hstatus := hkept Reg.parterreStatus (by decide)
      have hshown := (rf_of_rd hstatus F.parterreStatus_STATE).trans hstate
      refine ⟨(checkEnds_inForce _).trans ((congrArg CheckerS.inForce hchecker).trans hforce), ?_, hshown, (rf_of_rd hstatus _).trans hcheck,
        (congrArg BitVec.toNat (hkept Reg.parterreImageId (by decide))).trans hid,
        fun h => (congrArg (· == 1) (rf_of_rd hstatus _)).trans (hlock h), fun g hg hlegacyTag honly => ?_⟩
      · unfold State.checking
        rw [hshown]
        rfl
      · have hnew : (g.tag, g.payload s.checker.copy) ∈ imageSections s.checker.copy :=
          List.mem_map.2 ⟨g, List.mem_filter.2 ⟨hg, by simpa using hlegacyTag⟩, rfl⟩
        refine Eq.trans (congrArg (Table.get [] · g.tag) (hsections.trans hsec)) ?_
        refine sec_applySections (x := (g.tag, g.payload s.checker.copy)) hnew fun y hy htag => ?_
        obtain ⟨h, hh, rfl⟩ := List.mem_map.1 hy
        rw [honly h (List.mem_filter.1 hh).1 htag]

end Sys2Proof.Machine
end

section
/-! SUPPORT. The calendar frame (R319, R321, R430): a requester that waits without a line is granted one. -/
namespace Sys2Proof.Machine
open Sys2Proof

/-- A device at work in which a requester that two frames have granted nothing waits, for no line. -/
def State.waitsForNoLine : State := { State.reset with
  clk := { locked := true }, boot := { starting := false },
  ddr := { pend := [(5, { lines := 0, weight := 1, waited := 2 })] } }

/-- Refutes O53: of the frame's grants the statement takes any table of requesters, also one that lists a requester with no line.
The requester has waited, so it is granted a line first (`DdrS.aged`), and the frame grants more than was requested. -/
theorem not_coresAndMemoriesAreServiced : ¬ Obligations.CoresAndMemoriesAreServiced := by
  intro h
  obtain ⟨-, -, -, -, -, -, -, -, -, -, hframe, -⟩ :=
    h State.waitsForNoLine 0 0 0 0 0 0 0 0 0 0 [] false [] [] [] [] 0 (by decide +kernel)
  obtain ⟨-, hsum⟩ := hframe 0 1
  have hgranted : (State.waitsForNoLine.ddr.frame 0 1).1 = 1 := by decide +kernel
  have hrequested : (State.waitsForNoLine.ddr.frame 0 1).1 = 0 :=
    hsum (by decide +kernel) (by decide +kernel) (by decide +kernel)
  exact absurd (hgranted.symm.trans hrequested) (by decide)

end Sys2Proof.Machine
end

section
/-! SUPPORT. The engines of a Fountain: segments, matrix instructions, the drain chain and Rills (R145, R156 to R161, R256 to R286,
R322, R337 to R347). -/
namespace Sys2Proof.Machine
open Sys2Proof

/-! Segments (R257, R259). -/

/-- A segment belongs next on its Fountain: to the layer that runs, or first in the layer that waits. -/
def State.fitsNext (s : State) (f job layer seg : Nat) (j : Job) (l : Nat × Nat × Nat × Nat) : Bool :=
  if (match (s.ftn f).run with
    | some r => r.job == job && r.layer == layer
    | none => false) then decide (l.1 < seg) && decide (seg < l.1 + l.2.1) && decide (layer < j.cert.layerCount)
  else layer == s.firstWaiting j && seg == l.1 && decide (layer < j.cert.layerCount)

/-- A Fountain with bytes in its inactive bank. -/
def Fountain.fillBank (x : Fountain) (b : List Byte) : Fountain :=
  if 1 - x.bank = 0 then { x with imem0 := Mem.wrBytes x.imem0 0 b } else { x with imem1 := Mem.wrBytes x.imem1 0 b }

/-- A Fountain with a segment in its inactive bank. -/
def Fountain.loaded (x : Fountain) (job layer seg n : Nat) (b : List Byte) : Fountain :=
  { x.fillBank b with swapPending := true, pend := some (job, layer, seg), pendCount := n }

theorem Fountain.fillBank_bank (x : Fountain) (b : List Byte) : (x.fillBank b).bank = x.bank := by
  unfold Fountain.fillBank
  split <;> rfl

theorem Fountain.fillBank_imem (x : Fountain) (b : List Byte) :
    if 1 - x.bank = 0 then (x.fillBank b).imem0 = Mem.wrBytes x.imem0 0 b
    else (x.fillBank b).imem1 = Mem.wrBytes x.imem1 0 b := by
  unfold Fountain.fillBank
  split
  · rfl
  · rfl

section
variable {s u : State} {f job layer seg va n : Nat} {j : Job} {l : Nat × Nat × Nat × Nat} {b : List Byte} {bad : Bool}

/-- A segment that fits and has bundles, at most 4,096, is loaded. -/
theorem segmentGuard {fits : Bool} (hfits : fits = true) (hlo : n ≠ 0) (hhi : n ≤ 4096) :
    ¬(!fits || n == 0 || decide (4096 < n)) = true := by
  simp [hfits, hlo, hhi]

theorem segmentLoaded_of_fits (hpending : s.pending? job = some j) (hftn : j.fountain = f) (hsize : s.ftnSize f ≠ 0)
    (hprog : s.progLayer j layer = some l) (hseg : s.segment j seg = some (va, n))
    (hfits : s.fitsNext f job layer seg j l = true) (hlo : n ≠ 0) (hhi : n ≤ 4096)
    (hread : s.vread Who.walker va (32 * n) = (some (b, bad), u)) :
    s.segmentLoaded f job layer seg = ((u.writeEcc Mc.imem f ((1 - (s.ftn f).bank) * 0x20000) (32 * n)).setFtn f
      ((s.ftn f).loaded job layer seg n b)).noteReady := by
  have hkept : (u.writeEcc Mc.imem f ((1 - (s.ftn f).bank) * 0x20000) (32 * n)).ftn f = s.ftn f := by
    obtain ⟨⟨_, _, _, _, _, _, _, _, hu⟩, -⟩ : DramAccess s u := by
      have haccess := s.vread_access Who.walker va (32 * n)
      rwa [hread] at haccess
    obtain ⟨_, _, _, _, hw⟩ := u.writeEcc_reports Mc.imem f ((1 - (s.ftn f).bank) * 0x20000) (32 * n)
    rw [hw, hu]
    rfl
  -- The memory accesses are made opaque: the kernel would evaluate them to compare two forms of a branch on them.
  generalize hsegment : State.segmentLoaded = segmentLoaded
  delta State.segmentLoaded at hsegment
  subst hsegment
  beta_reduce
  obtain ⟨read, hopaque⟩ := exists_eq (a' := State.vread)
  obtain ⟨write, hopaqueWr⟩ := exists_eq (a' := State.writeEcc)
  rw [← hopaque] at hread ⊢
  rw [← hopaqueWr] at hkept ⊢
  rw [hpending]
  dsimp only
  rw [if_neg (by simp [hftn, hsize]), hprog, hseg]
  dsimp only
  refine (if_neg (segmentGuard hfits hlo hhi)).trans ?_
  rw [hread]
  dsimp only
  rw [hkept]
  rfl

end

/-! Matrix instructions (R145, R156 to R161, R217, R221). -/

section
variable {s : State} {f m : Nat} {h : MRun} {t : List MRun} {d : DrainDesc}

theorem matrixStep_of_waiting (hmats : (s.ftn f).mats = h :: t) (hready : s.operandsReady f h = false) : s.matrixStep f = s := by
  unfold State.matrixStep
  rw [hmats]
  simp [hready]

theorem matrixStep_of_ready (hmats : (s.ftn f).mats = h :: t) (hlive : s.ftnLive f = true) (hdrn : h.drn = false)
    (hmpl : h.mpl = false) (hphase : h.phase = 1) (hready : s.operandsReady f h = true) (hmx : fmtMx h.m.fmt = false) :
    s.matrixStep f = ((((s.ftnCores f).zip ((s.ftnCores f).map fun _ => [])).foldl (State.stepCore f h) s).setHead f
      h.stepped).chargeHits f := by
  have hscales : h.newScales = false := by rw [MRun.newScales, hmx]; rfl
  unfold State.matrixStep
  rw [hmats]
  dsimp only
  rw [if_neg (by simp [hlive, hdrn, hmpl, hphase, hready]), hscales, hmx]
  rfl

/-- The arrays that an instruction names in its batch. -/
def MRun.arrays (h : MRun) : List Nat := arraysOf (rot4 h.m.amask (h.b * h.m.arot))

theorem preloadDrain_of_preload (hmats : (s.ftn f).mats = h :: t) (hlive : s.ftnLive f = true) (hmpl : h.mpl = true)
    (hphase : h.phase ≠ 2) :
    s.preloadDrain f = (((s.ftnCores f).foldl (State.beginCore f h h.arrays (Table.get 0 (s.ftn f).drainM h.dcd)) s).setHead f
      h.begun).chargeHits f := by
  unfold State.preloadDrain
  extract_lets x
  rw [show x.mats = h :: t from hmats]
  dsimp only
  refine (if_neg (by simp [hlive, hmpl])).trans ((if_neg (by simp [hphase])).trans ?_)
  rw [if_neg hphase]
  rfl

theorem preloadDrain_of_fault (hmats : (s.ftn f).mats = h :: t) (hlive : s.ftnLive f = true) (hphase : h.phase = 2)
    (hdesc : dsetDesc (s.ftn f).drainSet h.dcd = some d) (hfault : s.drainFaults f h h.arrays d = [m]) :
    s.preloadDrain f = s.progFault f m h.bank h.addr := by
  unfold MRun.arrays at hfault
  unfold State.preloadDrain
  extract_lets x
  rw [show x.mats = h :: t from hmats]
  dsimp only
  have hcodes : (if h.phase = 2 then match dsetDesc x.drainSet h.dcd with
        | some d => s.drainFaults f h (arraysOf (rot4 h.m.amask (h.b * h.m.arot))) d
        | none => [Pf.drainFormat]
      else []) = [m] := by
    rw [if_pos hphase, show dsetDesc x.drainSet h.dcd = some d from hdesc]
    exact hfault
  refine (if_neg (by simp [hlive, hphase])).trans ((if_pos ?_).trans (congrArg (s.faultOf f · h.bank h.addr) hcodes))
  exact congrArg (fun l : List Nat => !l.isEmpty) hcodes

/-- The cores of a Fountain after the beginning of a preload or drain. -/
def State.coresBegun (s : State) (f : Nat) (h : MRun) : State :=
  (s.ftnCores f).foldl (State.beginCore f h h.arrays (Table.get 0 (s.ftn f).drainM h.dcd)) s

/-- The number of drains through a descriptor (R338). -/
def Fountain.countDrain (x : Fountain) (d n : Nat) : Fountain := { x with drainM := Table.put 0 x.drainM d n }

theorem Fountain.countDrain_get (x : Fountain) (d n : Nat) : Table.get 0 (x.countDrain d n).drainM d = n :=
  Table.get_put_same _ _ _ _

theorem preloadDrain_of_drain (hmats : (s.ftn f).mats = h :: t) (hlive : s.ftnLive f = true) (hphase : h.phase = 2)
    (hdesc : dsetDesc (s.ftn f).drainSet h.dcd = some d) (hfault : s.drainFaults f h h.arrays d = []) :
    s.preloadDrain f = (((s.coresBegun f h).setHead f h.begun).setFtn f
      ((((s.coresBegun f h).setHead f h.begun).ftn f).countDrain h.dcd
        (Table.get 0 (s.ftn f).drainM h.dcd + 1))).chargeHits f := by
  unfold MRun.arrays at hfault
  unfold State.preloadDrain
  extract_lets x
  rw [show x.mats = h :: t from hmats]
  dsimp only
  refine (if_neg (by simp [hlive, hphase])).trans ((if_neg ?_).trans ?_)
  · rw [if_pos hphase, show dsetDesc x.drainSet h.dcd = some d from hdesc]
    dsimp only
    rw [hfault]
    decide
  · rw [if_pos hphase]
    rfl

theorem setHead_ftn (s : State) (f : Nat) (r : Option MRun) :
    (s.setHead f r).ftn f = { s.ftn f with mats := r.toList ++ (s.ftn f).mats.tail } := State.ftn_setFtn_same ..

/-- What a drain leaves where no core meets a fault. -/
theorem drainBegun (hmats : (s.ftn f).mats = h :: t) (hlive : s.ftnLive f = true) (hphase : h.phase = 2)
    (hdesc : dsetDesc (s.ftn f).drainSet h.dcd = some d) (hfault : s.drainFaults f h h.arrays d = [])
    (hhits : ((s.coresBegun f h).ftn f).hits = []) : (s.preloadDrain f).cores = (s.coresBegun f h).cores ∧
      ((s.preloadDrain f).ftn f).mats = h.begun.toList ++ ((s.coresBegun f h).ftn f).mats.tail ∧
      Table.get 0 ((s.preloadDrain f).ftn f).drainM h.dcd = Table.get 0 (s.ftn f).drainM h.dcd + 1 := by
  rw [preloadDrain_of_drain hmats hlive hphase hdesc hfault, setHead_ftn]
  rw [State.chargeHits_of_hits_nil (by rw [State.ftn_setFtn_same]; exact hhits), State.ftn_setFtn_same]
  exact ⟨rfl, rfl, Fountain.countDrain_get ..⟩

end

/-! The drain chain (R337, R340, R346). -/

section
variable {s : State} {c f : Nat} {w : RawRow} {z : List RawRow} {d : DrainDesc} {run : LayerRun} {j : Job}

theorem drainRow_of_full (hftn : s.ftnOf c = some f) (hraw : (s.core c).raw = w :: z)
    (hdesc : dsetDesc (s.ftn f).drainSet w.dcd = some d) (hrun : (s.ftn f).run = some run) (hlive : s.ftnLive f = true)
    (hfull : (d.emits w.row && !(s.core c).outRoom (d.rowSize w.elems.length)) = true) : s.drainRow c = s := by
  unfold State.drainRow
  rw [hftn, hraw]
  dsimp only
  rw [hdesc, hrun]
  dsimp only
  rw [if_neg (by rw [hlive]; decide), if_pos hfull]

theorem drainRow_of_room (hftn : s.ftnOf c = some f) (hraw : (s.core c).raw = w :: z)
    (hdesc : dsetDesc (s.ftn f).drainSet w.dcd = some d) (hrun : (s.ftn f).run = some run) (hlive : s.ftnLive f = true)
    (hroom : (d.emits w.row && !(s.core c).outRoom (d.rowSize w.elems.length)) = false) (hresid : d.resid = false)
    (herr : w.err = none) (hjob : s.pending? run.job = some j) :
    s.drainRow c = (s.setCore c { s.core c with raw := z }).chainRow f c w d (j.effOf run.layer w.dcd d) [] := by
  have hresidual : s.residualOf c d = some 0 := by rw [State.residualOf, hresid]; rfl
  have hpending : (s.setCore c { s.core c with raw := z }).pending? run.job = some j := (pending?_of_jobs rfl _).trans hjob
  unfold State.drainRow
  rw [hftn, hraw]
  dsimp only
  rw [hdesc, hrun]
  dsimp only
  rw [if_neg (by rw [hlive]; decide), if_neg (Bool.eq_false_iff.1 hroom), hresidual]
  dsimp only
  unfold State.rawError
  rw [if_pos rfl, herr]
  dsimp only
  rw [if_neg Bool.false_ne_true, hpending]
  rfl

end

/-! Rills (R272 to R286, R322). -/

section
variable {s : State} {c r f k : Nat} {p : RProg}

theorem rillGroup_of_serving (hactive : s.activeRill c r = some (f, p)) (hbusy : (s.rill c r).busy = true)
    (hout : (s.rill c r).outq = []) (hserves : p.pspace ≠ Sp.dram ∨ s.dramServes = true) :
    s.rillGroup c r = (State.genElems f c r p 16 0 0 [] s).chargeHits f := by
  have hguard : (!(s.rill c r).busy || (p.pspace == Sp.dram && !s.dramServes)) = false := by
    rw [hbusy]
    obtain h | h := hserves
    · simp [h]
    · simp [h]
  have houtput : State.moveOutput f c r p 3 s = (true, s) := by
    unfold State.moveOutput
    rw [hout]
  unfold State.rillGroup
  rw [hactive]
  dsimp only
  rw [hguard, houtput]
  rfl

/-- A Rill that has begun every element begins none. -/
theorem genElems_of_complete (h : p.total ≤ (s.rill c r).idx) (n els bytes : Nat) (used : List (Nat × Nat)) :
    State.genElems f c r p n els bytes used s = s := by
  cases n with
  | zero => rfl
  | succ n => exact if_pos (by simp [h])

theorem rillGroup_of_idle (hactive : s.activeRill c r = some (f, p))
    (h : (s.rill c r).busy = false ∨ p.pspace = Sp.dram ∧ s.dramServes = false) : s.rillGroup c r = s := by
  unfold State.rillGroup
  rw [hactive]
  refine if_pos ?_
  obtain h | ⟨hdram, hserves⟩ := h
  · rw [h]
    rfl
  · rw [hdram, hserves]
    exact Bool.or_true _

theorem rillFinished_of_unspent (hactive : s.activeRill c r = some (f, p)) (h : (s.rill c r).spent p = false) :
    s.rillFinished c r = s := by
  unfold State.rillFinished
  rw [hactive]
  exact if_pos (by rw [h]; exact Bool.or_true _)

theorem rillFinished_of_over (hactive : s.activeRill c r = some (f, p)) (hbusy : (s.rill c r).busy = true)
    (hspent : (s.rill c r).spent p = true) (hgive : (s.giveDrops f c r (2 ^ 32) p).1 = false) :
    s.rillFinished c r = s.rillStop f c r { fault := some Pf.rillSluice } := by
  unfold State.rillFinished
  rw [hactive]
  dsimp only
  rw [if_neg (by rw [hbusy, hspent]; decide), hgive]
  rfl

/-- A Rill that has given all its drops is done. -/
def State.rillDone (s : State) (c r : Nat) : State :=
  s.setRill c r { s.rill c r with st := Rl.done, given := ((s.rill c r).lin + 511) / 512 }

theorem rillFinished_of_given (hactive : s.activeRill c r = some (f, p)) (hbusy : (s.rill c r).busy = true)
    (hspent : (s.rill c r).spent p = true) (hgive : (s.giveDrops f c r (2 ^ 32) p).1 = true) (hpost : slOf p.post = none) :
    s.rillFinished c r = ((s.giveDrops f c r (2 ^ 32) p).2.rillDone c r).chargeHits f := by
  unfold State.rillFinished
  rw [hactive]
  dsimp only
  rw [if_neg (by rw [hbusy, hspent]; decide), hgive, hpost]
  rfl

/-- The last, partial drop is given too (R285). -/
theorem rillFinished_of_partial (hactive : s.activeRill c r = some (f, p)) (hbusy : (s.rill c r).busy = true)
    (hspent : (s.rill c r).spent p = true) (hgive : (s.giveDrops f c r (2 ^ 32) p).1 = true) (hpost : slOf p.post = some k)
    (hlin : ((s.giveDrops f c r (2 ^ 32) p).2.rill c r).lin % 512 ≠ 0)
    (hroom : ((s.giveDrops f c r (2 ^ 32) p).2.rillDone c r).sluice c k < 4095) :
    s.rillFinished c r = (((s.giveDrops f c r (2 ^ 32) p).2.rillDone c r).credit f c k
      (((s.giveDrops f c r (2 ^ 32) p).2.rillDone c r).sluice c k + 1)).chargeHits f := by
  unfold State.rillFinished
  rw [hactive]
  dsimp only
  rw [if_neg (by rw [hbusy, hspent]; decide), hgive, hpost]
  exact (if_neg hlin).trans (if_neg (Nat.not_lt.2 hroom))

theorem rill_setRill_same (s : State) (c r : Nat) (q : Rill) : (s.setRill c r q).rill c r = q := by
  unfold State.rill State.setRill
  rw [State.core_setCore_same]
  exact Table.get_put_same _ _ _ _

theorem sluice_setRill (s : State) (c r n : Nat) (q : Rill) : (s.setRill c r q).sluice c n = s.sluice c n := by
  unfold State.sluice State.setRill
  rw [State.core_setCore_same]

theorem credit_of_not_armed (h : s.injArmed 8 c 6 k = false) (n : Nat) : s.credit f c k n = s.setSluice c k n := by
  have hinject : (s.setSluice c k n).inject 8 c 6 k = (none, s.setSluice c k n) := State.inject_of_not_armed h
  unfold State.credit
  dsimp only
  rw [hinject]

theorem sluice_setSluice (s : State) (c k n : Nat) : (s.setSluice c k n).sluice c k = n := by
  unfold State.sluice State.setSluice
  rw [State.core_setCore_same]
  exact Table.get_put_same _ _ _ _

theorem rill_setSluice (s : State) (c k n r : Nat) : (s.setSluice c k n).rill c r = s.rill c r := by
  unfold State.rill State.setSluice
  rw [State.core_setCore_same]

theorem giveDrops_of_no_post (h : slOf p.post = none) (n : Nat) : s.giveDrops f c r n p = (true, s) := by
  unfold State.giveDrops
  rw [h]

/-- Where no injection is armed, the drops given change the Rill's own count and the Sluice. -/
theorem giveDrops_keeps (hpost : slOf p.post = some k) (harmed : s.injArmed 8 c 6 k = false) (n : Nat) :
    (s.giveDrops f c r n p).2.injArmed 8 c 6 k = false ∧ (s.giveDrops f c r n p).2.ftns = s.ftns ∧
    ((s.giveDrops f c r n p).2.rill c r).lin = (s.rill c r).lin := by
  unfold State.giveDrops
  dsimp only
  rw [hpost]
  dsimp only
  split
  · exact ⟨harmed, rfl, rfl⟩
  · split
    · exact ⟨harmed, rfl, rfl⟩
    · rw [credit_of_not_armed (by exact harmed), rill_setSluice, rill_setRill_same]
      exact ⟨harmed, rfl, rfl⟩

/-- The Rill that has given all its drops, the partial one with them. -/
theorem rillFinished_partial (hactive : s.activeRill c r = some (f, p)) (hhits : (s.ftn f).hits = [])
    (hbusy : (s.rill c r).busy = true) (hspent : (s.rill c r).spent p = true)
    (hgive : (s.giveDrops f c r (2 ^ 32) p).1 = true) (hpost : slOf p.post = some k) (harmed : s.injArmed 8 c 6 k = false)
    (hlin : (s.rill c r).lin % 512 ≠ 0) (hroom : (s.giveDrops f c r (2 ^ 32) p).2.sluice c k < 4095) :
    ((s.rillFinished c r).rill c r).st = Rl.done ∧
    (s.rillFinished c r).sluice c k = (s.giveDrops f c r (2 ^ 32) p).2.sluice c k + 1 := by
  obtain ⟨hfree, hftns, hlin'⟩ := giveDrops_keeps (f := f) (r := r) hpost harmed (2 ^ 32)
  have hend := rillFinished_of_partial hactive hbusy hspent hgive hpost (by rw [hlin']; exact hlin)
    (by rw [State.rillDone, sluice_setRill]; exact hroom)
  generalize (s.giveDrops f c r (2 ^ 32) p).2 = u at hfree hftns hend hroom ⊢
  have hsluice : (u.rillDone c r).sluice c k = u.sluice c k := sluice_setRill ..
  have hnone : (((u.rillDone c r).setSluice c k (u.sluice c k + 1)).ftn f).hits = [] :=
    Eq.trans (congrArg (fun l => (Table.get ({} : Fountain) l f).hits) hftns) hhits
  rw [hend, credit_of_not_armed (s := u.rillDone c r) hfree, hsluice, State.chargeHits_of_hits_nil hnone, rill_setSluice,
    State.rillDone, rill_setRill_same]
  exact ⟨rfl, sluice_setSluice ..⟩

end

/-- Settles O54: each engine's command, taken at the branch that the clause names. -/
theorem theFountainsEnginesWork : Obligations.TheFountainsEnginesWork := by
  intro s u f c r m job layer seg va n k j l b bad p h t w z d run hup x q now
  refine ⟨?segment, fun hf hno => ?noSegment, fun hf hmats hlive => ⟨fun _ _ _ hwait => ?waits, fun hdrn hmpl hphase hready hmx => ?steps,
    fun hmpl hphase => ?preload, fun hphase hdesc hfault => ?drainFault, fun hphase hdesc hfault => ?drain⟩,
    fun hc hftn hraw hdesc hrun hlive => ⟨fun hfull => ?full, fun hroom hresid herr hjob => ?row⟩,
    fun hc hnone => ?noRill, fun hc hactive hhits => ?rill⟩
  case segment =>
    intro hf hserves hpending hftn hsize hprog hseg hfits hlo hhi hread
    have hguard : (decide (f < 4) && s.dramServes) = true := by rw [decide_eq_true hf, hserves]; rfl
    obtain ⟨_, _, _, _, hw⟩ := u.writeEcc_reports Mc.imem f ((1 - (s.ftn f).bank) * 0x20000) (32 * n)
    refine ⟨_, exec_fabric (guarded _ (·.segmentLoaded f job layer seg)) hup ((guarded_of_true _ s hguard).trans
      (segmentLoaded_of_fits hpending hftn hsize hprog hseg hfits hlo hhi hread)) rfl, ?_⟩
    have hdram : (u.writeEcc Mc.imem f ((1 - (s.ftn f).bank) * 0x20000) (32 * n)).dram = u.dram := by rw [hw]
    rw [State.ftn_setFtn_same]
    exact ⟨rfl, rfl, rfl, Fountain.fillBank_bank .., Fountain.fillBank_imem .., hdram⟩
  case noSegment =>
    refine exec_fabric (guarded _ (·.segmentLoaded f job layer seg)) hup ?_ rfl
    obtain hnone | hserves := hno
    · refine guarded_of_fixed ?_ _
      unfold State.segmentLoaded
      rw [hnone]
    · unfold guarded
      rw [hserves, Bool.and_false]
      rfl
  case waits => exact exec_unit_settles (·.matrixStep f) hup hf (matrixStep_of_waiting hmats hwait) rfl
  case steps =>
    exact exec_unit_settles (·.matrixStep f) hup hf (matrixStep_of_ready hmats hlive hdrn hmpl hphase hready hmx) rfl
  case preload => exact exec_unit_settles (·.preloadDrain f) hup hf (preloadDrain_of_preload hmats hlive hmpl hphase) rfl
  case drainFault =>
    exact exec_unit_settles (·.preloadDrain f) hup hf (preloadDrain_of_fault hmats hlive hphase hdesc hfault) rfl
  case drain =>
    intro g y hy
    exact ⟨_, exec_unit_settles (·.preloadDrain f) hup hf rfl rfl, drainBegun hmats hlive hphase hdesc hfault hy⟩
  case full => exact exec_unit_settles (·.drainRow c) hup hc (drainRow_of_full hftn hraw hdesc hrun hlive hfull) rfl
  case row =>
    exact exec_unit_settles (·.drainRow c) hup hc (drainRow_of_room hftn hraw hdesc hrun hlive hroom hresid herr hjob) rfl
  case noRill =>
    refine ⟨exec_unit_settles (·.rillGroup c r) hup hc ?_ rfl, exec_unit_settles (·.dropLanded c r) hup hc ?_ rfl,
      exec_unit_settles (·.rillFinished c r) hup hc ?_ rfl⟩
    · rw [State.rillGroup, hnone]
    · rw [State.dropLanded, hnone]
    · rw [State.rillFinished, hnone]
  case rill =>
    refine ⟨fun hbusy hout hserves => ?group, fun hbusy hout hcomplete => ?complete, fun hidle => ?idle, fun hgive => ?given,
      fun hgive => ?tooMany, fun _ hunspent => ?unspent, fun hbusy hspent hgive hpost => ?done,
      fun hbusy hspent hgive hpost harmed hlin hroom => ?partialDrop, fun hbusy hspent hgive => ?doneOver⟩
    case group => exact exec_unit_settles (·.rillGroup c r) hup hc (rillGroup_of_serving hactive hbusy hout hserves) rfl
    case complete =>
      refine exec_unit_settles (·.rillGroup c r) hup hc ?_ rfl
      by_cases hserves : p.pspace = Sp.dram ∧ s.dramServes = false
      · exact rillGroup_of_idle hactive (.inr hserves)
      · have hserving : p.pspace ≠ Sp.dram ∨ s.dramServes = true := by
          rw [not_and_or, Bool.not_eq_false] at hserves
          exact hserves
        exact (rillGroup_of_serving hactive hbusy hout hserving).trans
          ((congrArg (·.chargeHits f) (genElems_of_complete hcomplete 16 0 0 [])).trans (State.chargeHits_of_hits_nil hhits))
    case idle => exact exec_unit_settles (·.rillGroup c r) hup hc (rillGroup_of_idle hactive hidle) rfl
    case given =>
      refine exec_unit_settles (·.dropLanded c r) hup hc ?_ rfl
      rw [State.dropLanded, hactive]
      exact if_pos hgive
    case tooMany =>
      refine exec_unit_settles (·.dropLanded c r) hup hc ?_ rfl
      rw [State.dropLanded, hactive]
      exact if_neg (Bool.eq_false_iff.1 hgive)
    case unspent => exact exec_unit_settles (·.rillFinished c r) hup hc (rillFinished_of_unspent hactive hunspent) rfl
    case done =>
      have hend := rillFinished_of_given hactive hbusy hspent hgive hpost
      rw [giveDrops_of_no_post hpost] at hend
      have hkept : (s.rillDone c r).chargeHits f = s.rillDone c r := State.chargeHits_of_hits_nil hhits
      refine ⟨_, exec_unit_settles (·.rillFinished c r) hup hc (hend.trans hkept) rfl, ?_, rfl, rfl⟩
      rw [State.rillDone, rill_setRill_same]
    case partialDrop =>
      exact ⟨_, exec_unit_settles (·.rillFinished c r) hup hc rfl rfl,
        rillFinished_partial hactive hhits hbusy hspent hgive hpost harmed hlin hroom⟩
    case doneOver =>
      exact exec_unit_settles (·.rillFinished c r) hup hc (rillFinished_of_over hactive hbusy hspent hgive) rfl

end Sys2Proof.Machine
end

section
/-! SUPPORT. Codec sessions (R615 to R629): their requests, tails and counts, access units, pictures and coded pictures. -/
namespace Sys2Proof.Machine
open Sys2Proof

/-! Opening and closing (R615 to R617, R629). -/

section
variable {s u w : State} {r : FwReq} {b e : List Byte} {bad : Bool}

theorem codecOpen_of_read (hread : s.vread Who.fwp2 r.a0 64 = (some (b, bad), u)) :
    s.codecOpen r = if Ses.kind b = 1 then u.openDec b else if Ses.kind b = 2 then u.openEnc b
      else (some (Cd.badRecord, none), u) := by
  -- The read is made opaque: the kernel would evaluate it to compare two forms of the branch on it.
  generalize hopen : State.codecOpen = codecOpen
  delta State.codecOpen at hopen
  subst hopen
  beta_reduce
  obtain ⟨read, hopaque⟩ := exists_eq (a' := State.vread)
  rw [← hopaque] at hread ⊢
  rw [hread]

/-- The samples of a picture in the words of its work memory (R616). -/
def workPicture (e : List Byte) : Nat :=
  if Ent.dt e = Dt.p010 then 3 * (Ent.width e * Ent.height e) else Ent.width e * Ent.height e * 3 / 2

/-- The decode engine that a session opens on (R617). -/
def State.decEngine (s : State) : Nat := leastEngine (fun g => ((s.decOn g).map Ses.rate).sum) [0, 1, 2, 3]

/-- A decode session opened on an engine. -/
def State.decOpened (s : State) (b e : List Byte) (g : Nat) : State :=
  (((s.setDec (Ses.num b) { opened := true, ses := b, engine := g, ent := e }).setStream (64 + Ses.num b)
    { ent := e, ready := (s.stream (64 + Ses.num b)).ready }).setDecState (Ses.num b) 1).wf (Reg.codecDecStatus (Ses.num b))
    F.codecDecStatus_ENGINE g

theorem decOpened_dec (s : State) (b e : List Byte) (g : Nat) :
    (s.decOpened b e g).dec (Ses.num b) = { opened := true, ses := b, engine := g, ent := e } :=
  State.dec_setDec_same s (Ses.num b) { opened := true, ses := b, engine := g, ent := e }

theorem decOpened_state (s : State) (b e : List Byte) (g : Nat) : (s.decOpened b e g).decState (Ses.num b) = 1 := by
  unfold State.decOpened State.decState State.setDecState
  rw [State.rf_wf_apart _ _ _ _ _ (by decide) (by decide), State.rf_wf_same _ _ _ _ (by decide) (by decide)]
  rfl

/-- A sound decode record with a sound entry (R615, R621): what stands between it and its session. -/
theorem openDec_of_sound (hok : Ses.decOk b = true) (hent : u.readEnt Who.fwp2 (64 + Ses.num b) = (some e, w))
    (hsound : decEntOk (Ses.codec b) e = true) :
    u.openDec b = if (w.dec (Ses.num b)).opened then (some (Cd.inUse, none), w)
      else if Ses.workBytes b < 17 * workPicture e + 1048576 then (some (Cd.smallWork, none), w)
      else if w.codecRate < ((w.decOn w.decEngine).map Ses.rate).sum + Ses.rate b ∨
        120000 < ((w.decOn w.decEngine).map Ses.kbps).sum + Ses.kbps b then (some (Cd.capacity, none), w)
      else (some (Cd.ok, none), w.decOpened b e w.decEngine) := by
  -- The read is made opaque, as above.
  generalize hopen : State.openDec = openDec
  delta State.openDec at hopen
  subst hopen
  beta_reduce
  obtain ⟨read, hopaque⟩ := exists_eq (a' := State.readEnt)
  rw [← hopaque] at hent ⊢
  dsimp only
  rw [if_neg (by rw [hok]; decide), hent]
  dsimp only
  rw [if_neg (by rw [hsound]; decide)]
  rfl

theorem openEnc_of_sound (hok : Ses.encOk b = true) (hclosed : (u.enc (Ses.num b)).opened = false)
    (hwork : 3 * (Ses.width b * Ses.height b * 3 / 2) + 1048576 ≤ Ses.workBytes b)
    (hrate : ((u.encOn (leastEngine (fun g => ((u.encOn g).map Ses.rate).sum) [4, 5])).map Ses.rate).sum + Ses.rate b ≤
      u.codecRate) :
    u.openEnc b = (some (Cd.ok, none), u.setEnc (Ses.num b)
      { opened := true, ses := b, engine := leastEngine (fun g => ((u.encOn g).map Ses.rate).sum) [4, 5], qp := Ses.qp b }) := by
  unfold State.openEnc
  dsimp only
  rw [if_neg (by rw [hok]; decide), if_neg (by rw [hclosed]; decide), if_neg (Nat.not_lt.2 hwork), if_neg (Nat.not_lt.2 hrate)]

theorem codecClose_of_closed (hkind : r.a0 / 256 = 1) (hn : r.a0 % 256 < 64) (hclosed : (s.dec (r.a0 % 256)).opened = false) :
    s.codecClose r = (some (Cd.notOpen, none), s) := by
  unfold State.codecClose
  dsimp only
  rw [if_pos ⟨hkind, hn⟩, if_pos (by rw [hclosed]; rfl)]

/-- A decode session closed (R629). -/
def State.decClosed (s : State) (n : Nat) : State := (s.setDec n {}).setDecState n 0

theorem decClosed_dec (s : State) (n : Nat) : (s.decClosed n).dec n = {} := State.dec_setDec_same s n {}

theorem decClosed_state (s : State) (n : Nat) : (s.decClosed n).decState n = 0 := by
  unfold State.decClosed State.decState State.setDecState
  rw [State.rf_wf_same _ _ _ _ (by decide) (by decide)]
  rfl

theorem codecClose_of_dec (hkind : r.a0 / 256 = 1) (hn : r.a0 % 256 < 64) (hopen : (s.dec (r.a0 % 256)).opened = true) :
    s.codecClose r =
      (some (Cd.ok, none), ((s.abortDec (r.a0 % 256) 1024).dropPics (r.a0 % 256) Mk.aborted).decClosed (r.a0 % 256)) := by
  unfold State.codecClose
  dsimp only
  rw [if_pos ⟨hkind, hn⟩, if_neg (by rw [hopen]; decide)]
  rfl

theorem codecClose_of_enc (hkind : r.a0 / 256 = 2) (hn : r.a0 % 256 < 32) (hopen : (s.enc (r.a0 % 256)).opened = true) :
    s.codecClose r = (some (Cd.ok, none), (s.abortEnc (r.a0 % 256) 1024).setEnc (r.a0 % 256) {}) := by
  unfold State.codecClose
  dsimp only
  rw [if_neg (by simp [hkind]), if_pos ⟨hkind, hn⟩, if_neg (by rw [hopen]; decide)]

end

/-! Tails, counts and RESTART (R482, R620, R627 to R629, R827). -/

section
variable {s : State} {n tag : Nat} {v : W32}

theorem decTail_of_fits (hopen : (s.dec n).opened = true) (hv : v.toNat / 65536 + v.toNat % 65536 = 65535)
    (hfit : (v.toNat % 65536 + 65536 - (s.dec n).q.head) % 65536 ≤ 2 ^ Ses.inLog2 (s.dec n).ses) :
    s.decTail n v = s.setDec n { s.dec n with q := { (s.dec n).q with tail := v.toNat % 65536 } } := by
  unfold State.decTail
  dsimp only
  rw [if_neg (by rw [tailTwinOk_of hv]; decide), if_pos hopen, TailQ.write_of_fits hv hfit]

theorem encTail_of_fits (hopen : (s.enc n).opened = true) (hv : v.toNat / 65536 + v.toNat % 65536 = 65535)
    (hfit : (v.toNat % 65536 + 65536 - (s.enc n).q.head) % 65536 ≤ 2 ^ Ses.inLog2 (s.enc n).ses) :
    s.encTail n v = s.setEnc n { s.enc n with q := { (s.enc n).q with tail := v.toNat % 65536 } } := by
  unfold State.encTail
  dsimp only
  rw [if_neg (by rw [tailTwinOk_of hv]; decide), if_pos hopen, TailQ.write_of_fits hv hfit]

theorem encRead_of_fits
    (h : (v.toNat + 2 ^ 32 - (s.enc n).bytes.read % 2 ^ 32) % 2 ^ 32 ≤ (s.enc n).bytes.written - (s.enc n).bytes.read) :
    s.encRead n v = s.setEnc n { s.enc n with bytes := { (s.enc n).bytes with
      read := (s.enc n).bytes.read + (v.toNat + 2 ^ 32 - (s.enc n).bytes.read % 2 ^ 32) % 2 ^ 32 } } := by
  unfold State.encRead
  dsimp only
  rw [consume_eq, consumedCount, if_pos h]

theorem dec_writeReg (s : State) (tag off n : Nat) (v : W32) : (s.writeReg tag off v).dec n = s.dec n := by
  obtain ⟨_, _, _, _, h⟩ := s.writeReg_write tag off v
  rw [h]
  rfl

theorem gts_writeReg (s : State) (tag off : Nat) (v : W32) : (s.writeReg tag off v).gts = s.gts := by
  obtain ⟨_, _, _, _, h⟩ := s.writeReg_write tag off v
  rw [h]

theorem decState_writeCtrl (s : State) (tag n : Nat) (v : W32) :
    (s.writeReg tag (Reg.codecDecCtrl n) v).decState n = s.decState n := by
  refine State.rf_writeReg_ne _ _ _ _ ?_ ?_
  · unfold Reg.codecDecStatus Reg.codecDecCtrl
    omega
  · refine not_mem_errRegs ?_
    unfold Reg.codecDecStatus
    omega

/-- A session taken by RESTART to its next random access point. -/
def State.decRestarted (s : State) (n : Nat) : State := (s.setDec n { s.dec n with late := [] }).setDecState n 3

theorem decRestart_of_stopped (hgo : v.fld F.codecDecCtrl_RESTART = 1) (hstate : s.decState n = 2) :
    s.decRestart tag n v = ((s.dec n).late.filter fun a => a.at_ == s.gts).foldl (fun t a => t.auTaken n a)
      ((s.writeReg tag (Reg.codecDecCtrl n) v).decRestarted n) := by
  unfold State.decRestart
  dsimp only
  rw [if_pos ⟨hgo, (decState_writeCtrl s tag n v).trans hstate⟩, dec_writeReg, gts_writeReg]
  unfold State.decRestarted
  rw [dec_writeReg]

theorem decRestart_of_going (h : ¬(v.fld F.codecDecCtrl_RESTART = 1 ∧ s.decState n = 2)) :
    s.decRestart tag n v = s.writeReg tag (Reg.codecDecCtrl n) v := by
  unfold State.decRestart
  exact if_neg (by rw [decState_writeCtrl]; exact h)

theorem decState_setDecState (s : State) (n k : Nat) (hk : k < 16) : (s.setDecState n k).decState n = k :=
  (State.rf_wf_same _ _ _ _ (by decide) (by decide)).trans (Nat.mod_eq_of_lt hk)

/-- A write of CODEC_DEC_CTRL with no access unit of its cycle. -/
theorem decRestart_of_none (h : ∀ a ∈ (s.dec n).late, a.at_ ≠ s.gts) : 
    (s.decRestart tag n v).decState n = (if v.fld F.codecDecCtrl_RESTART = 1 ∧ s.decState n = 2 then 3 else s.decState n) ∧
    sameMem s (s.decRestart tag n v) ∧
    sameRegs s (s.decRestart tag n v) ([Reg.codecDecCtrl n, Reg.codecDecStatus n] ++ errRegs) := by
  have hregs : sameRegs s (s.writeReg tag (Reg.codecDecCtrl n) v) ([Reg.codecDecCtrl n, Reg.codecDecStatus n] ++ errRegs) :=
    (s.writeReg_sameRegs tag (Reg.codecDecCtrl n) v).mono fun o ho => by
      obtain rfl | ho := List.mem_cons.1 ho
      · exact List.mem_cons_self
      · exact List.mem_append_right _ ho
  have hmem := (s.writeReg_write tag (Reg.codecDecCtrl n) v).sameMem
  by_cases hgo : v.fld F.codecDecCtrl_RESTART = 1 ∧ s.decState n = 2
  · have hnone : ((s.dec n).late.filter fun a => a.at_ == s.gts) = [] :=
      List.filter_eq_nil_iff.2 fun a ha => by simpa using h a ha
    rw [decRestart_of_stopped hgo.1 hgo.2, hnone, List.foldl_nil, if_pos hgo]
    exact ⟨decState_setDecState _ _ _ (by decide), hmem, hregs.wf (List.mem_cons_of_mem _ List.mem_cons_self) _ _⟩
  · rw [decRestart_of_going hgo, if_neg hgo]
    exact ⟨decState_writeCtrl .., hmem, hregs⟩

end

/-! Access units (R618, R620, R625 to R627). -/

section
variable {s u w : State} {n : Nat} {c y : List Byte} {bad : Bool} {t : AuTaken}

/-- A stopped session keeps the access units that it takes in a cycle (R627). -/
def State.lateNoted (s : State) (n : Nat) (t : AuTaken) : State :=
  if s.decState n = 2 then
    s.setDec n { s.dec n with late := (s.dec n).late.filter (fun a => a.at_ == s.gts) ++ [t] }
  else s

theorem lateNoted_state (s : State) (n : Nat) (t : AuTaken) : (s.lateNoted n t).decState n = s.decState n := by
  unfold State.lateNoted
  split <;> rfl

theorem lateNoted_of_running (h : s.decState n = 1) (t : AuTaken) : s.lateNoted n t = s := if_neg (by rw [h]; decide)

theorem lateNoted_dec (s : State) (n : Nat) (t : AuTaken) :
    ((s.lateNoted n t).dec n).out = (s.dec n).out ∧ ((s.lateNoted n t).dec n).held = (s.dec n).held := by
  unfold State.lateNoted
  split
  · rw [State.dec_setDec_same]
    exact ⟨rfl, rfl⟩
  · exact ⟨rfl, rfl⟩

/-- END_OF_STREAM outputs what is held (R620). -/
theorem auEos_dec (s : State) (n : Nat) (c : List Byte) :
    ((s.auEos n c).dec n).out = (s.dec n).out ++ (if (u16 c 0x10).testBit 0 then (s.dec n).held else []) ∧
    ((s.auEos n c).dec n).held = (if (u16 c 0x10).testBit 0 then [] else (s.dec n).held) := by
  unfold State.auEos
  dsimp only
  split
  · rw [State.dec_setDec_same]
    exact ⟨rfl, rfl⟩
  · exact ⟨(List.append_nil _).symm, rfl⟩

theorem dec_of_access {s t : State} (h : DramAccess s t) (n : Nat) : t.dec n = s.dec n := by
  obtain ⟨⟨_, _, _, _, _, _, _, _, rfl⟩, -⟩ := h
  rfl

theorem accessUnit_of_taken (hopen : (s.dec n).opened = true) (hon : s.codecOff = false) (hwait : (s.dec n).q.waiting ≠ 0)
    (hout : (s.dec n).out = [] ∨ Ses.live (s.dec n).ses = true)
    (hread : (s.setDec n { s.dec n with q := (s.dec n).q.next }).vread (Who.codec 7) ((s.dec n).descVa (s.dec n).q.head) 32 =
      (some (c, bad), u))
    (hok : auOk c = true) (hmapped : u.mapped false (u64 c 0) (u32 c 8) = true) (un rap : Bool) (pic : Option Picture)
    (order : List Nat) :
    s.accessUnit n un rap pic order =
      (u.lateNoted n ⟨u.gts, (s.dec n).q.head, c, un, rap, pic, order⟩).auTaken n
        ⟨u.gts, (s.dec n).q.head, c, un, rap, pic, order⟩ := by
  have hguard : ¬((!(s.dec n).opened || s.codecOff || (s.dec n).q.waiting == 0 ||
      (!(s.dec n).out.isEmpty && !Ses.live (s.dec n).ses)) = true) := by
    obtain h | h := hout
    · simp [hopen, hon, hwait, h]
    · simp [hopen, hon, hwait, h]
  -- The reads are made opaque: the kernel would evaluate them to compare two forms of a branch on them.
  generalize hunit : State.accessUnit = accessUnit
  delta State.accessUnit at hunit
  subst hunit
  beta_reduce
  obtain ⟨read, hopaque⟩ := exists_eq (a' := State.vread)
  rw [← hopaque] at hread ⊢
  refine (if_neg hguard).trans ?_
  dsimp only
  rw [hread]
  dsimp only
  rw [if_neg (by rw [hok]; decide), if_neg (by rw [hmapped]; decide)]
  rfl

theorem auTaken_of_skipped (h : s.decState n = 2 ∨ s.decState n = 3 ∧ t.rap = false) :
    s.auTaken n t = (s.auEos n t.desc).auDone n t.count Au.skipped := if_pos h

theorem auTaken_of_running (hstate : s.decState n = 1)
    (hread : s.vread (Who.codec (s.dec n).engine) (u64 t.desc 0) (u32 t.desc 8) = (some (y, false), w)) :
    s.auTaken n t = if t.unsupported || t.pic.any (fun p => !picSupported p) then
        (w.auEos n t.desc).auDone n t.count Au.unsupported
      else w.auDecode n t.count t.desc t.pic t.order := by
  -- The read is made opaque, as above.
  generalize htaken : State.auTaken = auTaken
  delta State.auTaken at htaken
  subst htaken
  beta_reduce
  obtain ⟨read, hopaque⟩ := exists_eq (a' := State.vread)
  rw [← hopaque] at hread ⊢
  have hstay : (if s.decState n = 3 then s.setDecState n 1 else s) = s := if_neg (by rw [hstate]; decide)
  refine (if_neg (by simp [hstate])).trans ?_
  dsimp only
  rw [hstay, hread]
  rfl

/-- The picture that an access unit leaves with its decoder. -/
def State.decoded (s : State) (c : List Byte) (p : Picture) : DecPic :=
  { auSeq := u32 c 0xC, fsGts := s.gts, pic := p, stop := false, draw := (s.draw 20).1 }

/-- The decoder's pictures after an access unit. -/
def State.decQueued (s : State) (n : Nat) (c : List Byte) (p : Picture) (order : List Nat) : State :=
  (s.draw 20).2.setDec n { (s.draw 20).2.dec n with
    held := (releasePics order ((s.dec n).held ++ [s.decoded c p])).2,
    out := (s.dec n).out ++ (releasePics order ((s.dec n).held ++ [s.decoded c p])).1 }

theorem codecMemory_of_not_armed {e : Nat} (h : s.injArmed 15 0 1 e = false)
    (h' : s.injArmed 0x17 0 1 (Mc.codec * 256 + e) = false) (p : Picture) : s.codecMemory e p = (p, s) := by
  unfold State.codecMemory
  dsimp only
  rw [State.inject_of_not_armed h]
  dsimp only
  rw [if_neg (by decide), State.inject_of_not_armed h']

theorem auDecode_of_sound {p : Picture} (hgood : picAnyBad p = false) (harmed : s.injArmed 15 0 1 (s.dec n).engine = false)
    (harmed' : s.injArmed 0x17 0 1 (Mc.codec * 256 + (s.dec n).engine) = false) (k : Nat) (order : List Nat) :
    s.auDecode n k c (some p) order = ((s.decQueued n c p order).auEos n c).auDone n k Au.decoded := by
  unfold State.auDecode
  dsimp only
  rw [codecMemory_of_not_armed harmed harmed' p]
  dsimp only
  rw [hgood]
  simp only [Bool.and_false]
  rfl

theorem decQueued_dec (s : State) (n : Nat) (c : List Byte) (p : Picture) (order : List Nat) :
    ((s.decQueued n c p order).dec n).held = (releasePics order ((s.dec n).held ++ [s.decoded c p])).2 ∧
    ((s.decQueued n c p order).dec n).out = (s.dec n).out ++ (releasePics order ((s.dec n).held ++ [s.decoded c p])).1 := by
  unfold State.decQueued
  rw [State.dec_setDec_same]
  exact ⟨rfl, rfl⟩

end

/-! Pictures (R621 to R625). -/

/-- A codec engine's write keeps every session. -/
theorem codecWrite_sessions (s : State) (g va : Nat) (b : List Byte) :
    (s.codecWrite g va b).decs = s.decs ∧ (s.codecWrite g va b).encs = s.encs := by
  obtain ⟨⟨_, _, _, _, _, _, _, _, hwrite⟩, -⟩ := s.vwrite_access (Who.codec g) va b
  have hkept : (s.vwrite (Who.codec g) va b).2.decs = s.decs ∧ (s.vwrite (Who.codec g) va b).2.encs = s.encs := by
    rw [hwrite]
    exact ⟨rfl, rfl⟩
  unfold State.codecWrite
  dsimp only
  generalize s.vwrite (Who.codec g) va b = r at hkept
  split
  · exact hkept
  · exact hkept

theorem decStore_decs (s : State) (e : List Byte) (slot bits : Nat) (v : List Nat) : (s.decStore e slot bits v).decs = s.decs := by
  unfold State.decStore
  dsimp only
  generalize List.range _ = rows
  induction rows generalizing s with
  | nil => rfl
  | cons y rows ih => exact (ih _).trans (codecWrite_sessions ..).1

section
variable {s : State} {n : Nat} {d : DecPic} {l : List DecPic}

theorem pictureOut_of_stop (hout : (s.dec n).out = d :: l) (hstop : d.stop = true) :
    s.pictureOut n = (s.setDec n { s.dec n with out := l }).decDiscard n d Mk.stopped := by
  unfold State.pictureOut
  dsimp only
  rw [hout]
  exact if_pos hstop

theorem pictureOut_of_size (hout : (s.dec n).out = d :: l) (hstop : d.stop = false) (hw : d.pic.w ≠ Ent.width (s.dec n).ent) :
    s.pictureOut n = (s.setDec n { s.dec n with out := l }).decDiscard n d Mk.size := by
  unfold State.pictureOut
  dsimp only
  rw [hout]
  exact (if_neg (by rw [hstop]; decide)).trans (if_pos (by simp [hw]))

/-- What stops no picture of the entry's size. -/
def DecPic.fits (d : DecPic) (e : List Byte) : Prop := d.stop = false ∧ d.pic.w = Ent.width e ∧ d.pic.h = Ent.height e

theorem pictureOut_of_full (hout : (s.dec n).out = d :: l) (hfits : d.fits (s.dec n).ent)
    (hfull : s.slotFree (64 + n) (s.stream (64 + n)).begun (Ent.ringLog2 (s.dec n).ent) = false) :
    s.pictureOut n = if Ses.live (s.dec n).ses then (s.setDec n { s.dec n with out := l }).decDiscard n d Mk.dropped else s := by
  obtain ⟨hstop, hw, hh⟩ := hfits
  unfold State.pictureOut
  dsimp only
  rw [hout]
  exact (if_neg (by rw [hstop]; decide)).trans ((if_neg (by simp [hw, hh])).trans (if_pos (by rw [hfull]; rfl)))

/-- The record of a picture that is stored in a slot (R622, R625). -/
def DecPic.record (d : DecPic) (n frame : Nat) (e : List Byte) : FrameS :=
  { (if (picBad d.pic).length = 0 then d.frame n frame e else (d.frame n frame e).mark Mk.spilled) with
    slot := frame % 2 ^ Ent.ringLog2 e, spilled := (picBad d.pic).length }

theorem DecPic.frame_place (d : DecPic) (n frame : Nat) (e : List Byte) :
    (d.frame n frame e).stream = 64 + n ∧ (d.frame n frame e).frame = frame := by
  unfold DecPic.frame
  dsimp only
  split <;> split <;> exact ⟨rfl, rfl⟩

theorem DecPic.record_place (d : DecPic) (n frame : Nat) (e : List Byte) : (d.record n frame e).stream = 64 + n ∧
    (d.record n frame e).frame = frame ∧ (d.record n frame e).slot = frame % 2 ^ Ent.ringLog2 e ∧
    (d.record n frame e).spilled = (picBad d.pic).length := by
  obtain ⟨hstream, hframe⟩ := d.frame_place n frame e
  unfold DecPic.record
  split
  · exact ⟨hstream, hframe, rfl, rfl⟩
  · exact ⟨hstream, hframe, rfl, rfl⟩

/-- The samples that a session outputs a picture with. -/
def State.outSamples (s : State) (n : Nat) (d : DecPic) : List Nat :=
  d.values (decBits (s.dec n).ent) (s.policy (64 + n)).1 (s.policy (64 + n)).2 (s.dec n).last

/-- A picture stored in its slot, and the slot taken. -/
def State.picStored (s : State) (n : Nat) (d : DecPic) (l : List DecPic) : State :=
  let u := (s.setDec n { s.dec n with out := l, last := s.outSamples n d }).decStore (s.dec n).ent
    ((s.stream (64 + n)).begun % 2 ^ Ent.ringLog2 (s.dec n).ent) (decBits (s.dec n).ent) (s.outSamples n d)
  u.setStream (64 + n) { u.stream (64 + n) with begun := (s.stream (64 + n)).begun + 1 }

theorem pictureOut_of_free (hout : (s.dec n).out = d :: l) (hfits : d.fits (s.dec n).ent)
    (hfree : s.slotFree (64 + n) (s.stream (64 + n)).begun (Ent.ringLog2 (s.dec n).ent) = true) :
    s.pictureOut n = (s.picStored n d l).decRecord (d.record n (s.stream (64 + n)).begun (s.dec n).ent) := by
  obtain ⟨hstop, hw, hh⟩ := hfits
  have hsize : ¬((d.pic.w != Ent.width (s.dec n).ent || d.pic.h != Ent.height (s.dec n).ent) = true) := by simp [hw, hh]
  have hroom : ¬((!s.slotFree (64 + n) (s.stream (64 + n)).begun (Ent.ringLog2 (s.dec n).ent)) = true) := by simp [hfree]
  unfold State.pictureOut
  extract_lets x
  rw [show x.out = d :: l from hout]
  exact (if_neg (by rw [hstop]; decide)).trans ((if_neg hsize).trans (if_neg hroom))

theorem picStored_stream (s : State) (n : Nat) (d : DecPic) (l : List DecPic) :
    ((s.picStored n d l).stream (64 + n)).begun = (s.stream (64 + n)).begun + 1 := by
  unfold State.picStored
  dsimp only
  rw [State.stream_setStream_same]

theorem picStored_dec (s : State) (n : Nat) (d : DecPic) (l : List DecPic) : ((s.picStored n d l).dec n).out = l := by
  have hdecs := decStore_decs (s.setDec n { s.dec n with out := l, last := s.outSamples n d }) (s.dec n).ent
    ((s.stream (64 + n)).begun % 2 ^ Ent.ringLog2 (s.dec n).ent) (decBits (s.dec n).ent) (s.outSamples n d)
  refine Eq.trans (congrArg (fun t => (Table.get ({} : DecS) t n).out) hdecs) ?_
  exact congrArg DecS.out (State.dec_setDec_same ..)

end

/-! Encoding (R628, R629). -/

section
variable {s u w : State} {n qp off adv : Nat} {cp : CodedPicture} {c y : List Byte} {bad bad2 : Bool}

/-- The bytes of a coded picture, with the SEI message that its descriptor asks for (R628). -/
def State.codedBytes (s : State) (codec : Nat) (cp : CodedPicture) (c : List Byte) : List Byte :=
  cp.head ++ (if (u16 c 0xC).testBit 1 then s.encSei codec c else []) ++ cp.slices

/-- An encode session after a coded picture. -/
def EncS.coded (x : EncS) (idr : Bool) (since qp adv : Nat) : EncS :=
  { x with idrNext := false, since := if idr then 0 else since + 1, qp := qp,
           bytes := { x.bytes with written := x.bytes.written + adv } }

/-- A source frame that is read: what its place in the output ring makes of it. -/
theorem encode_of_read (hopen : (s.enc n).opened = true) (hon : s.codecOff = false) (hwait : (s.enc n).q.waiting ≠ 0)
    (hdesc : (s.setEnc n { s.enc n with q := (s.enc n).q.next }).vread (Who.codec 7) ((s.enc n).descVa (s.enc n).q.head) 64 =
      (some (c, bad), u))
    (hok : srcOk c = true)
    (hread : u.vread (Who.codec (s.enc n).engine) (u64 c 0) (u32 c 8 * Ses.height (s.enc n).ses * 3 / 2) =
      (some (y, bad2), w)) :
    s.encode n cp qp = match (s.enc n).place (w.codedBytes (Ses.codec (s.enc n).ses) cp c).length with
      | none => (w.setEnc n { w.enc n with idrNext := true, qp := w.encQp (s.enc n) qp }).encDone n (s.enc n).q.head 1 0 0
          (w.encQp (s.enc n) qp) ((s.enc n).idr c)
      | some (off, adv) =>
        if !w.mapped true (Ses.outVa (s.enc n).ses + off) (w.codedBytes (Ses.codec (s.enc n).ses) cp c).length then
          (w.xlateFault (0x300 + (s.enc n).engine)).encDone n (s.enc n).q.head Au.fault 0 0 0 false
        else
          let t := w.codecWrite (s.enc n).engine (Ses.outVa (s.enc n).ses + off) (w.codedBytes (Ses.codec (s.enc n).ses) cp c)
          (t.setEnc n ((t.enc n).coded ((s.enc n).idr c) (s.enc n).since (w.encQp (s.enc n) qp) adv)).encDone n (s.enc n).q.head 0
            off (w.codedBytes (Ses.codec (s.enc n).ses) cp c).length (w.encQp (s.enc n) qp) ((s.enc n).idr c) := by
  have hguard : ¬((!(s.enc n).opened || s.codecOff || (s.enc n).q.waiting == 0) = true) := by simp [hopen, hon, hwait]
  -- The reads are made opaque: the kernel would evaluate them to compare two forms of a branch on them.
  generalize hencode : State.encode = encode
  delta State.encode at hencode
  subst hencode
  beta_reduce
  obtain ⟨read, hopaque⟩ := exists_eq (a' := State.vread)
  rw [← hopaque] at hdesc hread ⊢
  refine (if_neg hguard).trans ?_
  dsimp only
  rw [hdesc]
  dsimp only
  rw [if_neg (by rw [hok]; decide), hread]
  rfl

end

/-- Settles O46: each command's result is its function's, taken at the branch that the clause names. -/
theorem codecSessionsWork : Obligations.CodecSessionsWork := by
  intro s u w r b e c y bad bad2 rap n tag qp v cp p order d l off adv x z m tail
  refine ⟨fun hs hread => ⟨fun hkind hok hent hsound => ?openDec, fun hkind hok hclosed hwork => ?openEnc⟩,
    fun hs hn => ?close, fun hup => ⟨fun hn hopen hv hfit => ?decTail, fun hn hopen hv hfit => ?encTail, ?encRead,
    fun hn hgo hstate => ?restart, fun hn hnone => ?restartNone, ?accessUnit, ?picture, ?encode⟩⟩
  case openDec =>
    have hresult := (codecOpen_of_read hread).trans ((if_pos hkind).trans (openDec_of_sound hok hent hsound))
    refine ⟨fun hopen => ?_, fun hclosed hwork => ?_⟩
    · exact exec_of_answered State.codecOpen hs rfl (hresult.trans (if_pos hopen)) rfl
    · intro g hrate hkbps
      have hcapacity : ¬(w.codecRate < ((w.decOn w.decEngine).map Ses.rate).sum + Ses.rate b ∨
          120000 < ((w.decOn w.decEngine).map Ses.kbps).sum + Ses.kbps b) := not_or.2 ⟨Nat.not_lt.2 hrate, Nat.not_lt.2 hkbps⟩
      refine ⟨_, exec_of_answered State.codecOpen hs rfl (hresult.trans ((if_neg (by rw [hclosed]; decide)).trans
        ((if_neg (Nat.not_lt.2 hwork)).trans (if_neg hcapacity)))) rfl, ?_, rfl, ?_⟩
      · exact decOpened_state w b e w.decEngine
      · exact decOpened_dec w b e w.decEngine
  case openEnc =>
    intro g hrate
    exact exec_of_answered State.codecOpen hs rfl ((codecOpen_of_read hread).trans ((if_neg (by rw [hkind]; decide)).trans
      ((if_pos hkind).trans (openEnc_of_sound hok hclosed hwork hrate)))) rfl
  case close =>
    subst hn
    refine ⟨fun hkind hn hclosed => ?_, fun hkind hn hopen => ?_, fun hkind hn hopen => ?_⟩
    · exact exec_of_answered State.codecClose hs rfl (codecClose_of_closed hkind hn hclosed) rfl
    · exact ⟨_, exec_of_answered State.codecClose hs rfl (codecClose_of_dec hkind hn hopen) rfl, decClosed_dec ..,
        decClosed_state ..⟩
    · exact ⟨_, exec_of_answered State.codecClose hs rfl (codecClose_of_enc hkind hn hopen) rfl,
        State.enc_setEnc_same _ _ {}⟩
  case decTail =>
    exact exec_fabric_unit (fun s => (s.touch 15).decTail n v) hup hn (decTail_of_fits (s := s.touch 15) hopen hv hfit) rfl
  case encTail =>
    exact exec_fabric_unit (fun s => (s.touch 15).encTail n v) hup hn (encTail_of_fits (s := s.touch 15) hopen hv hfit) rfl
  case encRead =>
    intro took hn hfit
    exact exec_fabric_unit (fun s => (s.touch 15).encRead n v) hup hn (encRead_of_fits (s := s.touch 15) hfit) rfl
  case restart =>
    refine exec_fabric_unit (fun s => s.decRestart tag n v) hup hn ((decRestart_of_stopped hgo hstate).trans ?_) rfl
    unfold State.decRestarted
    rw [dec_writeReg]
  case restartNone => exact ⟨_, exec_fabric_unit (fun s => s.decRestart tag n v) hup hn rfl rfl, decRestart_of_none hnone⟩
  case accessUnit =>
    intro hn hon hserves hopen hwait hout hread hok hmapped eos
    have hguard : (decide (n < 64) && s.dramServes) = true := by rw [decide_eq_true hn, hserves]; rfl
    have hexec : ∀ un rap pic t, s.accessUnit n un rap pic order = t → exec (.accessUnitDecode n un rap pic order) s = .next t :=
      fun un rap pic t ht => exec_fabric (guarded _ fun s => s.accessUnit n un rap pic order) hup
        ((guarded_of_true _ s hguard).trans ht) rfl
    have htaken := fun un rap pic => accessUnit_of_taken hopen hon hwait hout hread hok hmapped un rap pic order
    refine ⟨fun hstopped q => ?skipped, fun hrunning hdata => ?running⟩
    case skipped =>
      obtain ⟨hout', hheld'⟩ := lateNoted_dec u n ⟨u.gts, x.q.head, c, bad2, false, q, order⟩
      obtain ⟨heosOut, heosHeld⟩ := auEos_dec (u.lateNoted n ⟨u.gts, x.q.head, c, bad2, false, q, order⟩) n c
      refine ⟨_, hexec bad2 false q _ ((htaken bad2 false q).trans (auTaken_of_skipped ?_)), ?_, ?_⟩
      · rw [lateNoted_state]
        exact hstopped.imp_right fun h => ⟨h, rfl⟩
      · rw [heosOut, hout', hheld']
      · rw [heosHeld, hheld']
    case running =>
      have hengine : (u.dec n).engine = x.engine := by
        have haccess := (s.setDec n { s.dec n with q := (s.dec n).q.next }).vread_access (Who.codec 7)
          ((s.dec n).descVa (s.dec n).q.head) 32
        rw [hread] at haccess
        rw [dec_of_access haccess, State.dec_setDec_same]
      have htake : ∀ un rap pic, s.accessUnit n un rap pic order = if un || pic.any (fun p => !picSupported p) then
          (w.auEos n c).auDone n x.q.head Au.unsupported else w.auDecode n x.q.head c pic order := fun un rap pic => by
        rw [htaken un rap pic, lateNoted_of_running hrunning]
        exact auTaken_of_running hrunning (by rw [hengine]; exact hdata)
      refine ⟨fun q => hexec true rap q _ (htake true rap q), fun hsize => ?_, fun hsize hgood harmed harmed' => ?_⟩
      · exact hexec false rap (some p) _ ((htake false rap (some p)).trans (if_pos (by simp [hsize])))
      · obtain ⟨hheld, hout'⟩ := decQueued_dec w n c p order
        obtain ⟨heosOut, heosHeld⟩ := auEos_dec (w.decQueued n c p order) n c
        refine ⟨_, w.decoded c p, hexec false rap (some p) _ ((htake false rap (some p)).trans ((if_neg (by simp [hsize])).trans
          (auDecode_of_sound hgood harmed harmed' _ order))), rfl, rfl, rfl, rfl, ?_, ?_⟩
        · rw [heosOut, hout', hheld]
        · rw [heosHeld, hheld]
  case picture =>
    intro hn hon hserves hout st slot
    have hguard : (decide (n < 64) && !s.codecOff && s.dramServes) = true := by rw [decide_eq_true hn, hon, hserves]; rfl
    have hexec : ∀ t, s.pictureOut n = t → exec (.decodedPictureOutput n) s = .next t := fun t ht =>
      exec_fabric (guarded _ (·.pictureOut n)) hup ((guarded_of_true _ s hguard).trans ht) rfl
    refine ⟨fun hstop => hexec _ (pictureOut_of_stop hout hstop), fun hstop hw => hexec _ (pictureOut_of_size hout hstop hw),
      fun hstop hw hh => ⟨fun hfull hlive => ?_, fun hfull hlive => ?_, fun hfree => ?_⟩⟩
    · exact hexec _ ((pictureOut_of_full hout ⟨hstop, hw, hh⟩ hfull).trans (if_neg (by rw [hlive]; decide)))
    · exact hexec _ ((pictureOut_of_full hout ⟨hstop, hw, hh⟩ hfull).trans (if_pos hlive))
    · obtain ⟨hstream, hframe, hslot, hspilled⟩ := d.record_place n st.begun x.ent
      exact ⟨_, _, hexec _ (pictureOut_of_free hout ⟨hstop, hw, hh⟩ hfree), hstream, hframe, hslot, hspilled,
        picStored_stream s n d l, picStored_dec s n d l⟩
  case encode =>
    intro hn hon hserves hopen hwait hdesc hok hread bytes
    have hguard : (decide (n < 32) && s.dramServes) = true := by rw [decide_eq_true hn, hserves]; rfl
    have hexec : ∀ t, s.encode n cp qp = t → exec (.pictureEncode n cp qp) s = .next t := fun t ht =>
      exec_fabric (guarded _ (·.encode n cp qp)) hup ((guarded_of_true _ s hguard).trans ht) rfl
    have hencode := encode_of_read (cp := cp) (qp := qp) hopen hon hwait hdesc hok hread
    refine ⟨fun hplace => hexec _ ?_, fun hplace hmapped => ?_⟩
    · rw [show (s.enc n).place (w.codedBytes (Ses.codec (s.enc n).ses) cp c).length = none from hplace] at hencode
      exact hencode
    · rw [show (s.enc n).place (w.codedBytes (Ses.codec (s.enc n).ses) cp c).length = some (off, adv) from hplace] at hencode
      have hstore := hencode.trans (if_neg (by
        rw [show w.mapped true (Ses.outVa (s.enc n).ses + off) (w.codedBytes (Ses.codec (s.enc n).ses) cp c).length = true
          from hmapped]
        decide))
      have hkept := congrArg (fun t => Table.get ({} : EncS) t n)
        (codecWrite_sessions w z.engine (Ses.outVa z.ses + off) bytes).2
      refine ⟨_, hexec _ hstore, ?_, ?_, rfl⟩
      · rw [State.enc_setEnc_same]
        exact congrArg (fun k : EncS => k.bytes.written + adv) hkept
      · rw [State.enc_setEnc_same]
        rfl

end Sys2Proof.Machine
end

section
/-! SUPPORT. Layers on their engines: dispatch (R204, R401, R405, R411, R439, R441), commit (R35 to R44, R363) and restart (R50 to
R54). -/
namespace Sys2Proof.Machine
open Sys2Proof

/-! What a layer's start changes. -/

/-- A state in which only registers, reports and cores may have changed. -/
def OnlyCores (s t : State) : Prop := ∃ l e i p k, t = { s with live := l, events := e, integ := i, pairs := p, cores := k }

theorem OnlyCores.refl (s : State) : OnlyCores s s := ⟨_, _, _, _, _, rfl⟩

theorem OnlyCores.trans {s t u : State} : OnlyCores s t → OnlyCores t u → OnlyCores s u := by
  rintro ⟨_, _, _, _, _, rfl⟩ ⟨l, e, i, p, k, rfl⟩
  exact ⟨l, e, i, p, k, rfl⟩

theorem OnlyReports.cores {s t : State} : OnlyReports s t → OnlyCores s t := by
  rintro ⟨l, e, i, p, rfl⟩
  exact ⟨l, e, i, p, _, rfl⟩

theorem OnlyCores.ftn {s t : State} (h : OnlyCores s t) (f : Nat) : t.ftn f = s.ftn f := by
  obtain ⟨_, _, _, _, _, rfl⟩ := h
  rfl

theorem OnlyCores.memory {s t : State} (h : OnlyCores s t) : t.dram = s.dram ∧ t.cistern = s.cistern := by
  obtain ⟨_, _, _, _, _, rfl⟩ := h
  exact ⟨rfl, rfl⟩

theorem onCores_only (s : State) (f : Nat) (g : Core → Core) : OnlyCores s (s.onCores f g) := by
  obtain ⟨k, hk⟩ := onCores_cores s f g
  rw [hk]
  exact ⟨_, _, _, _, k, rfl⟩

theorem setPw_reports (s : State) (f pw : Nat) : OnlyReports s (s.setPw f pw) :=
  OnlyReports.foldl _ (fun s _ => (OnlyRegs.wn s _ _).reports) _ s

theorem layerBudget_reports (s : State) (f bound : Nat) : OnlyReports s (s.layerBudget f bound).2 := by
  have h := s.inject_reports 0x17 0 8 f
  unfold State.layerBudget
  cases hin : s.inject 0x17 0 8 f with
  | mk r t =>
    rw [hin] at h
    cases r <;> exact h

theorem layerBudget_of_not_armed {s : State} {f : Nat} (h : s.injArmed 0x17 0 8 f = false) (bound : Nat) :
    s.layerBudget f bound = (bound - 96, s) := by
  simp only [State.layerBudget, State.inject_of_not_armed h]

/-- A Fountain at the start of a layer (R204). -/
def Fountain.begun (x : Fountain) (rills drains : List Byte) (segs : Nat) (v : Table Nat) : Fountain :=
  { x.clear with rillSet := rills, drainSet := drains, segCount := segs, view := v, carryOf := none }

/-- A Fountain, its cores and their memories are written anew for a layer: `State.layerStart` but for its counters. -/
def State.layerCleared (s : State) (f : Nat) (j : Job) (layer : Nat) : State :=
  let sets := (s.progLayer j layer).getD (0, 0, 0, 0)
  let s := s.setFtn f ((s.ftn f).begun (s.progSet j false sets.2.2.1) (s.progSet j true sets.2.2.2) sets.2.1 (s.viewMap j layer))
  let s := ((s.onCores f Core.clear).setPw f j.cert.pw).rewriteRegs f
  (s.ftnCores f).foldl (fun s c => (s.writeEcc Mc.acc c 0 32768).writeEcc Mc.vreg c 0 8192) s

section
variable (s : State) (f : Nat) (j : Job) (layer : Nat) (e : CertLayer)

theorem layerStart_eq : s.layerStart f j layer e =
    ((((s.layerBudget f e.bound).2.layerCleared f j layer).wn (Reg.ftnBudget f) (s.layerBudget f e.bound).1).wn
      (Reg.ftnCycles f) 0).wn (Reg.ftnWait f) 0 := rfl

theorem layerCleared_frame : ∃ rills drains segs v,
    OnlyCores (s.setFtn f ((s.ftn f).begun rills drains segs v)) (s.layerCleared f j layer) := by
  refine ⟨_, _, _, _, ((onCores_only _ f Core.clear).trans (setPw_reports _ f j.cert.pw).cores).trans
    (((OnlyReports.integ _ _).trans (OnlyReports.foldl _ (fun s c => ?_) _ _)).cores)⟩
  exact (State.writeEcc_reports s ..).trans (State.writeEcc_reports _ ..)

theorem layerStart_frame : ∃ rills drains segs v,
    OnlyCores (s.setFtn f ((s.ftn f).begun rills drains segs v)) (s.layerStart f j layer e) := by
  obtain ⟨l, ev, i, p, hbudget⟩ := layerBudget_reports s f e.bound
  obtain ⟨rills, drains, segs, v, hclear⟩ := layerCleared_frame (s.layerBudget f e.bound).2 f j layer
  have hftn : OnlyCores (s.setFtn f ((s.ftn f).begun rills drains segs v))
      ((s.layerBudget f e.bound).2.setFtn f (((s.layerBudget f e.bound).2.ftn f).begun rills drains segs v)) := by
    rw [hbudget]
    exact ⟨l, ev, i, p, _, rfl⟩
  rw [layerStart_eq]
  exact ⟨rills, drains, segs, v, (hftn.trans hclear).trans
    (((OnlyRegs.wn _ _ _).trans (OnlyRegs.wn _ _ _)).trans (OnlyRegs.wn _ _ _)).reports.cores⟩

theorem layerStart_ftn : ∃ rills drains segs v, (s.layerStart f j layer e).ftn f = (s.ftn f).begun rills drains segs v := by
  obtain ⟨rills, drains, segs, v, h⟩ := layerStart_frame s f j layer e
  exact ⟨rills, drains, segs, v, (h.ftn f).trans (State.ftn_setFtn_same s f _)⟩

theorem layerStart_memory : (s.layerStart f j layer e).dram = s.dram ∧ (s.layerStart f j layer e).cistern = s.cistern := by
  obtain ⟨_, _, _, _, h⟩ := layerStart_frame s f j layer e
  exact h.memory

theorem layerStart_wait : (s.layerStart f j layer e).rn (Reg.ftnWait f) = 0 := by
  rw [layerStart_eq, State.rn_wn_same]
  rfl

theorem layerStart_cycles : (s.layerStart f j layer e).rn (Reg.ftnCycles f) = 0 := by
  rw [layerStart_eq, State.rn_wn_ne _ _ (by unfold Reg.ftnCycles Reg.ftnWait; omega), State.rn_wn_same]
  rfl

theorem layerStart_budget : (s.layerStart f j layer e).rn (Reg.ftnBudget f) = (s.layerBudget f e.bound).1 % 2 ^ 32 := by
  rw [layerStart_eq, State.rn_wn_ne _ _ (by unfold Reg.ftnBudget Reg.ftnWait; omega),
    State.rn_wn_ne _ _ (by unfold Reg.ftnBudget Reg.ftnCycles; omega), State.rn_wn_same]

end

/-! A layer's dispatch to its Fountain. -/

theorem tookQueue_weir (s : State) (e : Nat) (j : Job) : ∃ w, s.tookQueue e j = { s with weir := w } := by
  unfold State.tookQueue
  split
  · exact ⟨_, rfl⟩
  · exact ⟨_, rfl⟩

/-- The layer of a job that is next, as it runs from a cycle on. -/
def Job.nextRun (j : Job) (e : CertLayer) (gts : Nat) : LayerRun :=
  { job := j.id, layer := j.nextLayer, ent := e, dispatchGts := gts }

section
variable (s : State) (f : Nat) (j : Job) (e : CertLayer)

/-- The state in which a job's next layer is on its Fountain, before its start. -/
def State.swappedIn : State := s.setFtn f { (s.ftn f).swap with run := some (j.nextRun e s.gts) }

theorem dispatchFtn_weir : ∃ w, s.dispatchFtn f j e = { (s.swappedIn f j e).layerStart f j j.nextLayer e with weir := w } := by
  obtain ⟨w, hw⟩ := tookQueue_weir (((s.swappedIn f j e).layerStart f j j.nextLayer e).modJob j.id fun j => { j with started := true })
    f j
  exact ⟨w, hw⟩

theorem dispatchFtn_ftn : ∃ rills drains segs v, (s.dispatchFtn f j e).ftn f =
    ({ (s.ftn f).swap with run := some (j.nextRun e s.gts) } : Fountain).begun rills drains segs v := by
  obtain ⟨w, hw⟩ := dispatchFtn_weir s f j e
  obtain ⟨rills, drains, segs, v, h⟩ := layerStart_ftn (s.swappedIn f j e) f j j.nextLayer e
  rw [State.swappedIn, State.ftn_setFtn_same] at h
  rw [hw]
  exact ⟨rills, drains, segs, v, h⟩

theorem dispatchFtn_rn (off : Nat) :
    (s.dispatchFtn f j e).rn off = ((s.swappedIn f j e).layerStart f j j.nextLayer e).rn off := by
  obtain ⟨w, hw⟩ := dispatchFtn_weir s f j e
  rw [hw]
  rfl

theorem dispatchFtn_memory : (s.dispatchFtn f j e).dram = s.dram ∧ (s.dispatchFtn f j e).cistern = s.cistern := by
  obtain ⟨w, hw⟩ := dispatchFtn_weir s f j e
  rw [hw]
  exact layerStart_memory (s.swappedIn f j e) f j j.nextLayer e

theorem dispatchFtn_budget (harmed : s.injArmed 0x17 0 8 f = false) :
    (s.dispatchFtn f j e).rn (Reg.ftnBudget f) = (e.bound - 96) % 2 ^ 32 := by
  rw [dispatchFtn_rn, layerStart_budget, layerBudget_of_not_armed (s := s.swappedIn f j e) harmed]

end

/-- What a dispatch leaves on its Fountain. -/
theorem dispatchFtn_starts (s : State) (f : Nat) (j : Job) (e : CertLayer) :
    let y := (s.dispatchFtn f j e).ftn f
    y.run = some (j.nextRun e s.gts) ∧ y.pc = 0 ∧ y.lc = [] ∧ y.started = false ∧ y.ovl = (s.ftn f).ovl ∧
      (s.dispatchFtn f j e).rn (Reg.ftnCycles f) = 0 ∧ (s.dispatchFtn f j e).rn (Reg.ftnWait f) = 0 := by
  obtain ⟨rills, drains, segs, v, hftn⟩ := dispatchFtn_ftn s f j e
  dsimp only
  rw [hftn, dispatchFtn_rn, dispatchFtn_rn]
  exact ⟨rfl, rfl, rfl, rfl, rfl, layerStart_cycles .., layerStart_wait ..⟩

/-! Which layer is dispatched. -/

theorem ftnFree_idle {s : State} {f : Nat} (h : s.ftnFree f = true) : (s.ftn f).run = none ∧ (s.ftn f).ovl = none := by
  simp only [State.ftnFree, Bool.and_eq_true, Option.isNone_iff_eq_none] at h
  exact ⟨h.1.1.2, h.1.2⟩

theorem ftnOverlaps_of_free {s : State} {f : Nat} (h : s.ftnFree f = true) : s.ftnOverlaps f = none := by
  obtain ⟨hrun, hovl⟩ := ftnFree_idle h
  have hcommitter : (s.ftn f).committer = none := by simp only [Fountain.committer, hovl, hrun]
  simp only [State.ftnOverlaps, hcommitter, Option.map_none, ite_self]

theorem layerDispatch_of_busy {s : State} {f : Nat} (hfree : s.ftnFree f = false) (hovl : s.ftnOverlaps f = none) :
    s.layerDispatch f = s := by
  simp only [State.layerDispatch, hovl, hfree, Bool.not_false, if_true]

/-- A free Fountain takes the layer that the Weir chooses for it. -/
theorem layerDispatch_of_free {s v : State} {f : Nat} (hfree : s.ftnFree f = true) (hv : s.checkEntries.grantAll.noteReady = v)
    (hcarry : (v.ftn f).carryOf = none) : s.layerDispatch f = (v.chooseLayer f).elim v (v.dispatchLayer f) := by
  simp only [State.layerDispatch, ftnOverlaps_of_free hfree, hfree, Bool.not_true, Bool.false_eq_true, if_false]
  rw [hv, hcarry]
  dsimp only
  cases v.chooseLayer f <;> rfl

theorem bindScale_of_bound {s : State} {j : Job} (h : j.started = true ∨ j.cert.scaleVa = 0) : s.bindScale j = (none, s) :=
  if_pos (by simpa using h)

section
variable {v : State} {f : Nat} {j : Job} {e : CertLayer} (hsound : v.listsPoison j j.nextLayer = false)
  (hent : v.layerEnt j j.nextLayer = some e)
include hsound hent

theorem dispatchLayer_of_bad (hok : j.layerOk j.nextLayer e = false) : v.dispatchLayer f j = v.endWith j.id St.certOverrun := by
  simp only [State.dispatchLayer, hsound, Bool.false_eq_true, if_false, hent, hok, Bool.not_false, if_true]

theorem dispatchLayer_of_ok (hok : j.layerOk j.nextLayer e = true) (hprog : (v.progLayer j j.nextLayer).isSome = true)
    (hbound : j.started = true ∨ j.cert.scaleVa = 0) (hjob : v.pending? j.id = some j) :
    v.dispatchLayer f j = v.dispatchFtn f j e := by
  have hprog' : (v.progLayer j j.nextLayer).isNone = false := by simp [Option.isNone_eq_false_iff, hprog]
  simp only [State.dispatchLayer, hsound, Bool.false_eq_true, if_false, hent, hok, Bool.not_true, hprog', bindScale_of_bound hbound,
    hjob]

end

section
variable {s : State} {f : Nat} {o : Over}

theorem layerDispatch_of_overlap (hovl : s.ftnOverlaps f = some o) :
    s.layerDispatch f = s.checkEntries.grantAll.noteReady.dispatchOver f o := by
  simp only [State.layerDispatch, hovl]

variable {v : State} {j : Job} {e : CertLayer}

theorem dispatchOver_of_none (h : (v.asCommitted f o).chooseLayer f = none) : v.dispatchOver f o = v := by
  simp only [State.dispatchOver, h]

variable (h : (v.asCommitted f o).chooseLayer f = some j)
include h

theorem dispatchOver_of_unsure (hsure : (v.asCommitted f o).dispatchSure j = false) : v.dispatchOver f o = v := by
  simp only [State.dispatchOver, h, hsure]

theorem dispatchOver_of_sure (hsure : (v.asCommitted f o).dispatchSure j = true)
    (hent : (v.asCommitted f o).layerEnt j j.nextLayer = some e) :
    v.dispatchOver f o = (v.setFtn f { v.ftn f with ovl := some o }).dispatchFtn f j e := by
  simp only [State.dispatchOver, h, hsure, hent]

end

/-! What a commit leaves of its job. -/

theorem pending?_id {s : State} {id : Nat} {j : Job} (h : s.pending? id = some j) : j.id = id := by
  simpa using List.find?_some h

/-- A change of a job that keeps its number and its end is found under its number. -/
theorem pending?_modJob {s : State} {id : Nat} {j : Job} (h : s.pending? id = some j) {g : Job → Job} (hid : ∀ k, (g k).id = k.id)
    (hend : ∀ k, (g k).ended = k.ended) : (s.modJob j.id g).pending? id = some (g j) := by
  have hj := pending?_id h
  have hkeep : ∀ k : Job, (if k.id = j.id then g k else k).id = k.id ∧ (if k.id = j.id then g k else k).ended = k.ended := by
    intro k
    split
    · exact ⟨hid k, hend k⟩
    · exact ⟨rfl, rfl⟩
  have hpend : (s.modJob j.id g).pendingJobs = s.pendingJobs.map fun k => if k.id = j.id then g k else k := by
    unfold State.pendingJobs State.modJob
    rw [List.filter_map]
    congr 1
    exact List.filter_congr fun k _ => by rw [Function.comp_apply, (hkeep k).2]
  have hfind : (fun k : Job => k.id == id) ∘ (fun k => if k.id = j.id then g k else k) = fun k => k.id == id := by
    funext k
    rw [Function.comp_apply, (hkeep k).1]
  unfold State.pending? at h ⊢
  rw [hpend, List.find?_map, hfind, h, Option.map_some, if_pos rfl]

theorem OnlyEngines.frame {s t : State} (h : OnlyEngines s t) (id : Nat) :
    t.dram = s.dram ∧ t.cistern = s.cistern ∧ t.pending? id = s.pending? id := by
  obtain ⟨_, _, _, _, rfl⟩ := h
  exact ⟨rfl, rfl, rfl⟩

theorem OnlyPages.stand {s t : State} (h : OnlyPages s t) :
    t.dram = s.dram ∧ t.cistern = s.cistern ∧ (∀ f, t.ftn f = s.ftn f) ∧ t.skim = s.skim := by
  obtain ⟨_, _, rfl⟩ := h
  exact ⟨rfl, rfl, fun _ => rfl, rfl⟩

/-- A job that has layers left goes on after a commit. -/
theorem afterCommit_of_more {s : State} {id : Nat} {k : Job} (h : s.pending? id = some k) (hmore : k.nextLayer < k.cert.layerCount) :
    s.afterCommit id = s := by
  simp only [State.afterCommit, h, if_pos hmore]

/-- The pages that a commit releases leave the rest as it was, while the job has layers left. -/
theorem releaseAfter {s : State} {id : Nat} {k : Job} (h : s.pending? id = some k) (hmore : k.nextLayer < k.cert.layerCount) :
    ∃ t, s.releasePages.afterCommit id = t ∧ t.dram = s.dram ∧ t.cistern = s.cistern ∧ (∀ f, t.ftn f = s.ftn f) ∧
      t.skim = s.skim ∧ t.pending? id = some k := by
  have hpages := releasePages_pages s
  have hkept : s.releasePages.pending? id = some k := (hpages.pending? id).trans h
  obtain ⟨hdram, hcistern, hftns, hskim⟩ := hpages.stand
  exact ⟨_, afterCommit_of_more hkept hmore, hdram, hcistern, hftns, hskim, hkept⟩

/-! Commits of a Fountain. -/

/-- A Fountain's layer has left it by its commit. -/
def State.leaves (s : State) (f : Nat) (next : Option Nat) : State :=
  (s.setFtn f { (s.ftn f).halt with run := none, stopped := false, carryOf := next }).onCores f Core.halt

theorem leaves_engines (s : State) (f : Nat) (next : Option Nat) : OnlyEngines s (s.leaves f next) := by
  obtain ⟨k, hk⟩ := onCores_cores (s.setFtn f { (s.ftn f).halt with run := none, stopped := false, carryOf := next }) f Core.halt
  unfold State.leaves
  rw [hk]
  exact ⟨_, _, _, _, rfl⟩

theorem leaves_run (s : State) (f : Nat) (next : Option Nat) : ((s.leaves f next).ftn f).run = none := by
  refine (congrArg Fountain.run ((onCores_only _ f Core.halt).ftn f)).trans ?_
  rw [State.ftn_setFtn_same]

section
variable {s : State} {f : Nat} {j : Job} {o : Over}

/-- A commit without tiles and held effects. -/
def State.commits (s : State) (f : Nat) (j : Job) (o : Over) : State :=
  (s.modJob j.id fun k => (k.addStats o.drainSet o.run.layer o.stats).committed o.run.layer o.run.ent).chargeVt f o.run

theorem commitEffects_of_plain (hstream : o.run.ent.streaming = false) (hheld : o.held = []) :
    s.commitEffects f j o = s.commits f j o := by
  unfold State.commitEffects
  dsimp only
  rw [hstream, hheld]
  rfl

theorem commits_ftn (s : State) (f : Nat) (j : Job) (o : Over) (n : Nat) : (s.commits f j o).ftn n = s.ftn n := chargeVt_ftn _ f _ n

theorem commits_frame (hjob : s.pending? o.run.job = some j) :
    (s.commits f j o).dram = s.dram ∧ (s.commits f j o).cistern = s.cistern ∧
      (s.commits f j o).pending? o.run.job = some ((j.addStats o.drainSet o.run.layer o.stats).committed o.run.layer o.run.ent) := by
  obtain ⟨hdram, hcistern, hpending⟩ := (chargeVt_engines (s.modJob j.id fun k =>
    (k.addStats o.drainSet o.run.layer o.stats).committed o.run.layer o.run.ent) f o.run).frame o.run.job
  exact ⟨hdram, hcistern, hpending.trans (pending?_modJob hjob (fun _ => rfl) fun _ => rfl)⟩

theorem layerCommit_of_none (h : (s.ftn f).committer = none) : s.layerCommit f = s := by
  simp only [State.layerCommit, h]

section
variable (hcommitter : (s.ftn f).committer = some o) (hjob : s.pending? o.run.job = some j)
include hcommitter hjob

theorem layerCommit_of_storing (hovl : (s.ftn f).ovl = none) (hquiet : s.storesQuiet f = false) : s.layerCommit f = s := by
  simp only [State.layerCommit, hcommitter, hjob, hovl, hquiet, Option.isNone_none, Bool.not_false, Bool.and_self, if_true]

variable (hready : (s.ftn f).ovl = none → s.storesQuiet f = true)
include hready

omit hcommitter hjob in
theorem commitGuard : ((s.ftn f).ovl.isNone && !s.storesQuiet f) = false := by
  cases hovl : (s.ftn f).ovl with
  | none => rw [hready hovl]; rfl
  | some q => rfl

theorem layerCommit_of_overdue (hlate : s.overdue j = true) : s.layerCommit f = s.breach j.id Br.unexplained := by
  have hguard := commitGuard hready
  simp only [State.layerCommit, hcommitter, hjob, hguard, hlate, Bool.false_eq_true, if_false, if_true]

theorem layerCommit_of_due (hdue : s.overdue j = false) (hstream : o.run.ent.streaming = false) (hheld : o.held = []) :
    s.layerCommit f =
      (if (s.ftn f).ovl.isSome then (s.commits f j o).setFtn f { (s.commits f j o).ftn f with ovl := none }
        else (s.commits f j o).leaves f ((s.commits f j o).carryNext j.id)).releasePages.afterCommit j.id := by
  have hguard := commitGuard hready
  simp only [State.layerCommit, hcommitter, hjob, hguard, hdue, Bool.false_eq_true, if_false, commitEffects_of_plain hstream hheld]
  rfl

end

end

theorem committer_of_ovl {x : Fountain} {o : Over} (h : x.ovl = some o) : x.committer = some o := by
  simp only [Fountain.committer, h]

/-- The layer on a Fountain as it commits. -/
def Fountain.commitOf (x : Fountain) (r : LayerRun) : Over :=
  { run := r, held := x.held, tileNow := x.tileNow, stats := x.stats, drainSet := x.drainSet }

theorem committer_of_run {x : Fountain} {r : LayerRun} (hovl : x.ovl = none) (hrun : x.run = some r) (hgo : r.stoppedAt = none)
    (hcommit : x.committing = true) : x.committer = some (x.commitOf r) := by
  simp only [Fountain.committer, hovl, hrun, hgo, hcommit, Option.isNone_none, Bool.and_self, if_true]
  rfl

section
variable {s : State} {f : Nat} {r : LayerRun} {j : Job}

/-- A commit of a job with layers left empties its Fountain and moves the job on (R35, R36). -/
theorem layerCommit_run {o : Over} (hovl : (s.ftn f).ovl = none) (hcommitter : (s.ftn f).committer = some o)
    (hjob : s.pending? o.run.job = some j) (hquiet : s.storesQuiet f = true) (hdue : s.overdue j = false)
    (hstream : o.run.ent.streaming = false) (hheld : o.held = []) (hmore : o.run.layer + 1 < j.cert.layerCount) :
    ((s.layerCommit f).ftn f).run = none ∧ (s.layerCommit f).dram = s.dram ∧ (s.layerCommit f).cistern = s.cistern ∧
      (s.layerCommit f).pending? o.run.job =
        some ((j.addStats o.drainSet o.run.layer o.stats).committed o.run.layer o.run.ent) := by
  rw [layerCommit_of_due hcommitter hjob (fun _ => hquiet) hdue hstream hheld, hovl, Option.isSome_none, if_neg Bool.false_ne_true,
    pending?_id hjob]
  generalize (s.commits f j o).carryNext o.run.job = next
  obtain ⟨hdram, hcistern, hpending⟩ := commits_frame hjob
  obtain ⟨hdram', hcistern', hpending'⟩ := (leaves_engines (s.commits f j o) f next).frame o.run.job
  obtain ⟨t, ht, htdram, htcistern, htftns, -, htpending⟩ := releaseAfter (hpending'.trans hpending) hmore
  have hrun : (t.ftn f).run = none := by
    rw [htftns, leaves_run]
  rw [ht]
  exact ⟨hrun, htdram.trans (hdram'.trans hdram), htcistern.trans (hcistern'.trans hcistern), htpending⟩

/-- The commit that a dispatch has overlapped moves its job on and leaves the layer on the Fountain (R411). -/
theorem layerCommit_overlapped {o : Over} (hovl : (s.ftn f).ovl = some o) (hjob : s.pending? o.run.job = some j)
    (hdue : s.overdue j = false) (hstream : o.run.ent.streaming = false) (hheld : o.held = [])
    (hmore : o.run.layer + 1 < j.cert.layerCount) :
    ((s.layerCommit f).ftn f).run = (s.ftn f).run ∧ ((s.layerCommit f).ftn f).ovl = none ∧
      (s.layerCommit f).pending? o.run.job =
        some ((j.addStats o.drainSet o.run.layer o.stats).committed o.run.layer o.run.ent) := by
  rw [layerCommit_of_due (committer_of_ovl hovl) hjob (fun h => absurd (hovl.symm.trans h) (by simp)) hdue hstream hheld, hovl,
    Option.isSome_some, if_pos rfl, pending?_id hjob]
  obtain ⟨-, -, hpending⟩ := commits_frame hjob
  have hftn := commits_ftn s f j o f
  obtain ⟨t, ht, -, -, htftns, -, htpending⟩ := releaseAfter
    (s := (s.commits f j o).setFtn f { (s.commits f j o).ftn f with ovl := none }) hpending hmore
  have hx : t.ftn f = { s.ftn f with ovl := none } := by
    rw [htftns, State.ftn_setFtn_same, hftn]
  rw [ht, hx]
  exact ⟨rfl, rfl, htpending⟩

/-! Commits of tiles. -/

section
variable (hrun : (s.ftn f).run = some r) (hjob : s.pending? r.job = some j)
include hrun hjob

theorem tileCommit_of_wait (h : (s.ftn f).tileReqs = 0 ∨ s.storesQuiet f = false) : s.tileCommit f = s := by
  have hguard : (r.stoppedAt.isSome || decide ((s.ftn f).tileReqs = 0) || !s.storesQuiet f) = true := by
    rcases h with h | h <;> simp [h]
  simp only [State.tileCommit, hrun, hjob, hguard, if_true]

variable (hgo : r.stoppedAt = none) (hreq : (s.ftn f).tileReqs ≠ 0) (hquiet : s.storesQuiet f = true)
include hgo hreq hquiet

theorem tileCommit_of_overdue (hlate : s.overdue j = true) : s.tileCommit f = s.breach j.id Br.unexplained := by
  simp only [State.tileCommit, hrun, hjob, hgo, hreq, hquiet, hlate, Option.isSome_none, decide_false, Bool.not_true, Bool.or_self,
    Bool.false_eq_true, if_false, if_true]

/-- A Fountain's oldest requested tile is no longer requested. -/
def Fountain.tileTaken (x : Fountain) (l : List Held) : Fountain :=
  { x with held := l, tileNow := x.tileNow + 1, tileReqs := x.tileReqs - 1 }

variable {l : List Held} (hdue : s.overdue j = false) (hheld : (s.ftn f).held = .tile :: l)
include hdue hheld

theorem tileCommit_of_due : s.tileCommit f =
    if r.ent.firstTile + (s.ftn f).tileNow < j.tileDone then s.setFtn f ((s.ftn f).tileTaken l) else
      ((s.setFtn f ((s.ftn f).tileTaken l)).setProgress j (r.ent.firstTile + (s.ftn f).tileNow)).modJob j.id
        fun k => { k with tileDone := r.ent.firstTile + (s.ftn f).tileNow + 1 } := by
  simp only [State.tileCommit, hrun, hjob, hgo, hreq, hquiet, hdue, hheld, Option.isSome_none, decide_false, Bool.not_true,
    Bool.or_self, Bool.false_eq_true, if_false, Fountain.tileTaken]
  rfl

end

theorem setProgress_of_none (hnone : j.progressVa = 0) (n : Nat) : s.setProgress j n = s := if_pos hnone

/-! The Skimmer. -/

theorem skimDispatch_of_busy (h : s.skim.run.isSome = true) : s.skimDispatch = s := if_pos h

/-- The Skimmer has taken a layer and its command. -/
def State.skimTaken (s : State) (j : Job) (e : CertLayer) (b : List Byte) : State :=
  { s with skim := { run := some (j.nextRun e s.gts), cmd := b, view := s.viewMap j j.nextLayer, stopped := false },
           weir := { s.weir with skimTurn := (j.fountain + 1) % 4 } }

/-- A Skimmer's layer has begun, its command good. -/
def State.skimBegun (s : State) (j : Job) (e : CertLayer) (b : List Byte) : State :=
  (((s.skimTaken j e b).wn Reg.skimCycles 0).modJob j.id fun j => { j with started := true }).tookQueue Eng.skim j

theorem skimBegun_sets (s : State) (j : Job) (e : CertLayer) (b : List Byte) :
    (s.skimBegun j e b).skim.cmd = b ∧ (s.skimBegun j e b).rn Reg.skimCycles = 0 ∧
      (s.skimBegun j e b).skim.run = some (j.nextRun e s.gts) := by
  have hcycles : ((s.skimTaken j e b).wn Reg.skimCycles 0).rn Reg.skimCycles = 0 := State.rn_wn_same _ _ _
  obtain ⟨w, hw⟩ := tookQueue_weir (((s.skimTaken j e b).wn Reg.skimCycles 0).modJob j.id fun j => { j with started := true })
    Eng.skim j
  rw [State.skimBegun, hw]
  exact ⟨rfl, hcycles, rfl⟩

theorem startSkim_of_good {w : State} {e : CertLayer} {b : List Byte} (hbytes : s.skimBytes j j.nextLayer = (some b, w))
    (hok : (SkimCmd.parse b).ok = true) (hlen : b.length = 64) : s.startSkim j e = w.skimBegun j e b := by
  have hgood : ((SkimCmd.parse b).ok && b.length == 64) = true := by simp [hok, hlen]
  unfold State.startSkim
  rw [hbytes]
  dsimp only
  exact if_pos hgood

section
variable {v : State} {e : CertLayer} (hidle : s.skim.run = none) (hv : s.checkEntries.grantAll.noteReady = v)
  (hchoose : v.chooseSkim = some j) (hsound : v.listsPoison j j.nextLayer = false) (hent : v.layerEnt j j.nextLayer = some e)
include hidle hv hchoose hsound hent

theorem skimDispatch_of_bad (hok : j.layerOk j.nextLayer e = false) :
    s.skimDispatch = v.endWith j.id St.certOverrun := by
  simp only [State.skimDispatch, hidle, hv, Option.isSome_none, hchoose, hsound, hent, hok, Bool.not_false, Bool.false_eq_true, if_false,
    if_true]

theorem skimDispatch_of_ok (hok : j.layerOk j.nextLayer e = true) (hbound : j.started = true ∨ j.cert.scaleVa = 0)
    (hjob : v.pending? j.id = some j) : s.skimDispatch = v.startSkim j e := by
  simp only [State.skimDispatch, hidle, hv, Option.isSome_none, hchoose, hsound, hent, hok, Bool.not_true, Bool.false_eq_true, if_false,
    bindScale_of_bound hbound, hjob]

end

section
variable (hrun : s.skim.run = some r) (hjob : s.pending? r.job = some j) (hgo : r.stoppedAt = none)
include hrun hjob hgo

theorem skimCommit_of_overdue (hlate : s.overdue j = true) : s.skimCommit = s.breach j.id Br.unexplained := by
  simp only [State.skimCommit, hrun, hjob, hgo, Option.isSome_none, hlate, Bool.false_eq_true, if_false, if_true]

variable {u w : State} (hdue : s.overdue j = false) (hstore : s.skimStore (SkimCmd.parse s.skim.cmd) = (false, u))
include hdue hstore

theorem skimCommit_of_range (hcmd : u.skimRun (SkimCmd.parse s.skim.cmd) = (.error .range, w)) : s.skimCommit = w.skimFault 2 := by
  simp only [State.skimCommit, hrun, hjob, hgo, Option.isSome_none, hdue, hstore, hcmd, Bool.false_eq_true, if_false]

/-- The Skimmer's layer has committed and has left it. -/
def State.skimCommitted (s : State) (id : Nat) (r : LayerRun) : State :=
  let s := (s.modJob id fun k => k.committed r.layer r.ent).chargeVt Eng.skim r
  { s with skim := { s.skim with run := none, stopped := false } }

theorem skimCommit_of_ok (hcmd : u.skimRun (SkimCmd.parse s.skim.cmd) = (.ok (), w)) :
    s.skimCommit = (w.skimCommitted j.id r).releasePages.afterCommit j.id := by
  simp only [State.skimCommit, hrun, hjob, hgo, Option.isSome_none, hdue, hstore, hcmd, Bool.false_eq_true, if_false]
  rfl

end

theorem skimCommitted_frame (hjob : s.pending? r.job = some j) :
    (s.skimCommitted j.id r).dram = s.dram ∧ (s.skimCommitted j.id r).cistern = s.cistern ∧ (s.skimCommitted j.id r).skim.run = none ∧
      (s.skimCommitted j.id r).pending? r.job = some (j.committed r.layer r.ent) := by
  obtain ⟨hdram, hcistern, hpending⟩ :=
    (chargeVt_engines (s.modJob j.id fun k => k.committed r.layer r.ent) Eng.skim r).frame r.job
  exact ⟨hdram, hcistern, rfl, hpending.trans (pending?_modJob hjob (fun _ => rfl) fun _ => rfl)⟩

/-! Restarts. -/

section
variable {e t0 : Nat} {u w : State} (hrun : s.runOf e = some r) (hjob : s.pending? r.job = some j) (hstop : r.stoppedAt = some t0)
include hrun hjob

theorem replayRestart_of_going (hgo : r.stoppedAt = none) : s.replayRestart e = s := by
  simp only [State.replayRestart, hrun, hjob, hgo, Option.isNone_none, if_true]

include hstop

theorem replayRestart_of_bad (hfill : s.refillAll j r.layer = (.bad, u)) : s.replayRestart e = u.failJob j Br.inputLost 2 := by
  simp only [State.replayRestart, hrun, hjob, hstop, Option.isNone_some, Bool.false_eq_true, if_false, hfill]

theorem replayRestart_of_unmapped (hfill : s.refillAll j r.layer = (.unmapped, u)) :
    s.replayRestart e = u.dispatchFault j Pf.xlate := by
  simp only [State.replayRestart, hrun, hjob, hstop, Option.isNone_some, Bool.false_eq_true, if_false, hfill]

/-- A layer at its next attempt. -/
def LayerRun.again (r : LayerRun) (gts : Nat) : LayerRun :=
  { r with stoppedAt := none, attempt := r.attempt + 1, dispatchGts := gts }

variable (hfill : s.refillAll j r.layer = (.good, u))
include hfill

theorem replayRestart_of_lost (he : e ≠ Eng.skim) (hseg : u.reloadSeg e j r.layer = (false, w)) :
    s.replayRestart e = w.dispatchFault j Pf.xlate := by
  simp only [State.replayRestart, hrun, hjob, hstop, Option.isNone_some, Bool.false_eq_true, if_false, hfill, if_neg he, hseg]

theorem replayRestart_of_loaded (he : e ≠ Eng.skim) (hseg : u.reloadSeg e j r.layer = (true, w)) :
    s.replayRestart e = (w.setRun e (some (r.again u.gts))).layerStart e j r.layer r.ent := by
  simp only [State.replayRestart, hrun, hjob, hstop, Option.isNone_some, Bool.false_eq_true, if_false, hfill, if_neg he, hseg]
  rfl

/-- The Skimmer at a restart of its layer. -/
def State.skimAgain (s : State) (j : Job) (r : LayerRun) : State :=
  let s := { s with skim := { s.skim with stopped := false, view := s.viewMap j r.layer } }
  (s.setRun Eng.skim (some r)).wn Reg.skimCycles 0

theorem replayRestart_of_skim (he : e = Eng.skim) : s.replayRestart e = u.skimAgain j (r.again u.gts) := by
  simp only [State.replayRestart, hrun, hjob, hstop, Option.isNone_some, Bool.false_eq_true, if_false, hfill, if_pos he]
  rw [he]
  rfl

end

theorem restarted_sets {w : State} {e gts layer : Nat} {ent : CertLayer} (he : e ≠ Eng.skim) :
    let t := (w.setRun e (some (r.again gts))).layerStart e j layer ent
    (t.ftn e).run = some (r.again gts) ∧ t.rn (Reg.ftnCycles e) = 0 ∧ t.rn (Reg.ftnWait e) = 0 ∧ (t.ftn e).pc = 0 := by
  obtain ⟨rills, drains, segs, v, h⟩ := layerStart_ftn (w.setRun e (some (r.again gts))) e j layer ent
  refine ⟨?_, layerStart_cycles .., layerStart_wait .., ?_⟩
  · rw [h, State.setRun, if_neg he, State.ftn_setFtn_same]
    rfl
  · rw [h]
    rfl

end

/-! The obligation. -/

theorem guarded_of_false {c : Bool} (f : State → State) (s : State) (h : c = false) : guarded c f s = s := by
  rw [h]
  exact if_neg Bool.false_ne_true

theorem exec_layerDispatch {s t : State} {f : Nat} (hup : s.up = true) (hprot : s.integ.protective = false) (hf : f < 4)
    (ht : s.layerDispatch f = t) : exec (.layerDispatch f) s = .next t :=
  exec_fabric (guarded _ fun s => s.layerDispatch f) hup ((guarded_of_true _ s (by simp [hprot, hf])).trans ht) rfl

theorem exec_replayRestart {s t : State} {e : Nat} (hup : s.up = true) (hprot : s.integ.protective = false) (he : e < 5)
    (ht : s.replayRestart e = t) : exec (.replayRestart e) s = .next t :=
  exec_fabric (guarded _ fun s => s.replayRestart e) hup ((guarded_of_true _ s (by simp [hprot, he])).trans ht) rfl

theorem exec_skimmerDispatch {s t : State} (hup : s.up = true) (hprot : s.integ.protective = false) (hserves : s.dramServes = true)
    (ht : s.skimDispatch = t) : exec .skimmerDispatch s = .next t.settle :=
  exec_fabric (guarded _ fun s => s.skimDispatch.settle) hup
    ((guarded_of_true _ s (by simp [hprot, hserves])).trans (congrArg State.settle ht)) rfl

section
variable {s v : State} {f : Nat} {j : Job} {e : CertLayer} (hup : s.up = true) (hprot : s.integ.protective = false) (hf : f < 4)
  (hv : s.checkEntries.grantAll.noteReady = v)
include hup hprot hf hv

theorem exec_layerDispatch_free (hfree : s.ftnFree f = true) (hcarry : (v.ftn f).carryOf = none) :
    (v.chooseLayer f = none → exec (.layerDispatch f) s = .next v) ∧
      (v.chooseLayer f = some j → exec (.layerDispatch f) s = .next (v.dispatchLayer f j)) := by
  refine ⟨fun hnone => ?_, fun hsome => ?_⟩
  · exact exec_layerDispatch hup hprot hf ((layerDispatch_of_free hfree hv hcarry).trans (by rw [hnone]; rfl))
  · exact exec_layerDispatch hup hprot hf ((layerDispatch_of_free hfree hv hcarry).trans (by rw [hsome]; rfl))

theorem exec_layerDispatch_overlap {o : Over} (hovl : s.ftnOverlaps f = some o) :
    exec (.layerDispatch f) s = .next (v.dispatchOver f o) :=
  exec_layerDispatch hup hprot hf (by rw [layerDispatch_of_overlap hovl, hv])

end

/-- Settles O50: each dispatch, commit and restart by the branch of its own condition. -/
theorem layersRunAndCommit : Obligations.LayersRunAndCommit := by
  unfold Obligations.LayersRunAndCommit
  intro s u w f t0 r j k e b l o hup x v
  have hv : s.checkEntries.grantAll.noteReady = v := rfl
  clear_value v
  refine ⟨fun hprot => ⟨?busy, ?free, ?overlap, ?noDram, ?skimBusy, ?skim, ?replay, ?skimReplay⟩, ?commitNone, ?commit, ?commitOver, ?tile,
    ?skimCommit, ?skimLate⟩
  case busy =>
    intro hf hfree hovl
    exact exec_layerDispatch hup hprot hf (layerDispatch_of_busy hfree hovl)
  case free =>
    intro hf hfree hcarry
    obtain ⟨hwait, htake⟩ := exec_layerDispatch_free hup hprot hf hv hfree hcarry
    refine ⟨hwait, fun hsome hsound hent => ⟨fun hok => ?_, fun hok hprog hbound hjob harmed => ?_⟩⟩
    · rw [htake hsome, dispatchLayer_of_bad hsound hent hok]
    · obtain ⟨hrun, hpc, hlc, -, -, hcycles, hzero⟩ := dispatchFtn_starts v f j e
      rw [dispatchLayer_of_ok hsound hent hok hprog hbound hjob] at htake
      exact ⟨_, htake hsome, hrun, hpc, hlc, dispatchFtn_budget v f j e harmed, hcycles, hzero, dispatchFtn_memory v f j e⟩
  case overlap =>
    intro hf hovl y
    have htake := exec_layerDispatch_overlap hup hprot hf hv hovl
    refine ⟨fun hnone => ?_, fun hsome hsure => ?_, fun hsome hsure hent harmed => ?_⟩
    · rw [htake, dispatchOver_of_none hnone]
    · rw [htake, dispatchOver_of_unsure hsome hsure]
    · obtain ⟨hrun, -, -, hstart, hkept, hcycles, -⟩ := dispatchFtn_starts (v.setFtn f { v.ftn f with ovl := some o }) f j e
      rw [dispatchOver_of_sure hsome hsure hent] at htake
      exact ⟨_, htake, hkept.trans (congrArg Fountain.ovl (State.ftn_setFtn_same v f _)), hrun, hstart, hcycles,
        dispatchFtn_memory (v.setFtn f _) f j e⟩
  case noDram =>
    intro hserves
    exact exec_fabric (guarded _ fun s => s.skimDispatch.settle) hup (guarded_of_false _ s (by simp [hserves])) rfl
  case skimBusy =>
    intro hserves hrun
    exact exec_skimmerDispatch hup hprot hserves (skimDispatch_of_busy hrun)
  case skim =>
    intro hserves hidle hchoose hsound hent
    refine ⟨fun hok => ?_, fun hok hbound hjob hbytes hgood hlen => ?_⟩
    · exact exec_skimmerDispatch hup hprot hserves (skimDispatch_of_bad hidle hv hchoose hsound hent hok)
    · exact ⟨_, exec_skimmerDispatch hup hprot hserves ((skimDispatch_of_ok hidle hv hchoose hsound hent hok hbound hjob).trans
        (startSkim_of_good hbytes hgood hlen)), skimBegun_sets w j e b⟩
  case replay =>
    intro hf hrun hjob
    have hf' : f < 5 := by omega
    have hne : f ≠ Eng.skim := by unfold Eng.skim; omega
    have hrun' : s.runOf f = some r := (runOf_ftn hf).trans hrun
    refine ⟨fun hgo => ?_, fun hstop hfill => ?_, fun hstop hfill => ?_, fun hstop hfill => ⟨fun hseg => ?_, fun hseg => ?_⟩⟩
    · exact exec_replayRestart hup hprot hf' (replayRestart_of_going hrun' hjob hgo)
    · exact exec_replayRestart hup hprot hf' (replayRestart_of_bad hrun' hjob hstop hfill)
    · exact exec_replayRestart hup hprot hf' (replayRestart_of_unmapped hrun' hjob hstop hfill)
    · exact exec_replayRestart hup hprot hf' (replayRestart_of_lost hrun' hjob hstop hfill hne hseg)
    · exact ⟨_, exec_replayRestart hup hprot hf' (replayRestart_of_loaded hrun' hjob hstop hfill hne hseg), restarted_sets hne⟩
  case skimReplay =>
    intro hrun hjob hstop hfill
    exact ⟨_, exec_replayRestart hup hprot (by decide) (replayRestart_of_skim hrun hjob hstop hfill rfl), State.rn_wn_same _ _ _, rfl⟩
  case commitNone =>
    intro hf hnone
    exact exec_unit_settles (·.layerCommit f) hup hf (layerCommit_of_none hnone) rfl
  case commit =>
    intro hf hovl hrun hjob hgo hcommit
    have hcommitter := committer_of_run hovl hrun hgo hcommit
    refine ⟨fun hquiet => ?_, fun hquiet hlate => ?_, fun hquiet hdue hstream hheld _ hmore => ?_⟩
    · exact exec_unit_settles (·.layerCommit f) hup hf (layerCommit_of_storing hcommitter hjob hovl hquiet) rfl
    · exact exec_unit_settles (·.layerCommit f) hup hf (layerCommit_of_overdue hcommitter hjob (fun _ => hquiet) hlate) rfl
    · obtain ⟨hleft, hdram, hcistern, hpending⟩ := layerCommit_run hovl hcommitter hjob hquiet hdue hstream hheld hmore
      exact ⟨_, exec_unit_settles (·.layerCommit f) hup hf rfl rfl, hleft, hdram, hcistern, _, hpending, rfl, rfl, rfl, rfl⟩
  case commitOver =>
    intro hf hovl hjob hdue hstream hheld _ hmore
    obtain ⟨hrun, hnone, hpending⟩ := layerCommit_overlapped hovl hjob hdue hstream hheld hmore
    exact ⟨_, exec_unit_settles (·.layerCommit f) hup hf rfl rfl, hrun, hnone, _, hpending, rfl, rfl⟩
  case tile =>
    intro hf hrun hjob hgo
    refine ⟨fun hwait => ?_, fun hreq hquiet hlate => ?_, fun hreq hquiet hdue hheld => ⟨fun hdone => ?_, fun hnew hnone => ?_⟩⟩
    · exact exec_unit_settles (·.tileCommit f) hup hf (tileCommit_of_wait hrun hjob hwait) rfl
    · exact exec_unit_settles (·.tileCommit f) hup hf (tileCommit_of_overdue hrun hjob hgo hreq hquiet hlate) rfl
    · exact exec_unit_settles (·.tileCommit f) hup hf
        ((tileCommit_of_due hrun hjob hgo hreq hquiet hdue hheld).trans (if_pos hdone)) rfl
    · refine exec_unit_settles (·.tileCommit f) hup hf
        ((tileCommit_of_due hrun hjob hgo hreq hquiet hdue hheld).trans ((if_neg (Nat.not_lt.2 hnew)).trans ?_)) rfl
      rw [setProgress_of_none hnone]
      rfl
  case skimCommit =>
    intro hrun hjob hgo hdue hstore
    refine ⟨fun hcmd => ?_, fun hcmd hk _ hmore => ?_⟩
    · exact exec_settles State.skimCommit hup (skimCommit_of_range hrun hjob hgo hdue hstore hcmd) rfl
    · obtain ⟨hdram, hcistern, hleft, hpending⟩ := skimCommitted_frame hk
      obtain ⟨t, ht, htdram, htcistern, -, htskim, htpending⟩ := releaseAfter hpending hmore
      refine ⟨t, exec_settles State.skimCommit hup ((skimCommit_of_ok hrun hjob hgo hdue hstore hcmd).trans ?_) rfl, ?_,
        htdram.trans hdram, htcistern.trans hcistern, _, htpending, rfl, rfl⟩
      · rw [← ht, pending?_id hjob, pending?_id hk]
      · rw [htskim, hleft]
  case skimLate =>
    intro hrun hjob hgo hlate
    exact exec_settles State.skimCommit hup (skimCommit_of_overdue hrun hjob hgo hlate) rfl

end Sys2Proof.Machine
end

section
/-! SUPPORT. The issue of a bundle of one slot beside NOPs (R203, R206 to R210, R216 to R249): its part in the Fountain and in a
core. -/
namespace Sys2Proof.Machine
open Sys2Proof

/-! A bundle of one slot. -/

/-- A walk over the bundle that passes NOPs meets its one slot once. -/
theorem foldl_alone {β : Type} {g : β → SlotOp → β} (hnop : ∀ z p, g z (.nop p) = z) (o : SlotOp) (z : β) :
    (alone o).foldl g z = g z o := by
  cases h : o.pos <;> simp [alone, slotPositions, h, hnop]

/-- A Fountain as the slots of an issuing bundle read it: each bound comparator has driven its predicate (R207). -/
def Fountain.atIssue (x : Fountain) : Fountain := { x with pred := x.preds }

/-- A Fountain after the issue of a bundle of one slot. -/
def Fountain.after (x : Fountain) (o : SlotOp) : Fountain := ((x.advanced.scalar o).matrix x.atIssue o).sync o

/-- What a core does of a bundle of one slot is what it does of the slot. -/
theorem coreIssue_alone (f : Nat) (x : Fountain) (o : SlotOp) : State.coreIssue f x (alone o) = State.coreIssue f x [o] := by
  funext s c
  unfold State.coreIssue State.coreLoads
  rw [foldl_alone (fun _ _ => rfl)]
  dsimp only
  rw [foldl_alone (fun _ _ => rfl)]
  rfl

theorem issue_alone (s : State) (f : Nat) (o : SlotOp) : s.issue f (alone o) =
    ((s.ftnCores f).foldl (State.coreIssue f (s.ftn f).atIssue [o]) (s.setFtn f ((s.ftn f).after o))).chargeHits f := by
  unfold State.issue
  dsimp only
  rw [foldl_alone (fun _ _ => rfl), foldl_alone (fun _ _ => rfl), foldl_alone (fun _ _ => rfl),
    coreIssue_alone]
  rfl

/-- The slots that act on the Fountain alone. -/
def onFountain : SlotOp → Bool
  | .vec _ _ | .rstart _ | .rstop _ _ | .vld _ | .vst _ | .sstart _ | .sstop _ _ | .crd _ _ _ _ => false
  | _ => true

theorem coreIssue_of_onFountain {o : SlotOp} (h : onFountain o = true) (f : Nat) (x : Fountain) (s : State) (c : Nat) :
    State.coreIssue f x [o] s c = s := by
  cases o with
  | vec | rstart | rstop | vld | vst | sstart | sstop | crd => cases h
  | _ => rfl

theorem Fountain.hits_matrix (x x0 : Fountain) (o : SlotOp) : (x.matrix x0 o).hits = x.hits := by cases o <;> rfl

theorem Fountain.hits_sync (x : Fountain) (o : SlotOp) : (x.sync o).hits = x.hits := by
  cases o with
  | commit g tile => cases tile <;> rfl
  | bar g swp => cases swp <;> rfl
  | _ => rfl

theorem Fountain.hits_after (x : Fountain) (o : SlotOp) : (x.after o).hits = x.hits := by
  rw [Fountain.after, Fountain.hits_sync, Fountain.hits_matrix, Fountain.hits_scalar, Fountain.advanced_hits]

/-- The issue leaves the slots' place free for the next bundle (R197). -/
theorem Fountain.after_place (x : Fountain) (o : SlotOp) :
    (x.after o).lastPc = x.pc ∧ (x.after o).asm = [] ∧ (x.after o).ir = [] := by
  cases o with
  | loop n t =>
    unfold Fountain.after
    simp only [Fountain.scalar]
    split
    · exact ⟨rfl, rfl, rfl⟩
    · split <;> exact ⟨rfl, rfl, rfl⟩
  | commit g tile => cases tile <;> exact ⟨rfl, rfl, rfl⟩
  | bar g swp => cases swp <;> exact ⟨rfl, rfl, rfl⟩
  | _ => exact ⟨rfl, rfl, rfl⟩

section
variable {s : State} {f : Nat} {o : SlotOp}

theorem issue_of_onFountain (ho : onFountain o = true) (hhits : (s.ftn f).hits = []) :
    s.issue f (alone o) = s.setFtn f ((s.ftn f).after o) := by
  rw [issue_alone, List.foldl_fixed' (coreIssue_of_onFountain ho f _ _)]
  exact State.chargeHits_of_hits_nil (by rw [State.ftn_setFtn_same, Fountain.hits_after, hhits])

theorem exec_of_issuesAlone {cmd : Instr} (hslot : slotOf? cmd = some (f, o, true)) (h : s.issuesAlone f o) :
    exec cmd s = .next (s.issue f (alone o)).settle := by
  rw [exec_of_slotOf? hslot h.1, State.slot_of_issuesAlone h]

theorem issuesAlone_hits (h : s.issuesAlone f o) : (s.ftn f).hits = [] := by
  obtain ⟨-, -, -, -, -, hhits, -⟩ := h
  exact hhits

/-- A slot that acts on the Fountain alone leaves the Fountain that it makes. -/
theorem exec_onFountain {cmd : Instr} {P : Fountain → Prop} (hslot : slotOf? cmd = some (f, o, true)) (ho : onFountain o = true)
    (hP : P ((s.ftn f).after o)) (h : s.issuesAlone f o) : ∃ y : Fountain, exec cmd s = .next (s.setFtn f y).settle ∧
      y.lastPc = (s.ftn f).pc ∧ y.asm = [] ∧ y.ir = [] ∧ P y := by
  have hexec := exec_of_issuesAlone hslot h
  obtain ⟨hlast, hasm, hir⟩ := (s.ftn f).after_place o
  rw [issue_of_onFountain ho (issuesAlone_hits h)] at hexec
  exact ⟨_, hexec, hlast, hasm, hir, hP⟩

end

/-! Loop counters and predicates. -/

section
variable (x : Fountain)

theorem Fountain.after_scalar {o : SlotOp} (h : o.pos = .scalar) : x.after o = x.advanced.scalar o := by
  rw [Fountain.after, Fountain.matrix_of_pos_scalar h, Fountain.sync_of_pos_scalar h]

/-- A SETC, INCC or DECC sets its counter and no other (R206). -/
theorem Fountain.counter_set (n v : Nat) : (x.advanced.setLc n v).lcVal n = v % 65536 ∧
    (∀ j ≠ n, (x.advanced.setLc n v).lcVal j = x.lcVal j) ∧ (x.advanced.setLc n v).pc = x.pc + 1 := by
  obtain ⟨hcounter, hpc, hothers⟩ := x.setLc_advanced n v
  exact ⟨hcounter, hothers, hpc⟩

/-- A LOOP counts down to 0 and branches while it is above (R209). -/
theorem Fountain.after_loop (n t : Nat) : (∀ j ≠ n, (x.after (.loop n t)).lcVal j = x.lcVal j) ∧
    (x.after (.loop n t)).lcVal n = (if x.lcVal n = 0 then 0 else (x.lcVal n - 1) % 65536) ∧
    (x.after (.loop n t)).pc = if x.lcVal n ≤ 1 then x.pc + 1 else t := by
  rw [x.after_scalar rfl]
  rcases Nat.lt_trichotomy (x.lcVal n) 1 with h | h | h
  · have hzero : x.lcVal n = 0 := by omega
    rw [Fountain.scalar_loop_of_zero (x := x.advanced) t hzero, hzero, if_pos rfl, if_pos (by omega)]
    exact ⟨fun _ _ => rfl, hzero, rfl⟩
  · obtain ⟨hcounter, hpc, hothers⟩ := x.setLc_advanced n 0
    rw [Fountain.scalar_loop_of_one (x := x.advanced) t h, h, if_neg (by omega), if_pos (Nat.le_refl 1)]
    exact ⟨hothers, hcounter, hpc⟩
  · obtain ⟨hcounter, -, hothers⟩ := x.setLc_advanced n (x.lcVal n - 1)
    rw [Fountain.scalar_loop_of_one_lt (x := x.advanced) t h, if_neg (by omega), if_neg (by omega)]
    exact ⟨hothers, hcounter, rfl⟩

end

/-- The bits of a number with one bit set anew. -/
theorem testBit_replaced (p k j : Nat) (v : Bool) :
    (p % 2 ^ k + b2n v * 2 ^ k + p / 2 ^ (k + 1) * 2 ^ (k + 1)).testBit j = if j = k then v else p.testBit j := by
  have hfalse : b2n false = 0 := rfl
  have htrue : b2n true = 1 := rfl
  have hform : p % 2 ^ k + b2n v * 2 ^ k + p / 2 ^ (k + 1) * 2 ^ (k + 1) = 2 ^ k * (p / 2 ^ (k + 1) * 2 + b2n v) + p % 2 ^ k := by
    rw [Nat.pow_succ]
    ring
  rw [hform, Nat.testBit_two_pow_mul_add _ (Nat.mod_lt _ (Nat.two_pow_pos k)), Nat.testBit_mod_two_pow]
  rcases Nat.lt_trichotomy j k with h | h | h
  · rw [if_pos h, if_neg (by omega), decide_eq_true h, Bool.true_and]
  · subst h
    rw [if_neg (Nat.lt_irrefl _), if_pos rfl, Nat.sub_self, Nat.testBit_zero]
    cases v
    · exact decide_eq_false (by rw [hfalse]; omega)
    · exact decide_eq_true (by rw [htrue]; omega)
  · obtain ⟨d, rfl⟩ := Nat.exists_eq_add_of_lt h
    have hbit : (p / 2 ^ (k + 1) * 2 + b2n v) / 2 = p / 2 ^ (k + 1) := by
      cases v
      · rw [hfalse]; omega
      · rw [htrue]; omega
    rw [if_neg (by omega), if_neg (by omega), show k + d + 1 - k = d + 1 by omega, Nat.testBit_succ, hbit, Nat.testBit_div_two_pow]
    congr 1
    omega

/-- A PSET sets its predicate and unbinds its comparator (R207, R210). -/
theorem Fountain.after_pset (x : Fountain) (k : Nat) (v : Bool) :
    Table.get none (x.after (.pset k v)).cmp k = none ∧ (x.after (.pset k v)).pred.testBit k = v ∧
      (∀ j < 4, j ≠ k → (x.after (.pset k v)).pred.testBit j = x.preds.testBit j) ∧ (x.after (.pset k v)).lc = x.lc := by
  rw [x.after_scalar rfl]
  refine ⟨Table.get_put_same (none : Option CmpBind) _ k none, ?_, fun j _ hne => ?_, rfl⟩
  · exact (testBit_replaced x.preds k k v).trans (if_pos rfl)
  · exact (testBit_replaced x.preds k j v).trans (if_neg hne)

theorem Fountain.after_cmpset (x : Fountain) (k : Nat) (q : CmpBind) :
    Table.get none (x.after (.cmpset k q.lca q.cond q.refsel q.lcb q.imm)).cmp k = some q :=
  Table.get_put_same (none : Option CmpBind) x.cmp k (some q)

theorem Fountain.after_wset (x : Fountain) (g n b i t : Nat) :
    Table.get {} (x.after (.wset g n b i t)).wp n = { cur := b, step := sext 8 i, bstep := sext 14 t } :=
  Table.get_put_same ({} : WPtr) x.wp n _

theorem Fountain.after_dsel (x : Fountain) (g n b : Nat) : Table.get 0 (x.after (.dsel g n b)).drainM n = 0 :=
  Table.get_put_same (0 : Nat) x.drainM n 0

/-! A Fountain of one core. -/

section
variable {s : State} {f c : Nat} {o : SlotOp}

/-- The state as a core finds it while a bundle issues: the Fountain's own part is done. -/
def State.ftnIssued (s : State) (f : Nat) (o : SlotOp) : State := s.setFtn f ((s.ftn f).after o)

theorem ftn_ftnIssued (s : State) (f : Nat) (o : SlotOp) : (s.ftnIssued f o).ftn f = (s.ftn f).after o :=
  State.ftn_setFtn_same ..

theorem injArmed_ftnIssued {b i x t : Nat} : (s.ftnIssued f o).injArmed b i x t = s.injArmed b i x t := rfl

theorem sluice_ftnIssued {n : Nat} : (s.ftnIssued f o).sluice c n = s.sluice c n := rfl

/-- The issue on a Fountain of one core whose part meets no fault. -/
theorem issue_of_core {t : State} (hcores : s.ftnCores f = [c]) (hhits : (s.ftn f).hits = [])
    (ht : State.coreIssue f (s.ftn f).atIssue [o] (s.ftnIssued f o) c = t) (hftn : t.ftn f = (s.ftnIssued f o).ftn f) :
    s.issue f (alone o) = t := by
  rw [issue_alone, hcores, List.foldl_cons, List.foldl_nil]
  refine (congrArg (State.chargeHits · f) ht).trans (State.chargeHits_of_hits_nil ?_)
  rw [hftn, ftn_ftnIssued, Fountain.hits_after, hhits]

/-! Sluices (R246, R278). -/

section
variable {g n i : Nat} (hcores : s.ftnCores f = [c]) (hhits : (s.ftn f).hits = [])
include hcores hhits

theorem issue_crdTake (hquiet : s.injArmed 8 c 6 n = false) :
    (s.issue f (alone (.crd g 0 n i))).sluice c n = s.sluice c n - i := by
  have hissue : State.coreIssue f (s.ftn f).atIssue [.crd g 0 n i] (s.ftnIssued f (.crd g 0 n i)) c =
      (s.ftnIssued f (.crd g 0 n i)).credit f c n ((s.ftnIssued f (.crd g 0 n i)).sluice c n - i) := rfl
  rw [issue_of_core hcores hhits (hissue.trans (credit_of_not_armed (injArmed_ftnIssued.trans hquiet) _)) rfl, sluice_setSluice,
    sluice_ftnIssued]

theorem issue_crdGive (hquiet : s.injArmed 8 c 6 n = false) :
    (s.issue f (alone (.crd g 1 n i))).sluice c n = s.sluice c n + i := by
  have hissue : State.coreIssue f (s.ftn f).atIssue [.crd g 1 n i] (s.ftnIssued f (.crd g 1 n i)) c =
      (s.ftnIssued f (.crd g 1 n i)).credit f c n ((s.ftnIssued f (.crd g 1 n i)).sluice c n + i) := rfl
  rw [issue_of_core hcores hhits (hissue.trans (credit_of_not_armed (injArmed_ftnIssued.trans hquiet) _)) rfl, sluice_setSluice,
    sluice_ftnIssued]

theorem issue_crdInit : (s.issue f (alone (.crd g 2 n i))).sluice c n = i := by
  have hset : State.coreIssue f (s.ftn f).atIssue [.crd g 2 n i] (s.ftnIssued f (.crd g 2 n i)) c =
      (s.ftnIssued f (.crd g 2 n i)).setSluice c n i := rfl
  rw [issue_of_core hcores hhits hset rfl, sluice_setSluice]

end

/-! Rills (R225, R226, R235). -/

/-- The drops that a Rill gives change its core alone, where no injection is armed. -/
theorem giveDrops_cores (hquiet : ∀ j, s.injArmed 8 c 6 j = false) (f r n : Nat) (p : RProg) :
    ∃ k, (s.giveDrops f c r n p).2 = { s with cores := k } := by
  cases hpost : slOf p.post with
  | none => exact ⟨_, congrArg Prod.snd (giveDrops_of_no_post hpost n)⟩
  | some sl =>
    unfold State.giveDrops
    dsimp only
    rw [hpost]
    dsimp only
    split
    · exact ⟨_, rfl⟩
    · split
      · exact ⟨_, rfl⟩
      · rw [credit_of_not_armed (by exact hquiet sl)]
        exact ⟨_, rfl⟩

/-- A Rill that starts on a core (R225, R235). -/
def rillBegun (o : RSlot) (x : Fountain) (pos : Nat) : Rill :=
  { st := Rl.running, prog := o.prog, start := rslotBase o x pos, addr := x.pc, bank := x.bank }

theorem startRill_cores (hquiet : ∀ j, s.injArmed 8 c 6 j = false) (f r : Nat) (x : Fountain) (q : RSlot) :
    ∃ k, s.startRill f c r x q = ({ s with cores := k } : State).setRill c r (rillBegun q x (s.posOf f c)) := by
  cases hprog : s.rillProgOf f c r with
  | none =>
    refine ⟨s.cores, ?_⟩
    unfold State.startRill
    rw [hprog]
    rfl
  | some p =>
    obtain ⟨k, hk⟩ := giveDrops_cores hquiet f r (2 ^ 32) p
    refine ⟨k, ?_⟩
    unfold State.startRill
    rw [hprog]
    dsimp only
    rw [hk]
    rfl

section
variable (hcores : s.ftnCores f = [c]) (hhits : (s.ftn f).hits = [])
include hcores hhits

/-- A start of Rill r leaves it at its first element. -/
theorem issue_start {q : RSlot} {r : Nat} (hstart : State.coreIssue f (s.ftn f).atIssue [o] (s.ftnIssued f o) c =
      (s.ftnIssued f o).startRill f c r (s.ftn f).atIssue q) (hquiet : ∀ j, s.injArmed 8 c 6 j = false) :
    (s.issue f (alone o)).rill c r = rillBegun q (s.ftn f).atIssue (s.posOf f c) := by
  obtain ⟨k, hk⟩ := startRill_cores (s := s.ftnIssued f o) hquiet f r (s.ftn f).atIssue q
  rw [issue_of_core hcores hhits (hstart.trans hk) rfl, rill_setRill_same]
  rfl

omit hcores hhits in
theorem coreIssue_rstart (f c : Nat) (x : Fountain) (q : RSlot) (z : State) :
    State.coreIssue f x [.rstart q] z c = z.startRill f c q.r x q := rfl

omit hcores hhits in
theorem coreIssue_sstart (f c : Nat) (x : Fountain) (q : RSlot) (z : State) :
    State.coreIssue f x [.sstart q] z c = z.startRill f c (4 + q.r) x q := rfl

/-- What a started Rill holds. -/
def startedAs (w : Rill) (q : RSlot) (x : Fountain) (pos : Nat) : Prop :=
  w.st = Rl.running ∧ w.prog = q.prog ∧ w.idx = 0 ∧ w.start = rslotBase q x pos

theorem issue_rstart {q : RSlot} (hquiet : ∀ j, s.injArmed 8 c 6 j = false) :
    startedAs ((s.issue f (alone (.rstart q))).rill c q.r) q (s.ftn f) (s.posOf f c) := by
  rw [issue_start hcores hhits (coreIssue_rstart ..) hquiet]
  exact ⟨rfl, rfl, rfl, rfl⟩

theorem issue_sstart {q : RSlot} (hquiet : ∀ j, s.injArmed 8 c 6 j = false) :
    startedAs ((s.issue f (alone (.sstart q))).rill c (4 + q.r)) q (s.ftn f) (s.posOf f c) := by
  rw [issue_start hcores hhits (coreIssue_sstart ..) hquiet]
  exact ⟨rfl, rfl, rfl, rfl⟩

/-- A Rill that a slot stops (R226, R279). -/
def State.rillStopped (s : State) (f c r : Nat) : Rill :=
  let mid := match s.rillProgOf f c r with
    | some p => (s.rill c r).mid p
    | none => false
  if (s.rill c r).busy then (if mid then { s.rill c r with stopReq := true } else (s.rill c r).stop) else s.rill c r

omit hcores hhits in
theorem stopRill_rill (s : State) (f c r : Nat) : (s.stopRill f c r).rill c r = s.rillStopped f c r := by
  unfold State.stopRill State.rillStopped
  dsimp only
  cases hbusy : (s.rill c r).busy
  · rfl
  · exact rill_setRill_same ..

omit hcores hhits in
theorem stopRill_ftn (s : State) (f c r n : Nat) : (s.stopRill f c r).ftn n = s.ftn n := by
  unfold State.stopRill
  dsimp only
  split
  · rfl
  · rfl

theorem issue_stop {r : Nat} (hstop : State.coreIssue f (s.ftn f).atIssue [o] (s.ftnIssued f o) c = (s.ftnIssued f o).stopRill f c r)
    (hset : ((s.ftn f).after o).rillSet = (s.ftn f).rillSet) : (s.issue f (alone o)).rill c r = s.rillStopped f c r := by
  have hprog : (s.ftnIssued f o).rillProgOf f c r = s.rillProgOf f c r := by
    unfold State.rillProgOf
    rw [ftn_ftnIssued, hset]
    rfl
  rw [issue_of_core hcores hhits hstop (stopRill_ftn ..), stopRill_rill]
  unfold State.rillStopped
  rw [hprog]
  rfl

end

end

end Sys2Proof.Machine
end

section
/-! SUPPORT. The vector unit and the Basin of a core (R213 to R215, R227, R230). -/
namespace Sys2Proof.Machine
open Sys2Proof

/-! A vector register. -/

theorem get_foldl_put_ne (v n : Nat) : ∀ (l : List (Nat × Nat)) (t : Table Nat), (∀ p ∈ l, n ≠ 64 * v + p.1) →
    Table.get 0 (l.foldl (fun t p => Table.put 0 t (64 * v + p.1) p.2) t) n = Table.get 0 t n
  | [], _, _ => rfl
  | p :: l, t, h => (get_foldl_put_ne v n l _ fun q hq => h q (List.mem_cons_of_mem _ hq)).trans
      (Table.get_put_ne 0 0 t p.2 (h p List.mem_cons_self))

theorem get_foldl_put_mem (v : Nat) : ∀ (l : List (Nat × Nat)) (t : Table Nat), (l.map Prod.fst).Nodup → ∀ p ∈ l,
    Table.get 0 (l.foldl (fun t p => Table.put 0 t (64 * v + p.1) p.2) t) (64 * v + p.1) = p.2
  | q :: l, t, hl, p, hp => by
    obtain ⟨hq, hl'⟩ := List.nodup_cons.1 hl
    rcases List.mem_cons.1 hp with rfl | hp'
    · refine (get_foldl_put_ne v _ l _ fun r hr heq => hq ?_).trans (Table.get_put_same 0 t _ _)
      rw [show p.1 = r.1 by omega]
      exact List.mem_map_of_mem hr
    · exact get_foldl_put_mem v l _ hl' p hp'

/-- A register's 64 words as they are written. -/
theorem vregWords_written (k : Core) (v : Nat) {words : List Nat} (hlen : words.length = 64) :
    ({ k with vreg := ((List.range 64).zip words).foldl (fun t p => Table.put 0 t (64 * v + p.1) p.2) k.vreg } : Core).vregWords v =
      words := by
  refine List.ext_getElem (by simp [Core.vregWords, hlen]) fun i hi hi' => ?_
  have hmem : (i, words[i]) ∈ (List.range 64).zip words :=
    List.mem_iff_getElem.2 ⟨i, by simp [hlen]; omega, by simp⟩
  have hnodup : (((List.range 64).zip words).map Prod.fst).Nodup := by
    rw [List.map_fst_zip (by simp [hlen])]
    exact List.nodup_range
  simp only [Core.vregWords, List.getElem_map, List.getElem_range]
  exact get_foldl_put_mem v _ k.vreg hnodup _ hmem

theorem vregWr_words (s : State) (c v : Nat) {words : List Nat} (hlen : words.length = 64) :
    ((s.vregWr c v words).core c).vregWords v = words := by
  unfold State.vregWr
  dsimp only
  rw [State.core_setCore_same]
  exact vregWords_written _ v hlen

theorem vregWr_ftn (s : State) (c v : Nat) (words : List Nat) (n : Nat) : (s.vregWr c v words).ftn n = s.ftn n := by
  obtain ⟨_, _, _, _, h⟩ := State.writeEcc_reports s Mc.vreg c (256 * v) 256
  unfold State.vregWr
  rw [h]
  rfl

/-! Memories without errors. -/

/-- Where no word of a memory is marked, a read finds none. -/
theorem readEcc_of_clean {s : State} (h : s.integ.marks = []) (code inst lo n : Nat) : s.readEcc code inst lo n = (false, s) := by
  have hmarks : s.marksIn code inst lo n = [] := by
    unfold State.marksIn
    rw [h]
    rfl
  unfold State.readEcc
  rw [hmarks]
  split <;> rfl

theorem vregRd_of_clean {s : State} (h : s.integ.marks = []) (c v : Nat) : s.vregRd c v = ((s.core c).vregWords v, false, s) := by
  unfold State.vregRd
  rw [readEcc_of_clean h]

/-! The Basin (R227, R230). -/

theorem rdBytes_drop (m : Mem) : ∀ (k a n : Nat), (Mem.rdBytes m a (k + n)).drop k = Mem.rdBytes m (a + k) n
  | 0, a, n => by rw [Nat.zero_add]; rfl
  | k + 1, a, n => by
    rw [Nat.succ_add, Mem.rdBytes, List.drop_succ_cons, rdBytes_drop m k (a + 1) n, Nat.add_right_comm]
    rfl

theorem rdBytes_take (m : Mem) : ∀ (k a n : Nat), (Mem.rdBytes m a (k + n)).take k = Mem.rdBytes m a k
  | 0, _, _ => rfl
  | k + 1, a, n => by rw [Nat.succ_add, Mem.rdBytes, List.take_succ_cons, rdBytes_take m k (a + 1) n, Mem.rdBytes]

theorem u32_rdBytes (m : Mem) (a : Nat) {n off : Nat} (h : off + 4 ≤ n) : u32 (Mem.rdBytes m a n) off = Mem.rdN m (a + off) 4 := by
  obtain ⟨d, rfl⟩ := Nat.exists_eq_add_of_le h
  unfold u32 fieldAt Mem.rdN
  rw [Nat.add_assoc, rdBytes_drop, rdBytes_take]

/-- The words that a VLD reads. -/
def basinWords (m : Mem) (a : Nat) : List Nat := (List.range 64).map fun j => Mem.rdN m (a + 4 * j) 4

theorem vldRead_of_clean {s : State} (h : s.integ.marks = []) (f c : Nat) (e : VMem) (x : Fountain) :
    s.vldRead f c e x = (some (basinWords (s.core c).basin (vmemAddr e x).toNat), s) := by
  have hwords : ((List.range 64).map fun i => u32 (Mem.rdBytes (s.core c).basin (vmemAddr e x).toNat 256) (4 * i)) =
      basinWords (s.core c).basin (vmemAddr e x).toNat :=
    List.map_congr_left fun i hi => u32_rdBytes _ _ (by have := List.mem_range.1 hi; omega)
  unfold State.vldRead State.localRd
  rw [readEcc_of_clean h]
  exact congrArg (fun l => (some l, s)) hwords

section
variable {s : State} {f c : Nat} (hcores : s.ftnCores f = [c]) (hhits : (s.ftn f).hits = []) (hclean : s.integ.marks = [])
include hcores hhits hclean

theorem issue_vld (e : VMem) : ((s.issue f (alone (.vld e))).core c).vregWords e.v =
    basinWords (s.core c).basin (vmemAddr e (s.ftn f)).toNat := by
  have hread := vldRead_of_clean (s := s.ftnIssued f (.vld e)) hclean f c e (s.ftn f).atIssue
  have hissue : State.coreIssue f (s.ftn f).atIssue [.vld e] (s.ftnIssued f (.vld e)) c =
      (s.ftnIssued f (.vld e)).vregWr c e.v (basinWords (s.core c).basin (vmemAddr e (s.ftn f)).toNat) := by
    unfold State.coreIssue State.coreLoads
    simp only [List.foldl_cons, List.foldl_nil]
    rw [hread]
    rfl
  rw [issue_of_core hcores hhits hissue (vregWr_ftn ..)]
  exact vregWr_words _ c e.v (by simp [basinWords])

omit hcores hhits hclean in
theorem localWr_basin (s : State) (c a : Nat) (l : List Byte) :
    ((s.localWr c Mc.basin a l).core c).basin = Mem.wrBytes (s.core c).basin a l ∧
      ∀ n, (s.localWr c Mc.basin a l).ftn n = s.ftn n := by
  obtain ⟨_, _, _, _, h⟩ := State.writeEcc_reports s Mc.basin c a l.length
  unfold State.localWr
  dsimp only
  rw [h, if_pos rfl]
  exact ⟨congrArg Core.basin (State.core_setCore_same _ c _), fun _ => rfl⟩

theorem issue_vst (e : VMem) : ((s.issue f (alone (.vst e))).core c).basin =
    Mem.wrBytes (s.core c).basin (vmemAddr e (s.ftn f)).toNat (((s.core c).vregWords e.v).flatMap fun n => leBytes n 4) := by
  have hread := vregRd_of_clean (s := s.ftnIssued f (.vst e)) hclean c e.v
  have hissue : State.coreIssue f (s.ftn f).atIssue [.vst e] (s.ftnIssued f (.vst e)) c =
      (s.ftnIssued f (.vst e)).localWr c Mc.basin (vmemAddr e (s.ftn f)).toNat
        (((s.core c).vregWords e.v).flatMap fun n => leBytes n 4) := by
    unfold State.coreIssue State.coreLoads
    simp only [List.foldl_cons, List.foldl_nil]
    unfold State.coreSlot
    dsimp only
    rw [hread]
    rfl
  obtain ⟨hbasin, hftn⟩ := localWr_basin (s.ftnIssued f (.vst e)) c (vmemAddr e (s.ftn f)).toNat
    (((s.core c).vregWords e.v).flatMap fun n => leBytes n 4)
  rw [issue_of_core hcores hhits hissue (hftn f), hbasin]
  rfl

/-! The vector unit (R213). -/

omit hcores hhits hclean in
theorem fillLanes_of_all (w : Nat) : ∀ (l : List Nat) (s : State), s.fillLanes w (l.map some) = (l, s)
  | [], _ => rfl
  | x :: l, s => by rw [List.map_cons, State.fillLanes, fillLanes_of_all w l s]

/-- The type of the lanes that an opcode writes: VCVT names its own (R213). -/
def vecType (op : Nat) (w : VSlot) : Nat := if op = 0x11 then w.vb % 8 else w.ty

omit hcores hhits in
theorem vecCompute_of_clean {op : Nat} {w : VSlot} {x : Fountain} {l : List Nat}
    (hlanes : vecLanes op w (s.coreIndex c) x.lcVal ((s.core c).vregWords w.va) ((s.core c).vregWords w.vb)
      ((s.core c).vregWords w.vc) = l.map some) : s.vecCompute f c op w x = (some (vWords (vecType op w) l), s) := by
  have hread : ∀ regs : List Nat, regs.foldl (fun (r : Bool × State) n =>
      let q := r.2.vregRd c n
      (r.1 || q.2.1, q.2.2)) (false, s) = (false, s) :=
    List.foldl_fixed' fun n => by
      dsimp only
      rw [vregRd_of_clean hclean]
      rfl
  unfold State.vecCompute
  dsimp only
  rw [hread, if_neg Bool.false_ne_true, hlanes, fillLanes_of_all]
  rfl

theorem issue_vec {op : Nat} {w : VSlot} {l : List Nat}
    (hlanes : vecLanes op w (s.coreIndex c) (s.ftn f).lcVal ((s.core c).vregWords w.va) ((s.core c).vregWords w.vb)
      ((s.core c).vregWords w.vc) = l.map some) (hlen : (vWords (vecType op w) l).length = 64) :
    ((s.issue f (alone (.vec op w))).core c).vregWords w.vd = vWords (vecType op w) l := by
  have hcompute := vecCompute_of_clean (s := s.ftnIssued f (.vec op w)) (f := f) (x := (s.ftn f).atIssue) hclean hlanes
  have hissue : State.coreIssue f (s.ftn f).atIssue [.vec op w] (s.ftnIssued f (.vec op w)) c =
      (s.ftnIssued f (.vec op w)).vregWr c w.vd (vWords (vecType op w) l) := by
    unfold State.coreIssue State.coreLoads
    simp only [List.foldl_cons, List.foldl_nil]
    rw [hcompute]
    rfl
  rw [issue_of_core hcores hhits hissue (vregWr_ftn ..)]
  exact vregWr_words _ c w.vd hlen

end

/-! Lanes of INT32 (R213, R215). -/

theorem wrapN_eq_ofInt (w : Nat) (i : Int) : wrapN w i = (BitVec.ofInt w i).toNat := by
  rw [BitVec.toNat_ofInt]
  rfl

theorem sext_eq_toInt (x : Nat) : sext 32 x = (BitVec.ofNat 32 x).toInt := by
  rw [BitVec.toInt_eq_toNat_cond, BitVec.toNat_ofNat]
  unfold sext
  dsimp only
  split
  · rw [if_pos (by omega)]
  · rw [if_neg (by omega)]

section
variable (x y : Nat)

theorem wrapN_sext_add : wrapN 32 (sext 32 x + sext 32 y) = (x + y) % 2 ^ 32 := by
  rw [wrapN_eq_ofInt, sext_eq_toInt, sext_eq_toInt, BitVec.ofInt_add, BitVec.ofInt_toInt, BitVec.ofInt_toInt, ← BitVec.ofNat_add,
    BitVec.toNat_ofNat]

theorem wrapN_sext_mul : wrapN 32 (sext 32 x * sext 32 y) = x * y % 2 ^ 32 := by
  rw [wrapN_eq_ofInt, sext_eq_toInt, sext_eq_toInt, BitVec.ofInt_mul, BitVec.ofInt_toInt, BitVec.ofInt_toInt, ← BitVec.ofNat_mul,
    BitVec.toNat_ofNat]

theorem wrapN_sext_sub (hy : y < 2 ^ 32) : wrapN 32 (sext 32 x - sext 32 y) = (x + 2 ^ 32 - y) % 2 ^ 32 := by
  rw [sext_eq_toInt, sext_eq_toInt, BitVec.toInt_eq_toNat_cond, BitVec.toInt_eq_toNat_cond, BitVec.toNat_ofNat, BitVec.toNat_ofNat]
  unfold wrapN
  split <;> split <;> omega

theorem wrapN_sext_shift (n : Nat) : wrapN 32 (sext 32 x / 2 ^ n) = ((BitVec.ofNat 32 x).sshiftRight n).toNat := by
  have hpow : (2 : Int) ^ n = ((2 ^ n : Nat) : Int) := by norm_num
  rw [wrapN_eq_ofInt, sext_eq_toInt, hpow, ← Int.shiftRight_eq_div_pow, ← BitVec.toInt_sshiftRight, BitVec.ofInt_toInt]

end

section
variable {w : VSlot} {n k x0 y0 z0 op : Nat} {lcv : Nat → Nat} {la lb lc : List Nat} (hty : w.ty = 0) (himm : w.immb = false)
  (hk : k < 64)

include hty himm hk in
/-- A lane of an opcode that works lane by lane. -/
theorem vecLanes_each (hsat : w.sat = false) (hx : la.getD k 0 = x0) (hy : lb.getD k 0 = y0) (hz : lc.getD k 0 = z0)
    (hop : op ≠ 0x11 ∧ op ≠ 0x13 ∧ op ≠ 0x14 ∧ op ≠ 0x15 ∧ op < 0x1A) :
    (vecLanes op w n lcv la lb lc).getD k none = vOp op 0 false x0 y0 z0 := by
  obtain ⟨h11, h13, h14, h15, h1a⟩ := hop
  unfold vecLanes
  dsimp only
  rw [if_neg h11, if_neg h13, if_neg h14, if_neg h15, if_neg (Nat.not_le.2 h1a), hty, himm, hsat]
  simp [vLanes, vLane, vBits, hk, ← hx, ← hy, ← hz, List.getD]

include hty himm hk in
/-- VPERM takes lanes of its first source by its second (R213). -/
theorem vecLanes_perm (hy : lb.getD k 0 = y0) :
    (vecLanes 0x13 w n lcv la lb lc).getD k none = some (la.getD (y0 % 64) 0) := by
  have hmod : y0 % 64 < 64 := Nat.mod_lt _ (by decide)
  unfold vecLanes
  dsimp only
  rw [if_neg (by decide), if_pos rfl, hty, himm]
  simp [vLanes, vLane, vBits, hk, ← hy, List.getD, Nat.mod_lt]

include hty hk in
/-- VIDX gives the lane's number or the core's (R213). -/
theorem vecLanes_index : (vecLanes 0x15 w n lcv la lb lc).getD k none =
    some (if w.imm = 0 then n else if w.imm = 1 then k else lcv (w.imm - 2)) := by
  unfold vecLanes
  dsimp only
  rw [if_neg (by decide), if_neg (by decide), if_neg (by decide), if_pos rfl, hty]
  simp [vLanes, hk, List.getD]

end

/-! The opcodes of INT32 lanes. -/

section
variable (x y z : Nat)

theorem vOp_add : vOp 0x01 0 false x y z = some ((x + y) % 2 ^ 32) := congrArg some (wrapN_sext_add x y)
theorem vOp_sub (hy : y < 2 ^ 32) : vOp 0x02 0 false x y z = some ((x + 2 ^ 32 - y) % 2 ^ 32) := congrArg some (wrapN_sext_sub x y hy)
theorem vOp_mul : vOp 0x10 0 false x y z = some (x * y % 2 ^ 32) := congrArg some (wrapN_sext_mul x y)
theorem vOp_sra : vOp 0x08 0 false x y z = some ((BitVec.ofNat 32 x).sshiftRight (y % 32)).toNat :=
  congrArg some (wrapN_sext_shift x (y % 32))

theorem vOp_min : vOp 0x09 0 false x y z = some (if (BitVec.ofNat 32 x).toInt ≤ (BitVec.ofNat 32 y).toInt then x else y) := by
  rw [← sext_eq_toInt, ← sext_eq_toInt]
  rfl

theorem vOp_max : vOp 0x0A 0 false x y z = some (if (BitVec.ofNat 32 y).toInt ≤ (BitVec.ofNat 32 x).toInt then x else y) := by
  rw [← sext_eq_toInt, ← sext_eq_toInt]
  rfl

/-- A comparison's lane is all ones or 0. -/
theorem vMask_decide (p : Prop) [Decidable p] : vMask 32 (decide p) = if p then 2 ^ 32 - 1 else 0 := by
  unfold vMask
  by_cases h : p <;> simp [h]

theorem vOp_eq : vOp 0x0B 0 false x y z = some (if x = y then 2 ^ 32 - 1 else 0) := congrArg some (vMask_decide (x = y))

theorem vOp_lt : vOp 0x0C 0 false x y z =
    some (if (BitVec.ofNat 32 x).toInt < (BitVec.ofNat 32 y).toInt then 2 ^ 32 - 1 else 0) := by
  rw [← sext_eq_toInt, ← sext_eq_toInt]
  exact congrArg some (vMask_decide (sext 32 x < sext 32 y))

theorem vOp_le : vOp 0x0D 0 false x y z =
    some (if (BitVec.ofNat 32 x).toInt ≤ (BitVec.ofNat 32 y).toInt then 2 ^ 32 - 1 else 0) := by
  rw [← sext_eq_toInt, ← sext_eq_toInt]
  exact congrArg some (vMask_decide (sext 32 x ≤ sext 32 y))

end

/-! The obligation. -/

/-- Settles O56: a slot acts on the Fountain as `Fountain.after` says, or on a core as its issue there says. -/
theorem slotsDoTheirPart : Obligations.SlotsDoTheirPart := by
  unfold Obligations.SlotsDoTheirPart
  intro s f c n k i t a cnd b r p v m w q e l x0 y0 z0 la lb lc x fx core others vec quietCredits
  have hvec : ∀ (cmd : Instr) (op : Nat), slotOf? cmd = some (f, .vec op w, true) → vec cmd op := fun cmd op hslot =>
    fun h => ⟨exec_of_issuesAlone hslot h, fun hcores hclean hlanes hlen => issue_vec hcores (issuesAlone_hits h) hclean hlanes hlen⟩
  refine ⟨exec_onFountain rfl rfl ⟨rfl, rfl⟩, exec_onFountain rfl rfl (x.counter_set n i),
    exec_onFountain rfl rfl (x.counter_set n _), exec_onFountain rfl rfl (x.counter_set n _), exec_onFountain rfl rfl (x.after_loop n t),
    exec_onFountain rfl rfl ⟨x.after_cmpset k ⟨a, cnd, v, b, i⟩, rfl, rfl⟩, exec_onFountain rfl rfl fun _ => x.after_pset k v,
    exec_onFountain rfl rfl ⟨rfl, rfl⟩, exec_onFountain rfl rfl ⟨rfl, rfl⟩, exec_onFountain rfl rfl ⟨rfl, rfl⟩,
    exec_onFountain rfl rfl ⟨rfl, rfl⟩, exec_onFountain rfl rfl ⟨rfl, rfl⟩, exec_onFountain rfl rfl ⟨rfl, rfl, rfl, rfl, rfl⟩,
    exec_onFountain rfl rfl ⟨rfl, rfl⟩, exec_onFountain rfl rfl ⟨rfl, rfl, rfl⟩, exec_onFountain rfl rfl (x.after_wset ..),
    exec_onFountain rfl rfl rfl, exec_onFountain rfl rfl ⟨rfl, rfl, x.after_dsel ..⟩,
    exec_onFountain rfl rfl ⟨_, rfl, rfl, rfl, rfl, rfl, rfl, rfl, rfl⟩, exec_onFountain rfl rfl ⟨_, rfl, rfl, rfl⟩,
    exec_onFountain rfl rfl ⟨_, rfl, rfl, rfl, rfl, rfl, rfl, rfl⟩, ?take, ?give, ?init, ?rstart, ?sstart, ?stop, ?vld, ?vst, ?vecs,
    ?lanes⟩
  case take => exact fun h => ⟨exec_of_issuesAlone rfl h, fun hcores hquiet => issue_crdTake hcores (issuesAlone_hits h) (hquiet n)⟩
  case give => exact fun h => ⟨exec_of_issuesAlone rfl h, fun hcores hquiet => issue_crdGive hcores (issuesAlone_hits h) (hquiet n)⟩
  case init => exact fun h => ⟨exec_of_issuesAlone rfl h, fun hcores => issue_crdInit hcores (issuesAlone_hits h)⟩
  case rstart => exact fun h => ⟨exec_of_issuesAlone rfl h, fun hcores hquiet =>
    issue_rstart hcores (issuesAlone_hits h) hquiet⟩
  case sstart => exact fun h => ⟨exec_of_issuesAlone rfl h, fun hcores hquiet =>
    issue_sstart hcores (issuesAlone_hits h) hquiet⟩
  case stop =>
    exact ⟨fun h => ⟨exec_of_issuesAlone rfl h, fun hcores => issue_stop hcores (issuesAlone_hits h) rfl rfl⟩,
      fun h => ⟨exec_of_issuesAlone rfl h, fun hcores => issue_stop hcores (issuesAlone_hits h) rfl rfl⟩⟩
  case vld => exact fun h => ⟨exec_of_issuesAlone rfl h, fun hcores hclean => issue_vld hcores (issuesAlone_hits h) hclean e⟩
  case vst => exact fun h => ⟨exec_of_issuesAlone rfl h, fun hcores hclean => issue_vst hcores (issuesAlone_hits h) hclean e⟩
  case vecs =>
    refine ⟨?_, ?_, ?_, ?_, ?_, ?_, ?_, ?_, ?_, ?_, ?_, ?_, ?_, ?_, ?_, ?_, ?_, ?_, ?_, ?_, ?_, ?_, ?_, ?_, ?_, ?_, ?_, ?_⟩
    all_goals exact hvec _ _ rfl
  case lanes =>
    intro hty himm hsat hk hx hy hz _ hy32 lane
    have heach : ∀ op, op ≠ 0x11 ∧ op ≠ 0x13 ∧ op ≠ 0x14 ∧ op ≠ 0x15 ∧ op < 0x1A →
        lane op = vOp op 0 false x0 y0 z0 := fun op hop => vecLanes_each hty himm hk hsat hx hy hz hop
    refine ⟨(heach 0x01 (by decide)).trans (vOp_add ..), (heach 0x02 (by decide)).trans (vOp_sub _ _ _ hy32), heach 0x03 (by decide),
      heach 0x04 (by decide), heach 0x05 (by decide), heach 0x06 (by decide), heach 0x07 (by decide),
      (heach 0x08 (by decide)).trans (vOp_sra ..), (heach 0x09 (by decide)).trans (vOp_min ..),
      (heach 0x0A (by decide)).trans (vOp_max ..), (heach 0x0B (by decide)).trans (vOp_eq ..),
      (heach 0x0C (by decide)).trans (vOp_lt ..), (heach 0x0D (by decide)).trans (vOp_le ..), heach 0x0E (by decide),
      heach 0x0F (by decide), (heach 0x10 (by decide)).trans (vOp_mul ..), vecLanes_perm hty himm hk hy, fun h1 => ?_, fun h0 => ?_⟩
    · exact (vecLanes_index hty hk).trans (by rw [h1]; rfl)
    · exact (vecLanes_index hty hk).trans (by rw [h0]; rfl)

end Sys2Proof.Machine
end
